-- ==== Sys2Proof/Word.lean ====
section
/-! DEFINITION. The plain word types of the model. -/

namespace Sys2Proof

/-- One byte of scratch, HBM, a descriptor, a frame or a flit (sp. 00 R9). -/
abbrev Byte := BitVec 8

/-- An FP32 register content: an IEEE 754 binary32 code (sp. 03 R68). -/
abbrev F32 := BitVec 32

/-- A compute die, CD0 to CD3 (sp. 01 R16). -/
abbrev Die := Fin 4

/-- A place of the records: 0-3 = CD0-CD3, 4 = IOD0, 5 = IOD1 (sp. 14 R393). -/
abbrev Place := Fin 6

/-- A peer port, P0 to P5 (sp. 11 R322). -/
abbrev PortNo := Fin 6

/-- A count that stops at its largest value `top`. -/
def stopAt (top n : Nat) : Nat := min top n

/-- The smallest integer not below n / d. -/
def ceilDiv (n d : Nat) : Nat := (n + d - 1) / d

end Sys2Proof
end

