-- ==== Sys2Proof/Config.lean ====
section
/-! DEFINITION. What a module fixes outside this manual, and the free values. Every constant here has no body: nothing can be
proved of its value, so a claim holds whatever it is. -/

namespace Sys2Proof.Config

/-- A value that the manual calls undefined (sp. 00 R6): the k-th free byte that a run draws, k counted by `State.free`.
DESIGN CHOICE (log 3). -/
opaque freeByte : Nat → Byte

/-- The entropy of the guard partition (sp. 15 R450): the k-th draw, from which a device key or a signature nonce is made.
The manual gives no value (log 7). -/
opaque entropy : Nat → Nat

/-- The 72 KiB coefficient table image built into the silicon (sp. 08 R224). Its contents are in no rule (log 7). -/
opaque tableImage : Nat → Byte

/-- The fuses of the 192 arrays' spare maps (sp. 04 R103): of array k, bytes from 16 k on choose the spares in use, what each replaces, and
the test program (log 7). -/
opaque fuseMap : Nat → Byte

/-- The six fused die identity records, 16 bytes each, CD0-CD3, IOD0, IOD1 (sp. 15 R449), by byte offset: what each field holds that the
rule leaves to the fuses (log 7). -/
opaque dieIdentity : Nat → Byte

/-- The 12 characters of the package serial, fused in both I/O dies (sp. 15 R449) (log 7). -/
opaque serial : Nat → Byte

/-- The maker public key as a 65-byte uncompressed point, of which the dies hold the fused hash (sp. 15 R431) (log 7). -/
opaque makerPub : Nat → Byte

/-- What a module ships with in its flash and its guard key store (sp. 17 R491): the operator public key, DEVICE_CERT and its length, the
device key, and the firmware image of slot 0 with its length. Their bytes are in no rule (log 6). -/
opaque shippedOperator : Nat → Byte
opaque shippedCert : Nat → Byte
opaque shippedCertLength : Nat
opaque shippedKey : Nat
opaque shippedFw : Nat → Byte
opaque shippedLength : Nat

/-- The data delivered for a word with three or more flipped bits, "which may be miscorrected" (sp. 09 R254): by the word's
address and the flipped mask, the mask left in the delivered word, and whether the word counts as corrected (log 12). -/
opaque eccEscape : Nat → BitVec 72 → BitVec 72 × Bool

/-- The offset of the upper half of the understudy window at a neighbour (sp. 14 R416): the sender of a tier-1 image knows the
window's base from its descriptor, its length from no rule (log 45). -/
opaque understudyHalf : Nat

/-- The code of a moment whose division by the block scale is no number (an infinity over an infinite scale), by ELEM and FP32
code: sp. 03 R91 states no result there (log 33). -/
opaque momentCorner : Nat → Nat → Byte

/-- The static bitmap that metadata at an address held before a tenant kill scrubbed it, by row group and block (sp. 05 R133, sp. 12
R362; log 81). -/
opaque lostBitmap : Nat → Nat → Nat → Bool

/-- The rank that firmware configures for a requester port without a rank of its own (sp. 10 R312), by the key of the arbiter and the
port's number. No rule gives a value, and no command sets one (log 87). -/
opaque portRank : Nat → Nat → Nat

/-- DONE_OFF of the descriptors of firmware's own transfers, in units of 32 bytes, by the key of the channel (sp. 10 R302, R306): no
rule gives it (log 47). -/
opaque fwDone : Nat → Nat

end Sys2Proof.Config
end

