-- ==== Sys2Proof/Syntax.lean ====
section
/-! DEFINITION. The commands of the block: `Instr` has one constructor per row of spec/opcode_table.json, with the row's
operands. The table gives no operand fields; the operands are those the rules of each command name, and what the
environment decides (a reading, a parity detection, a failed NAND program) is an operand too. -/

namespace Sys2Proof

/-- The two control ports (sp. 13 R363). -/
inductive Kcp where
  | a | b
  deriving DecidableEq, Repr

/-- A command frame that has passed steps 1 and 3 of sp. 13 Table 13-4 (its CRC, unit marking, DIR and reserved header
bits); `payload` has LENGTH bytes. -/
structure Frame where
  port : Kcp
  cls : BitVec 2
  seq : BitVec 32
  session : BitVec 32
  payload : List Byte
  deriving DecidableEq, Repr

/-- The FEC symbols corrected in the codewords that brought a flit: lane and count (sp. 11 R324). -/
abbrev Corrected := List (Fin 8 × Nat)

/-- The header of a delivered or received control flit (sp. 11 R330, Table 11-4; `farPort` is its PORT), with the port it arrived on and
what the lanes corrected for it. -/
structure FlitHdr where
  port : PortNo
  kind : BitVec 4
  cls : BitVec 2
  seq : BitVec 16
  ack : BitVec 16
  cred0 : Byte
  cred1 : Byte
  cred2 : Byte
  cred3 : Byte
  xfer : BitVec 16
  sender : Byte
  farPort : BitVec 3
  fec : Corrected
  deriving DecidableEq, Repr

/-- The body of a HEAD flit (sp. 11 Table 11-5). -/
structure HeadBody where
  cls : BitVec 2
  dst : BitVec 64
  rowBytes : BitVec 32
  rows : BitVec 32
  dstStride : BitVec 40
  op : BitVec 2
  codec : BitVec 3
  snap : Bool
  format : BitVec 16
  codecK : BitVec 24
  tally : BitVec 14
  inc : Byte
  sigEn : Bool
  bytes : BitVec 64
  deriving DecidableEq, Repr

/-- The body of a DONE flit (sp. 11 Table 11-5). -/
structure DoneBody where
  status : Byte
  cause : Byte
  failAddr : BitVec 64
  failDir : Bool
  bytes : BitVec 64
  fenceHits : BitVec 32
  deriving DecidableEq, Repr

/-- The body of an IDENT flit (sp. 11 Table 11-5), with what the lanes corrected for it (R324). -/
structure IdentBody where
  deviceId : Byte
  farPort : Byte
  serial : BitVec 96
  expects : Byte
  echoValid : Bool
  token : BitVec 16
  echo : BitVec 16
  hold : BitVec 32
  fec : Corrected
  deriving DecidableEq, Repr

/-- A DME array of one die (sp. 04 R95). -/
structure Arr where
  die : Die
  back : Bool
  idx : Fin 32
  deriving DecidableEq, Repr

/-- A unit that can hold a pending cue (sp. 02 R42, and the bank power controllers of sp. 09 R259). -/
inductive UnitId where
  | control (die : Die)
  | array (a : Arr)
  | vector (die : Die) (n : Fin 4)
  | optimizer (die : Die)
  | gme (die : Die) (n : Fin 8)
  | layout (die : Die)
  | channel (die : Die) (n : Fin 128)
  | bank (die : Die) (n : Fin 64)
  deriving DecidableEq, Repr

/-- The arbiters of sp. 10 Table 10-6. -/
inductive ArbId where
  | bank (die : Die) (n : Fin 64)
  | hbm (die : Die) (n : Fin 192)
  | bridge (edge : Fin 16) (lane : Fin 125)
  | peer (port : PortNo)
  | control (port : Kcp)
  deriving DecidableEq, Repr

/-- A request that a requester port raises at an arbiter (sp. 10 R311-R315): the port's number in the order of Table 10-6; the DMA
channel whose transfer it is; the address it reads or writes (banks and pseudo-channels); and the number, from 0, of what it carries: of a
DMA transfer in its descriptor (sp. 10 R298), of a frame among those that the port has been given to send (control-port transmitters, sp.
10 R319). -/
structure Raise where
  port : Nat
  chan : Option (Die × Fin 128)
  addr : BitVec 56
  num : Nat
  deriving DecidableEq, Repr

/-- A channel register field that firmware writes and that has no behaviour of its own (sp. 10 R303, R304). -/
inductive ChanReg where
  | shdDesc (v : BitVec 512)
  | irqEn (v : Bool)
  | irqTarget (v : BitVec 2)
  deriving DecidableEq, Repr

/-- One entry of a TALLY flit (sp. 11 Table 11-5). -/
structure TallyEntry where
  tally : BitVec 14
  inc : Byte
  deriving DecidableEq, Repr

/-- A parity detection as the environment makes it (sp. 04 R99, sp. 06 R181, sp. 09 R256, sp. 11 R342): the tile, position or transfer
it falls in (counted from 1; 0 = in none that is written), the row or address, and the byte mask of its record. -/
structure Detect where
  part : Nat
  addr : BitVec 64
  mask : BitVec 64
  deriving DecidableEq, Repr

/-- A stall of a unit (sp. 04 R98, sp. 06 R180): the address waited on and its cycles. -/
structure Stall where
  addr : BitVec 64
  cycles : Nat
  deriving DecidableEq, Repr

/-- How far a command that a window's close stops has come (sp. 02 R55): the tiles or positions done, and its stalls until then. -/
structure Progress where
  done : Nat
  stalls : List Stall
  deriving DecidableEq, Repr

/-- What the environment adds to a unit's cue by the time it completes. -/
structure Finish where
  parity : List Detect
  stalls : List Stall
  deriving DecidableEq, Repr

/-- A rail that misses its ramp bound (sp. 16 R461): its reading in 0.5 mV, and which HBM rail (HBM_VDDC, HBM_VDDQ, HBM_VPP) where those
ramp. -/
structure RampMiss where
  hbm : Fin 3
  reading : Nat
  deriving DecidableEq, Repr

/-- A measurement of the input (sp. 15 R443): its voltage in mV and its current in mA. -/
structure InputSample where
  mv : Nat
  ma : Nat
  deriving DecidableEq, Repr

/-- DISABLE = 1 of a channel, with the transfer that meets a bus error in the same cycle, if one does (sp. 10 R308, R321). -/
structure Disabling where
  chan : Fin 128
  err : Option Nat
  deriving DecidableEq, Repr

/-- What an arbiter sees at a slot (sp. 10 R313): the requests raised since the slot before; and whether the last request granted still
shows. -/
structure SlotSeen where
  raised : List Raise
  still : Bool
  deriving DecidableEq, Repr

/-- A flit found bad (sp. 11 R329): the lane of an uncorrectable codeword, or the flit as it arrived, with the header bits of its eight
blocks. -/
structure BadFound where
  lane : Option (Fin 8)
  heads : BitVec 8
  raw : List Byte
  deriving DecidableEq, Repr

/-- A data flit: its payload, and what the lanes corrected in it (sp. 11 R324, R329). -/
structure DataIn where
  bytes : List Byte
  fec : Corrected
  deriving DecidableEq, Repr

/-- A transfer that becomes visible: its number, and the parity detections on the receiver's path (sp. 11 R340, R342). -/
structure Landed where
  xfer : BitVec 16
  parity : List Detect
  deriving DecidableEq, Repr

/-- How the units of a bad frame came (sp. 13 R370): whether their marking is right, and the uncorrectable codewords among them. -/
structure UnitsFound where
  marks : Bool
  fec : Nat
  deriving DecidableEq, Repr

/-- The commands, one per row of spec/opcode_table.json, in the table's order. -/
inductive Instr where
  | inputPowerOn
  | pwrEnAssert
  | pwrEnDeassert
  | bulkChargeDone
  | railRampStep
  | pwrGood
  | rampFail (missed : RampMiss)
  | supplyResetWaitEnd
  | inputLoss
  | inputOvervoltage (reading : Nat)
  | hbmRailFault (rail : Fin 3) (reading : Nat)
  | dieRelease
  | slotCheck
  | firmwareRunning
  | hbmTrained (failed : BitVec 12)
  | hbmInitDone
  | startReady
  | zeroiseComplete
  | commandReset
  | supplyWarn (place : Place) (rail : Fin 3) (reading : Nat)
  | freezeSignal (die : Die)
  | supplyRecovery
  | supplyHoldTimeout
  | supplyReset (rail : Fin 3) (reading : Nat)
  | powerSample (m : InputSample)
  | powerHoldExit
  | sensorRead (temps : List Int)
  | thermalHoldExit
  | guardDisagree (index : Fin 16) (other : Nat)
  | beatMark (port : Kcp) (bits : BitVec 128) (off : Int)
  | beatBoundary
  | holdoverTimeout
  | relay (h : FlitHdr) (beat : BitVec 48) (txCycle : BitVec 12)
  | stepStart
  | holdTakesEffect
  | resumeBeat
  | cueFire (die : Die)
  | cueLate (unit : UnitId)
  | tallyLaneMessage (pos : Nat)
  | tallySet (die : Die)
  | mark (die : Die)
  | lend (die : Die)
  | lendEnd (die : Die) (cue : Nat)
  | tenantBind (die : Die)
  | routeAlloc (die : Die)
  | expertList (die : Die)
  | prompterIssue (die : Die) (unit : UnitId)
  | windowClose (die : Die) (cue : Nat) (written : List Progress)
  | curtain (die : Die)
  | stepCommit
  | curtainDrain
  | stepEnd
  | bankDown (die : Die) (bank : Fin 64)
  | bankDrainEnd (die : Die) (bank : Fin 64)
  | bankDownComplete (die : Die) (bank : Fin 64)
  | bankUp (die : Die) (bank : Fin 64)
  | bankUpComplete (die : Die) (bank : Fin 64)
  | mmFwd (arr : Arr)
  | mmBwdData (die : Die) (n : Fin 32)
  | mmBwdWeight (die : Die) (n : Fin 32)
  | mmPredict (die : Die) (n : Fin 16)
  | dmeComplete (arr : Arr) (fin : Finish)
  | gather (die : Die) (n : Fin 8)
  | scatter (die : Die) (n : Fin 8)
  | scatterAcc (die : Die) (n : Fin 8)
  | segmentReduce (die : Die) (n : Fin 8)
  | merge (die : Die) (n : Fin 8)
  | prefixSum (die : Die) (n : Fin 8)
  | histogram (die : Die) (n : Fin 8)
  | topK (die : Die) (n : Fin 8)
  | gmeComplete (die : Die) (n : Fin 8) (fin : Finish)
  | act (die : Die) (n : Fin 4)
  | actGrad (die : Die) (n : Fin 4)
  | actGradOut (die : Die) (n : Fin 4)
  | glu (die : Die) (n : Fin 4)
  | gluGrad (die : Die) (n : Fin 4)
  | dropout (die : Die) (n : Fin 4)
  | addN (die : Die) (n : Fin 4)
  | convert (die : Die) (n : Fin 4)
  | sumsqRow (die : Die) (n : Fin 4)
  | scaleRows (die : Die) (n : Fin 4)
  | softmaxRow (die : Die) (n : Fin 4)
  | clipScale (die : Die) (n : Fin 4)
  | vectorComplete (die : Die) (n : Fin 4) (fin : Finish)
  | adamw (die : Die)
  | momentum (die : Die)
  | sgd (die : Die)
  | optimizerComplete (die : Die) (fin : Finish)
  | permute (die : Die)
  | pack (die : Die)
  | unpack (die : Die)
  | encode (die : Die)
  | decode (die : Die)
  | layoutComplete (die : Die) (fin : Finish)
  | copy (die : Die) (n : Fin 128)
  | peerSend (die : Die) (n : Fin 128)
  | tallyOnly (die : Die) (n : Fin 128)
  | freeze (die : Die) (n : Fin 128)
  | stream (die : Die) (n : Fin 128)
  | dmaComplete (die : Die) (n : Fin 128) (parity : List Detect)
  | dmaBusError (die : Die) (n : Fin 128) (k : Nat)
  | firmwareTransferStart
  | disable (die : Die) (at_ : Disabling)
  | dmaEnable (die : Die) (n : Fin 128)
  | go (die : Die) (n : Fin 128)
  | irqPendingClear (die : Die) (n : Fin 128) (event : Bool)
  | registerWrite (die : Die) (n : Fin 128) (reg : ChanReg)
  | arbiterSlot (arb : ArbId) (seen : SlotSeen)
  | hbmRefresh (stack : Fin 12)
  | scrubRegionStart (die : Die)
  | scrubRegionDone (die : Die)
  | regionScrubDone
  | portTrainingDone (port : PortNo)
  | trainingTimeout (port : PortNo)
  | identSend (port : PortNo)
  | ident (port : PortNo) (body : IdentBody)
  | identTimeout (port : PortNo)
  | portRetrain (port : PortNo)
  | laneLockLost (port : PortNo)
  | badFlit (port : PortNo) (first last : BitVec 16) (found : BadFound)
  | retryTimeout (port : PortNo)
  | link (h : FlitHdr) (nak : Option (BitVec 16 × BitVec 16))
  | head (h : FlitHdr) (body : HeadBody)
  | resumeFlit (h : FlitHdr)
  | dataFlit (port : PortNo) (seq : BitVec 16) (data : DataIn)
  | endFlit (h : FlitHdr) (bytes : BitVec 64) (crc : BitVec 32)
  | transferVisible (port : PortNo) (landed : Landed)
  | done (h : FlitHdr) (body : DoneBody)
  | tally (h : FlitHdr) (entries : List TallyEntry)
  | notice (h : FlitHdr) (code : Byte) (stepNo : BitVec 32) (cause : Byte)
  | kcpLinkUp (port : Kcp)
  | controlPortLost
  | badFrame (port : Kcp) (raw : List Byte) (found : UnitsFound)
  | linkCredit (port : Kcp)
  | alarmMessageSend (place : Place)
  | alarmMessageTake (port : Kcp)
  | trace
  | journalMirrorDone (ok : Bool)
  | imageComplete (tier : Fin 4) (ok : Bool)
  | restoreComplete
  | sheetVerifyDone (store : Fin 2)
  | fwSlotCommitDone (slot : Fin 2)
  | identity (f : Frame)
  | sessionOpen (f : Frame)
  | sessionClose (f : Frame)
  | controlTake (f : Frame)
  | beatReacquire (f : Frame)
  | attest (f : Frame)
  | deviceIdSet (f : Frame)
  | neighbourWrite (f : Frame)
  | neighbourRead (f : Frame)
  | stateRegionWrite (f : Frame)
  | stateRegionRead (f : Frame)
  | wingWrite (f : Frame)
  | wingRead (f : Frame)
  | panelThreshWrite (f : Frame)
  | panelThreshRead (f : Frame)
  | beatDelayWrite (f : Frame)
  | beatDelayRead (f : Frame)
  | environment (f : Frame)
  | sheetBegin (f : Frame)
  | sheetData (f : Frame)
  | sheetVerify (f : Frame)
  | sheetStatus (f : Frame)
  | sheetClear (f : Frame)
  | writeOpen (f : Frame)
  | writeData (f : Frame)
  | writeClose (f : Frame)
  | read (f : Frame)
  | cancel (f : Frame)
  | arm (f : Frame)
  | startAtBeat (f : Frame)
  | hold (f : Frame)
  | resume (f : Frame)
  | stepAbort (f : Frame)
  | stepStatus (f : Frame)
  | tenantOpen (f : Frame)
  | tenantClose (f : Frame)
  | tenantKill (f : Frame)
  | tenantStatus (f : Frame)
  | scrubStatus (f : Frame)
  | secureNow (f : Frame)
  | secureFloor (f : Frame)
  | understudyWrite (f : Frame)
  | understudyRead (f : Frame)
  | journalRead (f : Frame)
  | restore (f : Frame)
  | healthRead (f : Frame)
  | countersRead (f : Frame)
  | errorRead (f : Frame)
  | alarmRead (f : Frame)
  | hostFigures (f : Frame)
  | traceConfig (f : Frame)
  | guardRead (f : Frame)
  | setLimits (f : Frame)
  | setPorts (f : Frame)
  | setFwMinSv (f : Frame)
  | rotateOperatorKey (f : Frame)
  | enterField (f : Frame)
  | scrap (f : Frame)
  | enterMakerAnalysis (f : Frame)
  | generateDeviceKey (f : Frame)
  | completeProvision (f : Frame)
  | setRegister (f : Frame)
  | fuseMapRead (f : Frame)
  | tableImageRead (f : Frame)
  | dmaStateRead (f : Frame)
  | regionScrub (f : Frame)
  | fwSlotData (f : Frame)
  | fwSlotCommit (f : Frame)
  | deviceReset (f : Frame)
  | extest
  | idcode
  | samplePreload (cells : BitVec 5)
  | highz
  | clamp
  | bypass
  | testLogicReset
  | kcpLinkDown (port : Kcp)
  | unknownOpcode (opcode : Byte) (f : Frame)
  deriving DecidableEq, Repr

end Sys2Proof
end

