-- ==== Sys2Proof/Machine/State.lean ====
section
/-! DEFINITION. The state of the machine, as plain data, and its value right after reset (before any input power:
power state OFF). One field group per chapter of the manual; each structure cites the rule that names what it holds. -/

namespace Sys2Proof.Machine

/-- The device never stops with a fault: errors are recorded (sp. 14 R393) and the machine goes on. No meaning of this model
raises the one reason here; it stands so that the type is not empty. Safe: nothing raises it. -/
inductive Fault where
  /-- Raised by nothing. Safe. -/
  | never
  deriving DecidableEq, Repr

/-- No meaning of this model refuses a command of the table: a refusal of sp. 13 Table 13-5 is a reply, a next state. -/
inductive Refusal where
  /-- Raised by an arm of `exec` whose command has no meaning yet, by its mnemonic. Safe: nothing is claimed of it. -/
  | notModelled (mnemonic : String)
  deriving DecidableEq, Repr

/-- A map with a default: (key, value) pairs, keys rising, no entry equal to the default of its reader. -/
abbrev Sparse (α : Type) := List (Nat × α)

/-- The module's power states (sp. 16 R459). -/
inductive PowerState where
  | off | guard | ramp | starting | ready | shut
  deriving DecidableEq, Repr

/-- Supply, power and start-up (sp. 16 R459-R473, sp. 17 R475). `stage` is the code of Table 16-2, 0 before the first
start; `startKind` the code of Table 16-3, 0 before the first start; `supplyWait` the 10 ms wait of R461;
`goodAt` the cycle from which START_REPORT counts (R466). -/
structure Power where
  state : PowerState
  v54 : Bool
  pwrEn : Bool
  bulkCharged : Bool
  shutLatched : Bool
  supplyWait : Bool
  railsUp : Nat
  pwrGood : Bool
  startKind : Byte
  stage : Nat
  released : Bool
  failedStacks : BitVec 12
  slotsChecked : Bool
  hbmInit : Bool
  resetDue : Bool
  goodAt : Nat
  deriving DecidableEq, Repr

/-- The TAP instructions of sp. 17 Table 17-7. -/
inductive TapIr where
  | extest | idcode | samplePreload | highz | clamp | bypass
  deriving DecidableEq, Repr

/-- The TAP: the instruction register, the five boundary cells from TDI to TDO, the pins as the cells captured them last (PWR_EN, PWR_GOOD,
ALERT_N, from bit 0), the bits that the last Shift-DR brought out on TDO, the first one first, and whether the controller is in
Test-Logic-Reset (sp. 17 R481, R483). -/
structure Tap where
  code : BitVec 4
  cells : BitVec 5
  captured : BitVec 3
  out : List Bool
  atReset : Bool
  deriving DecidableEq, Repr

/-- The lifecycle states (sp. 15 R452). -/
inductive Lifecycle where
  | manufacture | provisioned | field | makerAnalysis | scrapped
  deriving DecidableEq, Repr

/-- An error, alarm or fold record (sp. 14 R394, Table 14-1). -/
structure ErrRec where
  kind : Byte
  place : BitVec 3
  unit : BitVec 5
  inst : Byte
  cue : BitVec 24
  beat : BitVec 48
  cycle : BitVec 12
  alarm : Bool
  replay : Bool
  folded : Bool
  d0 : BitVec 64
  d1 : BitVec 64
  recno : BitVec 16
  wall : BitVec 64
  deriving DecidableEq, Repr

/-- A command that still owes its final reply: its opcode, SEQ, and the session in which its SEQ counts, if any (sp. 13 R373,
R377). -/
structure Owed where
  opcode : Byte
  cls : BitVec 2
  seq : BitVec 32
  session : Option (BitVec 32)
  deriving DecidableEq, Repr

/-- The records of the NOR guard record area (sp. 15 Table 15-9). -/
structure NorRecords where
  lifecycle : Lifecycle
  counterOp : BitVec 64
  counterMk : BitVec 64
  operatorPub : List Byte
  deviceCert : List Byte
  fwMinSv : BitVec 16
  scrubPending : Bool
  zeroising : Bool
  zeroAfter : Option Lifecycle
  resetCause : List Byte
  fenced : List (Nat × BitVec 32)
  deriving DecidableEq, Repr

/-- Which record of the area, for the CRC of each copy (sp. 16 R460). -/
inductive NorField where
  | lifecycle | counters | operatorKey | deviceCert | fwMinSv | scrubPending | zeroising | resetCause | fences
  deriving DecidableEq, Repr

/-- One firmware slot of the NOR flash (sp. 15 R445-R448): its bytes (an unlisted byte reads 0xFF, erased), the chunk
offsets received since it was erased, whether a load is open, and the commit that waits for its check. -/
structure FwSlot where
  bytes : Sparse Byte
  chunks : List Nat
  loading : Bool
  commit : Option (Owed × Nat)
  deriving DecidableEq, Repr

/-- The NOR flash: two slots and the record area, each record held twice; `badA`/`badB` name the records whose CRC-32C does
not match in that copy, `laterB` those whose second copy was written later (sp. 15 R445, sp. 16 R460). -/
structure Nor where
  slot0 : FwSlot
  slot1 : FwSlot
  recA : NorRecords
  recB : NorRecords
  badA : List NorField
  badB : List NorField
  laterB : List NorField
  deriving DecidableEq, Repr

/-- The causes of the brownout hold (sp. 15 R432). -/
inductive HoldCause where
  | none | supply | power | thermal
  deriving DecidableEq, Repr

/-- A zeroisation under way: the reply owed (none: one that start-up found) and the COUNTER of the envelope that ordered it
(sp. 15 R453). -/
structure Zeroise where
  reply : Option Owed
  counter : BitVec 64
  deriving DecidableEq, Repr

/-- The guard partition (sp. 15 R428-R458). `supply*` are Table 15-3 registers, `limits` Table 15-5, `portEnable` Table
15-6. `operatorPub`/`makerPub` are the public keys as 65-byte points (empty: none); the registers OPERATOR_KEY and
MAKER_KEY are their SHA-256; `serial` is the fused package serial. `running` is the slot of the running firmware, if any. `deviceKey` is the private key of R450
(none: no key). `held` are the records kept until stage FIRMWARE. `powers` are the input powers in uW of the last 1,000 samples, newest
first, `powerAvg` their average in W, and `powerLow` counts the samples in a row at or below POWER_CAP - 50 W (R443, Table 15-8); `margin` feeds
R407; `warm` are the dies at or above THERM_WARN; `lowRail` and `lowReading` the rail of a supply hold and its lowest reading; `zeroAfter` the
lifecycle that a zeroisation ends in, kept with ZEROISING; `scrapFuse` the SCRAPPED fuse (R436); `heldTo` the reference cycle in which the
last brownout hold ended. -/
structure Guard where
  lifecycle : Lifecycle
  agree : Bool
  bootSlot : Bool
  slot0Valid : Bool
  slot1Valid : Bool
  running : Option Bool
  holdSupply : Bool
  holdPower : Bool
  holdThermal : Bool
  holdCause : HoldCause
  holdAt : Nat
  scrubPending : Bool
  zeroising : Bool
  zeroAfter : Option Lifecycle
  zero : Option Zeroise
  svRunning : BitVec 16
  fwMinSv : BitVec 16
  fwVersion : BitVec 24
  fwDigest : BitVec 256
  supplyVcore : BitVec 32
  supplyVsram : BitVec 32
  supplyVlink : BitVec 32
  limits : BitVec 64
  portEnable : BitVec 64
  operatorPub : List Byte
  makerPub : List Byte
  serial : BitVec 96
  counterOp : BitVec 64
  counterMk : BitVec 64
  resetCause : List Byte
  deviceCert : List Byte
  deviceKey : Option Nat
  held : List ErrRec
  powers : List Nat
  powerAvg : Nat
  powerLow : Nat
  margin : Option Int
  warm : List Nat
  lowRail : Nat
  lowReading : Nat
  scrapFuse : Bool
  heldTo : Nat
  deriving DecidableEq, Repr

/-- The beat-lock states (sp. 02 R34). -/
inductive Lock where
  | unlocked | acquiring | locked | holdover | lost
  deriving DecidableEq, Repr

/-- How a mark that came for the coming boundary was judged (sp. 02 R33, R34): good; bad with a wrong number. A mark with a
bad CRC and one outside +-2 cycles count as missing, so neither stands here. -/
inductive MarkKind where
  | good | wrongNumber
  deriving DecidableEq, Repr

/-- A mark seen and judged, not yet counted: the boundary it belongs to, counted from the coming one (0), its judgement, and whether it
came before the present HOLDOVER (sp. 02 R33, R34). -/
structure SeenMark where
  at_ : Int
  kind : MarkKind
  early : Bool
  deriving DecidableEq, Repr

/-- The beat (sp. 02 R32-R38). `goodRun` counts towards the 64 of ACQUIRING, `wrongRun` the 3 consecutive wrong-number
marks, `runA`/`runB` the consecutive good marks of each port, `holdA`/`holdB` those since the entry into HOLDOVER,
`heldBeats` the beats in HOLDOVER; `seenA`/`seenB` hold the marks judged for boundaries not yet counted; `awaitA`/`awaitB` say that the mark
of the boundary just passed may still come, within 2 cycles (R33). -/
structure Beat where
  lock : Lock
  count : BitVec 48
  delayA : Int
  delayB : Int
  goodRun : Nat
  wrongRun : Nat
  runA : Nat
  runB : Nat
  holdA : Nat
  holdB : Nat
  heldBeats : Nat
  seenA : List SeenMark
  seenB : List SeenMark
  awaitA : Bool
  awaitB : Bool
  source : Byte
  deriving DecidableEq, Repr

/-- A frame that the device has sent (sp. 13 R369, Table 13-3). -/
structure OutFrame where
  port : Kcp
  opcode : Byte
  cls : BitVec 2
  more : Bool
  report : Bool
  status : Byte
  seq : BitVec 32
  refSeq : BitVec 32
  session : BitVec 32
  cred0 : Byte
  cred1 : Byte
  cred2 : Byte
  beat : BitVec 48
  payload : List Byte
  deriving DecidableEq, Repr

/-- One class of one port's ingest: frames arrived and buffers freed since link-up, and the count last reported in a frame
the device sent (sp. 13 R371). -/
structure Credit where
  arrived : Nat
  freed : Nat
  reported : Nat
  deriving DecidableEq, Repr

/-- A frame in a class 0 transmit queue (sp. 14 R402): the alarm record and the message it came from; when its other copy has left,
that it has, and the SEQ that both carry (sp. 13 R375). -/
structure Queued0 where
  alarm : ErrRec
  msg : Nat
  place : Place
  seq : Option (BitVec 32)
  sent : Bool
  deriving DecidableEq, Repr

/-- One control port (sp. 13 R365, R371, sp. 14 R398 group 6, R402). -/
structure KcpSt where
  up : Bool
  cred0 : Credit
  cred1 : Credit
  cred2 : Credit
  bad : Nat
  stray : Nat
  overrun : Nat
  fec : Nat
  queue0 : List Queued0
  next : Nat
  deriving DecidableEq, Repr

/-- The control ports: the port that carries control; while none does, the port that carried it last with the cause of its loss
(sp. 13 R366); and every frame sent, in order. -/
structure Control where
  a : KcpSt
  b : KcpSt
  carrier : Option Kcp
  lost : Option (Kcp × Nat)
  sent : List OutFrame
  deriving DecidableEq, Repr

/-- A stored final reply (sp. 13 R374): class and SEQ of the command, its opcode, the status and the payloads of its
frames. -/
structure Stored where
  cls : BitVec 2
  seq : BitVec 32
  opcode : Byte
  status : Byte
  frames : List (List Byte)
  deriving DecidableEq, Repr

/-- The session (sp. 13 R374, R375, R378). -/
structure Session where
  current : Option (BitVec 32)
  last : BitVec 32
  node : Byte
  exp0 : BitVec 32
  exp1 : BitVec 32
  out0 : BitVec 32
  out1 : BitVec 32
  out2 : BitVec 32
  out3 : BitVec 32
  stored : List Stored
  deriving DecidableEq, Repr

/-- The configuration family (sp. 13 Table 13-6; sp. 05 R127, sp. 08 R242, sp. 09 R268, R272, sp. 11 R346). Entries are the
128-bit words of Tables 8-14, 9-7 and 11-9. -/
structure Cfg where
  deviceId : Option Byte
  panelThresh : BitVec 32
  regions : Sparse (BitVec 128)
  wings : Sparse (BitVec 128)
  inlet : BitVec 16
  flow : BitVec 16
  ambient : BitVec 16
  wall : BitVec 64
  wallAt : Nat
  understudy : BitVec 128
  deriving DecidableEq, Repr

/-- The states of a cue store (sp. 13 R381). -/
inductive StoreState where
  | empty | loading | verified | rejected | inUse
  deriving DecidableEq, Repr

/-- A cue store (sp. 13 R381, sp. 02 R39). -/
structure CueStore where
  st : StoreState
  size : Nat
  expected : BitVec 256
  bytes : Sparse Byte
  chunks : List Nat
  dups : Nat
  verify : Option Owed
  deriving DecidableEq, Repr

/-- The states of a step (sp. 13 R385). -/
inductive Phase where
  | idle | armed | starting | running | held
  deriving DecidableEq, Repr

/-- An event that may be the ORIGIN of a step's end (sp. 02 R64), with the reference cycle in which it came. -/
structure Origin where
  kind : Byte
  place : Place
  cue : BitVec 24
  time : Nat
  deriving DecidableEq, Repr

/-- The armed or running step and what outlives it (sp. 02, sp. 13 R383-R387, sp. 08 R247, sp. 14 R395, R399, R408). `stopped`
says that firing stops and `stopAt` the stop cycle (R493), `cause` why; `originF`/`originS` are the earliest events of R64; `hold` and `resume`
the beats named; `curtains` the dies whose curtain cue has started and `curtainAt` the cycle L of R62; `lastDone` the last
completion; `prevEnd` the beat of the last step-end record; `frozen` the dies whose stage manager a brownout has frozen (sp. 15 R437); `dropped` says that a disabled channel
has dropped a cue, which never completes (sp. 10 R308). -/
structure StepSt where
  phase : Phase
  store : Fin 2
  hash : BitVec 256
  manifest : BitVec 256
  number : BitVec 64
  seed : BitVec 64
  tenants : List Nat
  startBeat : BitVec 48
  relBeat : Nat
  next : Sparse Nat
  stopped : Bool
  stopAt : Nat
  cause : Byte
  failed : Bool
  suspect : Bool
  replay : Bool
  originF : Option Origin
  originS : Option Origin
  lateCues : Nat
  idleCycles : Nat
  hold : Option (BitVec 48 × Owed)
  holdAt : Nat
  resume : Option (BitVec 48)
  curtains : List Die
  curtainAt : Nat
  lastDone : Nat
  prevEnd : Option (BitVec 48)
  dirty : Bool
  firstSeen : List Nat
  lastCommitted : BitVec 64
  lastHash : BitVec 256
  lastMode : Bool
  freezes : Bool
  slotsNamed : List Nat
  frozen : List Die
  dropped : Bool
  deriving DecidableEq, Repr

/-- A fence entry (sp. 09 R287): the tenant and its region index, the range; the dies whose engine scrubs its part of the region now, and
those that have done so (R290). -/
structure Fence where
  tenant : Nat
  region : Nat
  base : Nat
  len : Nat
  scrubbing : List Nat
  scrubbed : List Nat
  deriving DecidableEq, Repr

/-- A cue that has fired and not started (sp. 02 R45, R46): `metAt` is the first cycle, from the firing on, from which its start
condition has held without a break. -/
structure Pending where
  cue : Nat
  raw : BitVec 256
  firedAt : Nat
  metAt : Option Nat
  deriving DecidableEq, Repr

/-- What one tile of a predictor consumer adds to its slot when the cue completes (sp. 05 R152): tiles skipped, tiles audited, misses, the
missed mass, and the limits of its own header (R153). -/
structure PredDelta where
  slot : Nat
  skipped : Nat
  audited : Nat
  misses : Nat
  mass : Nat
  missLimit : Nat
  massLimit : Nat
  deriving DecidableEq, Repr

/-- One transfer of a DMA cue (sp. 10 R297): read from `src`, write to `dst`, `len` bytes. -/
structure Move where
  src : Nat
  dst : Nat
  len : Nat
  deriving DecidableEq, Repr

/-- What a DMA cue that sends to a peer or streams an image still waits for and has gathered (sp. 10 R302, sp. 11 R340, sp. 14
R415): the transfers without their DONE, the bytes and fence hits reported, the worst STATUS, the data flits sent, and the image
bytes that it sends of its tier, from the progress point `base` on. `fault` is the bus error that a source read met: its cause and address
(sp. 10 R309). -/
structure SendSt where
  todo : Nat
  bytes : Nat
  hits : Nat
  status : Nat
  flits : Nat
  adv : Nat
  base : Nat
  fault : Option (Nat × Nat)
  deriving DecidableEq, Repr

/-- Nothing sent. -/
def SendSt.zero : SendSt := { todo := 0, bytes := 0, hits := 0, status := 0, flits := 0, adv := 0, base := 0, fault := none }

/-- Where a GME stream halts if a word that it reads falls behind a fence (sp. 06 R166, R171, R174, R175): the word, FAULT, the position
and DETAIL1. -/
structure Chance where
  word : Nat × Nat
  fault : Nat
  pos : Nat
  detail : Nat
  deriving DecidableEq, Repr

/-- What a started cue or command will make visible when it completes: the writes, in order, each at its issued address, with the
tiles or positions done once each is final (`due`); the completion record and its address; the tally signal; predictor figures; the busy count T of its chapter. `halted` marks a
unit halted under sp. 04 R121, sp. 06 R182 or sp. 10 R309; `window` the window the command belongs to, by its cue index;
`moves` the plan of a DMA cue; `port` the peer port a DMA cue feeds, with its transfer number; `send` its progress there. `desc` is the
descriptor of a compute unit's work, `reads` and `dest` the bytes it reads and may write; `needs` what each of its writes is made from;
`raced` holds the bytes it reads that another party writes in overlapping spans, and `clash` the bytes that another party
writes too: what comes of either is undefined (sp. 04 R119, sp. 06 R184); where the raced bytes meet `ctl`, those that say which rows the
cue writes, all of `span` may be written (a GME stream; of the Optimizer Engine `ctl` holds the factor of each place); `fenced` holds the fences that began while it runs (sp. 09 R287) and `chances` where a GME stream
halts should it meet them (sp. 06 R166); `tiles` the cost of each tile of a DME cue and what it adds to the counts of
its record (sp. 04 R116, R118), and `slots` the accumulators of each tile as they pass the array's two hand-off slots (R99); `queued` says
that its stream or its operations wait (R275). -/
structure Running where
  cue : Nat
  opcode : Byte
  firedAt : Nat
  startedAt : Nat
  cycles : Nat
  writes : List (Nat × List Byte)
  due : List Nat
  recAt : Nat
  record : List Byte
  signal : Option (Nat × Nat)
  preds : List PredDelta
  halted : Bool
  window : Option Nat
  moves : List Move
  port : Option (PortNo × BitVec 16)
  send : SendSt
  desc : List Byte
  reads : List (Nat × Nat)
  dest : List (Nat × Nat)
  needs : List (List (Nat × Nat))
  ctl : List (Nat × Nat)
  span : List (Nat × Nat)
  raced : List (Nat × Nat)
  clash : List (Nat × Nat)
  fenced : List Fence
  chances : List Chance
  tiles : List (Nat × List Nat)
  slots : List (Array (Array Nat))
  queued : Bool
  deriving DecidableEq, Repr

/-- One unit: the cue it runs and the one pending behind it (sp. 02 R46); the cues that a Vector Unit or the Optimizer Engine has
still to complete while it runs the next (sp. 08 R227, R239), oldest first; the cycle from which it is free (sp. 04 R117). -/
structure UnitSt where
  running : Option Running
  pending : Option Pending
  tail : List Running
  freeAt : Nat
  deriving DecidableEq, Repr

/-- A command that a builder has built (sp. 07 R194): its unit, opcode and descriptor, the wait and the signal of its
template, whether the signal acts on the start, and whether it has been issued. -/
structure Built where
  unit : UnitId
  opcode : Byte
  desc : List Byte
  wait : Option (Nat × Nat)
  signal : Option (Nat × Nat)
  onStart : Bool
  issued : Bool
  deriving DecidableEq, Repr

/-- An open elastic window (sp. 02 R52-R55): its die and WINDOW_OPEN cue, the cycles in which that fired and opened it, its
descriptor and its signal on completion; the cycle in which the build ends; the builder's outputs, computed from the tenants as they
stood when it opened (sp. 07 R193) and written at its close (R194), what it reads, and whether another party writes that while it builds
(R211); the commands built, the list cost, whether its build failed, and its last completion. -/
structure Window where
  die : Die
  cue : Nat
  firedAt : Nat
  openedAt : Nat
  desc : BitVec 256
  signal : Option (Nat × Nat)
  builtAt : Nat
  reads : List (Nat × Nat)
  raced : Bool
  outputs : List (Nat × List Byte)
  built : List Built
  cost : Nat
  failed : Bool
  lastDone : Nat
  deriving DecidableEq, Repr

/-- A lend in effect (sp. 02 R57). -/
structure Lend where
  die : Die
  cue : Nat
  mask : BitVec 32
  span : Nat
  startedAt : Nat
  deriving DecidableEq, Repr

/-- A tally message in flight (sp. 02 R51): an increment on its way to the home die, or a new value on its way to the copy
of a waiting die; with the dies it left from and goes to, and whether its flow waits for a stream (sp. 09 R275). -/
structure LaneMsg where
  origin : Die
  dest : Die
  tally : Nat
  value : BitVec 32
  copy : Bool
  sentAt : Nat
  queued : Bool
  deriving DecidableEq, Repr

/-- A tally increment that a builder's list makes at its issue point, cycle `at_` (sp. 07 R208). -/
structure LaterTally where
  at_ : Nat
  die : Die
  tally : Nat
  inc : Nat
  deriving DecidableEq, Repr

/-- A predictor slot (sp. 05 R152); `doneAt` are the cycles in which its consumers completed. -/
structure Pred where
  skipped : BitVec 32
  audited : BitVec 32
  misses : BitVec 32
  mass : BitVec 64
  turned : Bool
  consumers : Nat
  doneAt : List Nat
  deriving DecidableEq, Repr

/-- The cues, the units and the counters they move (sp. 02). `before` holds, of each tally (and copy) that changed in cycle
`changedAt`, its value at the end of the cycle before (sp. 02 R45); `added` the increments that each tally took in that cycle
(R49), and `sets` the tallies set in it, each with the cue index of the TALLY_SET that counts and its value; `planned` the DME metadata
of the sheet's cues that a kill of the step took, as it stood (sp. 12 R362); `later` the increments that builders' lists make at their issue points (sp. 07 R208). -/
structure Stage where
  units : Sparse UnitSt
  windows : List Window
  lends : List Lend
  tallies : Sparse (BitVec 32)
  copies : Sparse (BitVec 32)
  changedAt : Nat
  before : List (Nat × Nat)
  added : Sparse Nat
  sets : List (Nat × Nat × Nat)
  planned : List (Nat × List Byte)
  lane : List LaneMsg
  later : List LaterTally
  preds : Sparse Pred
  deriving DecidableEq, Repr

/-- A scratch bank's power state (sp. 09 R258). -/
inductive BankState where
  | on | gated | retain | off | rising
  deriving DecidableEq, Repr

/-- One scratch bank (sp. 09 R251, R258-R262): its state, the mode it is going to (while its queue drains or it goes down)
and the cue that sends it there. -/
structure Bank where
  state : BankState
  target : Option BankState
  cue : Nat
  draining : Bool
  since : Nat
  deriving DecidableEq, Repr

/-- A write of one row queued in a bank (sp. 09 R251): the row, the bytes it carries, and the bank cycles that its retiring still
takes (two where it is a read-modify-write, R252). -/
structure QueuedWrite where
  row : Nat
  mask : BitVec 256
  cost : Nat
  deriving DecidableEq, Repr

/-- A bank's write queue, oldest first, as it stood at the end of cycle `at_`; the last bank cycle in which a read was granted, the
rows read in it, which one bank read serves, and the flipped words checked in it (sp. 09 R250-R252, R257). The bytes of queued writes
stand in `Mem.bytes` already: every read sees them by forwarding. -/
structure BankQueue where
  entries : List QueuedWrite
  at_ : Nat
  lastRead : Option Nat
  rows : List Nat
  words : List Nat
  deriving DecidableEq, Repr

/-- A flipped-bit mask of a stored protected word, by the address of its first byte (sp. 09 R254, R255). -/
structure Upset where
  addr : Nat
  mask : BitVec 72
  deriving DecidableEq, Repr

/-- The counters of sp. 14 R398 groups 0 to 3 and 7. Keys: die x 64 + bank; stack; place; die. -/
structure MemCounters where
  corr : Sparse Nat
  det : Sparse Nat
  hbmCorr : Sparse Nat
  hbmBad : Sparse Nat
  bus : Sparse Nat
  gate : Sparse Nat
  fenceHits : Sparse Nat
  streamWaits : Sparse Nat
  opWaits : Sparse Nat
  deriving DecidableEq, Repr

/-- A maintenance scrub (sp. 09 R293). -/
structure RegionScrub where
  base : Nat
  len : Nat
  owed : Owed
  deriving DecidableEq, Repr

/-- Memory and what guards it (sp. 09). `bytes` holds open HBM and scratch, an unlisted byte reads 0; `queues` the write queues of the
scratch banks. -/
structure Mem where
  bytes : List Host.Cell
  upsets : List Upset
  counters : MemCounters
  banks : Sparse Bank
  queues : Sparse BankQueue
  fences : List Fence
  waiting : List Fence
  scrubs : List RegionScrub
  deriving DecidableEq, Repr

/-- The STATE of a tenant entry (sp. 07 R187). -/
inductive TenantState where
  | closed | open_ | fenced
  deriving DecidableEq, Repr

/-- A tenant table entry (sp. 07 R187-R189), its region records (BASE, LENGTH of Table 7-3), the state of each region (0
unfenced, 1 fenced, 2 waiting, 3 scrubbed), the bytes zeroed of each, and the fence hits (sp. 13 Table 13-11). `closedAt` is the cycle in
which it last left OPEN (sp. 06 R173). -/
structure Tenant where
  st : TenantState
  active : Bool
  reopened : Bool
  closedAt : Nat
  place : BitVec 10
  generation : BitVec 32
  stateAddr : BitVec 56
  regions : List (Nat × Nat)
  rstate : List Nat
  zeroed : List Nat
  hits : Nat
  deriving DecidableEq, Repr

/-- The STATE of a channel (sp. 10 Table 10-5); "with shadow full" is its unit's pending place, or `shdFull`. -/
inductive ChanState where
  | idle | active | halted | disabled
  deriving DecidableEq, Repr

/-- A DMA channel (sp. 10 R303, R304): `shdFull` says that firmware has loaded SHD_DESC, `firmware` that its descriptor runs,
`queued` that its stream waits (sp. 09 R275). -/
structure Channel where
  actCue : BitVec 24
  st : ChanState
  failCause : BitVec 4
  failDir : Bool
  irqPending : Bool
  irqEn : Bool
  irqTarget : BitVec 2
  disable : Bool
  failAddr : BitVec 64
  actBytes : BitVec 32
  actDesc : BitVec 512
  shdDesc : BitVec 512
  shdFull : Bool
  firmware : Bool
  queued : Bool
  deriving DecidableEq, Repr

/-- A request raised at an arbiter (sp. 10 R312, R313): its port, rank, the transfers of the locked sequence that it may begin (1 =
none), the slot in which it was raised, the DMA channel (die x 128 + number) whose transfer it is, and that transfer's number in its
descriptor (sp. 10 R298). -/
structure Request where
  port : Nat
  rank : Fin 4
  lock : Nat
  since : Nat
  chan : Option Nat
  seq : Nat
  deriving DecidableEq, Repr

/-- An arbiter (sp. 10 R311-R315): its slot and grant numbers; the port that holds a locked sequence, the channel whose sequence it is,
the number of the transfer granted last in it and the transfers left; the port last granted in each rank; the requests raised and not
yet granted, in the order in which they were raised; for each port whose request came behind another, the slot in which it became the
port's present one; and the request granted last, with whether its grant counted. -/
structure Arbiter where
  slot : Nat
  grant : Nat
  owner : Option Nat
  lockChan : Option Nat
  lockSeq : Nat
  left : Nat
  last0 : Option Nat
  last1 : Option Nat
  last2 : Option Nat
  last3 : Option Nat
  raised : List Request
  present : List (Nat × Nat)
  served : Option (Request × Bool)
  deriving DecidableEq, Repr

/-- An open tensor transfer (sp. 13 R382). -/
structure Xfer where
  id : BitVec 32
  base : Nat
  len : Nat
  chunks : List Nat
  dups : Nat
  hits : Nat
  written : Nat
  deriving DecidableEq, Repr

/-- The states of a peer port (sp. 11 R326). -/
inductive PortState where
  | disabled | training | verify | up | mismatch | down
  deriving DecidableEq, Repr

/-- A flit of a port's transmitter (sp. 11 Tables 11-4, 11-5): KIND (0 for a data flit), CLASS, SEQ, ACK, the credits
returned, XFER (a data flit's transfer is not on the wire), and the body from byte 16 (the payload of a data flit); SENDER and
PORT are the device ID and the port's number; `snap` marks the flits of a snapshot transfer, which leave by the stream's requester port
(R331, R345). `owner` names the TALLY_ONLY cue that the flit's ACK completes: 1 + the key of its
channel, 0 for none (sp. 11 R340). -/
structure OutFlit where
  kind : BitVec 4
  cls : BitVec 2
  seq : BitVec 16
  ack : BitVec 16
  cred : List Nat
  xfer : BitVec 16
  body : List Byte
  owner : Nat
  sender : Byte
  port : BitVec 3
  snap : Bool
  deriving DecidableEq, Repr

/-- A flit kept for retry (sp. 11 R332, R333): the flit and how often it has been sent again. -/
structure Kept where
  flit : OutFlit
  resends : Nat
  deriving DecidableEq, Repr

/-- A transfer being received (sp. 11 R338-R342): its sender and number, the head's body, the data received whether its
END has come, the destination bytes that another party writes or adds into in overlapping spans and the fences that began meanwhile
(sp. 11 R348), and whether its stream waits for a place (sp. 09 R275). -/
structure RxXfer where
  sender : Byte
  xfer : BitVec 16
  head : HeadBody
  data : List Byte
  ended : Bool
  crcBad : Bool
  clash : List (Nat × Nat)
  fenced : List Fence
  queued : Bool
  deriving DecidableEq, Repr

/-- A transfer sent and awaiting its DONE (sp. 11 R338): its number, the die and channel that feeds it, its bytes. -/
structure TxXfer where
  xfer : BitVec 16
  die : Die
  chan : Fin 128
  bytes : Nat
  deriving DecidableEq, Repr

/-- A peer port (sp. 11 R322-R347). `num` and `me` are PORT and SENDER of the flits it sends (R330). `entry` is the map entry of Table 11-2; `reorder` holds flits received ahead of a bad one
(R332); `skewBeat` is the beat of the last relay whose skew counts in `skewRun` (sp. 02 R38); `measured` says that the round trip of this VERIFY has been taken (R328); `ackSent` is the last ACK sent; `txXfer` is the transfer that the next data flit sent belongs to (R331, R338). -/
structure Port where
  num : BitVec 3
  me : Byte
  entry : BitVec 128
  st : PortState
  latency : Nat
  rxSerial : BitVec 96
  measured : Bool
  token : BitVec 16
  tokensOut : List (BitVec 16 × Nat)
  lastToken : Option (BitVec 16 × Nat)
  txSeq : BitVec 16
  retry : List Kept
  rxNext : BitVec 16
  reorder : List Instr
  credits : Sparse Nat
  rxFreed : Sparse Nat
  naks : List Nat
  curXfer : Option (Byte × BitVec 16)
  nextXfer : BitVec 16
  rx : List RxXfer
  tx : List TxXfer
  txXfer : Option (BitVec 16)
  waitq : List OutFlit
  out : List OutFlit
  corrected : Sparse Nat
  uncorrectable : Sparse Nat
  retries : Nat
  exhausted : Nat
  retrains : Nat
  clamps : Nat
  skewRun : Nat
  skewBeat : BitVec 48
  ackSent : BitVec 16
  deriving DecidableEq, Repr

/-- One error source (sp. 14 R393); before its first event the records are the zero record. -/
structure Source where
  first : Option ErrRec
  last : Option ErrRec
  count : Nat
  deriving DecidableEq, Repr

/-- The error sources and the error FIFO (sp. 14 R393-R397). `busyUntil` is, per place, the cycle from which its recorder is
free. -/
structure Errors where
  sources : Sparse Source
  fifo : List ErrRec
  recno : BitVec 16
  overflow : Bool
  coalesced : Nat
  busyUntil : Sparse Nat
  deriving DecidableEq, Repr

/-- An entry of an alarm latch (sp. 14 R400). -/
structure AlarmEntry where
  id : Nat
  alarm : ErrRec
  left : Bool
  returned : Bool
  deriving DecidableEq, Repr

/-- An alarm message of a place (sp. 14 R402): `id` names its latch entry, or a fold record; the gatherers that have still to take it;
that one has; that a frame of it has left, and the SEQ that its frames carry. -/
structure AlarmMsg where
  id : Nat
  alarm : ErrRec
  needA : Bool
  needB : Bool
  taken : Bool
  seq : Option (BitVec 32)
  sent : Bool
  deriving DecidableEq, Repr

/-- The fold counts of one kind at one place (sp. 14 R401): the count, the beat of the first fold since it was read, and the
cycle at which the beat of its last fold record began. -/
structure Fold where
  count : Nat
  since : BitVec 48
  formed : Option Nat
  deriving DecidableEq, Repr

/-- The alarms of one place (sp. 14 R400-R402). -/
structure PlaceAlarms where
  latch : List AlarmEntry
  waiting : List AlarmMsg
  sending : Option AlarmMsg
  folds : Sparse Fold
  foldsRead : Nat
  deriving DecidableEq, Repr

/-- The alarms (sp. 14 R400-R402). -/
structure Alarms where
  places : Sparse PlaceAlarms
  nextId : Nat
  deriving DecidableEq, Repr

/-- A trace record (sp. 14 R404, Table 14-3). -/
structure TraceRec where
  kind : Byte
  place : BitVec 3
  unit : BitVec 5
  inst : Byte
  cue : BitVec 24
  beat : BitVec 48
  cycle : BitVec 12
  addr : BitVec 64
  count : BitVec 32
  deriving DecidableEq, Repr

/-- The traces (sp. 14 R404, R405): `ring` holds the records not yet sent, oldest first; `dropped` counts per kind;
`beatDrops` those of the present beat, `prevDrops` a beat with drops that still wants its DROP_SUMMARY, `total` those since
traces were turned on. -/
structure Trace where
  on : Bool
  both : Bool
  ring : List TraceRec
  dropped : Sparse Nat
  beatDrops : Nat
  total : Nat
  deriving DecidableEq, Repr

/-- The event counts of one epoch (sp. 14 R407): WM corrections, HBM corrections per stack, PARITY and ECC_UNCORRECTABLE
events, corrected symbols per port and lane, uncorrectable codewords, entries into DOWN from UP, brownout holds, and the
smallest thermal margin. -/
structure EpochCounts where
  wm : Nat
  hbm : Sparse Nat
  det : Nat
  fec : Sparse Nat
  unc : Nat
  downs : Nat
  holds : Nat
  margin : Option Int
  deriving DecidableEq, Repr

/-- The health monitor (sp. 14 R407-R410). `alarmed` names the thresholds alarmed in this epoch; `staged` the figures that
take effect at the next boundary; `lockedYet` and `epochBeat` count the epoch. -/
structure Health where
  score : Nat
  terms : List Nat
  host : Byte
  t1 : Byte
  t2 : Byte
  t3 : Byte
  staged : Option (Byte × Byte × Byte × Byte)
  lockedYet : Bool
  epochBeat : Nat
  cur : EpochCounts
  prev : EpochCounts
  alarmed : List Nat
  deriving DecidableEq, Repr

/-- The securing states (sp. 14 R417). -/
inductive Securing where
  | idle | freezing | held | draining
  deriving DecidableEq, Repr

/-- A section of an image (sp. 14 R412-R414): its SECTION number, region, offset, length and CRC, and where its bytes
stand (in the image area; for a firmware securing, in the region itself). -/
structure ImgSection where
  num : Nat
  region : Nat
  off : Nat
  len : Nat
  crc : BitVec 32
  addr : Nat
  deriving DecidableEq, Repr

/-- The held image (sp. 14 R411-R415): its ID, SECTIONS, the sections completed, COMMIT and HASH for its header, the tier
set, and the bytes sent at each tier. -/
structure Image where
  id : BitVec 64
  sections : Nat
  done : List ImgSection
  commit : Bool
  hash : BitVec 256
  tiers : List Nat
  sent1 : Nat
  sent2 : Nat
  sent3 : Nat
  deriving DecidableEq, Repr

/-- Securing (sp. 14 R410-R419): the state, the image, the tiers due, the floor, the last image per tier, the SECURE_NOW
commands that wait with their tiers, whether firmware secures on its own, and the half of the understudy window that takes the next
tier-1 image. -/
structure Secure where
  st : Securing
  image : Option Image
  due : List Nat
  floor : BitVec 32
  last1 : BitVec 64
  last2 : BitVec 64
  last3 : BitVec 64
  waiting : List (Nat × Owed)
  firmware : Bool
  slot1 : Bool
  deriving DecidableEq, Repr

/-- A tier-2 slot of the NAND flash (sp. 14 R416): the ID of a complete image with its header programmed, and the bytes. -/
structure NandSlot where
  valid : Option (BitVec 64)
  bytes : Sparse Byte
  deriving DecidableEq, Repr

/-- A journal entry (sp. 14 R420, Table 14-10). -/
structure JournalEntry where
  step : BitVec 64
  startBeat : BitVec 48
  endState : BitVec 2
  cause : Byte
  commit : Bool
  replay : Bool
  matched : Bool
  froze : BitVec 3
  hash : BitVec 256
  manifest : BitVec 256
  seed : BitVec 64
  endBeat : BitVec 48
  tenants : List Nat
  deriving DecidableEq, Repr

/-- The journal in the firmware region, its mirror in the NAND flash, the entries whose mirror program is still to end (by
their position from the newest), and whether reads come from the mirror (sp. 14 R420, R421). -/
structure Journal where
  entries : List JournalEntry
  mirror : List JournalEntry
  toMirror : List JournalEntry
  fromMirror : Bool
  deriving DecidableEq, Repr

/-- A restore under way (sp. 14 R422): tier, image ID, the image's bytes as they have come; at the understudy, the transfers that
carry them, and the largest STATUS of their DONEs; and the reply owed. -/
structure Restore where
  tier : Nat
  id : BitVec 64
  bytes : Sparse Byte
  sends : List (BitVec 16)
  worst : Nat
  owed : Owed
  deriving DecidableEq, Repr

/-- The NAND flash (sp. 14 R416, R420): two tier-2 slots, and whether slot 1 takes the next image. -/
structure Nand where
  slot0 : NandSlot
  slot1 : NandSlot
  next1 : Bool
  deriving DecidableEq, Repr

/-- The whole state of the block. `pending` is the queue of commands, first in first out; `now` counts cycles,
periods of the arithmetic clock, `ref` cycles of the reference clock, and `half` says that an odd reference cycle of a brownout hold
has passed (sp. 00 R10); `cycle` is the reference cycle in the local beat, `free` counts the free values drawn (the model's own fields, as is `pending`); `fwHeld` holds the frames of firmware transfers
that wait for a free channel (sp. 10 R307); `waiting1` the class 1 commands that wait for the final reply owed before them, each with
the reply it owes, and `taking` the reply owed by one that is being taken (sp. 13 R373; log 93). -/
structure State where
  pending : List Instr
  now : Nat
  ref : Nat
  half : Bool
  cycle : BitVec 12
  free : Nat
  pwr : Power
  tap : Tap
  guard : Guard
  nor : Nor
  nand : Nand
  beat : Beat
  ctl : Control
  ses : Session
  cfg : Cfg
  store0 : CueStore
  store1 : CueStore
  step : StepSt
  stage : Stage
  mem : Mem
  tenants : Sparse Tenant
  dma : Sparse Channel
  fwHeld : List Instr
  waiting1 : List (Instr × Owed)
  taking : Option Owed
  arbs : Sparse Arbiter
  xfers : List Xfer
  ports : Sparse Port
  err : Errors
  alarms : Alarms
  trace : Trace
  health : Health
  secure : Secure
  journal : Journal
  restore : Option Restore
  deriving DecidableEq, Repr

/-- The operator public key and DEVICE_CERT that a module ships with (sp. 17 R491; log 6). -/
def operatorPubShipped : List Byte := (List.range 65).map Config.shippedOperator
def deviceCertShipped : List Byte := (List.range (min 2048 Config.shippedCertLength)).map Config.shippedCert

/-- The guard record area as shipped (log 6): the registers of the guard partition hold the same values. -/
def NorRecords.reset : NorRecords :=
  { lifecycle := .provisioned, counterOp := 0, counterMk := 0, operatorPub := operatorPubShipped, deviceCert := deviceCertShipped,
    fwMinSv := 0,
    scrubPending := false, zeroising := false, zeroAfter := none, resetCause := List.replicate 32 0, fenced := [] }

/-- An erased firmware slot (log 6). -/
def FwSlot.reset : FwSlot := { bytes := [], chunks := [], loading := false, commit := none }

/-- Byte `i` of the firmware image in slot 0 of a shipped module (sp. 15 Table 15-10, sp. 17 R491; log 6): "BVFW", major 3, the zeros, a body
length of 1 to 29,999,888; the other bytes are as shipped. -/
def shippedFw (i : Nat) : Byte :=
  let n := 1 + Config.shippedLength % 29999888
  match i with
  | 0 => 0x42
  | 1 => 0x56
  | 2 => 0x46
  | 3 => 0x57
  | 4 => 3
  | 7 | 10 | 11 => 0
  | 12 | 13 | 14 | 15 => BitVec.ofNat 8 (n / 256 ^ (i - 12))
  | _ => Config.shippedFw i

/-- Slot 0 of a shipped module: its image, an erased byte unlisted (log 6). -/
def FwSlot.shipped : FwSlot :=
  let cells : Sparse Byte := (List.range (113 + Config.shippedLength % 29999888)).map (fun i => (i, shippedFw i))
  { FwSlot.reset with bytes := cells.filter (fun c => decide (c.2 ≠ 0xFF)) }

/-- An empty cue store (sp. 13 R381). -/
def CueStore.reset : CueStore := { st := .empty, size := 0, expected := 0, bytes := [], chunks := [], dups := 0, verify := none }

/-- A control port whose link is down, with nothing counted (sp. 13 R365, sp. 14 R398). -/
def KcpSt.reset : KcpSt :=
  { up := false, cred0 := ⟨0, 0, 0⟩, cred1 := ⟨0, 0, 0⟩, cred2 := ⟨0, 0, 0⟩, bad := 0, stray := 0, overrun := 0, fec := 0,
    queue0 := [], next := 0 }

/-- The 65 bytes of the fused maker public key (sp. 15 R431). -/
def makerPubFused : List Byte := (List.range 65).map Config.makerPub

/-- The 12 characters of the fused package serial, the first in the top byte (sp. 15 R449). -/
def serialFused : BitVec 96 := (List.range 12).foldl (fun x i => x <<< 8 ||| (Config.serial i).setWidth 96) 0

/-- Power, guard, beat, session and configuration right after reset (sp. 16 Table 16-4 and the tables it names; logs 4-11). -/
def Power.reset : Power :=
  { state := .off, v54 := false, pwrEn := false, bulkCharged := false, shutLatched := false, supplyWait := false, railsUp := 0,
    pwrGood := false, startKind := 0, stage := 0, released := false, failedStacks := 0, slotsChecked := false, hbmInit := false, resetDue := false, goodAt := 0 }

/-- LIMITS at reset: POWER_CAP 1,498, THERM_WARN 90, THERM_HOLD 100, THERM_SHUT 110 (sp. 15 Table 15-5). -/
def limitsReset : BitVec 64 := BitVec.ofNat 64 (1498 * 2 ^ 52 + 90 * 2 ^ 44 + 100 * 2 ^ 36 + 110 * 2 ^ 28)

/-- PORT_ENABLE at reset: every lane and both control ports (sp. 15 Table 15-6). -/
def portEnableReset : BitVec 64 := 0x00FFFFFFFFFFFF03#64

/-- A SUPPLY register from its two thresholds in units of 0.5 mV (sp. 15 Table 15-3). -/
def supplyReg (warn reset : Nat) : BitVec 32 := BitVec.ofNat 32 (warn * 2 ^ 20 + reset * 2 ^ 8)

/-- The guard partition as shipped (sp. 15 Tables 15-1 to 15-6, sp. 17 R491; log 6). -/
def Guard.reset : Guard :=
  { lifecycle := .provisioned, agree := true, bootSlot := false, slot0Valid := false, slot1Valid := false, running := none,
    holdSupply := false, holdPower := false, holdThermal := false, holdCause := .none, holdAt := 0, scrubPending := false,
    zeroising := false, zeroAfter := none, zero := none, svRunning := 0, fwMinSv := 0, fwVersion := 0, fwDigest := 0,
    supplyVcore := supplyReg 1330 1274, supplyVsram := supplyReg 1425 1365, supplyVlink := supplyReg 1520 1456,
    limits := limitsReset, portEnable := portEnableReset, operatorPub := operatorPubShipped, makerPub := makerPubFused, serial := serialFused,
    counterOp := 0,
    counterMk := 0, resetCause := List.replicate 32 0, deviceCert := deviceCertShipped, deviceKey := some Config.shippedKey, held := [], powers := [], powerAvg := 0,
    powerLow := 0, margin := none, warm := [], lowRail := 0, lowReading := 0, scrapFuse := false, heldTo := 0 }

/-- The beat at reset: UNLOCKED (sp. 02 R34). -/
def Beat.reset : Beat :=
  { lock := .unlocked, count := 0, delayA := 0, delayB := 0, goodRun := 0, wrongRun := 0, runA := 0, runB := 0, holdA := 0,
    holdB := 0, heldBeats := 0, seenA := [], seenB := [], awaitA := false, awaitB := false, source := 0 }

/-- No session (sp. 16 Table 16-4: "none, next number 1"). -/
def Session.reset : Session :=
  { current := none, last := 0, node := 0, exp0 := 0, exp1 := 0, out0 := 0, out1 := 0, out2 := 0, out3 := 0, stored := [] }

/-- The configuration family at reset: PANEL_THRESH 10 (sp. 05 Table 5-3), the rest zero, the device ID unset. -/
def Cfg.reset : Cfg :=
  { deviceId := none, panelThresh := 10, regions := [], wings := [], inlet := 0, flow := 0, ambient := 0, wall := 0, wallAt := 0,
    understudy := 0 }

/-- No step (sp. 13 R385: IDLE after reset). -/
def StepSt.reset : StepSt :=
  { phase := .idle, store := 0, hash := 0, manifest := 0, number := 0, seed := 0, tenants := [], startBeat := 0, relBeat := 0,
    next := [], stopped := false, stopAt := 0, cause := 0, failed := false, suspect := false, replay := false, originF := none,
    originS := none, lateCues := 0, idleCycles := 0, hold := none, holdAt := 0, resume := none, curtains := [], curtainAt := 0,
    lastDone := 0, prevEnd := none, dirty := false, firstSeen := [], lastCommitted := 0, lastHash := 0, lastMode := false,
    freezes := false, slotsNamed := [], frozen := [], dropped := false }

/-- No cue, no window, every tally and predictor slot 0 (sp. 16 Table 16-4). -/
def Stage.reset : Stage :=
  { units := [], windows := [], lends := [], tallies := [], copies := [], changedAt := 0, before := [], added := [], sets := [], planned := [], lane := [],
    later := [], preds := [] }

/-- Memory counters at 0 (sp. 14 R398). -/
def MemCounters.reset : MemCounters :=
  { corr := [], det := [], hbmCorr := [], hbmBad := [], bus := [], gate := [], fenceHits := [], streamWaits := [], opWaits := [] }

/-- Memory zeroed, every bank ON, no fence (sp. 16 Table 16-4). -/
def Mem.reset : Mem :=
  { bytes := [], upsets := [], counters := MemCounters.reset, banks := [], queues := [], fences := [], waiting := [], scrubs := [] }

/-- The TAP in Test-Logic-Reset: IDCODE (sp. 17 Table 17-6; log 5). -/
def Tap.reset : Tap := { code := 1, cells := 0, captured := 0, out := [], atReset := true }

/-- No error recorded (sp. 14 R393). -/
def Errors.reset : Errors := { sources := [], fifo := [], recno := 0, overflow := false, coalesced := 0, busyUntil := [] }

/-- Nothing counted in the epoch (sp. 14 R407). -/
def EpochCounts.reset : EpochCounts :=
  { wm := 0, hbm := [], det := 0, fec := [], unc := 0, downs := 0, holds := 0, margin := none }

/-- The health monitor at reset: HOST 0, T1-T3 = 48, 96, 160 (sp. 14 R408). -/
def Health.reset : Health :=
  { score := 0, terms := List.replicate 9 0, host := 0, t1 := 48, t2 := 96, t3 := 160, staged := none, lockedYet := false,
    epochBeat := 0, cur := EpochCounts.reset, prev := EpochCounts.reset, alarmed := [] }

/-- Securing at reset: IDLE, no image (sp. 14 R417). -/
def Secure.reset : Secure :=
  { st := .idle, image := none, due := [], floor := 0, last1 := 0, last2 := 0, last3 := 0, waiting := [], firmware := false, slot1 := false }

/-- The machine right after reset: input power absent, power state OFF (sp. 16 Table 16-1), every table at its reset value. -/
def State.reset : State :=
  { pending := [], now := 0, ref := 0, half := false, cycle := 0, free := 0, pwr := Power.reset, tap := Tap.reset,
    guard := Guard.reset,
    nor := { slot0 := FwSlot.shipped, slot1 := FwSlot.reset, recA := NorRecords.reset, recB := NorRecords.reset, badA := [],
             badB := [], laterB := [] },
    nand := { slot0 := { valid := none, bytes := [] }, slot1 := { valid := none, bytes := [] }, next1 := false },
    beat := Beat.reset, ctl := { a := KcpSt.reset, b := KcpSt.reset, carrier := none, lost := none, sent := [] }, ses := Session.reset,
    cfg := Cfg.reset, store0 := CueStore.reset, store1 := CueStore.reset, step := StepSt.reset, stage := Stage.reset,
    mem := Mem.reset, tenants := [], dma := [], fwHeld := [], waiting1 := [], taking := none, arbs := [], xfers := [], ports := [], err := Errors.reset,
    alarms := { places := [], nextId := 1 },
    trace := { on := false, both := false, ring := [], dropped := [], beatDrops := 0, total := 0 },
    health := Health.reset, secure := Secure.reset,
    journal := { entries := [], mirror := [], toMirror := [], fromMirror := false }, restore := none }

end Sys2Proof.Machine
end

