-- ==== Sys2Proof/Machine/Bits.lean ====
section
/-! DEFINITION. Bit fields, byte order, CRC-32C and the sparse maps that State is made of. -/

namespace Sys2Proof.Machine

/-- Bits [hi:lo] of a number. -/
def bits (w hi lo : Nat) : Nat := (w >>> lo) % 2 ^ (hi - lo + 1)

/-- Bit `k` of a number. -/
def bit (w k : Nat) : Bool := Nat.testBit w k

/-- Bits [hi:lo] of `w` replaced by the low bits of `v`. -/
def setBits (w hi lo v : Nat) : Nat := w - (bits w hi lo) * 2 ^ lo + (v % 2 ^ (hi - lo + 1)) * 2 ^ lo

/-- A Bool as 0 or 1. -/
def b01 (b : Bool) : Nat := if b then 1 else 0

/-- The number that bytes spell, least significant first (sp. 00 R9). -/
def ofLE : List Byte → Nat
  | [] => 0
  | b :: r => b.toNat + 256 * ofLE r

/-- `k` bytes of a number, least significant first (sp. 00 R9). -/
def toLE : Nat → Nat → List Byte
  | 0, _ => []
  | k + 1, n => BitVec.ofNat 8 n :: toLE k (n / 256)

/-- The number that bytes spell, most significant first: digests and keys in the order of their standards (sp. 13 R388). -/
def ofBE (p : List Byte) : Nat := p.foldl (fun a b => a * 256 + b.toNat) 0

/-- `k` bytes of a number, most significant first. -/
def toBE (k n : Nat) : List Byte := (toLE k n).reverse

/-- Bytes `off` to `off + len - 1` of a payload. -/
def slice (p : List Byte) (off len : Nat) : List Byte := (p.drop off).take len

/-- The little-endian number in bytes `off` to `off + len - 1`. -/
def leAt (p : List Byte) (off len : Nat) : Nat := ofLE (slice p off len)

/-- Byte `off` of a payload. -/
def byteAt (p : List Byte) (off : Nat) : Nat := (p.getD off 0).toNat

/-- Bytes `off` to `off + len - 1` are zero. -/
def zeroAt (p : List Byte) (off len : Nat) : Bool := (slice p off len).all (· == 0)

/-- `n` zero bytes. -/
def zeros (n : Nat) : List Byte := List.replicate n 0

/-- A signed number from its two's complement in `w` bits. -/
def signed (w n : Nat) : Int := if n < 2 ^ (w - 1) then (n : Int) else (n : Int) - (2 ^ w : Nat)

/-- The two's complement of a signed number in `w` bits. -/
def unsigned (w : Nat) (i : Int) : Nat := (i % ((2 ^ w : Nat) : Int)).toNat

/-- One bit of CRC-32C, reflected, polynomial 0x1EDC6F41. -/
def crcBit (c : Nat) : Nat := if c % 2 = 1 then (c >>> 1) ^^^ 0x82F63B78 else c >>> 1

/-- One byte of CRC-32C. -/
def crcByte (c : Nat) (b : Byte) : Nat :=
  crcBit (crcBit (crcBit (crcBit (crcBit (crcBit (crcBit (crcBit (c ^^^ b.toNat))))))))

/-- CRC-32C (Castagnoli) of a byte string: initial value and final complement 0xFFFFFFFF. -/
def crc32c (p : List Byte) : Nat := (p.foldl crcByte 0xFFFFFFFF) ^^^ 0xFFFFFFFF

/-- The entry of key `k`, or the default. -/
def Sparse.get {α : Type} (d : Nat → α) (m : Sparse α) (k : Nat) : α :=
  match m with
  | [] => d k
  | (j, a) :: r => if j = k then a else Sparse.get d r k

/-- The map with `v` at key `k`; an entry equal to the default is not listed, so equal maps are equal lists. -/
def Sparse.set {α : Type} [DecidableEq α] (d : Nat → α) (m : Sparse α) (k : Nat) (v : α) : Sparse α :=
  match m with
  | [] => if v = d k then [] else [(k, v)]
  | (j, a) :: r =>
    if j = k then (if v = d k then Sparse.set d r k v else (k, v) :: r)
    else if k < j ∧ v ≠ d k then (k, v) :: (j, a) :: r
    else (j, a) :: Sparse.set d r k v

/-- The canonical form: keys rising from `lo`, and no entry equal to the default. -/
def Sparse.wfFrom {α : Type} [DecidableEq α] (d : Nat → α) (lo : Nat) (m : Sparse α) : Bool :=
  match m with
  | [] => true
  | (j, a) :: r => decide (lo ≤ j) && decide (a ≠ d j) && Sparse.wfFrom d (j + 1) r

/-- The canonical form of a map. -/
def Sparse.wf {α : Type} [DecidableEq α] (d : Nat → α) (m : Sparse α) : Bool := Sparse.wfFrom d 0 m

/-- The map without the keys of [base, base + len). -/
def Sparse.clear {α : Type} (m : Sparse α) (base len : Nat) : Sparse α :=
  m.filter (fun e => e.1 < base || base + len ≤ e.1)

/-- `v` added to the count at `k`, stopping at `top`. -/
def Sparse.bump (top : Nat) (m : Sparse Nat) (k v : Nat) : Sparse Nat :=
  Sparse.set (fun _ => 0) m k (stopAt top (Sparse.get (fun _ => 0) m k + v))

/-- The bytes of a sparse byte string from `base`, `len` of them. -/
def Sparse.bytes (d : Nat → Byte) (m : Sparse Byte) (base : Nat) : Nat → List Byte
  | 0 => []
  | n + 1 => Sparse.get d m base :: Sparse.bytes d m (base + 1) n

/-- The map with the bytes of `p` at `base` onwards. -/
def Sparse.put (d : Nat → Byte) (m : Sparse Byte) (base : Nat) : List Byte → Sparse Byte
  | [] => m
  | b :: r => Sparse.put d (Sparse.set d m base b) (base + 1) r

/-- The largest 32-bit count. -/
def top32 : Nat := 0xFFFFFFFF

/-- The largest 64-bit count. -/
def top64 : Nat := 0xFFFFFFFFFFFFFFFF

end Sys2Proof.Machine
end

