-- ==== Sys2Proof/Machine/Crypto.lean ====
section
/-! DEFINITION. SHA-256 (FIPS 180-4) and ECDSA on P-256 (FIPS 186-5), which sp. 02 R39, sp. 13 R388 and sp. 15 R446, R451 name.
Numbers are Nat, reduced explicitly. -/

namespace Sys2Proof.Machine

/-- Rotation right of a 32-bit word. -/
def ror32 (x k : Nat) : Nat := ((x >>> k) ||| (x <<< (32 - k))) % 2 ^ 32

/-- The first 32 bits of the fractions of the cube roots of the first 64 primes, as FIPS 180-4 takes them, as one number of 64 words, the first
most significant. -/
def cubeRoots : Nat := 0x428a2f9871374491b5c0fbcfe9b5dba53956c25b59f111f1923f82a4ab1c5ed5d807aa9812835b01243185be550c7dc372be5d7480deb1fe9bdc06a7c19bf174e49b69c1efbe47860fc19dc6240ca1cc2de92c6f4a7484aa5cb0a9dc76f988da983e5152a831c66db00327c8bf597fc7c6e00bf3d5a7914706ca63511429296727b70a852e1b21384d2c6dfc53380d13650a7354766a0abb81c2c92e92722c85a2bfe8a1a81a664bc24b8b70c76c51a3d192e819d6990624f40e3585106aa07019a4c1161e376c082748774c34b0bcb5391c0cb34ed8aa4a5b9cca4f682e6ff3748f82ee78a5636f84c878148cc7020890befffaa4506cebbef9a3f7c67178f2

/-- The square roots' of the first 8 primes, in the same form. -/
def squareRoots : Nat := 0x6a09e667bb67ae853c6ef372a54ff53a510e527f9b05688c1f83d9ab5be0cd19

/-- Word `i` of such a number of `n` words. -/
def wordOf (n x i : Nat) : Nat := x >>> (32 * (n - 1 - i)) % 2 ^ 32

/-- The round constants of SHA-256. -/
def shaK : List Nat := (List.range 64).map (wordOf 64 cubeRoots)

/-- The eight working words of SHA-256. -/
structure Sha where
  a : Nat
  b : Nat
  c : Nat
  d : Nat
  e : Nat
  f : Nat
  g : Nat
  h : Nat

/-- The initial hash value of SHA-256. -/
def shaInit : Sha :=
  let x := wordOf 8 squareRoots
  { a := x 0, b := x 1, c := x 2, d := x 3, e := x 4, f := x 5, g := x 6, h := x 7 }

/-- One round of SHA-256. -/
def shaRound (s : Sha) (k w : Nat) : Sha :=
  let s1 := ror32 s.e 6 ^^^ ror32 s.e 11 ^^^ ror32 s.e 25
  let ch := (s.e &&& s.f) ^^^ ((s.e ^^^ 0xFFFFFFFF) &&& s.g)
  let t1 := s.h + s1 + ch + k + w
  let s0 := ror32 s.a 2 ^^^ ror32 s.a 13 ^^^ ror32 s.a 22
  let maj := (s.a &&& s.b) ^^^ (s.a &&& s.c) ^^^ (s.b &&& s.c)
  ⟨(t1 + s0 + maj) % 2 ^ 32, s.a, s.b, s.c, (s.d + t1) % 2 ^ 32, s.e, s.f, s.g⟩

/-- The next schedule word from the last sixteen, newest first. -/
def shaNext (w : List Nat) : Nat :=
  let x2 := w.getD 1 0
  let x15 := w.getD 14 0
  let s1 := ror32 x2 17 ^^^ ror32 x2 19 ^^^ (x2 >>> 10)
  let s0 := ror32 x15 7 ^^^ ror32 x15 18 ^^^ (x15 >>> 3)
  (s1 + w.getD 6 0 + s0 + w.getD 15 0) % 2 ^ 32

/-- The rounds over the constants left: `q` holds the words not yet used of the block, `w` the last sixteen, newest first. -/
def shaRounds : List Nat → List Nat → List Nat → Sha → Sha
  | [], _, _, s => s
  | k :: ks, x :: q, w, s => shaRounds ks q ((x :: w).take 16) (shaRound s k x)
  | k :: ks, [], w, s =>
    let x := shaNext w
    shaRounds ks [] ((x :: w).take 16) (shaRound s k x)

/-- The big-endian words of a byte string. -/
def wordsBE : List Byte → List Nat
  | a :: b :: c :: d :: r => (((a.toNat * 256 + b.toNat) * 256 + c.toNat) * 256 + d.toNat) :: wordsBE r
  | _ => []

/-- One block of SHA-256. -/
def shaBlock (s : Sha) (ws : List Nat) : Sha :=
  let r := shaRounds shaK ws [] s
  ⟨(s.a + r.a) % 2 ^ 32, (s.b + r.b) % 2 ^ 32, (s.c + r.c) % 2 ^ 32, (s.d + r.d) % 2 ^ 32,
   (s.e + r.e) % 2 ^ 32, (s.f + r.f) % 2 ^ 32, (s.g + r.g) % 2 ^ 32, (s.h + r.h) % 2 ^ 32⟩

/-- Blocks of sixteen words; `n` is at least their number. -/
def shaBlocks : Nat → List Nat → Sha → Sha
  | 0, _, s => s
  | n + 1, ws, s => if ws.isEmpty then s else shaBlocks n (ws.drop 16) (shaBlock s (ws.take 16))

/-- The padding of SHA-256: 0x80, zeros, and the bit length in 64 bits. -/
def shaPad (p : List Byte) : List Byte :=
  let n := p.length
  p ++ [0x80#8] ++ zeros ((119 - n % 64) % 64) ++ toBE 8 (8 * n)

/-- SHA-256 as a number, the digest's first output byte most significant. -/
def sha256 (p : List Byte) : Nat :=
  let ws := wordsBE (shaPad p)
  let s := shaBlocks (ws.length / 16) ws shaInit
  ((((((s.a * 2 ^ 32 + s.b) * 2 ^ 32 + s.c) * 2 ^ 32 + s.d) * 2 ^ 32 + s.e) * 2 ^ 32 + s.f) * 2 ^ 32 + s.g) * 2 ^ 32 + s.h

/-- SHA-256 as its 32 bytes in output order (sp. 00 R9). -/
def sha256Bytes (p : List Byte) : List Byte := toBE 32 (sha256 p)

/-- The prime of P-256. -/
def p256 : Nat := 0xffffffff00000001000000000000000000000000ffffffffffffffffffffffff
/-- The order of the base point. -/
def n256 : Nat := 0xffffffff00000000ffffffffffffffffbce6faada7179e84f3b9cac2fc632551
/-- The coefficient b. -/
def b256 : Nat := 0x5ac635d8aa3a93e7b3ebbd55769886bc651d06b0cc53b0f63bce3c3e27d2604b
/-- The base point. -/
def gx256 : Nat := 0x6b17d1f2e12c4247f8bce6e563a440f277037d812deb33a0f4a13945d898c296
/-- The base point. -/
def gy256 : Nat := 0x4fe342e2fe1a7f9b8ee7eb4a7c0f9e162bce33576b315ececbb6406837bf51f5

/-- b^e mod m over the `k` low bits of e, most significant first. -/
def powModBits (b e m : Nat) : Nat → Nat → Nat
  | 0, acc => acc
  | k + 1, acc =>
    let sq := acc * acc % m
    powModBits b e m k (if Nat.testBit e k then sq * b % m else sq)

/-- The inverse modulo a prime, as the power m - 2. -/
def invMod (a m : Nat) : Nat := powModBits (a % m) (m - 2) m 256 1

/-- A point in Jacobian coordinates; z = 0 is the point at infinity. -/
structure Jac where
  x : Nat
  y : Nat
  z : Nat

/-- Doubling on y^2 = x^3 - 3 x + b. -/
def jacDouble (q : Jac) : Jac :=
  let m := p256
  if q.z = 0 ∨ q.y = 0 then ⟨1, 1, 0⟩ else
  let yy := q.y * q.y % m
  let s := 4 * q.x * yy % m
  let zz := q.z * q.z % m
  let t := 3 * ((q.x + m - zz) * (q.x + zz)) % m
  let x := (t * t + 2 * m - 2 * s) % m
  let y := (t * (s + m - x) + 8 * m * m - 8 * yy * yy) % m
  ⟨x, y, 2 * q.y * q.z % m⟩

/-- Addition of two points. -/
def jacAdd (p q : Jac) : Jac :=
  let m := p256
  if p.z = 0 then q else if q.z = 0 then p else
  let pz := p.z * p.z % m
  let qz := q.z * q.z % m
  let u1 := p.x * qz % m
  let u2 := q.x * pz % m
  let s1 := p.y * (qz * q.z % m) % m
  let s2 := q.y * (pz * p.z % m) % m
  if u1 = u2 then (if s1 = s2 then jacDouble p else ⟨1, 1, 0⟩) else
  let h := (u2 + m - u1) % m
  let r := (s2 + m - s1) % m
  let hh := h * h % m
  let hhh := h * hh % m
  let v := u1 * hh % m
  let x := (r * r + 3 * m - hhh - 2 * v) % m
  let y := (r * (v + m - x) + m * m - s1 * hhh) % m
  ⟨x, y, p.z * q.z % m * h % m⟩

/-- u·P + v·Q over the `k` low bits of the scalars, most significant first (`pq` is P + Q). -/
def jacMul2 (u v : Nat) (p q pq : Jac) : Nat → Jac → Jac
  | 0, acc => acc
  | k + 1, acc =>
    let d := jacDouble acc
    let d' := match Nat.testBit u k, Nat.testBit v k with
      | true, true => jacAdd d pq
      | true, false => jacAdd d p
      | false, true => jacAdd d q
      | false, false => d
    jacMul2 u v p q pq k d'

/-- The affine x of a point, and whether it is finite. -/
def jacX (q : Jac) : Nat :=
  let zi := invMod q.z p256
  q.x * (zi * zi % p256) % p256

/-- The affine y of a point. -/
def jacY (q : Jac) : Nat :=
  let zi := invMod q.z p256
  q.y * (zi * (zi * zi % p256) % p256) % p256

/-- The base point. -/
def jacG : Jac := ⟨gx256, gy256, 1⟩

/-- The point that 65 bytes spell, uncompressed: 0x04, x, y; none when they spell no point of the curve. -/
def pointOf (k : List Byte) : Option (Nat × Nat) :=
  let x := ofBE (slice k 1 32)
  let y := ofBE (slice k 33 32)
  if k.length = 65 ∧ byteAt k 0 = 4 ∧ x < p256 ∧ y < p256 ∧
     y * y % p256 = (x * x % p256 * x + 3 * (p256 - x) + b256) % p256 then some (x, y) else none

/-- ECDSA verification of the 64 bytes r, s over the digest `e` by the key point (FIPS 186-5). -/
def ecdsaVerify (key : List Byte) (e : Nat) (sig : List Byte) : Bool :=
  match pointOf key with
  | none => false
  | some (x, y) =>
    let r := ofBE (slice sig 0 32)
    let t := ofBE (slice sig 32 32)
    if sig.length = 64 ∧ 0 < r ∧ r < n256 ∧ 0 < t ∧ t < n256 then
      let w := invMod t n256
      let q : Jac := ⟨x, y, 1⟩
      let res := jacMul2 (e * w % n256) (r * w % n256) jacG q (jacAdd jacG q) 256 ⟨1, 1, 0⟩
      decide (res.z ≠ 0) && decide (jacX res % n256 = r)
    else false

/-- k·G as affine coordinates. -/
def baseMul (k : Nat) : Nat × Nat :=
  let q := jacMul2 k 0 jacG ⟨1, 1, 0⟩ jacG 256 ⟨1, 1, 0⟩
  (jacX q, jacY q)

/-- The 65-byte public key of a private key. -/
def publicKey (d : Nat) : List Byte :=
  let q := baseMul d
  0x04#8 :: (toBE 32 q.1 ++ toBE 32 q.2)

/-- A number of 1 to n - 1 made of any number: private keys and nonces come from `Config.entropy`. -/
def scalarOf (x : Nat) : Nat := x % (n256 - 1) + 1

/-- The 64 bytes r, s of an ECDSA signature over the digest `e` with private key `d` and nonce `k` (FIPS 186-5). A nonce that
gives r = 0 or s = 0, which the standard draws again, does not come up for the entropy of Config by assumption (log 7). -/
def ecdsaSign (d k e : Nat) : List Byte :=
  let r := (baseMul k).1 % n256
  let t := invMod k n256 * (e + r * d) % n256
  toBE 32 r ++ toBE 32 t

end Sys2Proof.Machine
end

