-- ==== Sys2Proof/Machine/Ops.lean ====
section
/-! DEFINITION. The operations every family shares: free values, positions, error records, alarms, traces (sp. 14), and the
frames of the control ports (sp. 13 R365-R379). -/

namespace Sys2Proof.Machine

/-- One free byte (sp. 00 R6): a value the manual calls undefined. -/
def drawByte (s : State) : Byte × State := (Config.freeByte s.free, { s with free := s.free + 1 })

/-- `n` free bytes. -/
def drawBytes : Nat → State → List Byte × State
  | 0, s => ([], s)
  | n + 1, s =>
    let r := drawBytes n { s with free := s.free + 1 }
    (Config.freeByte s.free :: r.1, r.2)

/-- The place of a compute die. -/
def dieplace (d : Die) : Place := ⟨d.val, by omega⟩
/-- IOD0. -/
def iod0 : Place := 4
/-- IOD1. -/
def iod1 : Place := 5
/-- The I/O die of a control port (sp. 13 R363). -/
def kcpPlace : Kcp → Place
  | .a => 4
  | .b => 5
/-- The I/O die of a peer port: P0-P2 on IOD0, P3-P5 on IOD1 (sp. 01 Table 1-1). -/
def portPlace (p : PortNo) : Place := if p.val < 3 then 4 else 5
/-- The number of a control port: 0 = KCP-A, 1 = KCP-B (sp. 13 Table 13-6). -/
def kcpNo : Kcp → Nat
  | .a => 0
  | .b => 1
/-- The other control port. -/
def otherKcp : Kcp → Kcp
  | .a => .b
  | .b => .a

/-- The codes of sp. 02 R34. -/
def Lock.code : Lock → Nat
  | .unlocked => 0
  | .acquiring => 1
  | .locked => 2
  | .holdover => 3
  | .lost => 4

/-- The codes of sp. 13 R385. -/
def Phase.code : Phase → Nat
  | .idle => 0
  | .armed => 1
  | .starting => 2
  | .running => 3
  | .held => 4

/-- The codes of sp. 15 R432. -/
def Lifecycle.code : Lifecycle → Nat
  | .manufacture => 0
  | .provisioned => 1
  | .field => 2
  | .makerAnalysis => 3
  | .scrapped => 4

/-- The beat number that records and frames carry: 0 in UNLOCKED and ACQUIRING (sp. 14 Table 14-1, sp. 13 Table 13-3). -/
def beatNow (s : State) : BitVec 48 :=
  match s.beat.lock with
  | .unlocked | .acquiring => 0
  | _ => s.beat.count

/-- Cues fire in LOCKED and HOLDOVER only (sp. 02 R36). -/
def beatRuns (s : State) : Bool :=
  match s.beat.lock with
  | .locked | .holdover => true
  | _ => false

/-- A step is armed or running: in any state but IDLE (sp. 13 Table 13-10). -/
def stepBusy (s : State) : Bool := s.step.phase ≠ .idle

/-- A step has started: STARTING, RUNNING or HELD. -/
def stepStarted (s : State) : Bool :=
  match s.step.phase with
  | .starting | .running | .held => true
  | _ => false

/-- The brownout hold is in effect (sp. 15 R432). -/
def inHold (s : State) : Bool := s.guard.holdSupply || s.guard.holdPower || s.guard.holdThermal

/-! ## The two clocks (sp. 00 R10, R11) -/

/-- `n` reference cycles pass: as many of the arithmetic clock, or half as many in the brownout hold, where it is the reference clock
divided by two. The cycle in the beat is left to the caller. -/
def refPass (s : State) (n : Nat) : State :=
  if inHold s then
    let t := n + b01 s.half
    { s with ref := s.ref + n, now := s.now + t / 2, half := decide (t % 2 = 1) }
  else { s with ref := s.ref + n, now := s.now + n, half := false }

/-- The reference cycles until the arithmetic clock has counted `n` more. -/
def refOf (s : State) (n : Nat) : Nat := if inHold s then 2 * n - b01 s.half else n

/-- The reference cycles since the arithmetic clock counted `back` fewer: in a brownout hold two for each (sp. 00 R10, R11). -/
def refBack (s : State) (back : Nat) : Nat :=
  if inHold s then
    let h := s.ref - s.guard.holdAt
    if 2 * back + b01 s.half ≤ h then 2 * back + b01 s.half else h + (back - h / 2)
  else
    let a := s.ref - s.guard.heldTo
    let h := s.guard.heldTo - s.guard.holdAt
    if back ≤ a then back else if 2 * (back - a) ≤ h then a + 2 * (back - a) else a + h + (back - a - h / 2)

/-! ## Error records and alarms -/

/-- When the events of a kind raise an alarm (sp. 14 R395). -/
inductive AlarmRule where
  | never | every | first
  deriving DecidableEq, Repr

/-- An event of sp. 14 Table 14-2 or sp. 15 Table 15-14, before it is recorded. `alarm` is the rule of its kind; BEAT_LOCK and
PORT_STATE pass `every` or `never` by their new state. -/
structure Event where
  kind : Byte
  place : Place
  unit : Nat
  inst : Nat
  cue : Nat
  d0 : Nat
  d1 : Nat
  alarm : AlarmRule
  deriving DecidableEq, Repr

/-- The cue field when no cue applies (sp. 14 Table 14-1). -/
def noCue : Nat := 0xFFFFFF

/-- The alarm-only kinds PRED_MISS and HEALTH (sp. 14 R395). -/
def alarmOnly (kind : Byte) : Bool := kind == 0x0A || kind == 0x17

/-- The Replay kinds of sp. 14 Table 14-2: PARITY, ECC_UNCORRECTABLE, META_BAD, CODEC_FAULT, BANK_GATE, LINK_CRC. -/
def replayKind (kind : Byte) : Bool :=
  kind == 0x06 || kind == 0x07 || kind == 0x08 || kind == 0x09 || kind == 0x0D || kind == 0x11

/-- The kinds that a FAILED step's ORIGIN names (sp. 02 R64); BEAT_LOCK only into LOST, which its raiser tells by `d0`. -/
def failKind (kind : Byte) (d0 : Nat) : Bool :=
  kind == 0x03 || kind == 0x04 || kind == 0x0B || kind == 0x0C || kind == 0x0E || (kind == 0x01 && d0 % 8 == 4)

/-- The key of an error source: kind at place (sp. 14 R393). -/
def sourceKey (kind : Byte) (p : Nat) : Nat := p * 128 + kind.toNat

/-- No event yet. -/
def noSource (_ : Nat) : Source := { first := none, last := none, count := 0 }

/-- An empty place. -/
def noAlarms (_ : Nat) : PlaceAlarms := { latch := [], waiting := [], sending := none, folds := [], foldsRead := 0 }

/-- No fold. -/
def noFold (_ : Nat) : Fold := { count := 0, since := 0, formed := none }

/-- The wall-clock time in ns: the last ENVIRONMENT's, advanced by the reference clock of 1 GHz (sp. 13 Table 13-6, sp. 00 R4). -/
def wallNow (s : State) : BitVec 64 := s.cfg.wall + BitVec.ofNat 64 (s.ref - s.cfg.wallAt)

/-- The record of an event (sp. 14 Table 14-1), stamped with the wall clock, which no reply carries (sp. 13 Table 13-6; log 89). -/
def eventRec (s : State) (e : Event) (alarm replay : Bool) : ErrRec :=
  { kind := e.kind, place := BitVec.ofNat 3 e.place.val, unit := BitVec.ofNat 5 e.unit, inst := BitVec.ofNat 8 e.inst,
    cue := BitVec.ofNat 24 e.cue, beat := beatNow s, cycle := s.cycle, alarm := alarm, replay := replay, folded := false,
    d0 := BitVec.ofNat 64 e.d0, d1 := BitVec.ofNat 64 e.d1, recno := 0, wall := wallNow s }

/-- The 256-bit word of a record (sp. 14 Table 14-1). -/
def ErrRec.word (r : ErrRec) : Nat :=
  r.kind.toNat * 2 ^ 248 + r.place.toNat * 2 ^ 245 + r.unit.toNat * 2 ^ 240 + r.inst.toNat * 2 ^ 232 + r.cue.toNat * 2 ^ 208 +
  r.beat.toNat * 2 ^ 160 + r.cycle.toNat * 2 ^ 148 + b01 r.alarm * 2 ^ 147 + b01 r.replay * 2 ^ 146 + b01 r.folded * 2 ^ 145 +
  r.d0.toNat * 2 ^ 80 + r.d1.toNat * 2 ^ 16 + r.recno.toNat

/-- Its 32 bytes, least significant first (sp. 00 R9). -/
def ErrRec.bytes (r : ErrRec) : List Byte := toLE 32 r.word

/-- Whether the event raises an alarm (sp. 14 R395): a `first` kind only with the first event of its source in a step. -/
def raises (s : State) (e : Event) : Bool :=
  match e.alarm with
  | .never => false
  | .every => true
  | .first => !s.step.firstSeen.contains (sourceKey e.kind e.place.val)

/-- Two records of events of one cycle. -/
def sameCycle (a b : ErrRec) : Bool := a.beat = b.beat && a.cycle = b.cycle && a.wall = b.wall

/-- FIRST of a source after an event: of the events of one cycle, the lowest instance (sp. 14 R393). -/
def firstOf (o : Option ErrRec) (r : ErrRec) : ErrRec :=
  match o with
  | none => r
  | some f => if sameCycle f r && decide (r.inst < f.inst) then r else f

/-- LAST of a source after an event: of the events of one cycle, the highest instance (sp. 14 R393). -/
def lastOf (o : Option ErrRec) (r : ErrRec) : ErrRec :=
  match o with
  | none => r
  | some l => if sameCycle l r && decide (r.inst < l.inst) then l else r

/-- Sp. 14 R393: FIRST, LAST and COUNT of the source, in the cycle of the event. -/
def sourceUpdate (s : State) (e : Event) (r : ErrRec) : State :=
  let k := sourceKey e.kind e.place.val
  let o := Sparse.get noSource s.err.sources k
  let o' : Source := { first := some (firstOf o.first r), last := some (lastOf o.last r), count := stopAt top32 (o.count + 1) }
  { s with err := { s.err with sources := Sparse.set noSource s.err.sources k o' } }

/-- The offer of `r` comes before the one that entered as `x`: of one place in one cycle, the lower kind code, then the lower instance. -/
def betterOffer (r x : ErrRec) : Bool :=
  r.place = x.place && sameCycle r x && decide (r.kind.toNat * 256 + r.inst.toNat < x.kind.toNat * 256 + x.inst.toNat)

/-- Sp. 14 R396: the record enters the FIFO when its place's recorder is free and the FIFO has room; otherwise the event is
coalesced. Of the events that a place offers in one cycle the recorder takes the lowest kind code, whichever comes first in the model: that one takes
the place of the other, which is coalesced. An alarm-only kind does neither. -/
def fifoEnter (s : State) (e : Event) (r : ErrRec) : State :=
  if alarmOnly e.kind then s else
  let f := s.err
  if f.fifo.any (betterOffer r) then
    { s with err := { f with fifo := f.fifo.map (fun x => if betterOffer r x then { r with recno := x.recno } else x), overflow := true,
                             coalesced := stopAt top32 (f.coalesced + 1) } }
  else if Sparse.get (fun _ => 0) f.busyUntil e.place.val ≤ s.now ∧ f.fifo.length < 1024 then
    { s with err := { f with fifo := f.fifo ++ [{ r with recno := f.recno }], recno := f.recno + 1,
                             busyUntil := Sparse.set (fun _ => 0) f.busyUntil e.place.val (s.now + 16) } }
  else { s with err := { f with overflow := true, coalesced := stopAt top32 (f.coalesced + 1) } }

/-- The alarms of one place, changed. -/
def setPlaceAlarms (s : State) (p : Nat) (a : PlaceAlarms) : State :=
  { s with alarms := { s.alarms with places := Sparse.set noAlarms s.alarms.places p a } }

/-- A message that no gatherer has taken (sp. 14 R402). -/
def newMessage (id : Nat) (r : ErrRec) : AlarmMsg :=
  { id := id, alarm := r, needA := true, needB := true, taken := false, seq := none, sent := false }

/-- Sp. 14 R400, R401: the alarm takes a free latch entry, or folds when the latch is full; the first fold of a kind at a
place in each beat forms a fold record. -/
def latchAlarm (s : State) (p : Nat) (r : ErrRec) : State :=
  let a := Sparse.get noAlarms s.alarms.places p
  if a.latch.length < 64 then
    let id := s.alarms.nextId
    let s' := setPlaceAlarms s p
      { a with latch := a.latch ++ [{ id := id, alarm := r, left := false, returned := false }],
               waiting := a.waiting ++ [newMessage id r] }
    { s' with alarms := { s'.alarms with nextId := id + 1 } }
  else
    let k := r.kind.toNat
    let f := Sparse.get noFold a.folds k
    let c := stopAt top32 (f.count + 1)
    let since := if f.count = 0 then r.beat else f.since
    let start := s.ref - s.cycle.toNat
    let fr : ErrRec := { r with folded := true, d0 := BitVec.ofNat 64 c, d1 := since.zeroExtend 64, recno := 0 }
    let id := s.alarms.nextId
    let s' := setPlaceAlarms s p
      { a with folds := Sparse.set noFold a.folds k { count := c, since := since, formed := some start },
               waiting := if f.formed = some start then a.waiting else a.waiting ++ [newMessage id fr],
               foldsRead := stopAt top32 (a.foldsRead + 1) }
    if f.formed = some start then s' else { s' with alarms := { s'.alarms with nextId := id + 1 } }

/-- What an event does to the step: the replay mark of sp. 14 R399 and the ORIGIN of sp. 02 R64, the earliest of each set. -/
def stepMark (s : State) (e : Event) : State :=
  if !stepStarted s then s else
  let o : Origin := { kind := e.kind, place := e.place, cue := BitVec.ofNat 24 e.cue, time := s.ref }
  let t := s.step
  let t1 := if failKind e.kind e.d0 && t.originF.isNone then { t with originF := some o } else t
  let t2 := if replayKind e.kind then
      { t1 with replay := true, originS := (match t1.originS with
                                            | none => some o
                                            | some x => some x) } else t1
  { s with step := t2 }

/-- A `first` kind has been seen in this step (sp. 14 R395). -/
def markFirst (s : State) (e : Event) : State :=
  if e.alarm = .first ∧ !s.step.firstSeen.contains (sourceKey e.kind e.place.val) then
    { s with step := { s.step with firstSeen := sourceKey e.kind e.place.val :: s.step.firstSeen } }
  else s

/-- The health monitor counts PARITY and ECC_UNCORRECTABLE events (sp. 14 Table 14-4). -/
def healthEvent (s : State) (e : Event) : State :=
  if e.kind == 0x06 || e.kind == 0x07 then
    { s with health := { s.health with cur := { s.health.cur with det := s.health.cur.det + 1 } } }
  else s

/-- One error event: its source, the FIFO, its alarm, its mark on the step (sp. 14 R393-R401). -/
def raise (s : State) (e : Event) : State :=
  let al := raises s e
  let r := eventRec s e al (replayKind e.kind && stepStarted s)
  let s1 := healthEvent (markFirst (fifoEnter (sourceUpdate s e r) e r) e) e
  let s2 := if al then latchAlarm s1 e.place.val r else s1
  stepMark s2 e

/-- The order in which events of one cycle are taken (sp. 14 R393, R396): ascending place, kind code, unit instance; UNIT last. -/
def Event.key (e : Event) : Nat := (e.place.val * 256 + e.kind.toNat) * 2 ^ 32 + e.inst * 2 ^ 16 + e.unit

/-- Insertion by key, behind equal keys. -/
def insertEvent (e : Event) : List Event → List Event
  | [] => [e]
  | x :: r => if e.key < x.key then e :: x :: r else x :: insertEvent e r

/-- The events of one cycle, in the order they are taken. -/
def sortEvents (l : List Event) : List Event := l.foldl (fun acc e => insertEvent e acc) []

/-- Several events of one cycle. -/
def raiseAll (s : State) (l : List Event) : State := (sortEvents l).foldl raise s

/-- An event without a cue. -/
def ev (kind : Byte) (p : Place) (unit inst d0 d1 : Nat) (a : AlarmRule) : Event :=
  { kind := kind, place := p, unit := unit, inst := inst, cue := noCue, d0 := d0, d1 := d1, alarm := a }

/-! ## Traces -/

/-- The capacity of the trace ring (sp. 14 R404). -/
def traceCap : Nat := 524288

/-- A trace record enters the ring; a record not yet sent that it overwrites is dropped and counted per kind (sp. 14 R405). -/
def traceAdd (s : State) (r : TraceRec) : State :=
  let t := s.trace
  if t.ring.length < traceCap then { s with trace := { t with ring := t.ring ++ [r] } }
  else
    match t.ring with
    | [] => s
    | d :: rest =>
      { s with trace := { t with ring := rest ++ [r], dropped := Sparse.bump top64 t.dropped d.kind.toNat 1,
                                 beatDrops := t.beatDrops + 1, total := t.total + 1 } }

/-- A trace record of the present cycle, written only while traces are on (sp. 14 R404). -/
def traceOn (s : State) (kind : Byte) (p : Place) (unit inst cue addr count : Nat) : State :=
  if s.trace.on then
    traceAdd s { kind := kind, place := BitVec.ofNat 3 p.val, unit := BitVec.ofNat 5 unit, inst := BitVec.ofNat 8 inst,
                 cue := BitVec.ofNat 24 cue, beat := beatNow s, cycle := s.cycle, addr := BitVec.ofNat 64 addr,
                 count := BitVec.ofNat 32 count }
  else s

/-- A trace record of an event of cycle `c`, at most now: its beat and cycle are those of `c`. -/
def traceAt (s : State) (c : Nat) (kind : Byte) (p : Place) (unit inst cue addr count : Nat) : State :=
  let back := refBack s (s.now - c)
  let b := (back + 4095 - s.cycle.toNat) / 4096
  let t := traceOn { s with cycle := s.cycle - BitVec.ofNat 12 back, beat := { s.beat with count := s.beat.count - BitVec.ofNat 48 b } }
    kind p unit inst cue addr count
  { s with trace := t.trace }

/-- The 32 bytes of a trace record (sp. 14 Table 14-3). -/
def TraceRec.bytes (r : TraceRec) : List Byte :=
  toLE 32 (r.kind.toNat * 2 ^ 248 + r.place.toNat * 2 ^ 245 + r.unit.toNat * 2 ^ 240 + r.inst.toNat * 2 ^ 232 +
    r.cue.toNat * 2 ^ 208 + r.beat.toNat * 2 ^ 160 + r.cycle.toNat * 2 ^ 148 + r.addr.toNat * 2 ^ 80 + r.count.toNat * 2 ^ 48)

/-! ## Control-port frames -/

/-- One control port. -/
def kcp (s : State) : Kcp → KcpSt
  | .a => s.ctl.a
  | .b => s.ctl.b

/-- One control port, changed. -/
def setKcp (s : State) (k : Kcp) (v : KcpSt) : State :=
  match k with
  | .a => { s with ctl := { s.ctl with a := v } }
  | .b => { s with ctl := { s.ctl with b := v } }

/-- The frame counter of a class (sp. 13 R375). -/
def Session.out (t : Session) (c : BitVec 2) : BitVec 32 :=
  if c = 0 then t.out0 else if c = 1 then t.out1 else if c = 2 then t.out2 else t.out3

/-- That counter advanced. -/
def Session.bump (t : Session) (c : BitVec 2) : Session :=
  if c = 0 then { t with out0 := t.out0 + 1 } else if c = 1 then { t with out1 := t.out1 + 1 }
  else if c = 2 then { t with out2 := t.out2 + 1 } else { t with out3 := t.out3 + 1 }

/-- A frame as it will leave, without what the sending fills in. -/
structure FrameOut where
  opcode : Byte
  cls : BitVec 2
  more : Bool
  report : Bool
  status : Byte
  refSeq : BitVec 32
  payload : List Byte
  deriving DecidableEq, Repr

/-! ### Frames as bytes (sp. 13 R368, R369) -/

/-- The 256-bit header of Table 13-3 by its fields. -/
def frameHeader (opcode cls dir more report status length seq refSeq session cred0 cred1 cred2 beat : Nat) : Nat :=
  opcode * 2 ^ 248 + cls * 2 ^ 246 + dir * 2 ^ 245 + more * 2 ^ 244 + report * 2 ^ 243 + status * 2 ^ 224 + length * 2 ^ 208 +
  seq * 2 ^ 176 + refSeq * 2 ^ 144 + session * 2 ^ 112 + cred0 * 2 ^ 104 + cred1 * 2 ^ 96 + cred2 * 2 ^ 88 + beat * 2 ^ 32

/-- Header, payload, the CRC-32C over both, and zeros up to a whole number of 256-byte units. -/
def frameBytes (header : Nat) (payload : List Byte) : List Byte :=
  let p := toLE 32 header ++ payload
  let q := p ++ toLE 4 (crc32c p)
  q ++ zeros ((256 - q.length % 256) % 256)

/-- A frame that the device sends, as bytes: DIR = 1. -/
def OutFrame.bytes (o : OutFrame) : List Byte :=
  frameBytes (frameHeader o.opcode.toNat o.cls.toNat 1 (b01 o.more) (b01 o.report) o.status.toNat o.payload.length o.seq.toNat
    o.refSeq.toNat o.session.toNat o.cred0.toNat o.cred1.toNat o.cred2.toNat o.beat.toNat) o.payload

/-- A command frame of the control node, as bytes. -/
def Frame.bytes (opcode : Byte) (f : Frame) : List Byte :=
  frameBytes (frameHeader opcode.toNat f.cls.toNat 0 0 0 0 f.payload.length f.seq.toNat 0 f.session.toNat 0 0 0 0) f.payload

/-- Received bytes pass step 1 of Table 13-4: whole units, as many as LENGTH asks (one in class 0, at most 32), and the CRC. -/
def frameSound (raw : List Byte) : Bool :=
  let h := leAt raw 0 32
  let n := bits h 223 208
  let units := ceilDiv (36 + n) 256
  decide (raw.length = 256 * units ∧ units ≤ 32 ∧ (bits h 247 246 = 0 → units = 1)) &&
  decide (crc32c (raw.take (32 + n)) = leAt raw (32 + n) 4)

/-- A received header passes step 3: DIR = 0, and the reserved fields are zero. -/
def headerSound (raw : List Byte) : Bool :=
  let h := leAt raw 0 32
  bits h 245 245 = 0 && bits h 242 232 = 0 && bits h 87 80 = 0 && bits h 31 0 = 0

/-- The credits of a port are reported in the frame it sends (sp. 13 R371). -/
def creditsReported (k : KcpSt) : KcpSt :=
  { k with cred0 := { k.cred0 with reported := k.cred0.freed }, cred1 := { k.cred1 with reported := k.cred1.freed },
           cred2 := { k.cred2 with reported := k.cred2.freed } }

/-- The frame `f` leaves on port `k` with SEQ `q` (sp. 13 R369, R371). -/
def emit (s : State) (k : Kcp) (f : FrameOut) (q : BitVec 32) : State :=
  let p := kcp s k
  let o : OutFrame :=
    { port := k, opcode := f.opcode, cls := f.cls, more := f.more, report := f.report, status := f.status, seq := q,
      refSeq := f.refSeq, session := s.ses.current.getD 0, cred0 := BitVec.ofNat 8 p.cred0.freed,
      cred1 := BitVec.ofNat 8 p.cred1.freed, cred2 := BitVec.ofNat 8 p.cred2.freed, beat := beatNow s, payload := f.payload }
  let s1 := setKcp s k (creditsReported p)
  { s1 with ctl := { s1.ctl with sent := s1.ctl.sent ++ [o] } }

/-- The frame `f` leaves on port `k`, numbered by its class counter, which a frame without a session neither carries nor
advances (sp. 13 R375, sp. 16 R466). -/
def sendOn (s : State) (k : Kcp) (f : FrameOut) : State :=
  match s.ses.current with
  | none => emit s k f 0
  | some _ => { (emit s k f (s.ses.out f.cls)) with ses := s.ses.bump f.cls }

/-- A reply or report leaves on the port that carries control (sp. 13 Table 13-2); with no port up it goes nowhere. -/
def sendFrame (s : State) (f : FrameOut) : State :=
  match s.ctl.carrier with
  | none => s
  | some k => sendOn s k f

/-- An unsolicited report on the control port. -/
def sendReport (s : State) (opcode : Byte) (cls : BitVec 2) (payload : List Byte) : State :=
  sendFrame s { opcode := opcode, cls := cls, more := false, report := true, status := 0, refSeq := 0, payload := payload }

/-- The payloads of a reply longer than one frame: 8,156 bytes each (sp. 13 R368, R377); `n` bounds their number. -/
def frameSplit : Nat → List Byte → List (List Byte)
  | 0, p => [p]
  | n + 1, p => if p.length ≤ 8156 then [p] else p.take 8156 :: frameSplit n (p.drop 8156)

/-- The frames of one payload. -/
def framesOf (p : List Byte) : List (List Byte) := frameSplit p.length p

/-- The frames of a final reply: class 1, MORE in every frame but the last (sp. 13 R377). -/
def replyFrames (s : State) (opcode : Byte) (refSeq : BitVec 32) (status : Byte) : List (List Byte) → State
  | [] => s
  | [p] => sendFrame s { opcode := opcode, cls := 1, more := false, report := false, status := status, refSeq := refSeq,
                         payload := p }
  | p :: r => replyFrames (sendFrame s { opcode := opcode, cls := 1, more := true, report := false, status := status,
                                         refSeq := refSeq, payload := p }) opcode refSeq status r

/-- The expectation of a class (sp. 13 R374). -/
def Session.exp (t : Session) (c : BitVec 2) : BitVec 32 := if c = 0 then t.exp0 else t.exp1

/-- `seq` lies within the 256 values below `expect`, which counts from 0 (sp. 13 R374; log 90). -/
def below (expect seq : BitVec 32) : Bool := decide (seq.toNat < expect.toNat ∧ expect.toNat ≤ seq.toNat + 256)

/-- The final reply is stored for a duplicate, within the 256 values below the expectation (sp. 13 R374). -/
def storeReply (s : State) (o : Owed) (status : Byte) (frames : List (List Byte)) : State :=
  if o.session.isSome ∧ o.session = s.ses.current then
    let keep := s.ses.stored.filter (fun x => below (s.ses.exp x.cls) x.seq)
    { s with ses := { s.ses with
        stored := keep ++ [{ cls := o.cls, seq := o.seq, opcode := o.opcode, status := status, frames := frames }] } }
  else s

/-- The one final reply of a command (sp. 13 R377), on the port that carries control when it is sent (R367). -/
def finish (s : State) (o : Owed) (status : Byte) (payload : List Byte) : State :=
  let fr := framesOf payload
  replyFrames (storeReply s o status fr) o.opcode o.seq status fr

/-! Status codes of sp. 13 Table 13-5. -/
def stOk : Byte := 0x00
def stAccepted : Byte := 0x01
def stUnknownOpcode : Byte := 0x10
def stWrongClass : Byte := 0x11
def stBadLength : Byte := 0x12
def stBadParam : Byte := 0x13
def stNoSession : Byte := 0x14
def stSeqError : Byte := 0x15
def stNotControl : Byte := 0x16
def stBusy : Byte := 0x17
def stArmRefused : Byte := 0x20
def stStateDirty : Byte := 0x21
def stNotLocked : Byte := 0x22
def stBeatTooEarly : Byte := 0x23
def stNoStep : Byte := 0x24
def stHoldPending : Byte := 0x25
def stHoldUnsafe : Byte := 0x26
def stSheetRejected : Byte := 0x30
def stStoreBusy : Byte := 0x31
def stHashUnknown : Byte := 0x32
def stIncomplete : Byte := 0x33
def stTenantState : Byte := 0x40
def stPaddockBad : Byte := 0x41
def stAddrRefused : Byte := 0x50
def stTransferUnknown : Byte := 0x51
def stTransferLimit : Byte := 0x52
def stSecureRefused : Byte := 0x60
def stSigBad : Byte := 0x80
def stKeyUnknown : Byte := 0x81
def stCounterStale : Byte := 0x82
def stTargetWrong : Byte := 0x83
def stLifecycle : Byte := 0x84

/-- What the tables give a command: opcode, class, whether it needs a session, whether a standby port takes it (sp. 13
Table 13-2), and the stages at which it is accepted before READY (sp. 16 Table 16-2). -/
structure CmdInfo where
  opcode : Byte
  cls : BitVec 2
  needSession : Bool
  standby : Bool
  stages : List Nat
  deriving DecidableEq, Repr

/-- How a command ends: a final reply, an ACCEPTED reply whose final reply comes later, or a final reply that comes later. -/
inductive Ans where
  | final (status : Byte) (payload : List Byte)
  | accepted
  | later
  deriving DecidableEq, Repr

/-- The buffers of a class on each port: 4, 16, 64 (sp. 13 R371); class 3 has none. -/
def classCap (c : BitVec 2) : Nat := if c = 0 then 4 else if c = 1 then 16 else if c = 2 then 64 else 0

/-- The credit counters of a class. -/
def KcpSt.cred (k : KcpSt) (c : BitVec 2) : Credit := if c = 0 then k.cred0 else if c = 1 then k.cred1 else k.cred2

/-- They, changed. -/
def KcpSt.setCred (k : KcpSt) (c : BitVec 2) (v : Credit) : KcpSt :=
  if c = 0 then { k with cred0 := v } else if c = 1 then { k with cred1 := v } else if c = 2 then { k with cred2 := v } else k

/-- The control node holds a credit for the class on this port: fewer frames have arrived than the buffers plus those
reported freed (sp. 13 R371). -/
def creditHeld (k : KcpSt) (c : BitVec 2) : Bool := (k.cred c).arrived < (k.cred c).reported + classCap c

/-- A frame arrives and its buffer is freed in the same step: it is discarded, executed or handed on (sp. 13 R371). -/
def creditUse (s : State) (k : Kcp) (c : BitVec 2) : State :=
  let p := kcp s k
  setKcp s k (p.setCred c { (p.cred c) with arrived := (p.cred c).arrived + 1, freed := (p.cred c).freed + 1 })

/-- CREDIT_OVERRUN (sp. 13 R370 step 2): counted and recorded; no credit returns. -/
def creditOverrun (s : State) (k : Kcp) (c : BitVec 2) : State :=
  let p := kcp s k
  raise (setKcp s k { p with overrun := stopAt top32 (p.overrun + 1) })
    (ev 0x14 (kcpPlace k) 18 (kcpNo k) c.toNat (kcpNo k) .never)

/-- A stray data frame (sp. 13 R370): counted and recorded, no reply. -/
def stray (s : State) (k : Kcp) (opcode : Byte) : State :=
  let p := kcp s k
  raise (setKcp s k { p with stray := stopAt top32 (p.stray + 1) })
    (ev 0x15 (kcpPlace k) 18 (kcpNo k) opcode.toNat (kcpNo k) .never)

/-- A reply of sp. 13 Table 13-4 steps 4 to 8, which is not stored and does not advance the expectation. -/
def refuse (s : State) (opcode : Byte) (seq : BitVec 32) (status : Byte) : State :=
  replyFrames s opcode seq status [[]]

/-- NOT_CONTROL goes out on the port the frame came on (sp. 13 Table 13-2). -/
def refuseOn (s : State) (k : Kcp) (opcode : Byte) (seq : BitVec 32) (status : Byte) : State :=
  sendOn s k { opcode := opcode, cls := 1, more := false, report := false, status := status, refSeq := seq, payload := [] }

/-- The expectation advanced. -/
def Session.advance (t : Session) (c : BitVec 2) : Session :=
  if c = 0 then { t with exp0 := t.exp0 + 1 } else { t with exp1 := t.exp1 + 1 }

/-- What step 8 of Table 13-4 finds (sp. 13 R374). -/
inductive SeqCheck where
  | expected | duplicate | wrong
  deriving DecidableEq, Repr

/-- Sp. 13 R374: expected, within the 256 values below, or neither. -/
def seqCheck (expect seq : BitVec 32) : SeqCheck :=
  if seq = expect then .expected else if below expect seq then .duplicate else .wrong

/-- A duplicate: the stored final reply goes out again; nothing while the original still executes (sp. 13 R374). -/
def duplicate (s : State) (c : BitVec 2) (seq : BitVec 32) : State :=
  match s.ses.stored.find? (fun x => x.cls = c && x.seq = seq) with
  | some x => replyFrames s x.opcode x.seq x.status x.frames
  | none => s

/-- The stage refuses the command (sp. 16 R462): every command at READY, and those that the stage names before it. -/
def stageRefuses (s : State) (i : CmdInfo) : Bool := s.pwr.stage ≠ 6 && !i.stages.contains s.pwr.stage

/-- SCRAPPED takes IDENTITY and ATTEST only (sp. 15 R452). -/
def scrapRefuses (s : State) (i : CmdInfo) : Bool :=
  s.guard.lifecycle = .scrapped && !(i.opcode == 0x00 || i.opcode == 0x05)

/-- A zeroisation that start-up found unfinished is under way: only IDENTITY and ATTEST are accepted (sp. 15 R453). -/
def zeroStart (s : State) : Bool := s.guard.zero.any (·.reply.isNone)

/-- What refuses a command whose length and parameters are right: the stage, the lifecycle, a zeroisation under way. A GUARD_COMMAND
answers for the last two itself, among the checks of its envelope (sp. 13 R389; log 91). -/
def stateRefuses (s : State) (i : CmdInfo) : Option Byte :=
  if stageRefuses s i then some stBusy
  else if i.opcode = 0x80 then none
  else if scrapRefuses s i then some stLifecycle
  else if zeroStart s ∧ !(i.opcode == 0x00 || i.opcode == 0x05) then some stBusy
  else none

/-- The answer says that the length or a parameter is wrong. -/
def formFault : Ans → Bool
  | .final st _ => st == stBadLength || st == stBadParam
  | _ => false

/-- A command's answer as its reply. -/
def answer (t : State) (o : Owed) : Ans → State
  | .final st p => finish t o st p
  | .accepted => sendFrame t { opcode := o.opcode, cls := 1, more := false, report := false, status := stAccepted,
                               refSeq := o.seq, payload := [] }
  | .later => t

/-- Step 9 of Table 13-4 for a command whose SEQ is settled: its length and parameters, then the stage, the lifecycle and a zeroisation
under way, then its own conditions; and its reply. -/
def runBody (s : State) (o : Owed) (i : CmdInfo) (body : State → Owed → State × Ans) : State :=
  let r := body s o
  if formFault r.2 then answer r.1 o r.2
  else
    match stateRefuses s i with
    | some st => finish s o st []
    | none => answer r.1 o r.2

/-- The frame may pass without a current session (sp. 13 R378, sp. 16 R463). -/
def sessionFree (s : State) (i : CmdInfo) : Bool :=
  !i.needSession ||
  (s.pwr.stage = 2 && (i.opcode == 0x94 || i.opcode == 0x95 || i.opcode == 0x96))

/-- SEQ is not checked: no session is current, the command is SESSION_OPEN, accepted at any time, or NO_FIRMWARE takes it
(sp. 13 R378, sp. 16 R463). -/
def seqFree (s : State) (i : CmdInfo) : Bool :=
  s.ses.current.isNone || i.opcode == 0x01 ||
  (s.pwr.stage = 2 && (i.opcode == 0x94 || i.opcode == 0x95 || i.opcode == 0x96))

/-- The port is the standby port: the other one carries control (sp. 13 R365). -/
def isStandby (s : State) (k : Kcp) : Bool :=
  match s.ctl.carrier with
  | some c => c ≠ k
  | none => false

/-- The command that still owes its reply, from its frame. -/
def owedOf (f : Frame) (opcode : Byte) : Owed := { opcode := opcode, cls := f.cls, seq := f.seq, session := some f.session }

/-- A frame keeps its ingest buffer while it waits: the credit is not returned (sp. 13 R371, sp. 10 R307). -/
def holdCredit (s : State) (f : Frame) : State :=
  let k := kcp s f.port
  setKcp s f.port (k.setCred f.cls { (k.cred f.cls) with freed := (k.cred f.cls).freed - 1 })

/-- The buffer is freed when the frame is taken; a link that has come up since has its counts afresh. -/
def freeCredit (s : State) (f : Frame) : State :=
  let k := kcp s f.port
  setKcp s f.port (k.setCred f.cls { (k.cred f.cls) with freed := min (k.cred f.cls).arrived ((k.cred f.cls).freed + 1) })

/-- The transfer ID of tier-3 images and restores (sp. 14 R416, R422). -/
def tier3Id : BitVec 32 := 0xFFFFFFF3

/-- A class 2 frame of the port waits: those after it wait too, in order of arrival (sp. 13 R373). -/
def dataWaits (k : Kcp) : List Instr → Bool
  | [] => false
  | .writeData f :: r => f.port = k || dataWaits k r
  | .sheetData f :: r => f.port = k || dataWaits k r
  | .fwSlotData f :: r => f.port = k || dataWaits k r
  | _ :: r => dataWaits k r

/-- A class 2 data frame waits, in order of arrival (sp. 10 R307, sp. 13 R373). -/
def holdData (s : State) (f : Frame) (c : Instr) : State := holdCredit { s with fwHeld := s.fwHeld ++ [c] } f

/-- What a class 2 frame `c` does, after those of its port that wait (sp. 13 R373). -/
def inTurn (f : Frame) (c : Instr) (body : State → Option State) (s : State) : Option State :=
  if dataWaits f.port s.fwHeld then some (holdData s f c) else body s

/-- A class 1 command that waits for a DMA channel, and so has not replied (sp. 10 R307). -/
def isHeldCommand : Instr → Bool
  | .read _ | .writeClose _ => true
  | _ => false

/-- A class 1 command has been taken and has not sent its final reply: one that waits for a channel, or a zeroisation (sp. 13 R373, sp. 15
R453). -/
def class1Open (s : State) : Bool := s.fwHeld.any isHeldCommand || s.guard.zero.any (·.reply.isSome)

/-- A command that has passed steps 1 to 8 is taken; one of class 1 waits for those before it (sp. 13 R373). SESSION_OPEN is accepted at
any time (R378). -/
def takeCommand (s : State) (f : Frame) (c : Instr) (o : Owed) (i : CmdInfo) (body : State → Owed → State × Ans) : State :=
  if f.cls = 1 ∧ i.opcode ≠ 0x01 ∧ (class1Open s ∨ !s.waiting1.isEmpty) then
    { holdCredit s f with waiting1 := s.waiting1 ++ [(c, o)] }
  else runBody s o i body

/-- Steps 5 to 9 of Table 13-4 for a frame in class 0, 1 or 2 that is a command with reply. -/
def checkCommand (s : State) (f : Frame) (c : Instr) (i : CmdInfo) (body : State → Owed → State × Ans) : State :=
  if f.cls = 2 ∧ f.cls ≠ i.cls then stray s f.port i.opcode
  else if f.cls ≠ i.cls then refuse s i.opcode f.seq stWrongClass
  else if isStandby s f.port ∧ !i.standby then refuseOn s f.port i.opcode f.seq stNotControl
  else if s.ses.current ≠ some f.session ∧ !sessionFree s i then refuse s i.opcode f.seq stNoSession
  else if seqFree s i then takeCommand s f c { opcode := i.opcode, cls := f.cls, seq := f.seq, session := none } i body
  else
    match seqCheck (s.ses.exp f.cls) f.seq with
    | .expected =>
      takeCommand { s with ses := s.ses.advance f.cls } f c
        { opcode := i.opcode, cls := f.cls, seq := f.seq, session := s.ses.current } i body
    | .duplicate => duplicate s f.cls f.seq
    | .wrong => refuse s i.opcode f.seq stSeqError

/-- A command frame `c` at the ingest (sp. 13 R370): nothing arrives on a link that is down; the credit check; then the rest. When a
waiting command's turn has come, only step 9 is left. -/
def runCommand (s : State) (f : Frame) (c : Instr) (i : CmdInfo) (body : State → Owed → State × Ans) : State :=
  match s.taking with
  | some o => runBody (freeCredit { s with taking := none } f) o i body
  | none =>
    if !(kcp s f.port).up then s
    else if !creditHeld (kcp s f.port) f.cls then creditOverrun s f.port f.cls
    else checkCommand (creditUse s f.port f.cls) f c i body

/-- The waiting command whose turn has come, and the state in which it is taken (sp. 13 R373). -/
def nextWaiting (s : State) : Option (Instr × State) :=
  match s.waiting1 with
  | [] => none
  | (c, o) :: r => if class1Open s then none else some (c, { s with waiting1 := r, taking := some o })

/-- Steps 5 to 9 for a class 2 data frame: any failure makes it stray; its body says what an accepted chunk does, or none. -/
def checkData (s : State) (f : Frame) (i : CmdInfo) (body : State → Option State) : State :=
  if f.cls ≠ 2 then refuse s i.opcode f.seq stWrongClass
  else if isStandby s f.port ∧ !i.standby then stray s f.port i.opcode
  else if s.ses.current ≠ some f.session ∧ !sessionFree s i then stray s f.port i.opcode
  else if stageRefuses s i ∨ scrapRefuses s i ∨ s.guard.zero.isSome then stray s f.port i.opcode
  else match body s with
    | some t => t
    | none => stray s f.port i.opcode

/-- A data frame at the ingest (sp. 13 R370). -/
def runData (s : State) (f : Frame) (i : CmdInfo) (body : State → Option State) : State :=
  if !(kcp s f.port).up then s
  else if !creditHeld (kcp s f.port) f.cls then creditOverrun s f.port f.cls
  else checkData (creditUse s f.port f.cls) f i body

/-- A plain class 1 command of the families accepted from READY. -/
def cmd (opcode : Byte) : CmdInfo := { opcode := opcode, cls := 1, needSession := true, standby := false, stages := [] }

/-- A class 1 command of families 0x0, 0x1, 0x7, 0x8 and of maintenance, accepted from stage FIRMWARE (sp. 16 Table 16-2). -/
def cmdEarly (opcode : Byte) : CmdInfo := { cmd opcode with stages := [4, 5, 7] }

/-- The body of a command refused, changing nothing. -/
def no (s : State) (status : Byte) : State × Ans := (s, .final status [])

/-- The body of a command done, with its reply payload. -/
def ok (s : State) (payload : List Byte) : State × Ans := (s, .final stOk payload)

/-- The step that a reached outcome is. -/
abbrev Result := Host.Outcome State Fault Refusal

end Sys2Proof.Machine
end

