-- ==== Sys2Proof/Decode.lean ====
section
/-! DEFINITION. The commands of received control frames (sp. 13 R369, R388). No row of spec/opcode_table.json gives bits of its own; those
that arrive as frames are spelled by the bits of Table 13-3 and the opcode tables. -/

namespace Sys2Proof

open Sys2Proof.Machine

/-- The GUARD_COMMAND of a body code (sp. 15 Table 15-7). A code that the table does not give is refused by every one of them alike. -/
def guardCommand (f : Frame) : Instr :=
  match byteAt f.payload 64 with
  | 0x02 => .setPorts f
  | 0x03 => .setFwMinSv f
  | 0x04 => .rotateOperatorKey f
  | 0x05 => .enterField f
  | 0x06 => .scrap f
  | 0x07 => .enterMakerAnalysis f
  | 0x08 => .generateDeviceKey f
  | 0x09 => .completeProvision f
  | 0x0A => .setRegister f
  | _ => .setLimits f

/-- The command of a frame with an OPCODE (sp. 13 Tables 13-6, 13-7, 13-8, 13-11, 13-12). -/
def frameCommand (opcode : Byte) (f : Frame) : Instr :=
  match opcode.toNat with
  | 0x00 => .identity f
  | 0x01 => .sessionOpen f
  | 0x02 => .sessionClose f
  | 0x03 => .controlTake f
  | 0x04 => .beatReacquire f
  | 0x05 => .attest f
  | 0x10 => .deviceIdSet f
  | 0x11 => .neighbourWrite f
  | 0x12 => .neighbourRead f
  | 0x13 => .stateRegionWrite f
  | 0x14 => .stateRegionRead f
  | 0x15 => .wingWrite f
  | 0x16 => .wingRead f
  | 0x17 => .panelThreshWrite f
  | 0x18 => .panelThreshRead f
  | 0x19 => .beatDelayWrite f
  | 0x1A => .beatDelayRead f
  | 0x1B => .environment f
  | 0x20 => .sheetBegin f
  | 0x21 => .sheetData f
  | 0x22 => .sheetVerify f
  | 0x23 => .sheetStatus f
  | 0x24 => .sheetClear f
  | 0x30 => .writeOpen f
  | 0x31 => .writeData f
  | 0x32 => .writeClose f
  | 0x33 => .read f
  | 0x35 => .cancel f
  | 0x40 => .arm f
  | 0x41 => .startAtBeat f
  | 0x42 => .hold f
  | 0x43 => .resume f
  | 0x44 => .stepAbort f
  | 0x45 => .stepStatus f
  | 0x50 => .tenantOpen f
  | 0x51 => .tenantClose f
  | 0x52 => .tenantKill f
  | 0x53 => .tenantStatus f
  | 0x54 => .scrubStatus f
  | 0x60 => .secureNow f
  | 0x61 => .secureFloor f
  | 0x62 => .understudyWrite f
  | 0x63 => .understudyRead f
  | 0x64 => .journalRead f
  | 0x65 => .restore f
  | 0x71 => .healthRead f
  | 0x72 => .countersRead f
  | 0x73 => .errorRead f
  | 0x74 => .alarmRead f
  | 0x75 => .hostFigures f
  | 0x76 => .traceConfig f
  | 0x80 => guardCommand f
  | 0x81 => .guardRead f
  | 0x90 => .fuseMapRead f
  | 0x91 => .tableImageRead f
  | 0x92 => .dmaStateRead f
  | 0x93 => .regionScrub f
  | 0x94 => .fwSlotData f
  | 0x95 => .fwSlotCommit f
  | 0x96 => .deviceReset f
  | _ => .unknownOpcode opcode f

/-- The fields of a received header (sp. 13 Table 13-3) with the payload. -/
def receivedFrame (k : Kcp) (raw : List Byte) : Frame :=
  let h := leAt raw 0 32
  { port := k, cls := BitVec.ofNat 2 (bits h 247 246), seq := BitVec.ofNat 32 (bits h 207 176),
    session := BitVec.ofNat 32 (bits h 143 112), payload := slice raw 32 (bits h 223 208) }

/-- The command of units received on a port, rightly marked and with no symbol corrected (sp. 13 R369, R370). -/
def receivedCommand (k : Kcp) (raw : List Byte) : Instr :=
  if frameSound raw && headerSound raw then frameCommand (BitVec.ofNat 8 (bits (leAt raw 0 32) 255 248)) (receivedFrame k raw)
  else .badFrame k raw { marks := true, fec := 0 }

/-- The command that a word spells: whole 256-byte units received on KCP-A. Any other word spells none. -/
def decodeTableWord (nbits w : Nat) : Option Instr :=
  if nbits = 0 ∨ nbits % 2048 ≠ 0 then none else some (receivedCommand .a (toLE (nbits / 8) w))

end Sys2Proof
end

