-- ==== Sys2Proof/Machine/Link.lean ====
section
/-! DEFINITION. The peer ports' shared operations: a port's state and map entry, and the sending of flits (sp. 11 R325-R335). -/

namespace Sys2Proof.Machine

/-- The receive buffers of each class: 16, 64, 2,048, 512 flits (sp. 11 R335). -/
def linkCap (c : Nat) : Nat := if c = 0 then 16 else if c = 1 then 64 else if c = 2 then 2048 else 512

/-- A port at reset: DISABLED, map entry zero (sp. 11 R325, R326; log 13). -/
def Port.reset : Port :=
  { num := 0, me := 0, entry := 0, st := .disabled, latency := 0, rxSerial := 0, measured := false, token := 0, tokensOut := [],
    lastToken := none, txSeq := 0, retry := [], rxNext := 0, reorder := [], credits := [], rxFreed := [], naks := [],
    curXfer := none, nextXfer := 0, rx := [], tx := [], txXfer := none, waitq := [], out := [], corrected := [],
    uncorrectable := [], retries := 0, exhausted := 0, retrains := 0, clamps := 0, skewRun := 0, skewBeat := 0, ackSent := 0 }

/-- The default of the port map: a port at reset, with its number. -/
def noPort (p : Nat) : Port := { Port.reset with num := BitVec.ofNat 3 p }

/-- One port. -/
def port (s : State) (p : PortNo) : Port := Sparse.get noPort s.ports p.val

/-- One port, changed. -/
def setPort (s : State) (p : PortNo) (v : Port) : State := { s with ports := Sparse.set noPort s.ports p.val v }

/-- PEER_ID of a map entry (sp. 11 Table 11-2). -/
def peerId (e : BitVec 128) : Nat := bits e.toNat 127 120
/-- PEER_PORT. -/
def peerPort (e : BitVec 128) : Nat := bits e.toNat 119 117
/-- ENABLE. -/
def peerEnable (e : BitVec 128) : Bool := bit e.toNat 116
/-- PEER_SERIAL. -/
def peerSerial (e : BitVec 128) : Nat := bits e.toNat 111 16

/-- Every lane of the port is enabled in PORT_ENABLE (sp. 15 R435). -/
def lanesOn (s : State) (p : PortNo) : Bool := bits s.guard.portEnable.toNat (15 + 8 * p.val) (8 + 8 * p.val) = 0xFF

/-- The codes of sp. 11 R326. -/
def PortState.code : PortState → Nat
  | .disabled => 0
  | .training => 1
  | .verify => 2
  | .up => 3
  | .mismatch => 4
  | .down => 5

/-- The body of a RELAY flit: the global beat and the cycle in it (sp. 11 Table 11-5). -/
def relayBody (s : State) : List Byte := toLE 6 s.beat.count.toNat ++ toLE 2 s.cycle.toNat

/-- The credits a sender holds of a class: full when nothing is listed. -/
def txCredit (q : Port) (c : Nat) : Nat := Sparse.get linkCap q.credits c

/-- A flit ready to leave: header fields that the sending fills in are zero. -/
def flit (kind : BitVec 4) (cls : BitVec 2) (xfer : BitVec 16) (body : List Byte) : OutFlit :=
  { kind := kind, cls := cls, seq := 0, ack := 0, cred := [], xfer := xfer, body := body, owner := 0,
    sender := 0, port := 0, snap := false }

/-- The 128-bit header of a control flit (sp. 11 Table 11-4). -/
def OutFlit.header (f : OutFlit) : Nat :=
  let c (k : Nat) : Nat := f.cred.getD k 0
  f.kind.toNat * 2 ^ 124 + f.cls.toNat * 2 ^ 122 + f.seq.toNat * 2 ^ 106 + f.ack.toNat * 2 ^ 90 + c 0 * 2 ^ 82 + c 1 * 2 ^ 74 +
  c 2 * 2 ^ 66 + c 3 * 2 ^ 58 + f.xfer.toNat * 2 ^ 42 + f.sender.toNat * 2 ^ 34 + f.port.toNat * 2 ^ 31

/-- A flit's 256 bytes (sp. 11 R329): a data flit's payload; or header, body and the CRC-32C over bytes 0-251. -/
def OutFlit.bytes (f : OutFlit) : List Byte :=
  if f.kind = 0 then f.body
  else
    let p := toLE 16 f.header ++ f.body ++ zeros (236 - f.body.length)
    p ++ toLE 4 (crc32c p)

/-- The header bits of a flit's eight blocks: all 1 in a data flit, all 0 in a control flit (sp. 11 R329). -/
def OutFlit.heads (f : OutFlit) : BitVec 8 := if f.kind = 0 then 0xFF else 0

/-- A flit of 256 bytes is good (sp. 11 R329, R330): a data flit; or a control flit whose CRC is right and whose KIND is listed. One with
mixed header bits is bad. -/
def flitSound (heads : BitVec 8) (raw : List Byte) : Bool :=
  let kind := bits (leAt raw 0 16) 127 124
  decide (raw.length = 256) && (decide (heads = 0xFF) ||
    (decide (heads = 0 ∧ 1 ≤ kind ∧ kind ≤ 9) && decide (crc32c (raw.take 252) = leAt raw 252 4)))

/-- The requester port of Table 10-6 that carries a flit (sp. 11 Table 11-5): the class queues 0-3, the beat relay 4, the snapshot
stream 5. -/
def flitPort (f : OutFlit) : Nat :=
  if f.kind = 6 ∨ f.kind = 7 ∨ f.kind = 9 then 4 else if f.snap then 5 else f.cls.toNat

/-- The credits that a control flit returns, at most 255 of a class; and those still owed after it (sp. 11 Table 11-4). -/
def owed (q : Port) (c : Nat) : Nat := Sparse.get (fun _ => 0) q.rxFreed c
def owedAfter (q : Port) : Sparse Nat :=
  (List.range 4).foldl (fun m c => Sparse.set (fun _ => 0) m c (owed q c - 255)) q.rxFreed

/-- A flit leaves a port that is not held back: it takes the next SEQ and a credit of its class, and the retry buffer keeps
it; a control flit carries the ACK and returns the credits owed (sp. 11 R330, R332, R335). LINK and IDENT take neither. -/
def putFlit (q : Port) (f : OutFlit) : Port :=
  let isData := f.kind = 0
  let cr := if isData then [] else (List.range 4).map (fun c => min 255 (owed q c))
  let q1 := if isData then q else { q with rxFreed := owedAfter q, ackSent := q.rxNext }
  let f1 := { f with ack := (if isData then 0 else q.rxNext), cred := cr, sender := q.me, port := q.num }
  if f.kind = 7 ∨ f.kind = 9 then { q1 with out := q1.out ++ [f1] }
  else
    let f2 := { f1 with seq := q.txSeq }
    { q1 with out := q1.out ++ [f2], txSeq := q.txSeq + 1, retry := (q1.retry ++ [{ flit := f2, resends := 0 }]),
              credits := Sparse.set linkCap q1.credits f.cls.toNat (txCredit q f.cls.toNat - 1) }

/-- The transmitter may send a flit of a class: it holds a credit and the retry buffer has room (sp. 11 R332, R335). -/
def canPut (q : Port) (c : BitVec 2) : Bool := 0 < txCredit q c.toNat && q.retry.length < 4096

/-- A RESUME leaves first when a data flit belongs to another transfer than the last HEAD or RESUME sent (sp. 11 R338). -/
def resumeFirst (q : Port) (f : OutFlit) : Port :=
  if f.kind = 0 ∧ q.txXfer ≠ some f.xfer ∧ canPut q f.cls then
    { putFlit q { flit 2 f.cls f.xfer [] with snap := f.snap } with txXfer := some f.xfer }
  else q

/-- The flits waiting for a credit leave in order, each requester port on its own; `blocked` are those that still wait. -/
def drainFlits : List OutFlit → List Nat → Port → Port
  | [], _, q => q
  | f :: r, blocked, q =>
    let q1 := if blocked.contains (flitPort f) then q else resumeFirst q f
    if !blocked.contains (flitPort f) && canPut q1 f.cls then
      let q2 := putFlit q1 f
      drainFlits r blocked (if f.kind = 1 then { q2 with txXfer := some f.xfer } else q2)
    else drainFlits r (flitPort f :: blocked) { q1 with waitq := q1.waitq ++ [f] }

/-- Everything that can leave the transmitter leaves. -/
def drainPort (q : Port) : Port := drainFlits q.waitq [] { q with waitq := [] }

/-- Flits handed to a port's transmitter. -/
def sendFlits (q : Port) (l : List OutFlit) : Port := drainPort { q with waitq := q.waitq ++ l }

/-- One flit without SEQ (LINK, IDENT), which takes no credit. -/
def sendBare (q : Port) (kind : BitVec 4) (body : List Byte) : Port := putFlit q (flit kind 0 0 body)

/-- The six ports. -/
def allPorts : List PortNo := [0, 1, 2, 3, 4, 5]

/-- A NOTICE flit on one UP port (sp. 11 R345, Table 11-5). -/
def notice1 (code : Byte) (stepNo : Nat) (cause : Byte) (s : State) (p : PortNo) : State :=
  if (port s p).st = .up then
    setPort s p (sendFlits (port s p) [flit 8 0 0 ([code] ++ zeros 3 ++ toLE 4 stepNo ++ [cause])])
  else s

/-- A NOTICE on every UP port (sp. 11 R345). -/
def noticeAll (s : State) (code : Byte) (stepNo : Nat) (cause : Byte) : State :=
  allPorts.foldl (notice1 code stepNo cause) s

/-- A port's move to another state, recorded as PORT_STATE; entries into DOWN or MISMATCH raise an alarm (sp. 11 R326, sp. 14
Table 14-2). `d1` is DETAIL1. -/
def portMove (s : State) (p : PortNo) (t : PortState) (d1 : Nat) : State :=
  let o := (port s p).st
  if o = t then s else
  raise (setPort s p { port s p with st := t })
    (ev 0x0F (portPlace p) 17 p.val (t.code + 8 * o.code) d1 (if t = .down ∨ t = .mismatch then .every else .never))

/-- What every entry into UP starts afresh (sp. 11 R330, R335): sequence numbers, retry and reorder buffers, credits. -/
def freshLink (q : Port) : Port :=
  { q with txSeq := 0, retry := [], rxNext := 0, reorder := [], credits := [], rxFreed := [], naks := [], curXfer := none,
           txXfer := none, waitq := [], skewRun := 0, ackSent := 0 }

/-- A port leaves UP: what is in flight is lost, received transfers end without a signal (sp. 11 R348). -/
def dropLink (q : Port) : Port := { freshLink q with rx := [], tx := [] }

/-- A port goes DOWN from any state; from UP it counts a retrain (sp. 14 Table 14-4, sp. 11 R324). -/
def portDown (s : State) (p : PortNo) : State :=
  let q := port s p
  let s1 := if q.st = .up then
      { s with health := { s.health with cur := { s.health.cur with downs := s.health.cur.downs + 1 } } } else s
  let s2 := setPort s1 p { dropLink q with retrains := if q.st = .up then stopAt top32 (q.retrains + 1) else q.retrains }
  portMove s2 p .down 0

/-- The port enters TRAINING, or DISABLED when its map entry or a lane is disabled (sp. 11 R325, R326). -/
def portEnter (s : State) (p : PortNo) : State :=
  let q := port s p
  let q' := { dropLink q with measured := false, tokensOut := [], lastToken := none }
  if peerEnable q.entry && lanesOn s p then portMove (setPort s p q') p .training 0
  else portMove (setPort s p q') p .disabled 0

end Sys2Proof.Machine
end

