-- ==== Sys2Proof/Machine/Sheet.lean ====
section
/-! DEFINITION. The cue sheet as its store holds it: header, cues and descriptors (sp. 02 R39, R41, Tables 2-3, 2-4), the units
that take cues, and the die and number of each. -/

namespace Sys2Proof.Machine

/-- The byte of a store that nothing has written. -/
def zeroByte (_ : Nat) : Byte := 0

/-- `n` bytes of a store from offset `o`. -/
def CueStore.read (st : CueStore) (o n : Nat) : List Byte := Sparse.bytes zeroByte st.bytes o n

/-- The header as a 512-bit word. -/
def CueStore.header (st : CueStore) : Nat := ofLE (st.read 0 64)
/-- COMMIT: true = IN_PLACE. -/
def CueStore.inPlace (st : CueStore) : Bool := bits st.header 495 494 = 1
/-- STEP_BEATS. -/
def CueStore.stepBeats (st : CueStore) : Nat := bits st.header 479 448
/-- The number of cues of a die's list. -/
def CueStore.count (st : CueStore) (d : Nat) : Nat := bits st.header (375 + 24 * d) (352 + 24 * d)
/-- The cues of the lists before a die's. -/
def CueStore.before (st : CueStore) : Nat → Nat
  | 0 => 0
  | d + 1 => CueStore.before st d + st.count d
/-- DESC_UNITS. -/
def CueStore.descUnits (st : CueStore) : Nat := bits st.header 351 320
/-- The offset of the descriptor region. -/
def CueStore.descBase (st : CueStore) : Nat := 64 + 32 * st.before 4
/-- HASH as a number, first output byte most significant. -/
def CueStore.hash (st : CueStore) : BitVec 256 := BitVec.ofNat 256 (ofBE (st.read 0 32))
/-- Cue `i` of a die's list as a 256-bit word. -/
def CueStore.cue (st : CueStore) (d i : Nat) : BitVec 256 := BitVec.ofNat 256 (ofLE (st.read (64 + 32 * (st.before d + i)) 32))
/-- `n` bytes of the descriptor at `u` 64-byte units. -/
def CueStore.desc (st : CueStore) (u n : Nat) : List Byte := st.read (st.descBase + 64 * u) n

/-- One cue store. -/
def storeAt (s : State) (k : Fin 2) : CueStore := if k = 0 then s.store0 else s.store1

/-- One cue store, changed. -/
def setStore (s : State) (k : Fin 2) (v : CueStore) : State :=
  if k = 0 then { s with store0 := v } else { s with store1 := v }

/-- The store of the armed or running step. -/
def sheet (s : State) : CueStore := storeAt s s.step.store

/-- The base of the scratch windows (sp. 01 R21). -/
def scratchBase : Nat := 0xF000000000
/-- The end of local HBM, firmware region included (sp. 01 R21). -/
def hbmEnd : Nat := 0xC000000000
/-- The firmware region begins (sp. 09 R267). -/
def fwBase : Nat := 0xBF00000000
/-- Tally space begins (sp. 09 Table 9-8). -/
def tallyBase : Nat := 0xF800000000

/-! Fields of a cue (sp. 02 Table 2-4). -/
def cBeat (w : BitVec 256) : Nat := bits w.toNat 255 224
def cCycle (w : BitVec 256) : Nat := bits w.toNat 223 212
def cUnit (w : BitVec 256) : Nat := bits w.toNat 211 207
def cDie (w : BitVec 256) : Nat := bits w.toNat 206 205
def cInst (w : BitVec 256) : Nat := bits w.toNat 204 197
def cOp (w : BitVec 256) : Nat := bits w.toNat 196 189
def cWaitTally (w : BitVec 256) : Nat := bits w.toNat 188 175
def cWaitValue (w : BitVec 256) : Nat := bits w.toNat 174 143
def cSlack (w : BitVec 256) : Nat := bits w.toNat 142 127
def cSigTally (w : BitVec 256) : Nat := bits w.toNat 126 113
def cSigInc (w : BitVec 256) : Nat := bits w.toNat 112 105
def cSigOn (w : BitVec 256) : Nat := bits w.toNat 104 103
def cWaitEn (w : BitVec 256) : Bool := bit w.toNat 102
def cDesc (w : BitVec 256) : Nat := bits w.toNat 101 70
/-- The firing position in step-relative cycles. -/
def cPos (w : BitVec 256) : Nat := cBeat w * 4096 + cCycle w

/-- The key of a unit in the map of units. -/
def unitKey : UnitId → Nat
  | .control d => d.val
  | .array a => 100 + 64 * a.die.val + (if a.back then 32 else 0) + a.idx.val
  | .vector d n => 400 + 4 * d.val + n.val
  | .optimizer d => 420 + d.val
  | .gme d n => 430 + 8 * d.val + n.val
  | .layout d => 470 + d.val
  | .channel d n => 1000 + 128 * d.val + n.val
  | .bank d n => 2000 + 64 * d.val + n.val

/-- The die of a key. -/
def keyDie (k : Nat) : Nat :=
  if k < 100 then k else if k < 400 then (k - 100) / 64 else if k < 420 then (k - 400) / 4 else if k < 430 then k - 420
  else if k < 470 then (k - 430) / 8 else if k < 1000 then k - 470 else if k < 2000 then (k - 1000) / 128 else (k - 2000) / 64

/-- The die of a unit. -/
def unitDie : UnitId → Die
  | .control d => d
  | .array a => a.die
  | .vector d _ => d
  | .optimizer d => d
  | .gme d _ => d
  | .layout d => d
  | .channel d _ => d
  | .bank d _ => d

/-- The UNIT value of sp. 02 Table 2-5, as cues and records carry it; a bank is fired through the stage manager. -/
def unitKind : UnitId → Nat
  | .control _ => 0
  | .array a => if a.back then 2 else 1
  | .vector _ _ => 3
  | .optimizer _ => 4
  | .gme _ _ => 5
  | .layout _ => 6
  | .channel _ _ => 7
  | .bank _ _ => 0

/-- The unit instance. -/
def unitInst : UnitId → Nat
  | .control _ => 0
  | .array a => a.idx.val
  | .vector _ n => n.val
  | .optimizer _ => 0
  | .gme _ n => n.val
  | .layout _ => 0
  | .channel _ n => n.val
  | .bank _ _ => 0

/-- A unit with nothing running and nothing pending. -/
def noUnit (_ : Nat) : UnitSt := { running := none, pending := none, tail := [], freeAt := 0 }

/-- One unit. -/
def unit (s : State) (u : UnitId) : UnitSt := Sparse.get noUnit s.stage.units (unitKey u)

/-- One unit, changed. -/
def setUnit (s : State) (u : UnitId) (v : UnitSt) : State :=
  { s with stage := { s.stage with units := Sparse.set noUnit s.stage.units (unitKey u) v } }

/-- The unit a cue names. A bank cue (BANK_DOWN, BANK_UP) goes to the power controller of the bank its descriptor names
(sp. 09 R259), given here by number. -/
def cueUnit (w : BitVec 256) (bank : Nat) : UnitId :=
  let d : Die := Fin.ofNat 4 (cDie w)
  let n := cInst w
  match cUnit w with
  | 0 => if cOp w = 5 ∨ cOp w = 6 then .bank d (Fin.ofNat 64 bank) else .control d
  | 1 => .array ⟨d, false, Fin.ofNat 32 n⟩
  | 2 => .array ⟨d, true, Fin.ofNat 32 n⟩
  | 3 => .vector d (Fin.ofNat 4 n)
  | 4 => .optimizer d
  | 5 => .gme d (Fin.ofNat 8 n)
  | 6 => .layout d
  | _ => .channel d (Fin.ofNat 128 n)

/-- Every die. -/
def allDies : List Die := [0, 1, 2, 3]

/-- The last cue of a list, its curtain in a sheet that verifies (sp. 02 R40). -/
def lastCue (st : CueStore) (d : Nat) : BitVec 256 := st.cue d (st.count d - 1)

end Sys2Proof.Machine
end

