-- ==== Sys2Proof/Machine/StepOps.lean ====
section
/-! DEFINITION. How a step stops firing, when its work is over, and what its end does (sp. 02 R47, R62-R65, R493; sp. 13 R385;
sp. 14 R410-R413, R420). -/

namespace Sys2Proof.Machine

/-- The guard copy that records: the one on the I/O die of the port that carries control (sp. 15 R457; log 21). -/
def guardPlace (s : State) : Place :=
  match s.ctl.carrier with
  | some .b => 5
  | _ => 4

/-- Firmware runs: stages FIRMWARE, HBM_TRAINED, READY and HBM_FAILED (sp. 16 Table 16-2). -/
def firmwareUp (s : State) : Bool := s.pwr.stage ≥ 4

/-- A record of the guard partition: into the sources and the FIFO while firmware runs, otherwise kept by the guard copies
until stage FIRMWARE (sp. 15 R441, sp. 16 R469). -/
def guardRaise (s : State) (e : Event) : State :=
  if firmwareUp s then raise s e
  else { s with guard := { s.guard with held := s.guard.held ++ [eventRec s e (decide (e.alarm ≠ .never)) false] } }

/-- A guard event. -/
def gev (s : State) (kind : Byte) (d0 d1 : Nat) (a : AlarmRule) : Event := ev kind (guardPlace s) 19 0 d0 d1 a

/-- A unit without its pending cue. -/
def UnitSt.dropPending (u : UnitSt) : UnitSt := { u with pending := none }

/-- Every pending cue of the dies chosen is discarded (sp. 02 R493). -/
def discardPending (s : State) (sel : Nat → Bool) : State :=
  let us := (s.stage.units.map (fun e => if sel (keyDie e.1) then (e.1, e.2.dropPending) else e)).filter
    (fun e => decide (e.2 ≠ noUnit e.1))
  { s with stage := { s.stage with units := us } }

/-- The clock goes on to cycle `t` of `now`, within the present beat: a command that stands for an event of a later cycle moves
it there (log 1). It stops in the beat's last cycle: the beat ends by its own command. -/
def clockTo (s : State) (t : Nat) : State :=
  if t ≤ s.now then s else
    let n := refOf s (t - s.now)
    if s.cycle.toNat + n ≤ 4095 then { s with now := t, ref := s.ref + n, half := false, cycle := s.cycle + BitVec.ofNat 12 n }
    else { refPass s (4095 - s.cycle.toNat) with cycle := 4095 }

/-- The clock is past the cycle before `c`, or reaches it within the present beat. -/
def reaches (s : State) (c : Nat) : Bool := decide (c ≤ (clockTo s c).now)

/-- The step has reached its stop cycle (sp. 02 R493). -/
def stopNow (s : State) : Bool := s.step.stopped && decide (s.step.stopAt ≤ s.now)

/-- Firing stops from cycle `at_` (sp. 02 R493): the first cause and the first stop cycle stay; a pending resume is void; every cue
fired and not started is discarded in the stop cycle. -/
def stopFiring (s : State) (cause : Byte) (failed : Bool) (at_ : Nat) : State :=
  let t := s.step
  let t' := if t.cause = 0 then { t with cause := cause, failed := failed } else t
  let s1 := { s with step := { t' with stopped := true, stopAt := (if t.stopped then min t.stopAt at_ else at_), resume := none } }
  if stopNow s1 then discardPending s1 (fun _ => true) else s1

/-- The brownout hold's cause for the step: a replay mark that came first stays the cause (sp. 14 Table 14-12). -/
def brownCause (t : StepSt) : Byte := if t.replay then 0x11 else 0x10

/-- One die's stage manager freezes (sp. 15 R437, R439): its fired cues are discarded; with all four frozen, firing has
stopped. -/
def freezeDie (s : State) (d : Die) : State :=
  let fr := if s.step.frozen.contains d then s.step.frozen else d :: s.step.frozen
  let s1 := { s with step := { s.step with frozen := fr } }
  match s.step.phase with
  | .running | .held =>
    let s2 := discardPending s1 (fun k => k == d.val)
    if fr.length = 4 then { s2 with step := { s2.step with stopped := true, stopAt := if s2.step.stopped then s2.step.stopAt else s2.now } }
    else s2
  | _ => s1

/-- The running step is marked SUSPECT by a brownout hold (sp. 15 R439, R440); a pending resume is void (sp. 15 Table 15-15). -/
def markBrownout (s : State) : State :=
  match s.step.phase with
  | .running | .held =>
    let t := s.step
    let o : Origin := { kind := 0x40, place := guardPlace s, cue := BitVec.ofNat 24 noCue, time := s.ref }
    if t.cause = 0 then
      { s with step := { t with suspect := true, cause := brownCause t, resume := none,
                                originS := (match t.originS with
                                            | none => some o
                                            | some x => some x) } }
    else { s with step := { t with resume := none } }
  | _ => s

/-- An operation that cannot complete without another party, once firing has stopped (sp. 02 R493): a halted unit or channel, a
peer transfer or TALLY_ONLY cue awaiting its DONE or ACK. -/
def abandoned (r : Running) : Bool := r.halted || r.port.isSome

/-- Nothing runs, waits, is halted or was dropped: every operation of the step has completed. -/
def workDone (s : State) : Bool :=
  s.stage.units.all (fun e => e.2.running.isNone && e.2.pending.isNone && e.2.tail.isEmpty) && s.stage.windows.isEmpty &&
  !s.step.dropped

/-- Every operation that is not abandoned has completed (sp. 02 R493); the cues discarded in the stop cycle do not count. -/
def workDrained (s : State) : Bool :=
  s.stage.units.all (fun e =>
    e.2.tail.isEmpty && (match e.2.running with
                         | none => true
                         | some r => abandoned r)) && s.stage.windows.isEmpty

/-- DRAIN of the sheet's curtain cues, equal in all four lists (sp. 02 R61, R40). -/
def drainOf (s : State) : Nat :=
  let st := sheet s
  bits (ofLE (st.desc (cDesc (st.cue 0 (st.count 0 - 1))) 8)) 23 0

/-- The four curtain cues have started (sp. 02 R62). -/
def curtainUp (s : State) : Bool := s.step.curtains.length = 4

/-- The last operation completed in cycle L + DRAIN - 1 or earlier (sp. 02 R62). -/
def inTime (s : State) : Bool := decide (s.step.lastDone < s.step.curtainAt + drainOf s)

/-- An entry of the journal whose mirror is still to be programmed (sp. 14 R420). -/
def journalPut (s : State) (e : JournalEntry) : State :=
  let es := s.journal.entries ++ [e]
  { s with journal := { s.journal with entries := es.drop (es.length - 16384), toMirror := s.journal.toMirror ++ [e] } }

/-- The newest entry, changed, in both copies (sp. 14 R420). -/
def journalEnd (s : State) (f : JournalEntry → JournalEntry) : State :=
  match s.journal.entries.reverse with
  | [] => s
  | e :: r => { s with journal := { s.journal with entries := (f e :: r).reverse, toMirror := s.journal.toMirror ++ [f e] } }

/-- An IMAGE error (sp. 14 R419). -/
def imageError (s : State) (id : BitVec 64) (cause : Nat) : State :=
  raise s (ev 0x18 (guardPlace s) 22 0 id.toNat cause .every)

/-- The image is discarded (sp. 14 R413, R417), with its error. -/
def discardImage (s : State) (cause : Nat) : State :=
  match s.secure.image with
  | none => s
  | some i => imageError { s with secure := { s.secure with image := none, st := .idle, firmware := false } } i.id cause

/-- The step number in an image ID (sp. 14 R411). -/
def imageStep (id : BitVec 64) : Nat := bits id.toNat 55 0

/-- The tiers due at a step end (sp. 14 R410): those already due, those whose threshold the score reaches, and tier 1 by the
floor. -/
def dueTiers (s : State) : List Nat :=
  let h := s.health
  let add (l : List Nat) (n : Nat) (c : Bool) : List Nat := if c && !l.contains n then l ++ [n] else l
  let l1 := add s.secure.due 1 (h.t1.toNat ≤ h.score)
  let l2 := add l1 2 (h.t2.toNat ≤ h.score)
  let l3 := add l2 3 (h.t3.toNat ≤ h.score)
  add l3 1 (0 < s.secure.floor.toNat && imageStep s.secure.last1 + s.secure.floor.toNat ≤ bits s.step.lastCommitted.toNat 55 0)

/-- The predictor entry of a slot (sp. 05 R155, Table 5-8). -/
def predEntry (p : Pred) (slot : Nat) : List Byte :=
  toLE 32 (slot * 2 ^ 250 + b01 p.turned * 2 ^ 249 + p.skipped.toNat * 2 ^ 208 + p.audited.toNat * 2 ^ 176 +
    p.misses.toNat * 2 ^ 144 + (if p.turned then p.skipped.toNat else 0) * 2 ^ 112 + p.mass.toNat * 2 ^ 48)

/-- A predictor slot at arm: zero and unturned (sp. 05 R152). -/
def noPred (_ : Nat) : Pred := { skipped := 0, audited := 0, misses := 0, mass := 0, turned := false, consumers := 0, doneAt := [] }

/-- The slots named in the step, in the order of their entries after the step-end record: ascending (DESIGN CHOICE, log 82). -/
def slotsSorted (l : List Nat) : List Nat := (List.range 64).filter l.contains

/-- The step-end record (sp. 02 Table 2-12) with its predictor entries. -/
def stepEndRecord (s : State) (state cause : Byte) (endBeat : BitVec 48) : List Byte :=
  let t := s.step
  let o := if state = 3 ∧ cause ≠ 5 then t.originF else if state = 2 then t.originS else none
  let (ok, oat) := match o with
    | none => ((0 : Byte), 0xFFFFFFFF)
    | some x => (x.kind, x.place.val * 2 ^ 29 + x.cue.toNat)
  let slots := slotsSorted t.slotsNamed
  toLE 8 t.number.toNat ++ [state, cause, ok, BitVec.ofNat 8 slots.length] ++ toLE 6 t.startBeat.toNat ++ toLE 6 endBeat.toNat ++
  toLE 4 (stopAt top32 t.lateCues) ++ toLE 4 oat ++ toLE 8 t.idleCycles ++ toBE 32 t.hash.toNat ++ zeros 24 ++
  (slots.map (fun k => predEntry (Sparse.get noPred s.stage.preds k) k)).flatten

/-- A tenant no command has named. -/
def noTenant (_ : Nat) : Tenant :=
  { st := .closed, active := false, reopened := false, closedAt := 0, place := 0, generation := 0, stateAddr := 0, regions := [], rstate := [], zeroed := [],
    hits := 0 }

/-- ACTIVE is cleared for all tenants (sp. 07 R190). -/
def clearActive (m : Sparse Tenant) : Sparse Tenant :=
  (m.map (fun e => (e.1, { e.2 with active := false, reopened := false, closedAt := 0 }))).filter (fun e => decide (e.2 ≠ noTenant e.1))

/-- A channel at reset: IDLE, ACT_CUE 0xFF_FFFF, IRQ_TARGET its number mod 4 (sp. 10 Table 10-5). -/
def noChannel (k : Nat) : Channel :=
  { actCue := 0xFFFFFF, st := .idle, failCause := 0, failDir := false, irqPending := false, irqEn := false,
    irqTarget := BitVec.ofNat 2 k, disable := false, failAddr := 0, actBytes := 0, actDesc := 0, shdDesc := 0, shdFull := false, firmware := false,
    queued := false }

/-- The key of a channel: die x 128 + number. -/
def chanKey (d : Die) (n : Fin 128) : Nat := 128 * d.val + n.val

/-- DISABLE = 0 (sp. 10 R308): IDLE, the FAIL fields cleared; ACT_BYTES stays as the drop left it. -/
def chanRecycle (c : Channel) : Channel :=
  { c with st := .idle, failCause := 0, failDir := false, failAddr := 0, disable := false }

/-- One channel. -/
def chan (s : State) (d : Die) (n : Fin 128) : Channel := Sparse.get noChannel s.dma (chanKey d n)

/-- One channel, changed. -/
def setChan (s : State) (d : Die) (n : Fin 128) (c : Channel) : State :=
  { s with dma := Sparse.set noChannel s.dma (chanKey d n) c }

/-- A flit whose ACK completes no cue any more. -/
def OutFlit.unowned (k : Nat) (f : OutFlit) : OutFlit := if f.owner = k then { f with owner := 0 } else f

/-- A channel's transfers await nothing at a port any more: neither a DONE nor the ACK of a TALLY flit (sp. 10 R308, sp. 11 R340). -/
def forgetSends (s : State) (d : Die) (n : Fin 128) : State :=
  let o := 1 + chanKey d n
  { s with ports := s.ports.map (fun e =>
    (e.1, { e.2 with tx := e.2.tx.filter (fun x => !(x.die = d && x.chan = n)),
                     retry := e.2.retry.map (fun k => { k with flit := k.flit.unowned o }),
                     waitq := e.2.waitq.map (OutFlit.unowned o) })) }

/-- Bit `k` of a 128-bit entry. -/
def entryBit (e : BitVec 128) (k : Nat) : Bool := bit e.toNat k

/-- SWAPPED toggles in every valid state region entry (sp. 08 R244). -/
def toggleRegions (m : Sparse (BitVec 128)) : Sparse (BitVec 128) :=
  m.map (fun e => if entryBit e.2 79 then (e.1, e.2 ^^^ (1 <<< 77)) else e)

/-- The step's end (sp. 02 R63, R64, R493; sp. 13 R385): the owed hold reply, the journal entry, ACTIVE, the store, the dirty
state, the toggle of a commit, the tiers due, the abandoned units, the record, the notice; the channels of abandoned cues are recycled before. `state`: 1 =
COMMITTED, 2 = SUSPECT, 3 = FAILED. -/
def endStep (s : State) (state cause : Byte) : State :=
  let inPlace := (sheet s).inPlace
  let eb := beatNow s
  let rec_ := stepEndRecord s state cause eb
  let s1 := match s.step.hold with
    | some (_, o) => finish s o stNoStep []
    | none => s
  let s2 := if s1.secure.st = .freezing then discardImage s1 1 else s1
  let froze : BitVec 3 := match s2.secure.image with
    | some i => if s2.step.freezes then BitVec.ofNat 3 (b01 (i.tiers.contains 1) + 2 * b01 (i.tiers.contains 2) +
                                                       4 * b01 (i.tiers.contains 3)) else 0
    | none => 0
  let s3 := journalEnd s2 (fun e => { e with endState := BitVec.ofNat 2 state.toNat, cause := cause, endBeat := eb, froze := froze })
  let s4 := setStore s3 s3.step.store { storeAt s3 s3.step.store with st := .verified }
  let t := s4.step
  let committed := decide (state = 1)
  let t' : StepSt :=
    { t with phase := .idle, stopped := false, stopAt := 0, cause := 0, failed := false, suspect := false, replay := false, originF := none,
             originS := none, hold := none, resume := none, curtains := [], prevEnd := some eb, freezes := false, dropped := false,
             dirty := t.dirty || (inPlace && !committed),
             lastCommitted := (if committed then t.number else t.lastCommitted),
             lastHash := (if committed then t.hash else t.lastHash), lastMode := (if committed then inPlace else t.lastMode) }
  let s5 := { s4 with step := t', tenants := clearActive s4.tenants,
                      stage := { s4.stage with units := [], windows := [], lends := [] },
                      cfg := { s4.cfg with regions := (if committed && !inPlace then toggleRegions s4.cfg.regions else
                        s4.cfg.regions) } }
  let s6 := if inPlace && !committed then s5 else { s5 with secure := { s5.secure with due := dueTiers s5 } }
  let s7 := sendReport s6 0x46 1 rec_
  if state = 3 then noticeAll s7 1 t.number.toNat cause else s7

/-- The cycle after the last completion and the last curtain has come (sp. 02 R62). -/
def afterLast (s : State) : Bool := decide (max s.step.lastDone s.step.curtainAt < s.now)

/-- The step may end other than by commit now (sp. 02 R62, R493; sp. 15 R440): firing has stopped and the work is drained, the
brownout hold over; or the curtain is up, the work in time and the step marked for replay. Its state and cause, or none. -/
def endDue (s : State) : Option (Byte × Byte) :=
  if !stepStarted s then none
  else if s.step.stopped then
    if !stopNow s || !workDrained s then none
    else if s.step.failed then some (3, s.step.cause)
    else if inHold s then none
    else some (2, s.step.cause)
  else if curtainUp s && workDone s && inTime s && s.step.replay && afterLast s then some (2, 0x11)
  else none

/-- The clock in the cycle in which the step may end: the stop cycle, or the cycle after the last completion (sp. 02 R62,
R493). -/
def atEnd (s : State) : State :=
  if s.step.stopped then clockTo s s.step.stopAt
  else if curtainUp s then clockTo s (max s.step.lastDone s.step.curtainAt + 1) else s

/-- The step commits now (sp. 02 R62): the curtain is up, every operation has completed in time, no mark stands. -/
def commitDue (s : State) : Bool :=
  s.step.phase = .running && !s.step.stopped && s.step.cause = 0 && !s.step.replay && curtainUp s && workDone s && inTime s &&
  afterLast s

/-- The beat lock reaches LOST: a started step ends FAILED with BEAT_LOST (sp. 13 R385, Table 13-15). -/
def stepLost (s : State) : State := if stepStarted s then stopFiring s 4 true s.now else s

end Sys2Proof.Machine
end

