-- ==== Sys2Proof/Machine/Mem.lean ====
section
/-! DEFINITION. The memory path (sp. 09 R249-R288, sp. 08 R244): an issued address meets the fences, then the state region
swap, then the bank's gate, then the stored bytes and their codes. -/

namespace Sys2Proof.Machine

/-- Who makes an access, as records name it: UNIT, INST and cue of the requester (sp. 14 Table 14-1). -/
structure Who where
  unit : Nat
  inst : Nat
  cue : Nat
  deriving DecidableEq, Repr

/-- A unit's cue. -/
def whoUnit (u : UnitId) (cue : Nat) : Who := { unit := unitKind u, inst := unitInst u, cue := cue }

/-- The base of a die's scratch window (sp. 01 R21). -/
def scratchOf (d : Nat) : Nat := scratchBase + d * 0x10000000

/-- A byte range lies in a die's scratch window. -/
def inScratch (d a n : Nat) : Bool := decide (scratchOf d ≤ a ∧ a + n ≤ scratchOf d + 0x10000000)

/-- A byte range lies in a die's open HBM (sp. 09 Table 9-6). -/
def inOpenHbm (d a n : Nat) : Bool :=
  decide (d * 0x3000000000 ≤ a ∧ a + n ≤ (if d = 3 then fwBase else (d + 1) * 0x3000000000))

/-- The byte lies in a fenced region, by the address as issued (sp. 09 R287). -/
def fencedAt (s : State) (a : Nat) : Bool := s.mem.fences.any (fun f => decide (f.base ≤ a ∧ a < f.base + f.len))

/-- One entry's part of the swap (sp. 08 R244). -/
def swapOne (e : BitVec 128) (a : Nat) : Option Nat :=
  let b := bits e.toNat 127 112 * 2 ^ 24
  let p := bits e.toNat 111 96 * 2 ^ 24
  let n := bits e.toNat 95 80 * 2 ^ 24
  if entryBit e 79 && entryBit e 78 && entryBit e 77 then
    if b ≤ a ∧ a < b + n then some (p + (a - b)) else if p ≤ a ∧ a < p + n then some (b + (a - p)) else none
  else none

/-- The address that an access reaches while a pair is SWAPPED (sp. 08 R244). -/
def swapAddr (s : State) (a : Nat) : Nat := (s.cfg.regions.findSome? (fun e => swapOne e.2 a)).getD a

/-- The bank (die x 64 + bank) of a scratch address (sp. 09 Table 9-1). -/
def bankOf (a : Nat) : Option Nat :=
  if scratchBase ≤ a ∧ a < scratchBase + 4 * 0x10000000 then some ((a - scratchBase) / 0x400000) else none

/-- A bank at reset: ON (sp. 09 R264). -/
def noBank (_ : Nat) : Bank := { state := .on, target := none, cue := 0, draining := false, since := 0 }

/-- Memory in canonical form: addresses strictly rising, no listed byte equal to what an unlisted address reads as (zero). -/
def Mem.wf (m : Mem) : Bool := Sparse.wf zeroByte m.bytes

/-- One bank. -/
def bank (s : State) (k : Nat) : Bank := Sparse.get noBank s.mem.banks k

/-- One bank, changed. -/
def setBank (s : State) (k : Nat) (b : Bank) : State :=
  { s with mem := { s.mem with banks := Sparse.set noBank s.mem.banks k b } }

/-- The access is refused by its bank (sp. 09 R261). -/
def gatedAt (s : State) (a : Nat) : Bool :=
  match bankOf a with
  | some k => (bank s k).state ≠ .on
  | none => false

/-! ## Codes (sp. 09 R254-R257) -/

/-- The number of set bits of a mask. -/
def popcount : Nat → Nat → Nat
  | 0, _ => 0
  | n + 1, m => m % 2 + popcount n (m / 2)

/-- The flipped bits of the 8-byte word at `w`. -/
def upsetAt (s : State) (w : Nat) : BitVec 72 :=
  match s.mem.upsets.find? (fun u => u.addr = w) with
  | some u => u.mask
  | none => 0

/-- The bank or HBM word is protected by byte parity: AM (sp. 09 Table 9-3). -/
def isAm (a : Nat) : Bool :=
  match bankOf a with
  | some k => decide (32 ≤ k % 64)
  | none => false

/-- What a check of the word at `w` finds: the mask left in the delivered word, whether it was corrected, and the bytes (AM)
or the word (other stores) detected; a detected word is delivered as read (sp. 09 R254, R256). -/
def checkWord (s : State) (w : Nat) : BitVec 72 × Bool × Nat :=
  let m := upsetAt s w
  if m = 0 then (0, false, 0)
  else if isAm w then
    (m, false, (List.range 8).foldl (fun acc k =>
      acc + (popcount 8 (bits m.toNat (8 * k + 7) (8 * k)) + bits m.toNat (64 + k) (64 + k)) % 2 * 2 ^ k) 0)
  else if popcount 72 m.toNat = 1 then (0, true, 0)
  else if popcount 72 m.toNat = 2 then (m, false, 1)
  else
    let r := Config.eccEscape w m
    if r.2 then (r.1, true, 0) else (m, false, 1)

/-- The byte that a check delivers. -/
def deliver (s : State) (a : Nat) : Byte :=
  let b : Byte := Sparse.get zeroByte s.mem.bytes a
  let m := (checkWord s (a - a % 8)).1
  b ^^^ BitVec.ofNat 8 (m.toNat >>> (8 * (a % 8)))

/-- The value of a tally, or under key 16,384 + its own of a copy, at the end of the cycle before (sp. 02 R45). -/
def endedValue (s : State) (k now : Nat) : Nat :=
  if s.now ≤ s.stage.changedAt then
    match s.stage.before.find? (fun e => e.1 = k) with
    | some e => e.2
    | none => now
  else now

/-- A byte of tally space: the tally's value at the end of the cycle before (sp. 09 R271). -/
def tallyByte (s : State) (a : Nat) : Byte :=
  let i := (a - tallyBase) / 8
  let o := (a - tallyBase) % 8
  if o < 4 then BitVec.ofNat 8 (endedValue s i (Sparse.get (fun _ => (0 : BitVec 32)) s.stage.tallies i).toNat >>> (8 * o)) else 0

/-- The byte that stands behind an issued address, whatever is fenced: zero when refused by its bank (sp. 09 R261). -/
def storedByte (s : State) (a : Nat) : Byte :=
  let p := swapAddr s a
  if gatedAt s p then 0 else deliver s p

/-- The byte that a read at an issued address returns: zero when fenced (R288) or refused by its bank (R261). -/
def readByte (s : State) (a : Nat) : Byte :=
  if fencedAt s a then 0
  else if tallyBase ≤ a then tallyByte s a
  else storedByte s a

/-- `n` bytes from an issued address. -/
def load (s : State) (a : Nat) : Nat → List Byte
  | 0 => []
  | n + 1 => readByte s a :: load s (a + 1) n

/-- A little-endian number at an issued address. -/
def loadLE (s : State) (a n : Nat) : Nat := ofLE (load s a n)

/-- The upsets after byte `p` is written with a fresh code: an AM byte loses its own bits, another word all of them. -/
def clearUpset (s : State) (p : Nat) : List Upset :=
  let w := p - p % 8
  if isAm p then
    let keep : Nat := 2 ^ 72 - 1 - 0xFF * 2 ^ (8 * (p % 8)) - 2 ^ (64 + p % 8)
    (s.mem.upsets.map (fun u => if u.addr = w then { u with mask := u.mask &&& BitVec.ofNat 72 keep } else u)).filter
      (fun u => u.mask ≠ 0)
  else s.mem.upsets.filter (fun u => u.addr ≠ w)

/-- One byte stored at its final address. A word that keeps other bytes is read, checked and merged first (sp. 09 R252, R256,
R265): its delivered bytes become the stored ones. -/
def pokeByte (s : State) (p : Nat) (v : Byte) : State :=
  let w := p - p % 8
  let s1 := if upsetAt s w = 0 ∨ isAm p then s else
    { s with mem := { s.mem with bytes := Sparse.put zeroByte s.mem.bytes w ((List.range 8).map (fun k => deliver s (w + k))) } }
  let s2 := if s1.mem.upsets.isEmpty then s1 else { s1 with mem := { s1.mem with upsets := clearUpset s1 p } }
  { s2 with mem := { s2.mem with bytes := Sparse.set zeroByte s2.mem.bytes p v } }

/-- One byte written at an issued address: nothing is stored when fenced, refused, or in tally space. -/
def writeByte (s : State) (a : Nat) (v : Byte) : State :=
  if fencedAt s a || decide (tallyBase ≤ a) then s
  else
    let p := swapAddr s a
    if gatedAt s p then s else pokeByte s p v

/-- Bytes written from an issued address. -/
def store (s : State) (a : Nat) : List Byte → State
  | [] => s
  | b :: r => store (writeByte s a b) (a + 1) r

/-! ## What the transactions of an access count and record -/

/-- The 256-B transactions of a byte range: the address in it and the bytes, at most `fuel` of them. -/
def piecesFuel : Nat → Nat → Nat → List (Nat × Nat)
  | 0, _, _ => []
  | f + 1, a, n =>
    if n = 0 then [] else
    let k := min n (256 - a % 256)
    (a, k) :: piecesFuel f (a + k) (n - k)

/-- The 256-B transactions of a byte range (sp. 09 R288). -/
def pieces (a n : Nat) : List (Nat × Nat) := piecesFuel (n / 256 + 2) a n

/-- The 256-B transactions of a list of ranges, one per touched block: its address and bytes. -/
def mergeBlocks (l : List (Nat × Nat)) : List (Nat × Nat) :=
  ((l.map (fun x => pieces x.1 x.2)).flatten).foldl (fun acc p =>
    if acc.any (fun q => q.1 / 256 = p.1 / 256) then
      acc.map (fun q => if q.1 / 256 = p.1 / 256 then
        (min q.1 p.1, max (q.1 + q.2) (p.1 + p.2) - min q.1 p.1) else q)
    else acc ++ [p]) []

/-- The transaction touches a fenced region. -/
def pieceFenced (s : State) (p : Nat × Nat) : Bool :=
  s.mem.fences.any (fun f => decide (f.base < p.1 + p.2 ∧ p.1 < f.base + f.len))

/-- The fenced transactions of a range. -/
def hitsOf (s : State) (a n : Nat) : Nat := ((pieces a n).filter (pieceFenced s)).length

/-- The die whose memory holds an address (sp. 01 Table 1-2, sp. 09 Table 9-6). -/
def dieOf (a : Nat) : Nat := if scratchBase ≤ a then (a - scratchBase) / 0x10000000 % 4 else min 3 (a / 0x3000000000)

/-- A fenced transaction counts in the die's counter and in the tenant's (sp. 09 R288). -/
def countHit (s : State) (p : Nat × Nat) : State :=
  let m := { s.mem.counters with fenceHits := Sparse.bump top64 s.mem.counters.fenceHits (dieOf p.1) 1 }
  let s1 := { s with mem := { s.mem with counters := m } }
  match s.mem.fences.find? (fun f => decide (f.base < p.1 + p.2 ∧ p.1 < f.base + f.len)) with
  | none => s1
  | some f =>
    let t := Sparse.get noTenant s1.tenants f.tenant
    { s1 with tenants := Sparse.set noTenant s1.tenants f.tenant { t with hits := stopAt top64 (t.hits + 1) } }

/-- A transaction refused by its bank is counted (sp. 09 R261). -/
def countGate (s : State) (a : Nat) : State :=
  { s with mem := { s.mem with counters :=
      { s.mem.counters with gate := Sparse.bump top32 s.mem.counters.gate ((bankOf a).getD 0 / 64 % 4) 1 } } }

/-- Its BANK_GATE record (sp. 09 R261). DETAIL1 holds the requester's UNIT in [4:0] and INST in [15:8] (DESIGN CHOICE, log 31). -/
def gateEvent (w : Who) (a : Nat) : Event :=
  let k := (bankOf a).getD 0
  { kind := 0x0D, place := dieplace (Fin.ofNat 4 (k / 64)), unit := 16, inst := k % 64, cue := w.cue, d0 := a,
    d1 := w.unit + 256 * w.inst, alarm := .first }

/-- The HBM stack of an address: 3n + (g mod 3) (sp. 09 R266). -/
def hbmStack (x : Nat) : Nat := 3 * dieOf x + (x - dieOf x * 0x3000000000) / 256 % 3
/-- Its channel: floor(g / 3) mod 32. -/
def hbmChannel (x : Nat) : Nat := (x - dieOf x * 0x3000000000) / 256 / 3 % 32
/-- Its pseudo-channel: floor(g / 96) mod 2. -/
def hbmPseudo (x : Nat) : Nat := (x - dieOf x * 0x3000000000) / 256 / 96 % 2

/-- The check of one word read is counted (sp. 09 R256, sp. 14 R398, R407). -/
def countWord (s : State) (w : Nat) : State :=
  let r := checkWord s w
  let c := s.mem.counters
  let h := s.health.cur
  match bankOf w with
  | some k =>
    if r.2.2 ≠ 0 then { s with mem := { s.mem with counters := { c with det := Sparse.bump top32 c.det k 1 } } }
    else if r.2.1 then
      { s with mem := { s.mem with counters := { c with corr := Sparse.bump top32 c.corr k 1 } },
               health := { s.health with cur := { h with wm := h.wm + 1 } } }
    else s
  | none =>
    let st := hbmStack w
    if r.2.2 ≠ 0 then { s with mem := { s.mem with counters := { c with hbmBad := Sparse.bump top32 c.hbmBad st 1 } } }
    else if r.2.1 then
      { s with mem := { s.mem with counters := { c with hbmCorr := Sparse.bump top32 c.hbmCorr st 1 } },
               health := { s.health with cur := { h with hbm := Sparse.bump top64 h.hbm st 1 } } }
    else s

/-- The record of a detection in a word (sp. 09 R256, sp. 14 Table 14-2): AM parity by the bytes found, other words by their place in
the row. -/
def wordEvent (s : State) (w : Nat) : List Event :=
  let r := checkWord s w
  if r.2.2 = 0 then [] else
  match bankOf w with
  | some k =>
    [ev (if isAm w then 0x06 else 0x07) (dieplace (Fin.ofNat 4 (k / 64))) 16 (k % 64) w
      (if isAm w then r.2.2 else 2 ^ (w % 256 / 8)) .first]
  | none => [ev 0x07 (dieplace (Fin.ofNat 4 (dieOf w))) 16 (hbmStack w) w (2 ^ (w % 256 / 8)) .first]

/-- The words of a range that hold a flipped bit. -/
def upsetWords (s : State) (a n : Nat) : List Nat :=
  (s.mem.upsets.map (·.addr)).filter (fun w => decide (w < a + n ∧ a < w + 8))

/-! ## The banks' queues (sp. 09 R250-R252) -/

/-- A bank with nothing queued. -/
def noQueue (_ : Nat) : BankQueue := { entries := [], at_ := 0, lastRead := none, rows := [], words := [] }

/-- `n` bank cycles without a read retire writes, oldest first. -/
def retire : Nat → List QueuedWrite → List QueuedWrite
  | _, [] => []
  | n, e :: r => if e.cost ≤ n then retire (n - e.cost) r else { e with cost := e.cost - n } :: r

/-- The queue at the end of the cycle before `c`: every cycle in between that granted no read retired, and a full queue retires in any
case (sp. 09 R251). -/
def queueAt (q : BankQueue) (c : Nat) : BankQueue :=
  if c ≤ q.at_ then q else
  let reads := if q.entries.length < 16 ∧ q.lastRead.any (fun g => decide (q.at_ ≤ g ∧ g < c)) then 1 else 0
  { q with entries := retire (c - q.at_ - reads) q.entries, at_ := c }

/-- The bytes of a row that a range covers. -/
def rowMask (a n : Nat) : BitVec 256 := BitVec.ofNat 256 ((2 ^ n - 1) * 2 ^ (a % 256))

/-- The bank cycles a write's retiring takes: two where it covers part of a protected word (sp. 09 R252). -/
def retireCost (am : Bool) (m : BitVec 256) : Nat :=
  if am || (List.range 32).all (fun k => bits m.toNat (8 * k + 7) (8 * k) = 0 || bits m.toNat (8 * k + 7) (8 * k) = 0xFF) then 1 else 2

/-- A bank's queue holds its 16 entries: the bank grants no access (sp. 09 R251). -/
def queueFull (s : State) (k : Nat) : Bool := decide (16 ≤ (queueAt (Sparse.get noQueue s.mem.queues k) s.now).entries.length)

/-- A granted write of the bytes `m` of the row at `a` enters its bank's queue, or merges into the entry of its row. Before a full queue
takes it, the bank's next cycles grant nothing and retire the oldest entry (sp. 09 R251). -/
def queueWrite (s : State) (a : Nat) (m : BitVec 256) : State :=
  match bankOf a with
  | none => s
  | some k =>
    let q := queueAt (Sparse.get noQueue s.mem.queues k) s.now
    let row := a % 0x400000 / 256
    let entry (m : BitVec 256) : QueuedWrite := { row := row, mask := m, cost := retireCost (isAm a) m }
    let q' : BankQueue := match q.entries.find? (fun e => e.row = row) with
      | some e => { q with entries := q.entries.map (fun x => if x.row = row then entry (e.mask ||| m) else x) }
      | none =>
        match q.entries.drop (q.entries.length - 16) with
        | o :: r => if q.entries.length < 16 then { q with entries := q.entries ++ [entry m] }
                    else { q with entries := r ++ [entry m], at_ := q.at_ + o.cost }
        | [] => { q with entries := [entry m] }
    { s with mem := { s.mem with queues := Sparse.set noQueue s.mem.queues k q' } }

/-- The flipped words that a read of this bank cycle has checked already: one bank read of a row serves every requester (sp. 09
R252). -/
def wordsServed (s : State) (a : Nat) : List Nat :=
  match bankOf a with
  | none => []
  | some k =>
    let q := Sparse.get noQueue s.mem.queues k
    if q.lastRead = some s.now then q.words else []

/-- A read of `n` bytes of a row is granted. -/
def queueRead (s : State) (a n : Nat) : State :=
  match bankOf a with
  | none => s
  | some k =>
    let q := queueAt (Sparse.get noQueue s.mem.queues k) s.now
    let row := a % 0x400000 / 256
    let rows := if q.lastRead = some s.now then (if q.rows.contains row then q.rows else row :: q.rows) else [row]
    let words := wordsServed s a ++ upsetWords s a n
    { s with mem := { s.mem with queues := Sparse.set noQueue s.mem.queues k { q with lastRead := some s.now, rows := rows, words := words } } }

/-- The first cycle from `a` on at whose end the bank's queue is empty and no read of it is in flight (sp. 09 R260): six cycles from
the grant of the last one. -/
def drainEnd (s : State) (k a : Nat) : Nat :=
  let q := queueAt (Sparse.get noQueue s.mem.queues k) a
  let left := (q.entries.map (·.cost)).sum
  max (max a (if left = 0 then 0 else q.at_ + left - 1)) ((q.lastRead.map (· + 6)).getD 0)

/-! ## What accesses count and record -/

/-- The words that a transaction read finds flipped: none where it is fenced, where its bank refuses it or where it reads tally space,
and none that a read of the same bank cycle has checked. -/
def wordsTouched (s : State) (p : Nat × Nat) : List Nat :=
  let a := swapAddr s p.1
  if tallyBase ≤ p.1 ∨ pieceFenced s p ∨ gatedAt s a then [] else (upsetWords s a p.2).filter (fun w => !(wordsServed s a).contains w)

/-- The words that reads of a list of transactions find flipped, each once. -/
def wordsRead (s : State) (l : List (Nat × Nat)) : List Nat := ((l.map (wordsTouched s)).flatten).eraseDups

/-- The words that the writes of a block's bytes `m` cover in part, read and checked first (sp. 09 R252, R265). -/
def wordsMerged (s : State) (p : Nat × BitVec 256) : List Nat :=
  let a := swapAddr s p.1
  if pieceFenced s (p.1, 256) ∨ gatedAt s a then []
  else (upsetWords s a 256).filter (fun x =>
    let c := bits p.2.toNat (8 * ((x - a) / 8) + 7) (8 * ((x - a) / 8))
    !isAm x && decide (c ≠ 0 ∧ c ≠ 0xFF))

/-- The transaction is refused by its bank; a fenced one does not reach it (sp. 09 R261, R288). -/
def pieceGated (s : State) (p : Nat × Nat) : Bool := decide (p.1 < tallyBase) && !pieceFenced s p && gatedAt s (swapAddr s p.1)

/-- One read transaction: its fence hit, its bank's refusal or its bank read. -/
def touchRead1 (s : State) (p : Nat × Nat) : State :=
  let s1 := if pieceFenced s p then countHit s p else s
  if tallyBase ≤ p.1 ∨ pieceFenced s p then s1 else if pieceGated s p then countGate s1 p.1 else queueRead s1 (swapAddr s p.1) p.2

/-- One write transaction, of a block's bytes `m`: its fence hit, its bank's refusal or its place in the queue. -/
def touchWrite1 (s : State) (p : Nat × BitVec 256) : State :=
  let b := (p.1, 256)
  if pieceFenced s b then countHit s b else if pieceGated s b then countGate s p.1 else queueWrite s (swapAddr s p.1) p.2

/-- What read transactions of a list record: the refusals and the detections, each word checked once. -/
def readEvents (w : Who) (s : State) (l : List (Nat × Nat)) : List Event :=
  (l.filter (pieceGated s)).map (fun p => gateEvent w p.1) ++ ((wordsRead s l).map (wordEvent s)).flatten

/-- What they count. -/
def readCounts (s : State) (l : List (Nat × Nat)) : State := (wordsRead s l).foldl countWord (l.foldl touchRead1 s)

/-- A range joins the blocks that writes cover: narrow writes of one block merge (sp. 09 R252). -/
def coverAdd (acc : List (Nat × BitVec 256)) (p : Nat × Nat) : List (Nat × BitVec 256) :=
  let b := p.1 - p.1 % 256
  if acc.any (fun q => q.1 = b) then acc.map (fun q => if q.1 = b then (b, q.2 ||| rowMask p.1 p.2) else q)
  else acc ++ [(b, rowMask p.1 p.2)]

/-- The 256-B blocks that a list of ranges covers, and the bytes covered in each. -/
def coverOf (l : List (Nat × Nat)) : List (Nat × BitVec 256) := ((l.map (fun x => pieces x.1 x.2)).flatten).foldl coverAdd []

/-- The address of the first byte covered in a block. -/
def firstByte (p : Nat × BitVec 256) : Nat := p.1 + ((List.range 256).find? (fun k => p.2.getLsbD k)).getD 0

/-- What write transactions of a list record. -/
def writeEvents (w : Who) (s : State) (l : List (Nat × BitVec 256)) : List Event :=
  (l.filter (fun p => pieceGated s (p.1, 256))).map (fun p => gateEvent w (firstByte p)) ++
  (((l.map (wordsMerged s)).flatten.eraseDups).map (wordEvent s)).flatten

/-- What they count. -/
def writeCounts (s : State) (l : List (Nat × BitVec 256)) : State :=
  ((l.map (wordsMerged s)).flatten.eraseDups).foldl countWord (l.foldl touchWrite1 s)

/-- What a read of a range counts and records, by the transactions of sp. 09 R288. -/
def touchRead (w : Who) (s : State) (a n : Nat) : State :=
  raiseAll (readCounts s (pieces a n)) (readEvents w s (pieces a n))

/-- What a unit's reads of a list of ranges count and record: one transaction per 256-B block that they touch, one check per word
(sp. 09 R252, R256). -/
def readAll (w : Who) (s : State) (l : List (Nat × Nat)) : State :=
  raiseAll (readCounts s (mergeBlocks l)) (readEvents w s (mergeBlocks l))

/-- The ranges of a list of writes. -/
def rangesOf (l : List (Nat × List Byte)) : List (Nat × Nat) := l.map (fun x => (x.1, x.2.length))

/-- The writes of a list, stored in order. -/
def storeAll (s : State) (l : List (Nat × List Byte)) : State := l.foldl (fun t y => store t y.1 y.2) s

/-- A list of writes as it reaches memory: its transactions are counted, one per block, and its bytes stored (sp. 09 R252, R265, R288). -/
def putMem (s : State) (l : List (Nat × List Byte)) : State := storeAll (writeCounts s (coverOf (rangesOf l))) l

/-- Every write of a list, in order, with the events `es` of the same cycle (sp. 14 R393, R396). -/
def writeWith (w : Who) (s : State) (l : List (Nat × List Byte)) (es : List Event) : State :=
  raiseAll (putMem s l) (es ++ writeEvents w s (coverOf (rangesOf l)))

/-- A write of bytes with its counts and records. -/
def writeMem (w : Who) (s : State) (a : Nat) (p : List Byte) : State := writeWith w s [(a, p)] []

/-- Every write of a list, in order. -/
def writeAll (w : Who) (s : State) (l : List (Nat × List Byte)) : State := writeWith w s l []

/-- Bytes of ranges that an event leaves undefined, where their banks and fences let them be stored: free values that no access writes
(sp. 00 R6; log 3). -/
def storeFree (s : State) (l : List (Nat × Nat)) : State :=
  l.foldl (fun t x => let d := drawBytes x.2 t; store d.2 x.1 d.1) s

/-- A free number of at most `n`. -/
def drawUpTo (n : Nat) (s : State) : Nat × State :=
  let f := drawBytes 4 s
  (ofLE f.1 % (n + 1), f.2)

/-- The transactions that fences of a list touch. -/
def takenBy (l : List Fence) (m : List (Nat × Nat)) : List (Nat × Nat) :=
  m.filter (fun p => l.any (fun f => decide (f.base < p.1 + p.2 ∧ p.1 < f.base + f.len)))

/-- Fences that began while a cue ran count those of its transactions that came after them, a number that no rule fixes (sp. 09 R287,
R288): from `b` on, each counter has moved by at most what `a` and the reads `rd` make of it (log 86). -/
def blurHits (b a : State) (l : List Fence) (rd : List (Nat × Nat)) : State :=
  if l.isEmpty then a else
  let hits (t : State) (d : Nat) : Nat := Sparse.get (fun _ => 0) t.mem.counters.fenceHits d
  let die (t : State) (d : Nat) : State :=
    let k := drawUpTo (hits a d - hits b d + ((takenBy l rd).filter (fun p => dieOf p.1 = d)).length) t
    { k.2 with mem := { k.2.mem with counters := { k.2.mem.counters with
        fenceHits := Sparse.set (fun _ => 0) k.2.mem.counters.fenceHits d (stopAt top64 (hits b d + k.1)) } } }
  let ten (t : State) (i : Nat) : State :=
    let o := (Sparse.get noTenant b.tenants i).hits
    let e := Sparse.get noTenant a.tenants i
    let k := drawUpTo (e.hits - o + (takenBy (l.filter (fun f => f.tenant = i)) rd).length) t
    { k.2 with tenants := Sparse.set noTenant k.2.tenants i { e with hits := stopAt top64 (o + k.1) } }
  (l.map (·.tenant)).eraseDups.foldl ten ([0, 1, 2, 3].foldl die a)

/-! ## Accesses that meet (sp. 04 R119, sp. 06 R184, sp. 07 R211) -/

/-- Two byte ranges share a byte. -/
def meets (a b : Nat × Nat) : Bool := decide (a.1 < b.1 + b.2 ∧ b.1 < a.1 + a.2)

/-- Some range of one list meets some range of the other. -/
def anyMeets (l m : List (Nat × Nat)) : Bool := l.any (fun a => m.any (meets a))

/-- The bytes that two ranges share. -/
def shared (a b : Nat × Nat) : Option (Nat × Nat) :=
  if meets a b then some (max a.1 b.1, min (a.1 + a.2) (b.1 + b.2) - max a.1 b.1) else none

/-- The bytes that two lists of ranges share. -/
def sharedAll (l m : List (Nat × Nat)) : List (Nat × Nat) := (l.map (fun a => m.filterMap (shared a))).flatten

/-- The local address of row `r` of a received transfer's destination. -/
def headRow (h : HeadBody) (r : Nat) : Nat :=
  unsigned 56 ((bits h.dst.toNat 55 0 : Nat) + (r : Int) * signed 40 h.dstStride.toNat)

/-- The bytes of a directory of the head's tensor (sp. 05 R140). -/
def headDir (h : HeadBody) : Nat := 16 + 4 * (ceilDiv h.rows.toNat 32 * ceilDiv h.codecK.toNat 32)

/-- Where a stream lands behind its directory (sp. 11 R339). -/
def headStream (h : HeadBody) : Nat := ceilDiv (bits h.dst.toNat 55 0 + headDir h) 8 * 8

/-- The destination ranges of a received transfer: its rows, or its directory and stream (sp. 11 R339). -/
def headRanges (h : HeadBody) : List (Nat × Nat) :=
  if h.codec = 2 ∨ h.codec = 4 then [(bits h.dst.toNat 55 0, headDir h), (headStream h, h.bytes.toNat)]
  else (List.range h.rows.toNat).map (fun r => (headRow h r, h.rowBytes.toNat))

/-- BASE of a state region, wing or understudy entry, in 16 MiB units (sp. 08 Table 8-14, sp. 09 Table 9-7, sp. 11 Table 11-9). -/
def eBase (e : BitVec 128) : Nat := bits e.toNat 127 112
/-- LENGTH of a wing or understudy entry. -/
def wLength (e : BitVec 128) : Nat := bits e.toNat 111 96
/-- SOURCE_ID, PORT and ENABLE of an understudy entry (sp. 11 Table 11-9). -/
def uSource (e : BitVec 128) : Nat := bits e.toNat 95 88
def uPort (e : BitVec 128) : Nat := bits e.toNat 87 85
def uEnable (e : BitVec 128) : Bool := entryBit e 84

/-- The understudy window in bytes. -/
def windowRange (s : State) : Nat × Nat := (eBase s.cfg.understudy * 2 ^ 24, wLength s.cfg.understudy * 2 ^ 24)

/-- A range lies in the window. -/
def inWindow (s : State) (a n : Nat) : Bool :=
  let w := windowRange s
  decide (w.1 ≤ a ∧ a + n ≤ w.1 + w.2)

/-- The receiver admits a snapshot that comes on port `p` into its window (sp. 11 R347). -/
def admitSnapshot (s : State) (p : Nat) (x : RxXfer) : Bool :=
  let e := s.cfg.understudy
  uEnable e && decide (x.sender.toNat = uSource e ∧ p = uPort e) && (headRanges x.head).all (fun r => inWindow s r.1 r.2)

/-- The memory that a transfer coming on port `p` writes: none where it is a restore's, or a snapshot that is not admitted. -/
def rxRanges (s : State) (p : Nat) (x : RxXfer) : List (Nat × Nat) :=
  if x.head.snap && !admitSnapshot s p x then [] else headRanges x.head

/-- Another party writes ranges while a cue runs: what the cue reads of them makes its results undefined, what it writes of them is
undefined (sp. 04 R119, sp. 06 R184). -/
def hitRunning (wr : List (Nat × Nat)) (r : Running) : Running :=
  { r with raced := r.raced ++ sharedAll r.reads wr, clash := r.clash ++ sharedAll r.dest wr }

/-- Fences begin while a cue runs (sp. 09 R287): those that it touches. -/
def fenceHit (l : List Fence) (r : Running) : Running :=
  { r with fenced := r.fenced ++ l.filter (fun f => (r.reads ++ r.dest).any (meets (f.base, f.len))) }

/-- The same of a window's builder (sp. 07 R211). -/
def hitWindow (wr : List (Nat × Nat)) (w : Window) : Window :=
  { w with raced := w.raced || anyMeets w.reads wr || anyMeets (rangesOf w.outputs) wr }

/-- The same of a transfer being received (sp. 11 R348). -/
def hitRx (s : State) (p : Nat) (wr : List (Nat × Nat)) (x : RxXfer) : RxXfer :=
  { x with clash := x.clash ++ sharedAll (rxRanges s p x) wr }

/-- A party writes ranges: every cue that another unit runs, every window that builds and every transfer being received meets them. `mine` is the key of the
writer's own unit. -/
def otherWrites (s : State) (mine : Option Nat) (wr : List (Nat × Nat)) : State :=
  if wr.isEmpty then s else
  let meet (u : UnitSt) : UnitSt := { u with running := u.running.map (hitRunning wr), tail := u.tail.map (hitRunning wr) }
  let recv (p : Nat) (q : Port) : Port := { q with rx := q.rx.map (hitRx s p wr) }
  { s with
    stage := { s.stage with units := s.stage.units.map (fun e => if mine = some e.1 then e else (e.1, meet e.2)),
                            windows := s.stage.windows.map (hitWindow wr) },
    ports := s.ports.map (fun e => (e.1, recv e.1 e.2)) }

/-- The bytes that an open tensor write has written (sp. 13 R382): its chunks. -/
def xferWrites (x : Xfer) : List (Nat × Nat) := x.chunks.map (fun o => (x.base + o, min 8128 (x.len - o)))

/-- What running cues of other units, building windows and transfers being received may still write. -/
def cueWrites (s : State) (mine : Option Nat) : List (Nat × Nat) :=
  (s.stage.units.map (fun e => if mine = some e.1 then [] else
    (e.2.running.toList.map (·.dest)).flatten ++ (e.2.tail.map (·.dest)).flatten)).flatten ++
  (s.stage.windows.map (fun w => rangesOf w.outputs)).flatten ++ (s.ports.map (fun e => (e.2.rx.map (rxRanges s e.1)).flatten)).flatten

/-- They, and what open tensor writes have written, which their WRITE_CLOSE makes visible (sp. 13 R382). -/
def openWrites (s : State) (mine : Option Nat) : List (Nat × Nat) := cueWrites s mine ++ (s.xfers.map xferWrites).flatten

/-- A unit's work joins what runs: it meets what others may still write, and they meet what it may write. -/
def joinRun (s : State) (k : Nat) (r : Running) : State × Running :=
  let o := openWrites s (some k)
  (otherWrites s (some k) r.dest, { r with raced := sharedAll r.reads o, clash := sharedAll r.dest o })

/-! ## Streams and operations in flight (sp. 09 R273-R275) -/

/-- An access of a die that takes an operation: it leaves the die's own scratch. -/
def leavesScratch (d : Nat) (p : Nat × Nat) : Bool := !inScratch d p.1 p.2

/-- The operations of a stream: its transactions with HBM or over the bridges, and the flits that a port has not seen answered. The model
takes them as in flight while the stream runs (DESIGN CHOICE, log 76). -/
def opsOf (d : Nat) (r : Running) : Nat :=
  ((mergeBlocks r.reads).filter (leavesScratch d)).length + ((mergeBlocks r.dest).filter (leavesScratch d)).length +
  (if r.port.isSome then r.send.flits else 0)

/-- The unit's cue is a tracked stream: a DMA cue, or a layout-engine cue that reaches HBM. -/
def isStream (k : Nat) (r : Running) : Bool :=
  !r.halted && !r.queued && decide (1000 ≤ k ∧ k < 2000 ∨ 470 ≤ k ∧ k < 474 ∧ opsOf (k - 470) r ≠ 0)

/-- The streams that run on a die. -/
def runStreams (s : State) (d : Nat) : List Running :=
  s.stage.units.filterMap (fun e =>
    match e.2.running with
    | some r => if keyDie e.1 = d ∧ isStream e.1 r then some r else none
    | none => none)

/-- The transfers that firmware started by GO on a die's channels. -/
def goStreams (s : State) (d : Nat) : List Channel :=
  (s.dma.filter (fun e => decide (e.1 / 128 = d) && e.2.firmware && !e.2.queued && decide (e.2.st = .active))).map (·.2)

/-- The dies to which a die's tally messages flow. -/
def flowsOf (s : State) (d : Die) : List Die :=
  ((s.stage.lane.filter (fun m => m.origin = d && !m.queued)).map (·.dest)).eraseDups

/-- The tracked streams that a die holds (sp. 09 R273): its DMA and layout-engine cues, the transfers that peers write into its memory,
its tally-message flows. -/
def streamsHeld (s : State) (d : Nat) : Nat :=
  (runStreams s d).length + (goStreams s d).length +
  (s.ports.map (fun e => (e.2.rx.filter (fun x => !x.queued && dieOf (bits x.head.dst.toNat 55 0) = d)).length)).sum +
  (allDies.map (fun k => if k.val = d then (flowsOf s k).length else 0)).sum

/-- The operations that a die's streams call for; at most 16,384 of them are in flight. -/
def opsHeld (s : State) (d : Nat) : Nat :=
  ((runStreams s d).map (opsOf d)).sum +
    ((goStreams s d).map (fun c => 2 * bits c.actDesc.toNat 359 336 * ((bits c.actDesc.toNat 383 360 + 255) / 256))).sum

/-- A stream of `ops` operations has its place (sp. 09 R273). -/
def placeFor (s : State) (d ops : Nat) : Bool := decide (streamsHeld s d < 4096) && (ops = 0 || decide (opsHeld s d < 16384))

/-- A wait for a stream, or for an operation, counts once (sp. 09 R275). -/
def countWait (s : State) (d : Die) (stream : Bool) : State :=
  let c := s.mem.counters
  { s with mem := { s.mem with counters :=
    if stream then { c with streamWaits := Sparse.bump top64 c.streamWaits d.val 1 }
    else { c with opWaits := Sparse.bump top64 c.opWaits d.val 1 } } }

/-- A stream takes its place (sp. 09 R275): with 4,096 held it waits for one; with no operation left, or too few for its own, it waits for
those. Nothing of it happens before it has its place. -/
def takeStream (s : State) (u : UnitId) (r : Running) : State × Running :=
  let d := unitDie u
  let full := decide (4096 ≤ streamsHeld s d.val)
  let most := opsOf d.val r ≠ 0 && decide (16384 < opsHeld s d.val + opsOf d.val r)
  if !full && !most then (s, r) else (countWait s d full, { r with queued := true })

/-- A stream runs: it did not wait, or has its place. -/
def streamRuns (s : State) (u : UnitId) (r : Running) : Bool := !r.queued || placeFor s (unitDie u).val (opsOf (unitDie u).val r)

/-- The end of a stream's wait is traced (sp. 14 Table 14-3): its cycles are those until its place was free, of which the model knows only
that they end by now (DESIGN CHOICE, log 76). -/
def traceWait (s : State) (u : UnitId) (r : Running) : State :=
  if !r.queued then s else
  let k := drawUpTo (s.now - r.startedAt) s
  traceOn k.2 3 (dieplace (unitDie u)) (unitKind u) (unitInst u) r.cue ((r.reads ++ r.dest).headD (0, 0)).1 k.1

/-- The range decodes to open HBM, scratch or (read only) tally space for a DMA channel, peer or command (sp. 09 Table
9-8). -/
def decodes (a n : Nat) (write : Bool) : Bool :=
  decide (a + n ≤ fwBase ∨ (scratchBase ≤ a ∧ a + n ≤ scratchBase + 4 * 0x10000000) ∨
    (write = false ∧ tallyBase ≤ a ∧ a + n ≤ tallyBase + 0x20000))

/-! ## A port that leaves UP (sp. 11 R348) -/

/-- Who writes what a port receives. -/
def whoPort (p : PortNo) : Who := { unit := 17, inst := p.val, cue := noCue }

/-- What a port was receiving is lost: its destination bytes are undefined where they exist (sp. 11 R348). -/
def leaveRx (s : State) (p : PortNo) : State :=
  (port s p).rx.foldl (fun t x => storeFree t (((rxRanges t p.val x).map (fun r => pieces r.1 r.2)).flatten.filter (fun r => decodes r.1 r.2 true))) s

/-- A port goes DOWN, and what it was receiving is lost. -/
def portFail (s : State) (p : PortNo) : State := portDown (leaveRx s p) p

/-- A port trains afresh, or is DISABLED, and what it was receiving is lost. -/
def portAgain (s : State) (p : PortNo) : State := portEnter (leaveRx s p) p

end Sys2Proof.Machine
end

