-- ==== Sys2Proof/Machine/Num.lean ====
section
/-! DEFINITION. Numbers and rounding, exact to the last bit (sp. 03 R68-R81): the element formats, round to nearest and
stochastic rounding of exact rationals, FP32 arithmetic on codes, and Philox. -/

namespace Sys2Proof.Machine

/-- The value of a floating-point code: NaN, an infinity, or the exact m x 2^e with its sign (zeros keep theirs). -/
inductive Num where
  | nan
  | inf (neg : Bool)
  | fin (neg : Bool) (m : Nat) (e : Int)
  deriving DecidableEq, Repr

/-- A floating-point format of sp. 03 Table 3-1: exponent and mantissa bits, the smallest exponent, and the largest finite value
as maxM x 2^maxU. -/
structure FmtSpec where
  eb : Nat
  mb : Nat
  bias : Nat
  maxM : Nat
  maxU : Nat
  deriving DecidableEq, Repr

/-- The floating-point formats by ELEM (sp. 03 Tables 3-1, 3-2): FP32, BF16, FP8-E4M3, FP8-E5M2, FP4-E2M1. -/
def fmtSpec (elem : Nat) : FmtSpec :=
  if elem = 0 then ⟨8, 23, 127, 16777215, 104⟩
  else if elem = 1 then ⟨8, 7, 127, 255, 120⟩
  else if elem = 2 then ⟨4, 3, 7, 14, 5⟩
  else if elem = 3 then ⟨5, 2, 15, 7, 13⟩
  else ⟨2, 1, 1, 3, 1⟩

/-- The value of a code of ELEM 0 to 4 (sp. 03 R68, R69). -/
def decodeNum (elem code : Nat) : Num :=
  let f := fmtSpec elem
  let s := bit code (f.eb + f.mb)
  let ex := bits code (f.eb + f.mb - 1) f.mb
  let man := bits code (f.mb - 1) 0
  let top := decide (ex = 2 ^ f.eb - 1)
  if top && decide (elem < 2 ∨ elem = 3) then (if man = 0 then .inf s else .nan)
  else if top && decide (elem = 2) && decide (man = 7) then .nan
  else if ex = 0 then .fin s man (1 - (f.bias : Int) - f.mb)
  else .fin s (2 ^ f.mb + man) ((ex : Int) - f.bias - f.mb)

/-- The canonical NaN of a format (sp. 03 R70). -/
def nanCode (elem : Nat) : Nat :=
  if elem = 0 then 0x7FC00000 else if elem = 1 then 0x7FC0 else if elem = 2 then 0x7F else if elem = 3 then 0x7E else 0

/-- How a rounding decides between two neighbours: to nearest, ties to even, or by a 32-bit draw (sp. 03 R79, R80). -/
inductive Mode where
  | near
  | draw (u : Nat)
  deriving DecidableEq, Repr

/-- The remainder r / d above the lower neighbour q rounds up. -/
def roundsUp (mode : Mode) (q r d : Nat) : Bool :=
  match mode with
  | .near => decide (d < 2 * r ∨ (2 * r = d ∧ q % 2 = 1))
  | .draw u => decide (u < 2 ^ 32 * r / d)

/-- n / d in units of 2^u, as numerator and denominator. -/
def scaleTo (n d : Nat) (u : Int) : Nat × Nat := if u < 0 then (n * 2 ^ (-u).toNat, d) else (n, d * 2 ^ u.toNat)

/-- floor(log2 (n / d)) for n / d > 0. -/
def floorLog (n d : Nat) : Int :=
  let k : Int := (Nat.log2 n : Int) - (Nat.log2 d : Int)
  let r := scaleTo n d k
  if r.1 < r.2 then k - 1 else k

/-- A positive magnitude n / d rounded into the grid of a format with mb mantissa bits and smallest exponent emin, as
(q, u) meaning q x 2^u; the exponent is not bounded above. -/
def roundMag (mb : Nat) (emin : Int) (mode : Mode) (n d : Nat) : Nat × Int :=
  if n = 0 then (0, emin - mb) else
  let u : Int := max (floorLog n d) emin - mb
  let r := scaleTo n d u
  let q := r.1 / r.2
  (if roundsUp mode q (r.1 % r.2) r.2 then q + 1 else q, u)

/-- The code of (-1)^s x q x 2^u on the grid of a format. -/
def encodeGrid (f : FmtSpec) (s : Bool) (q : Nat) (u : Int) : Nat :=
  let sign := if s then 2 ^ (f.eb + f.mb) else 0
  let (q', u') := if q = 2 ^ (f.mb + 1) then (2 ^ f.mb, u + 1) else (q, u)
  if q' < 2 ^ f.mb then sign + q' else sign + (u' + f.mb + f.bias).toNat * 2 ^ f.mb + (q' - 2 ^ f.mb)

/-- q x 2^u is beyond the format's largest finite value. -/
def beyond (f : FmtSpec) (q : Nat) (u : Int) : Bool :=
  let a := scaleTo q 1 ((f.maxU : Int) - u)
  if u < f.maxU then decide (f.maxM * 2 ^ (((f.maxU : Int) - u).toNat) < q) else decide (f.maxM * a.2 < a.1)

/-- The code of infinity, or of the largest finite value. -/
def infCode (elem : Nat) (s : Bool) : Nat :=
  let f := fmtSpec elem
  (if s then 2 ^ (f.eb + f.mb) else 0) + (2 ^ f.eb - 1) * 2 ^ f.mb
/-- The code of the largest finite value. -/
def maxCode (elem : Nat) (s : Bool) : Nat := let f := fmtSpec elem; encodeGrid f s f.maxM f.maxU

/-- What a conversion gives: the code, whether it saturated, whether it is NaN. -/
structure Conv where
  code : Nat
  sat : Bool
  nan : Bool
  deriving DecidableEq, Repr

/-- The overflow of sp. 03 Table 3-3. -/
def overflow (elem : Nat) (satBit s : Bool) : Conv :=
  if satBit || decide (elem = 2 ∨ elem = 4) then ⟨maxCode elem s, true, false⟩ else ⟨infCode elem s, false, false⟩

/-- (-1)^s x n / d converted to ELEM 0 to 4 (sp. 03 R78-R80). -/
def convRat (elem : Nat) (satBit : Bool) (mode : Mode) (s : Bool) (n d : Nat) : Conv :=
  let f := fmtSpec elem
  let r := roundMag f.mb (1 - (f.bias : Int)) mode n d
  if beyond f r.1 r.2 then overflow elem satBit s else ⟨encodeGrid f s r.1 r.2, false, false⟩

/-- m x 2^e as numerator and denominator. -/
def ratOf (m : Nat) (e : Int) : Nat × Nat := if e < 0 then (m, 2 ^ (-e).toNat) else (m * 2 ^ e.toNat, 1)

/-- A value converted to ELEM 0 to 4 (sp. 03 Table 3-3). A NaN into FP4-E2M1 is the quantiser's matter. -/
def convert (elem : Nat) (satBit : Bool) (mode : Mode) : Num → Conv
  | .nan => ⟨nanCode elem, false, true⟩
  | .inf s => if elem = 2 ∨ elem = 4 then ⟨maxCode elem s, true, false⟩ else ⟨infCode elem s, false, false⟩
  | .fin s m e => let r := ratOf m e; convRat elem satBit mode s r.1 r.2

/-- An FP32 code. -/
abbrev Code32 := Nat

/-- round_fp32 of an exact value. -/
def toF32 (x : Num) : Code32 := (convert 0 false .near x).code
/-- The value of an FP32 code. -/
def ofF32 (c : Code32) : Num := decodeNum 0 c
/-- The FP32 canonical NaN. -/
def nan32 : Code32 := 0x7FC00000
/-- The FP32 code is NaN. -/
def isNan (c : Code32) : Bool := ofF32 c = .nan

/-- The exact product. -/
def mulNum : Num → Num → Num
  | .nan, _ => .nan
  | _, .nan => .nan
  | .inf s, .inf t => .inf (s != t)
  | .inf s, .fin t m _ => if m = 0 then .nan else .inf (s != t)
  | .fin s m _, .inf t => if m = 0 then .nan else .inf (s != t)
  | .fin s m e, .fin t n f => .fin (s != t) (m * n) (e + f)

/-- A signed mantissa. -/
def sgn (s : Bool) (m : Nat) : Int := if s then -(m : Int) else m

/-- The exact sum; an exact zero is +0 unless both are -0. -/
def addNum : Num → Num → Num
  | .nan, _ => .nan
  | _, .nan => .nan
  | .inf s, .inf t => if s = t then .inf s else .nan
  | .inf s, .fin _ _ _ => .inf s
  | .fin _ _ _, .inf t => .inf t
  | .fin s m e, .fin t n f =>
    let g := min e f
    let i := sgn s (m * 2 ^ (e - g).toNat) + sgn t (n * 2 ^ (f - g).toNat)
    if i = 0 then .fin (s && t) 0 0 else .fin (decide (i < 0)) i.natAbs g

/-- The negation. -/
def negNum : Num → Num
  | .nan => .nan
  | .inf s => .inf (!s)
  | .fin s m e => .fin (!s) m e

/-! FP32 operations on codes, each rounded to nearest even (sp. 03 R79). -/
def fadd (a b : Code32) : Code32 := toF32 (addNum (ofF32 a) (ofF32 b))
def fsub (a b : Code32) : Code32 := toF32 (addNum (ofF32 a) (negNum (ofF32 b)))
def fmul (a b : Code32) : Code32 := toF32 (mulNum (ofF32 a) (ofF32 b))

/-- The FP32 quotient. -/
def fdiv (a b : Code32) : Code32 :=
  match ofF32 a, ofF32 b with
  | .nan, _ => nan32
  | _, .nan => nan32
  | .inf _, .inf _ => nan32
  | .inf s, .fin t _ _ => infCode 0 (s != t)
  | .fin s _ _, .inf t => toF32 (.fin (s != t) 0 0)
  | .fin s m e, .fin t n f =>
    if n = 0 then (if m = 0 then nan32 else infCode 0 (s != t))
    else
      let r := scaleTo m n (f - e)
      (convRat 0 false .near (s != t) r.1 r.2).code

/-- The largest r below 2^k with (base + r)^2 <= n, bit by bit. -/
def isqrtFrom : Nat → Nat → Nat → Nat
  | 0, _, base => base
  | k + 1, n, base => if (base + 2 ^ k) * (base + 2 ^ k) ≤ n then isqrtFrom k n (base + 2 ^ k) else isqrtFrom k n base

/-- The correctly rounded FP32 square root: 64 bits of root and a sticky bit below them. -/
def fsqrt (a : Code32) : Code32 :=
  match ofF32 a with
  | .nan => nan32
  | .inf s => if s then nan32 else a
  | .fin s m e =>
    if m = 0 then a else if s then nan32 else
    let k : Nat := if e % 2 = 0 then 80 else 81
    let n := m * 2 ^ k
    let r := isqrtFrom 64 n 0
    toF32 (.fin false (2 * r + (if r * r = n then 0 else 1)) ((e - k) / 2 - 1))

/-- The sign and magnitude order of two codes that are not NaN: a < b, with -0 below +0. -/
def fltStrict (a b : Code32) : Bool :=
  let key (c : Code32) : Int := if bit c 31 then -(bits c 30 0 : Int) - 1 else (bits c 30 0 : Int)
  decide (key a < key b)

/-- a < b as numbers (zeros equal). -/
def flt (a b : Code32) : Bool :=
  let key (c : Code32) : Int := if bit c 31 then -(bits c 30 0 : Int) else (bits c 30 0 : Int)
  !isNan a && !isNan b && decide (key a < key b)

/-- The magnitude of an FP32 code. -/
def fabs (a : Code32) : Code32 := bits a 30 0

/-- The maximum: exact, +0 above -0, NaN if either is (sp. 06 R169). -/
def fmax (a b : Code32) : Code32 := if isNan a || isNan b then nan32 else if fltStrict a b then b else a
/-- The minimum. -/
def fmin (a b : Code32) : Code32 := if isNan a || isNan b then nan32 else if fltStrict b a then b else a

/-- One level of the pairwise tree (sp. 03 Table 3-5). -/
def treeLevel : List Code32 → List Code32
  | [] => []
  | [a] => [a]
  | a :: b :: r => fadd a b :: treeLevel r

/-- The pairwise tree sum; `fuel` levels. -/
def treeFuel : Nat → List Code32 → Code32
  | 0, l => l.headD 0
  | f + 1, l => match l with
    | [] => 0
    | [a] => a
    | _ => treeFuel f (treeLevel l)

/-- The pairwise tree sum of sp. 03 Table 3-5. -/
def treeSum (l : List Code32) : Code32 := treeFuel 24 l

/-! ## Philox-4x32-10 (sp. 03 R81) -/

/-- One round. -/
def philoxRound (k0 k1 : Nat) : Nat × Nat × Nat × Nat → Nat × Nat × Nat × Nat
  | (c0, c1, c2, c3) =>
    let p0 := 0xD2511F53 * c0
    let p1 := 0xCD9E8D57 * c2
    ((p1 / 2 ^ 32) ^^^ c1 ^^^ k0, p1 % 2 ^ 32, (p0 / 2 ^ 32) ^^^ c3 ^^^ k1, p0 % 2 ^ 32)

/-- `n` rounds, the key raised between them. -/
def philoxRounds : Nat → Nat → Nat → Nat × Nat × Nat × Nat → Nat × Nat × Nat × Nat
  | 0, _, _, c => c
  | n + 1, k0, k1, c => philoxRounds n ((k0 + 0x9E3779B9) % 2 ^ 32) ((k1 + 0xBB67AE85) % 2 ^ 32) (philoxRound k0 k1 c)

/-- The 32-bit draw of a seed, step number, stream and logical index. -/
def philoxDraw (seed step stream i : Nat) : Nat :=
  let k := (i / 4) % 2 ^ 64
  let (w0, w1, w2, w3) :=
    philoxRounds 10 (seed % 2 ^ 32) (seed / 2 ^ 32 % 2 ^ 32) (k % 2 ^ 32, k / 2 ^ 32, step % 2 ^ 32, stream % 2 ^ 32)
  if i % 4 = 0 then w0 else if i % 4 = 1 then w1 else if i % 4 = 2 then w2 else w3

/-- A draw of the armed step (sp. 02 R67, sp. 03 R81). -/
def drawOf (s : State) (stream i : Nat) : Nat := philoxDraw s.step.seed.toNat s.step.number.toNat stream i

/-- The rounding mode of a format word's ROUND for an element (sp. 03 R79-R81). -/
def modeOf (s : State) (round : Nat) (stream i : Nat) : Mode := if round = 1 then .draw (drawOf s stream i) else .near

/-! ## Integers -/

/-- A sum clamped to INT32, and whether it clamped (sp. 06 R169). -/
def clamp32 (i : Int) : Int × Nat :=
  if 2147483647 < i then (2147483647, 1) else if i < -2147483648 then (-2147483648, 1) else (i, 0)

end Sys2Proof.Machine
end

