-- ==== Sys2Proof/Machine/Flags.lean ====
section
/-! DEFINITION. Completion records (sp. 04 R118, sp. 06 R181, sp. 08 R228, R240, sp. 09 R286, sp. 07 R198, R206): fields from the
most significant bit down, each count stopping at its largest value. -/

namespace Sys2Proof.Machine

/-- Fields (width, value) from the most significant down; a value beyond its width is the width's largest. -/
def packFields (l : List (Nat × Nat)) : Nat := l.foldl (fun acc f => acc * 2 ^ f.1 + stopAt (2 ^ f.1 - 1) f.2) 0

/-- The 32 bytes of a record whose fields fill 256 bits. -/
def recordBytes (l : List (Nat × Nat)) : List Byte := toLE 32 (packFields l)

/-- The DME record (sp. 04 Table 4-12). -/
def dmeRecord (tiles skipped bad nanOut satOut nanAcc sparse zeroG status : Nat) : List Byte :=
  recordBytes [(20, tiles), (20, skipped), (20, bad), (32, nanOut), (32, satOut), (32, nanAcc), (32, sparse), (32, zeroG),
    (4, status), (32, 0)]

/-- The GME record (sp. 06 Table 6-6). -/
def gmeRecord (positions absent collisions invalid nanOut satOut aux faultPos status fault : Nat) : List Byte :=
  recordBytes [(32, positions), (32, absent), (32, collisions), (32, invalid), (32, nanOut), (32, satOut), (32, aux),
    (24, faultPos), (4, status), (4, fault)]

/-- The Vector Unit record (sp. 08 Table 8-8). -/
def vectorRecord (elems nanIn nanOut satOut dropped status : Nat) : List Byte :=
  recordBytes [(32, elems), (32, nanIn), (32, nanOut), (32, satOut), (32, dropped), (88, 0), (4, status), (4, 0)]

/-- The Optimizer Engine record (sp. 08 Table 8-13). -/
def optimizerRecord (params skipped nanMaster nanMom satMom satCopy status : Nat) : List Byte :=
  recordBytes [(32, params), (11, skipped), (32, nanMaster), (32, nanMom), (32, satMom), (32, satCopy), (77, 0), (4, status),
    (4, 0)]

/-- The layout-engine record (sp. 09 Table 9-14). -/
def layoutRecord (elems bytesOut raw bitmap run bad hits status : Nat) : List Byte :=
  recordBytes [(32, elems), (32, bytesOut), (20, raw), (20, bitmap), (20, run), (20, bad), (32, hits), (72, 0), (4, status), (4, 0)]

/-- The bind record (sp. 07 Table 7-7). -/
def bindRecord (granules bound empty stray status fault ta tb : Nat) : List Byte :=
  recordBytes [(20, granules), (20, bound), (20, empty), (20, stray), (4, status), (20, fault), (14, ta), (14, tb), (124, 0)]

/-- The allocation record (sp. 07 Table 7-11). -/
def allocRecord (routed skipped unrouted kept dropped bad maxFill full crc : Nat) : List Byte :=
  recordBytes [(20, routed), (20, skipped), (20, unrouted), (24, kept), (24, dropped), (16, bad), (16, maxFill), (9, full),
    (32, crc), (75, 0)]

/-- A record's STATUS nibble at bits [lo + 3 : lo] replaced. -/
def withStatus (r : List Byte) (lo v : Nat) : List Byte := toLE 32 (setBits (ofLE r) (lo + 3) lo v)

end Sys2Proof.Machine
end

