-- ==== Sys2Proof/Machine/Operands.lean ====
section
/-! DEFINITION. The operand forms: references (sp. 04 Table 4-8), format words (sp. 03 Table 3-2), the elements, scales and tile
scales that a reference names, the ranges it covers, and the quantiser (sp. 03 R72-R78). -/

namespace Sys2Proof.Machine

/-- A reference (sp. 04 Table 4-8). -/
structure Ref where
  value : Nat
  scale : Nat
  tscale : Nat
  rowStride : Nat
  scaleStride : Nat
  fmt : Nat
  deriving DecidableEq, Repr

/-- The reference at byte `off` of a descriptor. -/
def refAt (desc : List Byte) (off : Nat) : Ref :=
  let w := leAt desc off 32
  { value := bits w 255 200, scale := bits w 199 144, tscale := bits w 143 88, rowStride := bits w 87 64,
    scaleStride := bits w 63 40, fmt := bits w 39 24 }

/-- The reference is all zero. -/
def refZero (desc : List Byte) (off : Nat) : Bool := zeroAt desc off 32
/-- Its reserved bits are zero. -/
def refRsv (desc : List Byte) (off : Nat) : Bool := bits (leAt desc off 32) 23 0 = 0

/-! Fields of a format word. -/
def fElem (f : Nat) : Nat := bits f 15 12
def fScale (f : Nat) : Nat := bits f 11 10
def fRound (f : Nat) : Nat := bits f 9 8
def fSat (f : Nat) : Bool := bit f 7
def fPack (f : Nat) : Bool := bit f 6

/-- A format word that R71 accepts; `pack` where the descriptor accepts transit packing. -/
def fmtOk (f : Nat) (pack : Bool) : Bool :=
  let e := fElem f
  decide (e ≤ 8) && decide (fScale f ≤ 2) && (if 2 ≤ e ∧ e ≤ 4 then decide (1 ≤ fScale f) else decide (fScale f = 0)) &&
  decide (fRound f ≤ 1) && (decide (e < 5 ∨ 6 < e) || decide (fRound f = 0)) &&
  (if e = 2 ∨ e = 4 then fSat f else if 5 ≤ e then !fSat f else true) && (pack || !fPack f) && decide (bits f 5 0 = 0)

/-- The same for an operand that is only read, whose ROUND is ignored (sp. 03 Table 3-2). -/
def fmtRead (f : Nat) (pack : Bool) : Bool := fmtOk (setBits f 9 8 0) pack

/-- Bits per element of an ELEM (sp. 03 Table 3-1, R91). -/
def elemBits (e : Nat) : Nat :=
  if e = 0 ∨ e = 5 then 32 else if e = 1 ∨ e = 6 then 16 else if e = 4 then 4 else 8

/-- Bytes of `n` elements, rounded up (sp. 03 R88). -/
def packedBytes (e n : Nat) : Nat := ceilDiv (n * elemBits e) 8

/-- Codes packed low first, a final odd nibble with a zero above it (sp. 03 R88). -/
def packCodes (e : Nat) : List Nat → List Byte
  | [] => []
  | [c] => if e = 4 then [BitVec.ofNat 8 (c % 16)] else toLE (elemBits e / 8) c
  | c :: d :: r =>
    if e = 4 then BitVec.ofNat 8 (c % 16 + 16 * (d % 16)) :: packCodes e r
    else toLE (elemBits e / 8) c ++ packCodes e (d :: r)

/-- The byte ranges of `rows` rows of `n` elements: values, block scales (along the row, or along the rows when `bdim`), tile
scales (sp. 04 R107, sp. 03 R88). -/
def refRanges (r : Ref) (rows n : Nat) (bdim : Bool) : List (Nat × Nat) :=
  let v := (r.value, (rows - 1) * r.rowStride + packedBytes (fElem r.fmt) n)
  let sc := if bdim then (r.scale, (ceilDiv rows 32 - 1) * r.scaleStride + n)
            else (r.scale, (rows - 1) * r.scaleStride + ceilDiv n 32)
  let ts := (r.tscale, 4 * (ceilDiv rows 128 * ceilDiv n 128))
  if fScale r.fmt = 0 then [v] else if fScale r.fmt = 1 then [v, sc] else [v, sc, ts]

/-- What a unit reads of the named rows of `n` elements, blocks along the row: the bytes of each row, its scale bytes, and the tile
scales of its tile row (sp. 04 R107, sp. 03 R88). -/
def refReads (r : Ref) (rows : List Nat) (n : Nat) : List (Nat × Nat) :=
  rows.map (fun i => (r.value + i * r.rowStride, packedBytes (fElem r.fmt) n)) ++
  (if fScale r.fmt = 0 then [] else rows.map (fun i => (r.scale + i * r.scaleStride, ceilDiv n 32))) ++
  (if fScale r.fmt = 2 then ((rows.map (· / 128)).eraseDups).map (fun t => (r.tscale + 4 * (t * ceilDiv n 128), 4 * ceilDiv n 128))
   else [])

/-- Address fields that the SCALE of the format leaves unused are zero (sp. 04 Table 4-8). -/
def refTied (r : Ref) : Bool :=
  (decide (fScale r.fmt ≠ 0) || decide (r.scale = 0)) && (decide (fScale r.fmt = 2) || decide (r.tscale = 0))

/-- Every range lies in the die's scratch window. -/
def allInScratch (d : Nat) (l : List (Nat × Nat)) : Bool := l.all (fun x => inScratch d x.1 x.2)

/-! ## Elements -/

/-- The code of element `c` of the row that begins at `base`. -/
def codeAt (s : State) (e base c : Nat) : Nat :=
  if e = 4 then bits (readByte s (base + c / 2)).toNat (4 * (c % 2) + 3) (4 * (c % 2))
  else loadLE s (base + c * (elemBits e / 8)) (elemBits e / 8)

/-- The code of element (row, c) of a reference. -/
def refCode (s : State) (r : Ref) (row c : Nat) : Nat := codeAt s (fElem r.fmt) (r.value + row * r.rowStride) c

/-- The scale byte of block `b` of a row (blocks along the row). -/
def refScaleByte (s : State) (r : Ref) (row b : Nat) : Nat := (readByte s (r.scale + row * r.scaleStride + b)).toNat

/-- The FP32 tile scale of (row, c) in an array of `n` columns. -/
def refTile (s : State) (r : Ref) (row c n : Nat) : Code32 :=
  loadLE s (r.tscale + 4 * (row / 128 * ceilDiv n 128 + c / 128)) 4

/-- A tile scale that reads its tile as NaN (sp. 03 R74). -/
def badTile (t : Code32) : Bool :=
  match ofF32 t with
  | .fin _ m _ => m = 0
  | _ => true

/-- v x 2^(e - 127), NaN under a scale byte of 0xFF (sp. 03 R73). -/
def applyScale (v : Num) (sb : Nat) : Num :=
  if sb = 0xFF then .nan
  else match v with
    | .fin s m e => .fin s m (e + sb - 127)
    | x => x

/-- The FP32 value of an element as the Vector Unit, the GME and the layout of a collective read it: FP32 as it is, BF16
widened, a scaled element rounded once (sp. 08 R222). -/
def elemF32 (s : State) (r : Ref) (row c n : Nat) : Code32 :=
  let e := fElem r.fmt
  let code := refCode s r row c
  if e = 0 then (if isNan code then nan32 else code)
  else
    let v := decodeNum e code
    if fScale r.fmt = 0 then toF32 v
    else
      let x := applyScale v (refScaleByte s r row (c / 32))
      if fScale r.fmt = 2 then
        let t := refTile s r row c n
        if badTile t then nan32 else toF32 (mulNum x (ofF32 t))
      else toF32 x

/-! ## The quantiser (sp. 03 R76-R78) -/

/-- What a quantisation of a region gives: the codes by row, the scale bytes by row of the scale array, the tile scale, and the
counts of NaN codes and saturations. -/
structure QOut where
  codes : List (List Nat)
  scales : List (List Nat)
  tile : Code32
  nan : Nat
  sat : Nat
  deriving DecidableEq, Repr

/-- Element (r, c) of a matrix of codes. -/
def mat (m : Array (Array Nat)) (r c : Nat) : Nat := (m.getD r #[]).getD c 0

/-- The FP32 code is finite. -/
def isFin (c : Code32) : Bool := bits c 30 23 ≠ 255

/-- The largest finite magnitude of a list of FP32 codes, as a code. -/
def maxMag (l : List Code32) : Code32 := l.foldl (fun a c => if isFin c && decide (a < fabs c) then fabs c else a) 0

/-- The largest finite value of a scaled format in FP32: 448, 57,344, 6. -/
def fmtMax32 (e : Nat) : Code32 := if e = 2 then 0x43E00000 else if e = 3 then 0x47600000 else 0x40C00000

/-- emax of sp. 03 R77. -/
def fmtEmax (e : Nat) : Int := if e = 2 then 8 else if e = 3 then 15 else 2

/-- The tile scale of sp. 03 R76. -/
def tileScale (e : Nat) (l : List Code32) : Code32 :=
  let a := maxMag l
  if a = 0 then 0x3F800000 else
  let t := fdiv a (fmtMax32 e)
  if t = 0 then 1 else t

/-- The block scale byte of sp. 03 R77, and 0xFF for an FP4 block that holds a NaN (Table 3-3). -/
def blockByte (e : Nat) (l : List Code32) : Nat :=
  if e = 4 ∧ l.any isNan then 0xFF else
  match ofF32 (maxMag l) with
  | .fin _ m x => if m = 0 then 0 else
      let r := ratOf m x
      (max (-127) (min 127 (floorLog r.1 r.2 - fmtEmax e)) + 127).toNat
  | _ => 0

/-- One element under its block byte. -/
def quantElem (e : Nat) (satBit : Bool) (mode : Mode) (sb : Nat) (x : Code32) : Conv :=
  if sb = 0xFF then ⟨0, false, false⟩ else
  match ofF32 x with
  | .fin s m u => convert e satBit mode (.fin s m (u - ((sb : Int) - 127)))
  | y => convert e satBit mode y

/-- The region `m` of `nr` x `nc` FP32 results converted to the format word `f`, blocks along rows when `bdim` is false and
along columns when it is true; `idx` gives an element's logical index. With SCALE = 2 the region is one tile. -/
def quant (s : State) (f stream : Nat) (bdim : Bool) (idx : Nat → Nat → Nat) (m : Array (Array Nat)) (nr nc : Nat) : QOut :=
  let e := fElem f
  let rs := List.range nr
  let cs := List.range nc
  if fScale f = 0 then
    let cv := rs.map (fun r => cs.map (fun c => convert e (fSat f) (modeOf s (fRound f) stream (idx r c)) (ofF32 (mat m r c))))
    { codes := cv.map (fun l => l.map (·.code)), scales := [], tile := 0x3F800000,
      nan := (cv.map (fun l => (l.filter (·.nan)).length)).sum, sat := (cv.map (fun l => (l.filter (·.sat)).length)).sum }
  else
    let t := if fScale f = 2 then tileScale e ((rs.map (fun r => cs.map (mat m r))).flatten) else 0x3F800000
    let x : Array (Array Nat) := if fScale f = 2 then m.map (fun row => row.map (fun v => fdiv v t)) else m
    let sc : Array (Array Nat) :=
      if bdim then
        ((List.range (ceilDiv nr 32)).map (fun b => (cs.map (fun c =>
          blockByte e ((List.range (min 32 (nr - 32 * b))).map (fun k => mat x (32 * b + k) c)))).toArray)).toArray
      else
        (rs.map (fun r => ((List.range (ceilDiv nc 32)).map (fun b =>
          blockByte e ((List.range (min 32 (nc - 32 * b))).map (fun k => mat x r (32 * b + k))))).toArray)).toArray
    let sb (r c : Nat) : Nat := if bdim then mat sc (r / 32) c else mat sc r (c / 32)
    let cv := rs.map (fun r => cs.map (fun c =>
      quantElem e (fSat f) (modeOf s (fRound f) stream (idx r c)) (sb r c) (mat x r c)))
    let sl := (sc.map Array.toList).toList
    { codes := cv.map (fun l => l.map (·.code)), scales := sl, tile := t,
      nan := (cv.map (fun l => (l.filter (·.nan)).length)).sum + (sl.map (fun l => (l.filter (· == 0xFF)).length)).sum,
      sat := (cv.map (fun l => (l.filter (·.sat)).length)).sum }

/-- A list with the positions of its elements. -/
def numbered {α : Type} (l : List α) : List (Nat × α) := (List.range l.length).zip l

/-- The writes of a quantised region whose element (0, 0) is element (r0, c0) of a reference of `rows` x `n`. -/
def quantWrites (r : Ref) (bdim : Bool) (q : QOut) (r0 c0 rows n : Nat) : List (Nat × List Byte) :=
  let e := fElem r.fmt
  let vals := (numbered q.codes).map (fun x => (r.value + (r0 + x.1) * r.rowStride + c0 * elemBits e / 8, packCodes e x.2))
  let scs := (numbered q.scales).map (fun x =>
    (if bdim then r.scale + (r0 / 32 + x.1) * r.scaleStride + c0 else r.scale + (r0 + x.1) * r.scaleStride + c0 / 32,
     x.2.map (BitVec.ofNat 8)))
  let ti := if bdim then c0 / 128 * ceilDiv rows 128 + r0 / 128 else r0 / 128 * ceilDiv n 128 + c0 / 128
  vals ++ (if fScale r.fmt = 0 then [] else scs) ++ (if fScale r.fmt = 2 then [(r.tscale + 4 * ti, toLE 4 q.tile)] else [])

/-- What each of those writes is made from, where row `i` of the result is made from `need i`: a block along the rows from its 32 rows, a
tile from all of its rows. -/
def quantNeeds (r : Ref) (bdim : Bool) (q : QOut) (need : Nat → List (Nat × Nat)) : List (List (Nat × Nat)) :=
  let n := q.codes.length
  let rowsOf (b : Nat) : List (Nat × Nat) := ((List.range (min 32 (n - 32 * b))).map (fun k => need (32 * b + k))).flatten
  let all := ((List.range n).map need).flatten
  let vals := (List.range n).map (fun i =>
    if fScale r.fmt = 2 then all else if fScale r.fmt = 1 ∧ bdim then rowsOf (i / 32) else need i)
  let scs := (List.range q.scales.length).map (fun x => if fScale r.fmt = 2 then all else if bdim then rowsOf x else need x)
  vals ++ (if fScale r.fmt = 0 then [] else scs) ++ (if fScale r.fmt = 2 then [all] else [])

end Sys2Proof.Machine
end

