-- ==== Sys2Proof/Machine/Codec.lean ====
section
/-! DEFINITION. The Tile Codec (sp. 05 R135-R145): the three forms of a codec tile, the encoder's choice, the decoder and its
checks, and the directory and stream of a compressed tensor. -/

namespace Sys2Proof.Machine

/-- A codec tile: its element codes in row-major order and its scale bytes by row (none when unscaled). -/
structure CTile where
  codes : List Nat
  scales : List Nat
  deriving DecidableEq, Repr

/-- The rows of a tile of `c` columns; `n` of them. -/
def tileRows (c : Nat) : Nat → List Nat → List (List Nat)
  | 0, _ => []
  | n + 1, l => l.take c :: tileRows c n (l.drop c)

/-- The dense size D of a tile (sp. 05 R135): its size in transit packing. -/
def denseSize (e : Nat) (scaled : Bool) (r c : Nat) : Nat := r * (b01 scaled + packedBytes e c)

/-- The raw payload: the tile in transit packing (sp. 03 R89). -/
def rawPayload (e r c : Nat) (t : CTile) : List Byte :=
  ((numbered (tileRows c r t.codes)).map (fun x =>
    (if t.scales.isEmpty then [] else [BitVec.ofNat 8 (t.scales.getD x.1 0)]) ++ packCodes e x.2)).flatten

/-- Bits packed eight to a byte, bit j at bit j mod 8; `n` bytes. -/
def packBits : Nat → List Bool → List Byte
  | 0, _ => []
  | n + 1, l => BitVec.ofNat 8 ((numbered (l.take 8)).foldl (fun a x => a + b01 x.2 * 2 ^ x.1) 0) :: packBits n (l.drop 8)

/-- The scale bytes of a tile. -/
def scaleBytes (t : CTile) : List Byte := t.scales.map (BitVec.ofNat 8)

/-- The bitmap payload (sp. 05 R137). -/
def bitmapPayload (e : Nat) (t : CTile) : List Byte :=
  scaleBytes t ++ packBits (ceilDiv t.codes.length 8) (t.codes.map (· ≠ 0)) ++ packCodes e (t.codes.filter (· ≠ 0))

/-- The tokens of the run form (sp. 05 R138), each with its literals; `fuel` bounds their number. -/
def runTokens : Nat → List Nat → List (Nat × List Nat)
  | 0, _ => []
  | f + 1, l =>
    if l.isEmpty then [] else
    let z := min 1023 (l.takeWhile (· = 0)).length
    let r := l.drop z
    let lit := (r.takeWhile (· ≠ 0)).take 63
    (z, lit) :: runTokens f (r.drop lit.length)

/-- The run payload (sp. 05 R137). -/
def runPayload (e : Nat) (t : CTile) : List Byte :=
  scaleBytes t ++ ((runTokens (t.codes.length + 1) t.codes).map (fun k => toLE 2 (k.1 * 64 + k.2.length) ++ packCodes e k.2)).flatten

/-- An encoded tile's header (sp. 05 Table 5-5). -/
def tileHeader (form e : Nat) (scaled : Bool) (r c payload nnz : Nat) : List Byte :=
  toLE 8 (form * 2 ^ 60 + e * 2 ^ 56 + b01 scaled * 2 ^ 55 + (r - 1) * 2 ^ 50 + (c - 1) * 2 ^ 45 + payload * 2 ^ 32 + nnz * 2 ^ 21)

/-- The encoded tile: the smallest form, raw before bitmap before run (sp. 05 R139), with the number of the form. -/
def encodeTile (e r c : Nat) (t : CTile) : Nat × List Byte :=
  let raw := rawPayload e r c t
  let bm := bitmapPayload e t
  let rn := runPayload e t
  let nnz := (t.codes.filter (· ≠ 0)).length
  let scaled := !t.scales.isEmpty
  let pick (f : Nat) (p : List Byte) : Nat × List Byte := (f, tileHeader f e scaled r c p.length nnz ++ p)
  if raw.length ≤ bm.length ∧ raw.length ≤ rn.length then pick 0 raw
  else if bm.length ≤ rn.length then pick 1 bm else pick 2 rn

/-- `n` codes unpacked from bytes. -/
def unpackCodes (e : Nat) (p : List Byte) (n : Nat) : List Nat :=
  (List.range n).map (fun i =>
    if e = 4 then bits (byteAt p (i / 2)) (4 * (i % 2) + 3) (4 * (i % 2)) else leAt p (i * (elemBits e / 8)) (elemBits e / 8))

/-- The codes of a bitmap: the non-zero elements put back at the set bits. -/
def spreadBits : List Bool → List Nat → List Nat
  | [], _ => []
  | true :: r, v :: vs => v :: spreadBits r vs
  | true :: r, [] => 0 :: spreadBits r []
  | false :: r, vs => 0 :: spreadBits r vs

/-- The codes of run tokens, or none when the payload's size is not the tokens'; `fuel` bounds their number. -/
def readTokens (e : Nat) : Nat → List Byte → Option (List Nat × Nat)
  | 0, p => if p.isEmpty then some ([], 0) else none
  | f + 1, p =>
    if p.isEmpty then some ([], 0)
    else if p.length < 2 then none
    else
      let w := leAt p 0 2
      let z := w / 64
      let l := w % 64
      let b := packedBytes e l
      if p.length < 2 + b then none
      else
        match readTokens e f (p.drop (2 + b)) with
        | none => none
        | some (r, n) => some (List.replicate z 0 ++ unpackCodes e (slice p 2 b) l ++ r, l + n)

/-- A decoder on a tile's bytes from its header on (sp. 05 R145): the tile, or none when a check fails. `p` reaches to the end of
the stream. -/
def decodeTile (e : Nat) (scaled : Bool) (r c : Nat) (p : List Byte) : Option CTile :=
  let h := leAt p 0 8
  let form := bits h 63 60
  let pay := bits h 44 32
  let nnz := bits h 31 21
  let sn := if scaled then r else 0
  let body := slice p 8 pay
  if p.length < 8 + pay ∨ 2 < form ∨ bits h 59 56 ≠ e ∨ bit h 55 ≠ scaled ∨ bits h 54 50 ≠ r - 1 ∨ bits h 49 45 ≠ c - 1 ∨
      bits h 20 0 ≠ 0 then none
  else if form = 0 then
    if pay ≠ denseSize e scaled r c then none else
    let w := b01 scaled + packedBytes e c
    some { codes := ((List.range r).map (fun i => unpackCodes e (slice body (i * w + b01 scaled) (packedBytes e c)) c)).flatten,
           scales := if scaled then (List.range r).map (fun i => byteAt body (i * w)) else [] }
  else
    let sc := if scaled then (slice body 0 r).map (·.toNat) else []
    if form = 1 then
      let bm := (List.range (r * c)).map (fun j => bit (byteAt body (sn + j / 8)) (j % 8))
      if pay ≠ sn + ceilDiv (r * c) 8 + packedBytes e nnz ∨ (bm.filter id).length ≠ nnz then none
      else some { codes := spreadBits bm (unpackCodes e (body.drop (sn + ceilDiv (r * c) 8)) nnz), scales := sc }
    else if pay < sn then none
    else
      match readTokens e (pay + 1) (body.drop sn) with
      | none => none
      | some (l, n) => if l.length = r * c ∧ n = nnz then some { codes := l, scales := sc } else none

/-- What a rejected tile is delivered as (sp. 05 R145). -/
def badCTile (e : Nat) (scaled : Bool) (r c : Nat) : CTile :=
  let v := if scaled then 0 else if e < 2 then nanCode e else if e = 5 then 0xFFFFFFFF else if e = 6 then 0xFFFF else 0
  { codes := List.replicate (r * c) v, scales := if scaled then List.replicate r 0xFF else [] }

/-- A zero tile. -/
def zeroCTile (scaled : Bool) (r c : Nat) : CTile :=
  { codes := List.replicate (r * c) 0, scales := if scaled then List.replicate r 0 else [] }

/-- Some byte of a range is fenced. -/
def rangeFenced (s : State) (a n : Nat) : Bool := s.mem.fences.any (fun f => decide (f.base < a + n ∧ a < f.base + f.len))

/-- The tile (rt, kt) of a compressed tensor of `rows` x `k` whose directory stands at `dir`, and whether it was rejected.
`inside` says which ranges the reader may reach. A tile read from a fenced paddock is a zero tile (sp. 05 R156). -/
def readCTile (s : State) (dir e : Nat) (scaled : Bool) (rows k rt kt : Nat) (inside : Nat → Nat → Bool) : CTile × Bool :=
  let r := min 32 (rows - 32 * rt)
  let c := min 32 (k - 32 * kt)
  let h := loadLE s dir 16
  let base := bits h 127 72
  let len := bits h 31 0
  let ea := dir + 16 + 4 * (rt * ceilDiv k 32 + kt)
  let off := loadLE s ea 4
  let pay := bits (loadLE s (base + off) 8) 44 32
  if rangeFenced s dir 16 || rangeFenced s ea 4 || rangeFenced s (base + off) 8 || rangeFenced s (base + off) (8 + pay) then
    (zeroCTile scaled r c, false)
  else if len < off + 8 + pay ∨ !inside (base + off) (8 + pay) then (badCTile e scaled r c, true)
  else
    match decodeTile e scaled r c (load s (base + off) (8 + pay)) with
    | some t => (t, false)
    | none => (badCTile e scaled r c, true)

/-- What a reader of tile (rt, kt) reads: its directory entry and, where it may reach them, its stream bytes (sp. 05 R140, R145). -/
def ctileReads (s : State) (dir k rt kt : Nat) (inside : Nat → Nat → Bool) : List (Nat × Nat) :=
  let ea := dir + 16 + 4 * (rt * ceilDiv k 32 + kt)
  let a := bits (loadLE s dir 16) 127 72 + loadLE s ea 4
  let n := 8 + bits (loadLE s a 8) 44 32
  (ea, 4) :: (if inside a n then [(a, n)] else [])

/-- The bytes a directory of `rows` x `k` takes (sp. 05 R140). -/
def directorySize (rows k : Nat) : Nat := 16 + 4 * (ceilDiv rows 32 * ceilDiv k 32)

/-- A directory's header (sp. 05 R140). -/
def directoryHeader (stream rows k len : Nat) : List Byte := toLE 16 (stream * 2 ^ 72 + rows * 2 ^ 52 + k * 2 ^ 32 + len)

/-- The codec tiles of a tensor in order: row tile, then K block. -/
def tileGrid (rows k : Nat) : List (Nat × Nat) :=
  ((List.range (ceilDiv rows 32)).map (fun rt => (List.range (ceilDiv k 32)).map (fun kt => (rt, kt)))).flatten

/-- Zero bytes up to the next multiple of 8. -/
def padTo8 (p : List Byte) : List Byte := p ++ zeros ((8 - p.length % 8) % 8)

/-- The stream and the offsets of encoded tiles laid one after another (sp. 05 R140). -/
def layTiles : Nat → List (List Byte) → List Byte × List Nat
  | _, [] => ([], [])
  | o, t :: r =>
    let p := padTo8 t
    let x := layTiles (o + p.length) r
    (p ++ x.1, o :: x.2)

/-- Σ over the tiles of D + 8 rounded up to 8: the bytes that a stream may need (sp. 09 R283). -/
def streamNeed (e : Nat) (scaled : Bool) (rows k : Nat) : Nat :=
  ((tileGrid rows k).map (fun x => ceilDiv (denseSize e scaled (min 32 (rows - 32 * x.1)) (min 32 (k - 32 * x.2)) + 8) 8 * 8)).sum

end Sys2Proof.Machine
end

