-- ==== Sys2Proof/Machine/Dense.lean ====
section
/-! DEFINITION. The Dense Matrix Engine (sp. 04) with presence metadata, zero groups, carry mode and the predictor (sp. 05):
the descriptor, its load checks, what a cue writes and how many cycles it takes. -/

namespace Sys2Proof.Machine

/-- A DME descriptor (sp. 04 Tables 4-6, 4-7). -/
structure Dme where
  op : Nat
  m : Nat
  n : Nat
  k : Nat
  extK : Nat
  first : Nat
  count : Nat
  mode : Nat
  split : Nat
  colMajor : Bool
  accLoad : Bool
  out2En : Bool
  outB : Bool
  out2B : Bool
  extT : Bool
  panel : Nat
  zero : Bool
  carry : Bool
  segOff : Nat
  extOff : Nat
  metaOff : Nat
  doneOff : Nat
  stream : Nat
  stream2 : Nat
  row0 : Nat
  col0 : Nat
  logN : Nat
  tagOff : Nat
  tagEn : Bool
  a : Ref
  b : Ref
  out : Ref
  out2 : Ref
  acc : Ref
  ea : Ref
  eb : Ref
  deriving DecidableEq, Repr

/-- The 320 bytes of a DME descriptor read. -/
def parseDme (op : Nat) (p : List Byte) : Dme :=
  let w := leAt p 0 64
  { op := op, m := bits w 511 492, n := bits w 491 472, k := bits w 471 452, extK := bits w 451 440, first := bits w 439 420,
    count := bits w 419 400, mode := bits w 399 398, split := bits w 397 396, colMajor := bit w 395, accLoad := bit w 394,
    out2En := bit w 393, outB := bit w 392, out2B := bit w 391, extT := bit w 390, panel := bits w 389 388, zero := bit w 387,
    carry := bit w 386, segOff := bits w 383 356, extOff := bits w 355 328, metaOff := bits w 327 300, doneOff := bits w 299 272,
    stream := bits w 271 240, stream2 := bits w 239 208, row0 := bits w 207 176, col0 := bits w 175 144, logN := bits w 143 112,
    tagOff := bits w 111 84, tagEn := bit w 83, a := refAt p 64, b := refAt p 96, out := refAt p 128, out2 := refAt p 160,
    acc := refAt p 192, ea := refAt p 224, eb := refAt p 256 }

/-- Tile height, tile width, segments and fill constant of a shape (sp. 04 Table 4-3). -/
def Dme.h (d : Dme) : Nat := if d.mode = 0 then 128 else if d.mode = 1 then 32 else 16
def Dme.w (d : Dme) : Nat := if d.mode = 0 then 128 else if d.mode = 1 then 512 else 1024
def Dme.segs (d : Dme) : Nat := if d.split = 0 then 1 else if d.split = 1 then 2 else 4
def Dme.fill (d : Dme) : Nat := d.h + d.w / d.segs
def Dme.mt (d : Dme) : Nat := ceilDiv d.m d.h
def Dme.nt (d : Dme) : Nat := ceilDiv d.n d.w

/-- SPLIT is allowed for MODE (sp. 04 Table 4-3). -/
def shapeOk (mode split : Nat) : Bool :=
  (mode = 0 && split = 0) || (mode = 1 && decide (split ≤ 1)) || (mode = 2 && decide (split ≤ 2))

/-- An operand pair of sp. 03 Table 3-4. -/
def pairOk (x y : Nat) : Bool :=
  (x = 2 && y = 2) || (x = 2 && y = 3) || (x = 3 && y = 2) || (x = 4 && y = 4) || (x = 1 && y = 1)

/-- Tile (mt, nt) of a tile number (sp. 04 R111). -/
def Dme.tileOf (d : Dme) (i : Nat) : Nat × Nat := if d.colMajor then (i % d.mt, i / d.mt) else (i / d.nt, i % d.nt)

/-- The tiles that the cue computes, in order. -/
def Dme.tiles (d : Dme) : List (Nat × Nat) := (List.range d.count).map (fun i => d.tileOf (d.first + i))

/-- The range of the entries of a table that the cue's tiles index (sp. 04 R109). -/
def entryRange (base : Nat) (l : List Nat) : Nat × Nat :=
  let lo := l.foldl min (l.headD 0)
  let hi := l.foldl max 0
  (base + 16 * lo, 16 * (hi - lo + 1))

/-- The segment entries of a tile: row-major number x segments + segment (sp. 04 R107). -/
def Dme.segEntries (d : Dme) (t : Nat × Nat) : List Nat := (List.range d.segs).map (fun k => (t.1 * d.nt + t.2) * d.segs + k)

/-- Row-group bytes of the bitmap (sp. 05 Table 5-2). -/
def rgBytes (k : Nat) : Nat := 8 * ceilDiv (ceilDiv k 32) 64

/-- The bytes that the metadata may take: header and bitmap (sp. 05 R123, R124). -/
def metaSize (m k : Nat) : Nat := 64 + ceilDiv m 32 * rgBytes k

/-- The ranges of B: its arrays, or its directory in carry mode (sp. 05 R144). -/
def Dme.bRanges (d : Dme) : List (Nat × Nat) :=
  if d.carry then [(d.b.value, directorySize d.n d.k)] else refRanges d.b d.n d.k false

/-- What the cue reads or writes beside its outputs and its metadata, on die `die`: all of it lies in the window (sp. 04 R109). -/
def Dme.inputs (d : Dme) (die : Nat) : List (Nat × Nat) :=
  let o := scratchOf die
  (if d.split = 0 then refRanges d.a d.m d.k false else []) ++ d.bRanges ++
  (if 0 < d.extK then refRanges d.ea d.m d.extK false ++ (if d.extT then [] else refRanges d.eb d.n d.extK false) else []) ++
  (if d.split = 0 then [] else [entryRange (o + d.segOff) (d.tiles.map d.segEntries).flatten]) ++
  (if d.extT then [entryRange (o + d.extOff) (d.tiles.map (·.1))] else []) ++
  (if d.tagEn then [(o + d.tagOff, 8 * d.k)] else []) ++ [(o + d.doneOff, 32)]

/-- The ranges that OUT and OUT2 must not meet (sp. 04 R109, sp. 05 R146): the metadata too, whose place is judged at the start of the
cue (sp. 05 R125); at load, before its header says whether a bitmap follows, as header and full bitmap (DESIGN CHOICE, log 100). -/
def Dme.others (d : Dme) (die : Nat) : List (Nat × Nat) :=
  d.inputs die ++ (if d.panel = 1 then [(scratchOf die + d.metaOff, metaSize d.m d.k)] else [])

/-- The map region of an MM_PREDICT cue (sp. 05 R146). -/
def Dme.mapRange (d : Dme) (die : Nat) : Nat × Nat := (scratchOf die + d.doneOff + 32, ceilDiv d.n 128 * ceilDiv d.m 64 * 8)

/-- The formats of sp. 04 R109 and of carry mode (sp. 05 R144). -/
def Dme.formatsOk (d : Dme) : Bool :=
  fmtRead d.a.fmt false && fmtRead d.b.fmt false && pairOk (fElem d.a.fmt) (fElem d.b.fmt) &&
  fmtOk d.out.fmt false && decide (fElem d.out.fmt ≤ 4) &&
  (!d.out2En || (fmtOk d.out2.fmt false && decide (fElem d.out2.fmt ≤ 4))) &&
  (!d.accLoad || (fmtRead d.acc.fmt false && fElem d.acc.fmt = 0)) &&
  (d.extK = 0 || (fmtRead d.ea.fmt false && fmtRead d.eb.fmt false && pairOk (fElem d.ea.fmt) (fElem d.eb.fmt))) &&
  (d.mode = 0 || (!d.outB && !d.out2B && decide (fScale d.out.fmt ≠ 2) && (!d.out2En || decide (fScale d.out2.fmt ≠ 2)) &&
                  decide (fScale d.a.fmt ≠ 2))) &&
  (!d.carry || (d.mode = 0 && decide (fScale d.b.fmt ≠ 2) && d.b.scale = 0 && d.b.tscale = 0 && d.b.rowStride = 0 &&
                d.b.scaleStride = 0))

/-- Fields that another field leaves unused are zero, reserved bits are zero, offsets are aligned (sp. 04 R109, sp. 05
R131). -/
def Dme.tiesOk (d : Dme) (p : List Byte) : Bool :=
  let w := leAt p 0 64
  bits w 385 384 = 0 && bits w 82 0 = 0 && zeroAt p 288 32 && ([64, 96, 128, 160, 192, 224, 256].all (refRsv p)) &&
  (d.out2En || refZero p 160) && (d.accLoad || refZero p 192) && (decide (0 < d.extK) || (refZero p 224 && refZero p 256 && !d.extT)) &&
  (d.split = 0 || (d.a.value = 0 && d.a.scale = 0)) && (if d.split = 0 then d.segOff = 0 else d.segOff % 16 = 0) &&
  (if d.extT then d.extOff % 16 = 0 && d.eb.value = 0 && d.eb.scale = 0 && d.eb.tscale = 0 && decide (fScale d.eb.fmt ≠ 2)
   else d.extOff = 0) &&
  (if d.panel = 1 then d.metaOff % 64 = 0 && d.mode = 0 else d.metaOff = 0) && d.doneOff % 32 = 0 &&
  (if d.tagEn then d.op = 0x12 && d.tagOff % 8 = 0 else d.tagOff = 0) &&
  refTied d.a && (d.carry || refTied d.b) && refTied d.out && refTied d.out2 && refTied d.acc && refTied d.ea && refTied d.eb

/-- The output ranges. -/
def Dme.outRanges (d : Dme) : List (Nat × Nat) := refRanges d.out d.m d.n d.outB
/-- The second output's. -/
def Dme.out2Ranges (d : Dme) : List (Nat × Nat) := if d.out2En then refRanges d.out2 d.m d.n d.out2B else []

/-- An output meets ACC only as the identical FP32 reference (sp. 04 R109). -/
def Dme.accClear (d : Dme) (o : Ref) (l : List (Nat × Nat)) : Bool :=
  !d.accLoad || !anyMeets l (refRanges d.acc d.m d.n false) || (o = d.acc && fElem o.fmt = 0)

/-- The overlaps of sp. 04 R109 and sp. 05 R146. -/
def Dme.overlapsOk (d : Dme) (die : Nat) : Bool :=
  !anyMeets d.outRanges (d.others die) && !anyMeets d.out2Ranges (d.others die) && !anyMeets d.outRanges d.out2Ranges &&
  d.accClear d.out d.outRanges && d.accClear d.out2 d.out2Ranges &&
  (d.op ≠ 0x13 || (d.mode = 0 && d.panel = 0 && !d.out2En && d.extK = 0 &&
    allInScratch die [d.mapRange die] &&
    !anyMeets [d.mapRange die] (d.outRanges ++ d.others die ++ (if d.accLoad then refRanges d.acc d.m d.n false else []))))

/-- The check of a DME descriptor at load and at issue (sp. 04 R109, sp. 05 R131, R144, R146). -/
def checkDme (die op : Nat) (p : List Byte) : Bool :=
  let d := parseDme op p
  decide (0 < d.m ∧ 0 < d.n ∧ 0 < d.k ∧ 0 < d.count) && shapeOk d.mode d.split && decide (d.panel ≤ 1) &&
  decide (d.first + d.count ≤ d.mt * d.nt) && d.formatsOk && d.tiesOk p &&
  allInScratch die (d.inputs die ++ d.outRanges ++ d.out2Ranges ++ (if d.accLoad then refRanges d.acc d.m d.n false else [])) &&
  d.overlapsOk die

/-! ## Presence metadata (sp. 05 R122-R125) -/

/-- The metadata as a cue uses it: the static bitmap for values and for time (sp. 05 R133), its size in bytes, the map and the predictor
fields. `audited` is PRED_MODE. -/
structure Meta where
  present : Array (Array Bool)
  time : Array (Array Bool)
  size : Nat
  apply : Nat
  audited : Bool
  auditEn : Bool
  mapAddr : Nat
  tt0 : Nat
  nb0 : Nat
  words : Nat
  slot : Nat
  prior : Nat
  auditN : Nat
  auditStream : Nat
  eps : Code32
  missLimit : Nat
  massLimit : Nat
  deriving DecidableEq, Repr

/-- A table of `g` x `b` flags. -/
def flagTable (g b : Nat) (f : Nat → Nat → Bool) : Array (Array Bool) :=
  ((List.range g).map (fun i => ((List.range b).map (f i)).toArray)).toArray

/-- One flag. -/
def flag (t : Array (Array Bool)) (g b : Nat) : Bool := (t.getD g #[]).getD b false

/-- No metadata: every sub-tile present, no map. -/
def metaDense (d : Dme) : Meta :=
  let all := flagTable (ceilDiv d.m 32) (ceilDiv d.k 32) (fun _ _ => true)
  { present := all, time := all, size := 0, apply := 0, audited := false, auditEn := false,
    mapAddr := 0, tt0 := 0, nb0 := 0, words := 0, slot := 0, prior := 0, auditN := 0, auditStream := 0, eps := 0, missLimit := 0,
    massLimit := 0 }

/-- The bytes that a header announces: the header, and a bitmap unless ALL_PRESENT (sp. 05 R123, R124). -/
def metaBytes (d : Dme) (h : Nat) : Nat := if bit h 439 then 64 else metaSize d.m d.k

/-- The static bitmap of metadata at `base` with header `h`, its bytes given by `rd`. -/
def bitmapOf (rd : Nat → Byte) (d : Dme) (base h : Nat) : Array (Array Bool) :=
  flagTable (ceilDiv d.m 32) (ceilDiv d.k 32) (fun g b => bit h 439 || bit (rd (base + 64 + g * rgBytes d.k + b / 8)).toNat (b % 8))

/-- The metadata that a header at `base` describes. -/
def metaRead (s : State) (d : Dme) (base : Nat) : Meta :=
  let h := loadLE s base 64
  let map := bitmapOf (readByte s) d base h
  { present := map, time := map, size := metaBytes d h,
    apply := bits h 438 437, audited := bit h 436, auditEn := bit h 435, mapAddr := bits h 434 379, tt0 := bits h 378 359,
    nb0 := bits h 358 339, words := bits h 338 331, slot := bits h 330 325, prior := bits h 324 309, auditN := bits h 308 298,
    auditStream := bits h 297 266, eps := bits h 265 234, missLimit := bits h 233 202, massLimit := bits h 201 138 }

/-- The header against R123 (check 1 of R125): each field as Table 5-2 requires. -/
def metaHeaderOk (d : Dme) (h : Nat) : Bool :=
  let ap := bits h 438 437
  bits h 511 496 = 5 && bits h 495 476 = d.m && bits h 475 456 = d.k && bits h 455 440 = rgBytes d.k && decide (ap ≠ 3) &&
  (decide (ap ≠ 0) || (!bit h 436 && bits h 434 379 = 0)) && (!bit h 435 || ap = 1) && decide (1 ≤ bits h 338 331) &&
  (if bit h 435 || bit h 436 then decide (16 ≤ bits h 308 298 ∧ bits h 308 298 ≤ 1024) else bits h 330 138 = 0) &&
  bits h 137 32 = 0

/-- Bits beyond the last block of each row group are zero (R124, check 2). -/
def metaPadOk (s : State) (d : Dme) (base h : Nat) : Bool :=
  bit h 439 || (List.range (ceilDiv d.m 32)).all (fun g =>
    let v := loadLE s (base + 64 + g * rgBytes d.k) (rgBytes d.k)
    v / 2 ^ ceilDiv d.k 32 = 0)

/-- The cue is a consumer of its slot (sp. 05 R152). The slot counts only where AUDIT_EN or PRED_MODE is in use (R123). -/
def Meta.consumer (m : Meta) : Bool := decide (m.apply ≠ 0) && (m.auditEn || m.audited)

/-- The cue runs EXACT: PRED_MODE says so, or its slot stands turned (sp. 05 R148, R153). -/
def Meta.exact (s : State) (m : Meta) : Bool := !m.audited || (m.consumer && (Sparse.get noPred s.stage.preds m.slot).turned)

/-- The bytes of the activity map that the cue's tiles read (sp. 05 R147, R148, R150); none where it reads no map. -/
def Dme.mapReads (s : State) (d : Dme) (m : Meta) : List (Nat × Nat) :=
  if m.apply = 0 ∨ (m.exact s ∧ !m.auditEn) then [] else
  (d.tiles.map (fun t =>
    let lo := m.nb0 + (if m.apply = 1 then 4 * t.1 else 0)
    let n := if m.apply = 1 then ceilDiv (min 128 (d.m - 128 * t.1)) 32 else ceilDiv d.k 32
    (m.mapAddr + (m.tt0 + t.2) * m.words * 8 + lo / 8, (lo + n - 1) / 8 - lo / 8 + 1))).eraseDups

/-- The first check of R125 that fails, 1 to 5 in the order R125 names them (DEDUCED, log 32): header, bitmap padding, CRC, place
of the metadata, place of the map that the cue reads; 0 when all hold. -/
def metaFault (s : State) (die : Nat) (d : Dme) : Nat :=
  let base := scratchOf die + d.metaOff
  let h := loadLE s base 64
  if !inScratch die base 64 then 4
  else if !metaHeaderOk d h then 1
  else if !metaPadOk s d base h then 2
  else if crc32c (load s (base + 4) (metaBytes d h - 4)) ≠ bits h 31 0 then 3
  else if !inScratch die base (metaBytes d h) then 4
  else if !allInScratch die (d.mapReads s (metaRead s d base)) then 5
  else 0

/-- The metadata at an address as a kill of this step found it (sp. 12 R362). -/
def plannedMeta (s : State) (base : Nat) : Option (List Byte) := (s.stage.planned.find? (fun x => x.1 = base)).map (·.2)

/-- A byte of metadata at `base` as the plan knows it. -/
def plannedByte (s : State) (base a : Nat) : Byte :=
  match plannedMeta s base with
  | some l => l.getD (a - base) 0
  | none => storedByte s a

/-- The planned bitmap of metadata that a kill took, which alone counts for time (sp. 05 R133, sp. 12 R362): a tenant kill leaves every
duration of its step. Of metadata that was scrubbed before the step no byte of the machine holds it (log 81). -/
def plannedBitmap (s : State) (d : Dme) (base : Nat) : Array (Array Bool) :=
  let rd := plannedByte s base
  let h := ofLE ((List.range 64).map (fun i => rd (base + i)))
  if bits h 511 496 = 5 then bitmapOf rd d base h
  else flagTable (ceilDiv d.m 32) (ceilDiv d.k 32) (Config.lostBitmap base)

/-- The metadata of a cue and its failed check (sp. 05 R125). Metadata in a fenced paddock is not checked: what it reads as zero is
absent (R156), and the cue keeps its time. So it stays for the rest of the step when the scrub of the paddock has ended (sp. 12 R362; log
108). -/
def metaOf (s : State) (die : Nat) (d : Dme) : Meta × Nat :=
  let base := scratchOf die + d.metaOff
  if d.panel = 0 then (metaDense d, 0)
  else
    let killed := (plannedMeta s base).isSome
    let f := metaFault s die d
    if rangeFenced s base 64 || (killed && f ≠ 0 && loadLE s base 64 = 0) then
      ({ metaDense d with present := #[], time := plannedBitmap s d base, size := metaSize d.m d.k }, 0)
    else if rangeFenced s base (metaBytes d (loadLE s base 64)) || (killed && f ≠ 0) then
      ({ metaRead s d base with time := plannedBitmap s d base }, 0)
    else if f = 0 then (metaRead s d base, 0)
    else ({ metaDense d with size := metaBytes d (loadLE s base 64) }, f)

/-- A bit of the activity map (sp. 05 R147). -/
def mapBit (s : State) (m : Meta) (nt x : Nat) : Bool :=
  bit (readByte s (m.mapAddr + (m.tt0 + nt) * m.words * 8 + (m.nb0 + x) / 8)).toNat ((m.nb0 + x) % 8)

/-- The map's answer for a sub-tile (sp. 05 R148). -/
def mapSays (s : State) (m : Meta) (nt g b : Nat) : Bool := mapBit s m nt (if m.apply = 1 then g else b)

/-- A sub-tile is value-present (sp. 05 R148); `exact` when the slot stands turned or PRED_MODE is EXACT. -/
def valuePresent (s : State) (m : Meta) (exact : Bool) (nt g b : Nat) : Bool :=
  flag m.present g b && (decide (m.apply = 0) || exact || mapSays s m nt g b)

/-- A neuron tile is predicted inactive (sp. 05 R148). -/
def inactive (s : State) (m : Meta) (nt g : Nat) : Bool :=
  decide (m.apply = 1) && !mapBit s m nt g && (m.present.getD g #[]).any id

/-- A skipped neuron tile is selected for audit (sp. 05 R150). -/
def auditPick (s : State) (d : Dme) (m : Meta) (nt g : Nat) : Bool :=
  m.auditEn && decide (drawOf s m.auditStream ((d.col0 / 128 + nt) * 2 ^ 32 + d.row0 / 32 + g) < 2 ^ 32 / m.auditN)

/-! ## Arithmetic (sp. 03 R84-R86) -/

/-- The sum of the exact products of a block, NaN or infinite by R85; the sign of an exact zero is dropped. -/
def blockSum (l : List (Num × Num)) : Num := l.foldl (fun acc x => addNum acc (mulNum x.1 x.2)) (.fin false 0 0)

/-- f_b of R84 and R85 from the products, the scale bytes and the rounded product of the tile scales. -/
def blockTerm (l : List (Num × Num)) (sa sb : Nat) (t : Code32) : Code32 :=
  if sa = 0xFF ∨ sb = 0xFF then nan32 else
  match blockSum l with
  | .nan => nan32
  | .inf g => if isNan t then nan32 else infCode 0 g
  | .fin g m e => if isNan t then nan32 else if m = 0 then 0 else toF32 (mulNum (.fin g m (e + sa + sb - 254)) (ofF32 t))

/-- One row or column operand over K: its element values, scale bytes and tile scales (codes; NaN for a bad one). -/
structure Operand where
  vals : Array Num
  scales : Array Nat
  tiles : Array Code32
  deriving DecidableEq, Repr

/-- A row of `k` elements at given value and scale addresses, with the tile scales of row `row` of an array of `k` columns. -/
def loadRow (s : State) (r : Ref) (vb sb row k : Nat) : Operand :=
  let e := fElem r.fmt
  { vals := ((List.range k).map (fun i => decodeNum e (codeAt s e vb i))).toArray,
    scales := if fScale r.fmt = 0 then #[] else ((List.range (ceilDiv k 32)).map (fun i => (readByte s (sb + i)).toNat)).toArray,
    tiles := if fScale r.fmt = 2 then ((List.range (ceilDiv k 128)).map (fun i =>
      let t := refTile s r row (128 * i) k
      if badTile t then nan32 else t)).toArray else #[] }

/-- A row of a reference. -/
def loadRefRow (s : State) (r : Ref) (row k : Nat) : Operand :=
  loadRow s r (r.value + row * r.rowStride) (r.scale + row * r.scaleStride) row k

/-- A row of a compressed tensor (sp. 05 R143), and how many of its tiles were rejected. -/
def loadCarryRow (s : State) (die : Nat) (r : Ref) (row rows k : Nat) : Operand :=
  let e := fElem r.fmt
  let sc := decide (fScale r.fmt = 1)
  let ts := (List.range (ceilDiv k 32)).map (fun b => (readCTile s r.value e sc rows k (row / 32) b (inScratch die)).1)
  { vals := (((numbered ts).map (fun x =>
      let c := min 32 (k - 32 * x.1)
      (slice' x.2.codes (row % 32 * c) c).map (decodeNum e))).flatten).toArray,
    scales := if sc then (ts.map (fun t => t.scales.getD (row % 32) 0)).toArray else #[], tiles := #[] }
where
  slice' (l : List Nat) (o n : Nat) : List Nat := (l.drop o).take n

/-- T of R84 for one K index: 1 without tile scales. -/
def tilePair (x y : Operand) (k : Nat) : Code32 :=
  if x.tiles.isEmpty && y.tiles.isEmpty then 0x3F800000
  else fmul (x.tiles.getD (k / 128) 0x3F800000) (y.tiles.getD (k / 128) 0x3F800000)

/-- Block `b` of a contraction of `k` indices enters an accumulator (sp. 03 R84, R86). -/
def accBlock (bf16 : Bool) (x y : Operand) (k : Nat) (acc : Code32) (b : Nat) : Code32 :=
  let l := (List.range (min 32 (k - 32 * b))).map (fun i => (x.vals.getD (32 * b + i) .nan, y.vals.getD (32 * b + i) .nan))
  if bf16 then l.foldl (fun a v => toF32 (addNum (ofF32 a) (mulNum v.1 v.2))) acc
  else fadd acc (blockTerm l (x.scales.getD b 0) (y.scales.getD b 0) (tilePair x y (32 * b)))

/-- A group of the column operand is a zero group (sp. 05 R132); under a scale byte 0xFF it is none in carry mode either (DESIGN CHOICE,
log 80). -/
def zeroGroup (y : Operand) (k b : Nat) : Bool :=
  decide (y.scales.getD b 0 ≠ 0xFF) && !isNan (y.tiles.getD (b / 4) 0x3F800000) &&
  (List.range (min 32 (k - 32 * b))).all (fun i =>
    match y.vals.getD (32 * b + i) .nan with
    | .fin _ m _ => m = 0
    | _ => false)

/-! ## Cycles (sp. 04 R116, sp. 05 R130) -/

/-- c(k, pair). -/
def pairCycles (e k : Nat) : Nat := if e = 4 then ceilDiv k 2 else if e = 1 then 2 * k else k

/-- The time of the panels of one tile from a list of (dense, existing K, time-present blocks per strip); `run` holds the panels
and per-strip blocks of the sparse run being formed. -/
def panelTime (e : Nat) : List (Bool × Nat × List Nat) → Nat → List Nat → Nat
  | [], p, acc => if p = 0 then 0 else max (p * pairCycles e 128 / 8) (pairCycles e 32 * acc.foldl max 0)
  | (true, kp, _) :: r, p, acc =>
    (if p = 0 then 0 else max (p * pairCycles e 128 / 8) (pairCycles e 32 * acc.foldl max 0)) + pairCycles e kp + panelTime e r 0 []
  | (false, _, n) :: r, p, acc => panelTime e r (p + 1) (if acc.isEmpty then n else (acc.zip n).map (fun x => x.1 + x.2))

/-- The panels of a tile: whether each runs dense (sp. 05 R128), its K indices, and the time-present blocks of each strip. -/
def panelsOf (d : Dme) (thresh mt : Nat) (tp : Nat → Nat → Bool) : List (Bool × Nat × List Nat) :=
  let strips := (List.range (ceilDiv (min 128 (d.m - 128 * mt)) 32)).map (fun i => 4 * mt + i)
  (List.range (ceilDiv d.k 128)).map (fun p =>
    let bs := (List.range (min 4 (ceilDiv d.k 32 - 4 * p))).map (fun i => 4 * p + i)
    let n := strips.map (fun g => (bs.filter (tp g)).length)
    (decide (thresh * (strips.length * bs.length) < 16 * n.sum), min 128 (d.k - 128 * p), n))

/-- The extension's cycles e of R116. -/
def Dme.extCycles (d : Dme) : Nat := if d.extK = 0 then 0 else pairCycles (fElem d.ea.fmt) d.extK

/-- X of R116. -/
def Dme.second (d : Dme) : Nat := if fScale d.out.fmt = 2 ∨ (d.out2En ∧ fScale d.out2.fmt = 2) then 128 else 0

/-- The cost of one tile. `tp` gives the time-present sub-tiles of its N tile. -/
def Dme.tileCost (d : Dme) (thresh mt : Nat) (dense : Bool) (tp : Nat → Nat → Bool) : Nat :=
  let t := if d.panel = 0 ∨ dense then pairCycles (fElem d.a.fmt) d.k
           else panelTime (fElem d.a.fmt) (panelsOf d thresh mt tp) 0 []
  max (t + d.extCycles) 128

/-- The static time of a DME command: the bitmap alone decides (sp. 05 R133), as a builder computes it (sp. 02 R54). -/
def dmeCost (s : State) (die op : Nat) (p : List Byte) : Nat :=
  let d := parseDme op p
  let (m, f) := metaOf s die d
  d.fill + (d.tiles.map (fun t => d.tileCost (bits s.cfg.panelThresh.toNat 4 0) t.1 (decide (f ≠ 0)) (flag m.time))).sum + d.second

/-! ## A cue (sp. 04 R111-R121) -/

/-- What a DME cue does: its writes, its record, its cycles, its predictor counts, the tags of a tenant mix, the failed metadata
check, the rejected carry tiles, the ranges it reads, what each write is made from, and each tile's accumulators. -/
structure DmeRun where
  writes : List (Nat × List Byte)
  due : List Nat
  record : List Byte
  cycles : Nat
  preds : List PredDelta
  mix : Option (Nat × Nat)
  tiles : List (Nat × List Nat)
  badMeta : Nat
  badTiles : List Nat
  reads : List (Nat × Nat)
  needs : List (List (Nat × Nat))
  slots : List (Array (Array Nat))
  deriving DecidableEq, Repr

/-- A table entry (sp. 04 Table 4-9): usable addresses, or none, and whether it reached outside the window. `need` gives the byte
ranges that the operand would take at (value, scale). -/
def tableEntry (s : State) (die a : Nat) (need : Nat → Nat → List (Nat × Nat)) : Option (Nat × Nat) × Bool :=
  let w := loadLE s a 16
  let v := bits w 127 72
  let c := bits w 71 16
  if !bit w 0 then (none, false)
  else if allInScratch die (need v c) then (some (v, c), false) else (none, true)

/-- The row ranges of an operand of `rows` rows of `k` at given addresses with a reference's strides. -/
def rowsNeed (r : Ref) (rows k v c : Nat) : List (Nat × Nat) := refRanges { r with value := v, scale := c } rows k false

/-- Two tags with VALID = 1 and different tenants: the first valid tag, and the first after it of another tenant (sp. 04
R121). -/
def tagMix (l : List Nat) : Option (Nat × Nat) :=
  match l.filter (fun t => bit t 2) with
  | [] => none
  | t :: r =>
    match r.find? (fun u => bits u 63 50 ≠ bits t 63 50) with
    | some u => some (t, u)
    | none => none

/-- One computed tile: the accumulators as converted, the computed accumulators of audited strips, and counts. -/
structure TileRun where
  accs : Array (Array Nat)
  skippedE : Nat
  badE : Nat
  zeroG : Nat
  sparse : Nat
  cost : Nat
  skippedT : Nat
  audited : Nat
  misses : Nat
  mass : Nat
  positive : List Nat
  streamed : List Nat
  deriving DecidableEq, Repr

/-- The mass of an element in units of 2^-16 (sp. 05 R151). -/
def elemMass (c : Code32) : Nat :=
  match ofF32 (fabs c) with
  | .fin _ m e =>
    let r := scaleTo m 1 (-16 - e)
    if e + 16 < 0 then min (2 ^ 47) (m / 2 ^ (-(e + 16)).toNat) else min (2 ^ 47) r.1
  | _ => 2 ^ 47

/-- The element makes its tile a miss (sp. 05 R151). -/
def elemMiss (eps c : Code32) : Bool := isNan c || flt eps (fabs c)

/-- Rows of a tile of which an accumulator is greater than +0 or NaN (sp. 05 R147). -/
def positiveRows (accs : Array (Array Nat)) : List Nat :=
  ((numbered accs.toList).filter (fun x => x.2.any (fun c => isNan c || flt 0 c))).map (·.1)

/-- The K blocks whose column operand enters the array: all of a dense panel's, and of a sparse panel's those that some strip streams
(sp. 05 R129, R143). -/
def streamedBlocks (d : Dme) (thresh mt : Nat) (dense : Bool) (tp : Nat → Nat → Bool) : List Nat :=
  if d.panel = 0 ∨ dense then List.range (ceilDiv d.k 32) else
  let strips := (List.range (ceilDiv (min 128 (d.m - 128 * mt)) 32)).map (fun i => 4 * mt + i)
  ((numbered (panelsOf d thresh mt tp)).map (fun x =>
    ((List.range (min 4 (ceilDiv d.k 32 - 4 * x.1))).map (fun i => 4 * x.1 + i)).filter (fun b =>
      x.2.1 || strips.any (fun g => tp g b)))).flatten

/-- One output tile (sp. 04 R112, sp. 05 R126, R132, R148-R151). The operand of a segment of an edge tile is judged by the rows that exist
(DESIGN CHOICE, log 99). -/
def runTile (s : State) (die : Nat) (d : Dme) (m : Meta) (dense exact window : Bool) (t : Nat × Nat) : TileRun :=
  let (mt, nt) := t
  let rows := min d.h (d.m - mt * d.h)
  let cols := min d.w (d.n - nt * d.w)
  let segW := d.w / d.segs
  let o := scratchOf die
  let segE := if d.split = 0 then [] else (d.segEntries t).map (fun i =>
    tableEntry s die (o + d.segOff + 16 * i) (rowsNeed d.a rows d.k))
  let extE : Option (Nat × Nat) × Bool :=
    if d.extT then tableEntry s die (o + d.extOff + 16 * mt) (rowsNeed d.eb d.n d.extK) else (some (d.eb.value, d.eb.scale), false)
  let skE := (segE.filter (·.1.isNone)).length
  let bdE := (segE.filter (·.2)).length
  let aRows : Array (Array Operand) := ((List.range d.segs).map (fun g => ((List.range rows).map (fun r =>
    if d.split = 0 then loadRefRow s d.a (mt * d.h + r) d.k
    else match (segE.getD g (none, false)).1 with
      | some (v, c) => loadRow s d.a (v + r * d.a.rowStride) (c + r * d.a.scaleStride) 0 d.k
      | none => ⟨#[], #[], #[]⟩)).toArray)).toArray
  let bRows : Array Operand := ((List.range cols).map (fun c =>
    if d.carry then loadCarryRow s die d.b (nt * d.w + c) d.n d.k else loadRefRow s d.b (nt * d.w + c) d.k)).toArray
  let eaRows : Array Operand := ((List.range (if d.extK = 0 then 0 else rows)).map (fun r =>
    loadRefRow s d.ea (mt * d.h + r) d.extK)).toArray
  let ebRows : Array Operand := ((List.range (if d.extK = 0 then 0 else cols)).map (fun c =>
    match extE.1 with
    | some (v, b) => loadRow s d.eb (v + (nt * d.w + c) * d.eb.rowStride) (b + (nt * d.w + c) * d.eb.scaleStride)
        (nt * d.w + c) d.extK
    | none => ⟨#[], #[], #[]⟩)).toArray
  let nb := ceilDiv d.k 32
  let groups := (List.range (ceilDiv rows 32)).map (fun i => mt * d.h / 32 + i)
  let vp (g b : Nat) : Bool := d.panel = 0 || valuePresent s m exact nt g b
  let isSkip (g : Nat) : Bool := d.panel = 1 && !exact && inactive s m nt g
  let picked (g : Nat) : Bool := isSkip g && auditPick s d m nt g
  let zg : Array (Array Bool) := flagTable cols nb (fun c b =>
    d.zero && groups.any (fun g => vp g b) && zeroGroup (bRows.getD c ⟨#[], #[], #[]⟩) d.k b)
  let bf := decide (fElem d.a.fmt = 1)
  let start (r c : Nat) : Code32 := if d.accLoad then refCode s d.acc (mt * d.h + r) (nt * d.w + c) else 0
  let full (r c : Nat) : Code32 :=
    let g := (mt * d.h + r) / 32
    let x := (aRows.getD (c / segW) #[]).getD r ⟨#[], #[], #[]⟩
    let y := bRows.getD c ⟨#[], #[], #[]⟩
    let ok (b : Nat) : Bool := (vp g b || (picked g && flag m.present g b)) && !flag zg c b
    let main := if d.split ≠ 0 ∧ (segE.getD (c / segW) (none, false)).1.isNone then start r c
      else ((List.range nb).filter ok).foldl (accBlock bf x y d.k) (start r c)
    if d.extK = 0 ∨ extE.1.isNone then main
    else (List.range (ceilDiv d.extK 32)).foldl
      (accBlock (decide (fElem d.ea.fmt = 1)) (eaRows.getD r ⟨#[], #[], #[]⟩) (ebRows.getD c ⟨#[], #[], #[]⟩) d.extK) main
  let comp : Array (Array Nat) := ((List.range rows).map (fun r => ((List.range cols).map (fun c => full r c)).toArray)).toArray
  let out : Array (Array Nat) := ((List.range rows).map (fun r => ((List.range cols).map (fun c =>
    if isSkip ((mt * d.h + r) / 32) then start r c else mat comp r c)).toArray)).toArray
  let auditedGs := groups.filter (fun g => picked g || (d.panel = 1 && exact && m.auditEn && inactive s m nt g))
  let elems (g : Nat) : List Code32 := ((List.range rows).map (fun r =>
    if (mt * d.h + r) / 32 = g then (List.range cols).map (mat comp r) else [])).flatten
  let missGs := auditedGs.filter (fun g => (elems g).any (elemMiss m.eps))
  let tp (g b : Nat) : Bool :=
    if window then (vp g b || (picked g && flag m.present g b)) && (List.range cols).any (fun c => !flag zg c b)
    else flag m.time g b
  let thresh := bits s.cfg.panelThresh.toNat 4 0
  { accs := out, skippedE := skE, badE := bdE,
    zeroG := ((List.range cols).map (fun c => ((List.range nb).filter (flag zg c)).length)).sum,
    sparse := if d.panel = 0 ∨ dense then 0 else ((panelsOf d thresh mt tp).filter (fun x => !x.1)).length,
    cost := d.tileCost thresh mt dense tp, skippedT := (groups.filter isSkip).length, audited := auditedGs.length,
    misses := missGs.length, mass := (missGs.map (fun g => ((elems g).map elemMass).sum)).sum,
    positive := positiveRows comp,
    streamed := streamedBlocks d thresh mt dense tp }

/-- The part of the activity map that the M tile of a token tile gives (sp. 05 R147): its place in the map and its bytes, 128 bits but at
the end of a row of words. -/
def Dme.mapPart (d : Dme) (t : Nat × Nat) (positive : List Nat) : Nat × List Byte :=
  let row := 8 * ceilDiv d.m 64
  (t.2 * row + 16 * t.1, toLE (min 16 (row - 16 * t.1)) ((positive.map (fun r => 2 ^ r)).sum))

/-- The parts of the activity map with the tiles of their bits; the bits of tiles that the cue does not compute are 0 (DESIGN CHOICE,
log 81). -/
def Dme.mapParts (d : Dme) (l : List ((Nat × Nat) × List Nat)) : List ((Nat × Nat) × (Nat × List Byte)) :=
  ((List.range (ceilDiv d.n 128)).map (fun tt => (List.range (ceilDiv d.m 128)).map (fun mt =>
    ((mt, tt), d.mapPart (mt, tt) (((l.find? (fun x => x.1 = (mt, tt))).map (·.2)).getD []))))).flatten

/-- The read ranges of A for a list of rows: whole rows, or the present sub-tiles alone with their scale bytes (sp. 05 R125). -/
def Dme.aReads (d : Dme) (m : Meta) (rows : List Nat) : List (Nat × Nat) :=
  if d.split ≠ 0 then []
  else if d.panel = 0 then refReads d.a rows d.k
  else (rows.map (fun r => (((List.range (ceilDiv d.k 32)).filter (flag m.present (r / 32))).map (fun b =>
    (d.a.value + r * d.a.rowStride + 32 * b * elemBits (fElem d.a.fmt) / 8,
     packedBytes (fElem d.a.fmt) (min 32 (d.k - 32 * b))) ::
    (if fScale d.a.fmt = 0 then [] else [(d.a.scale + r * d.a.scaleStride + b, 1)]))).flatten)).flatten ++
    (if fScale d.a.fmt = 2 then ((rows.map (· / 128)).eraseDups).map (fun t =>
      (d.a.tscale + 4 * (t * ceilDiv d.k 128), 4 * ceilDiv d.k 128)) else [])

/-- The rows of an M tile and the columns of an N tile. -/
def Dme.rowsIn (d : Dme) (mt : Nat) : List Nat := (List.range (min d.h (d.m - mt * d.h))).map (· + mt * d.h)
def Dme.colsIn (d : Dme) (nt : Nat) : List Nat := (List.range (min d.w (d.n - nt * d.w))).map (· + nt * d.w)

/-- The tiles of a compressed B that an output tile streams, of these K blocks (sp. 05 R143). -/
def Dme.codecTiles (d : Dme) (nt : Nat) (blocks : List Nat) : List (Nat × Nat) :=
  ((((d.colsIn nt).map (· / 32)).eraseDups).map (fun rt => blocks.map (fun kt => (rt, kt)))).flatten

/-- The read ranges of tiles of a compressed B: the directory's header, and each tile's entry and stream bytes (sp. 05 R140). -/
def Dme.carryReads (s : State) (die : Nat) (d : Dme) (l : List (Nat × Nat)) : List (Nat × Nat) :=
  if l.isEmpty then [] else (d.b.value, 16) :: (l.map (fun x => ctileReads s d.b.value d.k x.1 x.2 (inScratch die))).flatten

/-- The elements of ACC that a tile starts from (sp. 04 R112). -/
def Dme.accReads (d : Dme) (t : Nat × Nat) : List (Nat × Nat) :=
  if d.accLoad then (d.rowsIn t.1).map (fun r => (d.acc.value + r * d.acc.rowStride + 4 * (t.2 * d.w), 4 * (d.colsIn t.2).length)) else []

/-- The rows of an operand that a table entry locates, where the entry is used (sp. 04 R108). -/
def entryReads (r : Ref) (rows : List Nat) (k : Nat) : Option (Nat × Nat) × Bool → List (Nat × Nat)
  | (some (v, c), _) => refReads { r with value := v, scale := c } rows k
  | _ => []

/-- The table entries that a tile uses. -/
def Dme.tableWords (die : Nat) (d : Dme) (t : Nat × Nat) : List (Nat × Nat) :=
  let o := scratchOf die
  (if d.split = 0 then [] else (d.segEntries t).map (fun i => (o + d.segOff + 16 * i, 16))) ++
  (if d.extT then [(o + d.extOff + 16 * t.1, 16)] else [])

/-- What a tile's tables make it read: its entries and the operands that they locate (sp. 04 R107, R108). -/
def Dme.tableReads (s : State) (die : Nat) (d : Dme) (t : Nat × Nat) : List (Nat × Nat) :=
  let o := scratchOf die
  let rows := min d.h (d.m - t.1 * d.h)
  d.tableWords die t ++
  (if d.split = 0 then [] else ((d.segEntries t).map (fun i =>
    entryReads d.a (List.range rows) d.k (tableEntry s die (o + d.segOff + 16 * i) (rowsNeed d.a rows d.k)))).flatten) ++
  (if d.extT then entryReads d.eb (d.colsIn t.2) d.extK
      (tableEntry s die (o + d.extOff + 16 * t.1) (rowsNeed d.eb d.n d.extK)) else [])

/-- What a cue reads of its metadata: the header, the bitmap, and the map bytes of its tiles (sp. 05 R123-R125, R148). -/
def Dme.metaReads (s : State) (die : Nat) (d : Dme) (m : Meta) : List (Nat × Nat) :=
  if d.panel = 0 then [] else (scratchOf die + d.metaOff, m.size) :: d.mapReads s m

/-- What the cue reads of its tags (sp. 04 R121). -/
def Dme.tagReads (die : Nat) (d : Dme) : List (Nat × Nat) := if d.tagEn then [(scratchOf die + d.tagOff, 8 * d.k)] else []

/-- What some rows and columns of its operands, some tiles of a compressed B and some output tiles make a cue read. -/
def Dme.readsFor (s : State) (die : Nat) (d : Dme) (m : Meta) (rows cols : List Nat) (l ts : List (Nat × Nat)) : List (Nat × Nat) :=
  d.metaReads s die m ++ d.aReads m rows ++ (if d.carry then d.carryReads s die l else refReads d.b cols d.k) ++
  (ts.map d.accReads).flatten ++
  (if d.extK = 0 then [] else refReads d.ea rows d.extK ++ (if d.extT then [] else refReads d.eb cols d.extK)) ++
  (ts.map (d.tableReads s die)).flatten ++ d.tagReads die

/-- Everything that a cue reads: the rows and columns of its tiles in each operand, the tiles `l` of a compressed B that it streams, its
tables, metadata and tags. -/
def Dme.readsOf (s : State) (die : Nat) (d : Dme) (m : Meta) (l : List (Nat × Nat)) : List (Nat × Nat) :=
  d.readsFor s die m (((d.tiles.map (·.1)).eraseDups).map d.rowsIn).flatten (((d.tiles.map (·.2)).eraseDups).map d.colsIn).flatten l d.tiles

/-- What one output tile is made from. -/
def Dme.tileReads (s : State) (die : Nat) (d : Dme) (m : Meta) (t : Nat × Nat) (blocks : List Nat) : List (Nat × Nat) :=
  d.readsFor s die m (d.rowsIn t.1) (d.colsIn t.2) (d.codecTiles t.2 blocks) [t]

/-- The extension entry of an M tile (sp. 04 R107, R108). -/
def Dme.extEntry (s : State) (die : Nat) (d : Dme) (mt : Nat) : Option (Nat × Nat) × Bool :=
  tableEntry s die (scratchOf die + d.extOff + 16 * mt) (rowsNeed d.eb d.n d.extK)

/-- Of the tiles of a compressed B that the cue decodes, those that a decoder rejects (sp. 05 R145). -/
def Dme.carryBad (s : State) (die : Nat) (d : Dme) (l : List (Nat × Nat)) : List Nat :=
  if !d.carry then [] else
  ((numbered (tileGrid d.n d.k)).filter (fun x => l.contains x.2 &&
    (readCTile s d.b.value (fElem d.b.fmt) (decide (fScale d.b.fmt = 1)) d.n d.k x.2.1 x.2.2 (inScratch die)).2)).map (·.1)

/-- A tile as it leaves the hand-off: its writes, its NAN_OUT, SAT_OUT and NAN_ACC (sp. 04 R113, R118). -/
def Dme.tileOut (s : State) (d : Dme) (t : Nat × Nat) (accs : Array (Array Nat)) : List (Nat × List Byte) × List Nat :=
  let rows := min d.h (d.m - t.1 * d.h)
  let cols := min d.w (d.n - t.2 * d.w)
  let q (r : Ref) (st : Nat) (bd : Bool) : QOut :=
    quant s r.fmt st bd (fun i j => (d.row0 + t.1 * d.h + i) * d.logN + d.col0 + t.2 * d.w + j) accs rows cols
  let wr (r : Ref) (bd : Bool) (x : QOut) : List (Nat × List Byte) := quantWrites r bd x (t.1 * d.h) (t.2 * d.w) d.m d.n
  let q1 := q d.out d.stream d.outB
  let q2 := if d.out2En then [q d.out2 d.stream2 d.out2B] else []
  (wr d.out d.outB q1 ++ (q2.map (wr d.out2 d.out2B)).flatten,
   [((q1 :: q2).map (·.nan)).sum, ((q1 :: q2).map (·.sat)).sum, (accs.map (fun r => (r.filter isNan).size)).toList.sum])

/-- A DME cue or window command from its start (sp. 04 R111-R121, sp. 05). The record of a cue that its tags halt carries STATUS 3 and no
other count: R121 gives its STATUS and TILES only (DESIGN CHOICE, log 79). -/
def dmeRun (s : State) (die op : Nat) (p : List Byte) (window : Bool) : DmeRun :=
  let d := parseDme op p
  let o := scratchOf die
  let (m, f) := metaOf s die d
  let exact := m.exact s
  let mix := if d.tagEn then tagMix ((List.range d.k).map (fun i => loadLE s (o + d.tagOff + 8 * i) 8)) else none
  match mix with
  | some x =>
    { writes := [], due := [], record := dmeRecord 0 0 0 0 0 0 0 0 3, cycles := dmeCost s die op p, preds := [], mix := some x, tiles := [],
      badMeta := f, badTiles := [], reads := d.readsOf s die m [], needs := [], slots := [] }
  | none =>
    let runs := d.tiles.map (fun t => (t, runTile s die d m (decide (f ≠ 0)) exact window t))
    let outs := runs.map (fun x => d.tileOut s x.1 x.2.accs)
    let first (i mt : Nat) : Bool := d.extT && !((d.tiles.take i).any (fun t => t.1 = mt))
    let counts (i : Nat) (x : ((Nat × Nat) × TileRun) × List Nat) : List Nat :=
      let e := if first i x.1.1.1 then d.extEntry s die x.1.1.1 else (some (0, 0), false)
      [x.1.2.skippedE + b01 e.1.isNone, x.1.2.badE + b01 e.2] ++ x.2 ++ [x.1.2.sparse, x.1.2.zeroG]
    let tiles := (numbered (runs.zip (outs.map (·.2)))).map (fun x => (x.2.1.2.cost, counts x.1 x.2))
    let sum (k : Nat) : Nat := (tiles.map (fun t => t.2.getD k 0)).sum
    let streams := if d.carry then (tileGrid d.n d.k).filter (fun x =>
      runs.any (fun y => (d.codecTiles y.1.2 y.2.streamed).contains x)) else []
    let reads := d.readsOf s die m streams
    let need (x : (Nat × Nat) × TileRun) : List (Nat × Nat) := d.tileReads s die m x.1 x.2.streamed
    let map := if op = 0x13 then d.mapParts (runs.map (fun x => (x.1, x.2.positive))) else []
    { writes := (outs.map (·.1)).flatten ++ map.map (fun x => (o + d.doneOff + 32 + x.2.1, x.2.2)),
      due := ((numbered outs).map (fun x => x.2.1.map (fun _ => x.1 + 1))).flatten ++ map.map (fun _ => d.count + 1),
      needs := ((runs.zip outs).map (fun x => x.2.1.map (fun _ => need x.1))).flatten ++
        map.map (fun x => ((runs.find? (fun y => y.1 = x.1)).map need).getD []),
      slots := runs.map (·.2.accs),
      record := dmeRecord d.count (sum 0) (sum 1) (sum 2) (sum 3) (sum 4) (sum 5) (sum 6) 0,
      cycles := d.fill + (tiles.map (·.1)).sum + d.second,
      preds := if m.consumer then runs.map (fun x =>
          { slot := m.slot, skipped := x.2.skippedT, audited := x.2.audited, misses := x.2.misses, mass := x.2.mass,
            missLimit := m.missLimit, massLimit := m.massLimit }) else [],
      mix := none, tiles := tiles, badMeta := f, badTiles := d.carryBad s die streams, reads := reads }

end Sys2Proof.Machine
end

