-- ==== Sys2Proof/Machine/Gather.lean ====
section
/-! DEFINITION. The Gather-Merge Engine (sp. 06): descriptor, checks, the eight operations, cycles and halts. -/

namespace Sys2Proof.Machine

/-- A GME descriptor (sp. 06 Tables 6-3, 6-4). -/
structure Gme where
  op : Nat
  count : Nat
  elems : Nat
  srcRows : Nat
  dstRows : Nat
  n0 : Nat
  n1 : Nat
  n2 : Nat
  s0 : Int
  s1 : Int
  s2 : Int
  base : Nat
  strict : Bool
  tagMode : Nat
  weight : Bool
  init : Bool
  redOp : Nat
  topk : Nat
  inclusive : Bool
  lists : Nat
  doneOff : Nat
  src : Ref
  dst : Ref
  idx : Ref
  aux : Ref
  srcTag : Ref
  dstTag : Ref
  deriving DecidableEq, Repr

/-- The 256 bytes of a GME descriptor read. -/
def parseGme (op : Nat) (p : List Byte) : Gme :=
  let w := leAt p 0 64
  { op := op, count := bits w 511 488, elems := bits w 487 468, srcRows := bits w 467 444, dstRows := bits w 443 420,
    n0 := bits w 419 400, n1 := bits w 399 380, n2 := bits w 379 360, s0 := signed 24 (bits w 359 336),
    s1 := signed 24 (bits w 335 312), s2 := signed 24 (bits w 311 288), base := bits w 287 264, strict := bit w 263,
    tagMode := bits w 262 261, weight := bit w 260, init := bit w 259, redOp := bits w 258 257, topk := bits w 256 253,
    inclusive := bit w 252, lists := bits w 251 243, doneOff := bits w 242 215, src := refAt p 64, dst := refAt p 96,
    idx := refAt p 128, aux := refAt p 160, srcTag := refAt p 192, dstTag := refAt p 224 }

/-- The opcodes with an affine side (sp. 06 Table 6-2). -/
def Gme.affine (g : Gme) : Bool := decide (0x20 ≤ g.op ∧ g.op ≤ 0x23)
/-- The opcodes with an IDX reference. -/
def Gme.indexed (g : Gme) : Bool := decide (0x20 ≤ g.op ∧ g.op ≤ 0x22) || g.op = 0x26
/-- The opcodes that use AUX. -/
def Gme.auxed (g : Gme) : Bool := (g.op = 0x22 && g.weight) || g.op = 0x23 || g.op = 0x24 || g.op = 0x27

/-- a(j) (sp. 06 R163). -/
def Gme.aff (g : Gme) (j : Nat) : Int :=
  g.base + (j % g.n0 : Nat) * g.s0 + (j / g.n0 % g.n1 : Nat) * g.s1 + (j / g.n0 / g.n1 : Nat) * g.s2

/-- The lowest and highest affine row. -/
def Gme.affLo (g : Gme) : Int := g.base + min 0 ((g.n0 - 1 : Nat) * g.s0) + min 0 ((g.n1 - 1 : Nat) * g.s1) + min 0 ((g.n2 - 1 : Nat) * g.s2)
def Gme.affHi (g : Gme) : Int := g.base + max 0 ((g.n0 - 1 : Nat) * g.s0) + max 0 ((g.n1 - 1 : Nat) * g.s1) + max 0 ((g.n2 - 1 : Nat) * g.s2)

/-- Two distinct positions share an affine row: some non-zero difference of indices moves by nothing. Decided for every
difference of dimensions 0 and 1, with the third solved for (sp. 06 R164). -/
def Gme.affRepeats (g : Gme) : Bool :=
  let span (n : Nat) : List Int := (List.range (2 * n - 1)).map (fun (i : Nat) => (i : Int) - ((n - 1 : Nat) : Int))
  (span g.n0).any (fun x => (span g.n1).any (fun y =>
    let m := x * g.s0 + y * g.s1
    if g.s2 = 0 then decide (m = 0) && (decide (x ≠ 0 ∨ y ≠ 0) || decide (1 < g.n2))
    else decide (m % g.s2 = 0) && decide ((m / g.s2).natAbs < g.n2) && decide (x ≠ 0 ∨ y ≠ 0 ∨ m / g.s2 ≠ 0)))

/-- The columns of a DST row: K indices, or the row's elements. -/
def Gme.dstElems (g : Gme) : Nat := if g.op = 0x27 then g.topk else g.elems

/-- The entries of AUX and the bytes of each (sp. 06 Table 6-2). -/
def Gme.auxShape (g : Gme) : Nat × Nat :=
  if g.op = 0x22 then (g.count, 4) else if g.op = 0x23 then (g.dstRows + 1, 4) else if g.op = 0x24 then (g.lists, 8)
  else (g.count, 4 * g.topk)

/-- A range of `n` entries of `b` bytes at a reference's stride. -/
def entriesRange (r : Ref) (n b : Nat) : Nat × Nat := (r.value, (n - 1) * r.rowStride + b)

/-- The ranges of each reference in use. -/
def Gme.srcR (g : Gme) : List (Nat × Nat) := if g.op = 0x26 then [] else refRanges g.src g.srcRows g.elems false
def Gme.dstR (g : Gme) : List (Nat × Nat) := refRanges g.dst g.dstRows g.dstElems false
def Gme.idxR (g : Gme) : List (Nat × Nat) := if g.indexed then [entriesRange g.idx g.count (elemBits (fElem g.idx.fmt) / 8)] else []
def Gme.auxR (g : Gme) : List (Nat × Nat) := if g.auxed then [entriesRange g.aux g.auxShape.1 g.auxShape.2] else []
def Gme.srcTagR (g : Gme) : List (Nat × Nat) := if g.tagMode = 0 then [] else [entriesRange g.srcTag g.srcRows 8]
def Gme.dstTagR (g : Gme) : List (Nat × Nat) := if g.tagMode = 0 then [] else [entriesRange g.dstTag g.dstRows 8]

/-- The formats of sp. 06 Table 6-2 and R169. -/
def Gme.formatsOk (g : Gme) : Bool :=
  let se := fElem g.src.fmt
  let de := fElem g.dst.fmt
  let noTile (r : Ref) : Bool := fmtRead r.fmt false && decide (fScale r.fmt ≠ 2) && r.tscale = 0 && refTied r
  noTile g.dst && fmtOk g.dst.fmt false && (g.op = 0x26 || noTile g.src) &&
  (!g.indexed || (fmtRead g.idx.fmt false && (fElem g.idx.fmt = 5 || fElem g.idx.fmt = 6) && refTied g.idx)) &&
  (!g.auxed || ((if g.op = 0x27 then fmtOk g.aux.fmt false else fmtRead g.aux.fmt false) && refTied g.aux && fElem g.aux.fmt = (if g.op = 0x22 ∨ g.op = 0x27 then 0 else 5))) &&
  (g.tagMode = 0 || (g.srcTag.fmt = 0 && g.srcTag.scale = 0 && g.srcTag.tscale = 0 && g.srcTag.scaleStride = 0 &&
                     g.dstTag.fmt = 0 && g.dstTag.scale = 0 && g.dstTag.tscale = 0 && g.dstTag.scaleStride = 0)) &&
  (if g.op = 0x20 ∨ g.op = 0x21 then decide (setBits g.src.fmt 9 8 0 = setBits g.dst.fmt 9 8 0)
   else if g.op = 0x22 ∨ g.op = 0x23 then
     (de = 5 && se = 5) || (de = 0 && decide (se ≤ 3))
   else if g.op = 0x24 ∨ g.op = 0x25 then se = 5 && de = 5
   else if g.op = 0x26 then de = 5
   else decide (se ≤ 1) && (de = 5 || de = 6)) &&
  (!g.weight || (g.redOp = 0 && de = 0))

/-- Ranges, extents and fields tied to opcodes (sp. 06 Tables 6-2, 6-4). -/
def Gme.fieldsOk (g : Gme) (p : List Byte) : Bool :=
  let w := leAt p 0 64
  decide (1 ≤ g.count ∧ 1 ≤ g.elems ∧ 1 ≤ g.srcRows ∧ 1 ≤ g.dstRows) && bits w 214 0 = 0 && g.doneOff % 32 = 0 &&
  ([64, 96, 128, 160, 192, 224].all (refRsv p)) &&
  (if g.affine then decide (g.n0 * g.n1 * g.n2 = g.count) else bits w 419 264 = 0) &&
  (g.tagMode = 0 || (g.tagMode = 1 && g.op = 0x20) || (g.tagMode = 2 && decide (0x21 ≤ g.op ∧ g.op ≤ 0x23))) &&
  (!g.weight || g.op = 0x22) && (!g.init || g.op = 0x22 || g.op = 0x23 || g.op = 0x26) && decide (g.redOp ≠ 3) &&
  (g.redOp = 0 || g.op = 0x22 || g.op = 0x23) && (!g.inclusive || g.op = 0x25) &&
  (if g.op = 0x27 then decide (1 ≤ g.topk ∧ g.topk ≤ 8 ∧ g.topk ≤ g.elems ∧ g.elems ≤ 256) else g.topk = 0) &&
  (if g.op = 0x24 then decide (1 ≤ g.lists ∧ g.lists ≤ 256) && g.elems = 2 else g.lists = 0) &&
  (g.op ≠ 0x26 || (g.elems = 1 && decide (g.dstRows ≤ 4096))) &&
  (g.op ≠ 0x26 || refZero p 64) && (g.indexed || refZero p 128) && (g.auxed || refZero p 160) &&
  (decide (g.tagMode ≠ 0) || (refZero p 192 && refZero p 224))

/-- Affine and plain rows stay inside their extents (sp. 06 R164). -/
def Gme.extentsOk (g : Gme) : Bool :=
  (!g.affine || (decide (0 ≤ g.affLo) && decide (g.affHi < (if g.op = 0x20 then g.dstRows else g.srcRows : Nat)))) &&
  (decide (g.op ≠ 0x25 ∧ g.op ≠ 0x27) || decide (g.count ≤ g.srcRows ∧ g.count ≤ g.dstRows)) &&
  (decide (g.op ≠ 0x24) || decide (g.count ≤ g.dstRows)) && (decide (g.op ≠ 0x20) || !g.affRepeats)

/-- Written references step by at least a row (sp. 06 R164). -/
def Gme.stridesOk (g : Gme) : Bool :=
  decide (packedBytes (fElem g.dst.fmt) g.dstElems ≤ g.dst.rowStride) &&
  (fScale g.dst.fmt = 0 || decide (ceilDiv g.dstElems 32 ≤ g.dst.scaleStride)) &&
  (decide (g.op ≠ 0x27) || decide (4 * g.topk ≤ g.aux.rowStride)) && (decide (g.tagMode ≠ 1) || decide (8 ≤ g.dstTag.rowStride))

/-- Written ranges meet no other reference (sp. 06 R164). -/
def Gme.overlapsOk (g : Gme) : Bool :=
  let others := g.srcR ++ g.idxR ++ g.srcTagR
  let aw := decide (g.op = 0x27)
  let tw := decide (g.tagMode = 1)
  !anyMeets g.dstR (others ++ g.auxR ++ g.dstTagR) && (!aw || !anyMeets g.auxR (others ++ g.dstTagR)) &&
  (!tw || !anyMeets g.dstTagR (others ++ g.auxR))

/-- The check of a GME descriptor at load and at issue (sp. 06 R159-R164). -/
def checkGme (die op : Nat) (p : List Byte) : Bool :=
  let g := parseGme op p
  g.fieldsOk p && g.formatsOk && g.extentsOk && g.stridesOk && g.overlapsOk &&
  allInScratch die (g.srcR ++ g.dstR ++ g.idxR ++ g.auxR ++ g.srcTagR ++ g.dstTagR ++ [(scratchOf die + g.doneOff, 32)])

/-- Bytes of a row with its scale bytes (sp. 06 R179). -/
def rowBytesOf (r : Ref) (n : Nat) : Nat := packedBytes (fElem r.fmt) n + (if fScale r.fmt = 0 then 0 else ceilDiv n 32)

/-- T of sp. 06 Table 6-5. -/
def gmeCost (op : Nat) (p : List Byte) : Nat :=
  let g := parseGme op p
  let pc (r : Nat) : Nat := ceilDiv g.count 64 * max 1 (ceilDiv r 4)
  let tag := if g.tagMode = 0 then 0 else 8
  let v := rowBytesOf g.dst g.dstElems
  let bs := rowBytesOf g.src g.elems + tag
  let bd := v + tag
  let i := if g.init then ceilDiv g.dstRows 64 * max 1 (ceilDiv v 4) else 0
  40 + (if op = 0x20 then pc bs
    else if op = 0x21 then pc (bs + (if g.tagMode = 2 then 8 else 0))
    else if op = 0x22 then i + pc (bs + bd + 4 * b01 g.weight)
    else if op = 0x23 then ceilDiv (g.dstRows + 1) 64 + pc bs + ceilDiv g.dstRows 64 * max 1 (ceilDiv bd 4)
    else if op = 0x24 then g.lists + ceilDiv g.count 16 * ceilDiv g.lists 64
    else if op = 0x25 then pc (4 * g.elems)
    else if op = 0x26 then pc 0 + 2 * ceilDiv g.dstRows 64
    else g.count * max (ceilDiv g.elems 64) (ceilDiv (g.elems * (elemBits (fElem g.src.fmt) / 8)) 256))

/-! ## A cue -/

/-- What a GME cue does: its writes, its record, its reads, and the halt (FAULT, position, DETAIL1) if any. -/
structure GmeRun where
  writes : List (Nat × List Byte)
  due : List Nat
  record : List Byte
  halt : Option (Nat × Nat × Nat)
  reads : List (Nat × Nat)
  needs : List (List (Nat × Nat))
  ctl : List (Nat × Nat)
  span : List (Nat × Nat)
  chances : List Chance
  deriving DecidableEq, Repr

/-- A tenant's entry says that it is open in cycle `now` (sp. 07 R191): one that left OPEN later still was (sp. 06 R173). One killed in a step, scrubbed and opened anew in it is not open for that step
(Table 7-14), though its ACTIVE bit stays 1 (DEDUCED, log 102). -/
def entryOpen (now : Nat) (e : Tenant) : Bool := e.active && ((decide (e.st = .open_) && !e.reopened) || decide (now < e.closedAt))

/-- A tenant is open (sp. 07 R191). -/
def tenantOpen (s : State) (t : Nat) : Bool := entryOpen s.now (Sparse.get noTenant s.tenants t)

/-- A tag names a valid row of an open tenant; in a step that names no tenant every valid tag does (sp. 06 R171). -/
def tagLive (s : State) (t : Nat) : Bool := bit t 2 && (s.step.tenants.isEmpty || tenantOpen s (bits t 63 50))

/-- A tag, not valid when fenced (sp. 06 R166). -/
def tagAt (s : State) (r : Ref) (row : Nat) : Nat :=
  let a := r.value + row * r.rowStride
  if rangeFenced s a 8 then 0 else loadLE s a 8

/-- The index of position j, none when absent (sp. 06 R165, R166). -/
def Gme.index (s : State) (g : Gme) (j : Nat) : Option Nat :=
  let b := elemBits (fElem g.idx.fmt) / 8
  let a := g.idx.value + j * g.idx.rowStride
  let i := signed (8 * b) (loadLE s a b)
  let ext := if g.op = 0x20 then g.srcRows else g.dstRows
  if rangeFenced s a b || decide (i < 0) || decide ((ext : Int) ≤ i) then none else some i.toNat

/-- The stored bytes of a row and of its scales. -/
def rowData (s : State) (r : Ref) (row n : Nat) : List Byte × List Byte :=
  (load s (r.value + row * r.rowStride) (packedBytes (fElem r.fmt) n),
   if fScale r.fmt = 0 then [] else load s (r.scale + row * r.scaleStride) (ceilDiv n 32))

/-- The writes of a row and its scales. -/
def rowWrite (r : Ref) (row : Nat) (d : List Byte × List Byte) : List (Nat × List Byte) :=
  (r.value + row * r.rowStride, d.1) :: (if fScale r.fmt = 0 then [] else [(r.scale + row * r.scaleStride, d.2)])

/-- The address ranges of a source row. -/
def rowRange (r : Ref) (row n : Nat) : List (Nat × Nat) :=
  (r.value + row * r.rowStride, packedBytes (fElem r.fmt) n) ::
    (if fScale r.fmt = 0 then [] else [(r.scale + row * r.scaleStride, ceilDiv n 32)])

/-- Counts of a stream. -/
structure GmeCnt where
  absent : Nat
  collisions : Nat
  invalid : Nat
  sat : Nat
  aux : Nat
  deriving DecidableEq, Repr

/-- A stream under way: the destination rows reached with their accumulated elements, the last position that reached each and what they
are made from, the writes so far with the positions done once each stands and what each is made from, the counts and the halt. -/
structure Stream where
  rows : List (Nat × List Nat)
  last : List (Nat × Nat)
  from_ : List (Nat × List (Nat × Nat))
  writes : List (Nat × List Byte)
  due : List Nat
  needs : List (List (Nat × Nat))
  reads : List (Nat × Nat)
  cnt : GmeCnt
  halt : Option (Nat × Nat × Nat)
  deriving DecidableEq, Repr

/-- Nothing done. -/
def stream0 : Stream :=
  { rows := [], last := [], from_ := [], writes := [], due := [], needs := [], reads := [], cnt := ⟨0, 0, 0, 0, 0⟩, halt := none }

/-- Writes that stand once `n` positions are done, made from `need`. -/
def Stream.put (t : Stream) (n : Nat) (need : List (Nat × Nat)) (l : List (Nat × List Byte)) : Stream :=
  { t with writes := t.writes ++ l, due := t.due ++ l.map (fun _ => n), needs := t.needs ++ l.map (fun _ => need) }

/-- The index word of position j. -/
def Gme.word (g : Gme) (j : Nat) : Nat × Nat := (g.idx.value + j * g.idx.rowStride, elemBits (fElem g.idx.fmt) / 8)
/-- The tag of a row. -/
def tagWord (r : Ref) (row : Nat) : Nat × Nat := (r.value + row * r.rowStride, 8)

/-- The rows that position j of a window has already read from (sp. 06 R167): a position of the same window before j that names
the same source row. -/
def coalesced (s : State) (g : Gme) (j i : Nat) : Bool :=
  (List.range (j % 64)).any (fun k => g.index s (j - j % 64 + k) = some i)

/-- One position of GATHER. -/
def stepGather (s : State) (g : Gme) (t : Stream) (j : Nat) : Stream :=
  if t.halt.isSome then t else
  let a := (g.aff j).toNat
  match g.index s j with
  | none =>
    if g.strict then { t with halt := some (1, j, 0) } else
    { t.put (j + 1) [g.word j] (rowWrite g.dst a (zeros (packedBytes (fElem g.dst.fmt) g.elems), zeros (ceilDiv g.elems 32)) ++
        (if g.tagMode = 1 then [(g.dstTag.value + a * g.dstTag.rowStride, zeros 8)] else [])) with
      cnt := { t.cnt with absent := t.cnt.absent + 1 } }
  | some i =>
    { t.put (j + 1) (g.word j :: rowRange g.src i g.elems ++ (if g.tagMode = 1 then [tagWord g.srcTag i] else []))
        (rowWrite g.dst a (rowData s g.src i g.elems) ++
        (if g.tagMode = 1 then [(g.dstTag.value + a * g.dstTag.rowStride, toLE 8 (tagAt s g.srcTag i))] else [])) with
      reads := t.reads ++ rowRange g.src i g.elems, cnt := { t.cnt with aux := t.cnt.aux + b01 (coalesced s g j i) } }

/-- The tag check of a position with source row a and destination row i (sp. 06 R171): none to go on, `some none` to skip,
`some (some x)` to halt. -/
def tagCheck (s : State) (g : Gme) (a i : Nat) : Option (Option Nat) :=
  if g.tagMode ≠ 2 then none else
  let st := tagAt s g.srcTag a
  let dt := tagAt s g.dstTag i
  if !tagLive s st then some none
  else if bit dt 2 && bits dt 63 50 = bits st 63 50 then none
  else some (some (bits st 63 50 + bits dt 63 50 * 2 ^ 14 + b01 (bit dt 2) * 2 ^ 28))

/-- The accumulated elements of a destination row that a stream has reached. -/
def Stream.row (t : Stream) (i : Nat) : Option (List Nat) := (t.rows.find? (fun x => x.1 = i)).map (·.2)

/-- What the row is made from so far. -/
def Stream.made (t : Stream) (i : Nat) : List (Nat × Nat) := ((t.from_.find? (fun x => x.1 = i)).map (·.2)).getD []

/-- A row's elements, changed by position j with what it reads. -/
def Stream.setRow (t : Stream) (i j : Nat) (need : List (Nat × Nat)) (l : List Nat) : Stream :=
  { t with last := (i, j) :: t.last.filter (fun x => x.1 ≠ i),
           from_ := (i, t.made i ++ need) :: t.from_.filter (fun x => x.1 ≠ i),
           rows := if t.rows.any (fun x => x.1 = i) then t.rows.map (fun x => if x.1 = i then (i, l) else x) else t.rows ++ [(i, l)] }

/-- The identity of a reduction (sp. 06 R169). -/
def identityOf (elem redOp : Nat) : Nat :=
  if elem = 5 then (if redOp = 0 then 0 else if redOp = 1 then 0x80000000 else 0x7FFFFFFF)
  else if redOp = 0 then 0 else if redOp = 1 then 0xFF800000 else 0x7F800000

/-- One element accumulated (sp. 06 R169): the new code and whether an INT32 sum clamped. -/
def accElem (elem redOp : Nat) (acc x : Nat) : Nat × Nat :=
  if elem = 5 then
    let a := signed 32 acc
    let b := signed 32 x
    if redOp = 0 then let c := clamp32 (a + b); (unsigned 32 c.1, c.2)
    else if redOp = 1 then (unsigned 32 (max a b), 0) else (unsigned 32 (min a b), 0)
  else if redOp = 0 then (fadd acc x, 0)
  else if redOp = 1 then (fmax acc x, 0) else (fmin acc x, 0)

/-- The start of a destination row (sp. 06 R169). -/
def startRow (s : State) (g : Gme) (i : Nat) : List Nat :=
  if g.init then List.replicate g.elems (identityOf (fElem g.dst.fmt) g.redOp)
  else (List.range g.elems).map (refCode s g.dst i)

/-- The contribution of source row `a` at position j. -/
def sourceRow (s : State) (g : Gme) (a j : Nat) : List Nat :=
  (List.range g.elems).map (fun c =>
    if fElem g.src.fmt = 5 then refCode s g.src a c
    else
      let x := elemF32 s g.src a c g.elems
      if g.weight then fmul (loadLE s (g.aux.value + j * g.aux.rowStride) 4) x else x)

/-- What a position compares and weighs besides its source row: its index word, its weight, the two tags. -/
def Gme.beside (g : Gme) (a i j : Nat) : List (Nat × Nat) :=
  (if g.indexed then [g.word j] else []) ++
  (if g.op = 0x22 ∧ g.weight then [(g.aux.value + j * g.aux.rowStride, 4)] else []) ++
  (if g.tagMode = 2 then [tagWord g.srcTag a, tagWord g.dstTag i] else [])

/-- Position j reaches destination row i from source row a. -/
def reachRow (s : State) (g : Gme) (t : Stream) (a i j : Nat) : Stream :=
  let was := t.row i
  let old := was.getD (startRow s g i)
  let res := (old.zip (sourceRow s g a j)).map (fun x => accElem (fElem g.dst.fmt) g.redOp x.1 x.2)
  let t1 := t.setRow i j (rowRange g.src a g.elems ++ g.beside a i j) (res.map (·.1))
  { t1 with reads := t1.reads ++ rowRange g.src a g.elems,
            cnt := { t1.cnt with collisions := t1.cnt.collisions + b01 was.isSome, sat := t1.cnt.sat + (res.map (·.2)).sum } }

/-- One position of SCATTER. -/
def stepScatter (s : State) (g : Gme) (t : Stream) (j : Nat) : Stream :=
  if t.halt.isSome then t else
  match g.index s j with
  | none => if g.strict then { t with halt := some (1, j, 0) } else { t with cnt := { t.cnt with absent := t.cnt.absent + 1 } }
  | some i =>
    let a := (g.aff j).toNat
    match tagCheck s g a i with
    | some none => { t with cnt := { t.cnt with invalid := t.cnt.invalid + 1 } }
    | some (some x) => { t with halt := some (2, j, x) }
    | none =>
      if g.op = 0x22 then reachRow s g t a i j
      else
        let was := (t.row i).isSome
        let t1 := t.setRow i j [] []
        { t1.put (j + 1) (rowRange g.src a g.elems ++ g.beside a i j) (rowWrite g.dst i (rowData s g.src a g.elems)) with
                  reads := t1.reads ++ rowRange g.src a g.elems,
                  cnt := { t1.cnt with collisions := t1.cnt.collisions + b01 was } }

/-- Offset i of SEGMENT_REDUCE. -/
def Gme.off (s : State) (g : Gme) (i : Nat) : Int := signed 32 (loadLE s (g.aux.value + i * g.aux.rowStride) 4)

/-- The offsets stand in order, and none is fenced (sp. 06 R166, R174). -/
def Gme.offsOk (s : State) (g : Gme) : Bool :=
  (List.range (g.dstRows + 1)).all (fun i =>
    !rangeFenced s (g.aux.value + i * g.aux.rowStride) 4 &&
    decide ((if i = 0 then 0 else g.off s (i - 1)) ≤ g.off s i)) && decide (g.off s g.dstRows ≤ g.count)

/-- One position of SEGMENT_REDUCE. -/
def stepSegment (s : State) (g : Gme) (t : Stream) (j : Nat) : Stream :=
  if t.halt.isSome then t else
  match (List.range g.dstRows).find? (fun i => decide (g.off s i ≤ j ∧ (j : Int) < g.off s (i + 1))) with
  | none => t
  | some i =>
    let a := (g.aff j).toNat
    match tagCheck s g a i with
    | some none => { t with cnt := { t.cnt with invalid := t.cnt.invalid + 1 } }
    | some (some x) => { t with halt := some (2, j, x) }
    | none => reachRow s g t a i j

/-- The writes of the accumulated rows: with INIT every destination row, reached or at the identity. -/
def accWrites (g : Gme) (t : Stream) : List (Nat × List Byte) :=
  let e := fElem g.dst.fmt
  let ini := if g.init then (List.range g.dstRows).map (fun i =>
    (g.dst.value + i * g.dst.rowStride, packCodes e (List.replicate g.elems (identityOf e g.redOp)))) else []
  ini ++ t.rows.map (fun x => (g.dst.value + x.1 * g.dst.rowStride, packCodes e x.2))

/-- The positions done once each of those writes stands. -/
def accDue (g : Gme) (t : Stream) : List Nat :=
  (if g.init then List.replicate g.dstRows 0 else []) ++
    t.rows.map (fun x => ((t.last.find? (fun y => y.1 = x.1)).map (fun y => y.2 + 1)).getD 0)

/-- What each of those writes is made from: of a row without INIT its old elements too. -/
def accNeeds (g : Gme) (t : Stream) : List (List (Nat × Nat)) :=
  (if g.init then List.replicate g.dstRows [] else []) ++
    t.rows.map (fun x => t.made x.1 ++ (if g.init then [] else rowRange g.dst x.1 g.elems))

/-- The bins of HISTOGRAM as they are written back: every one of them (sp. 06 R177). -/
def histWrites (s : State) (g : Gme) (t : Stream) : List (Nat × List Byte) :=
  (List.range g.dstRows).map (fun i => (g.dst.value + i * g.dst.rowStride, packCodes 5 ((t.row i).getD (startRow s g i))))

/-- The positions done once each of those writes stands. -/
def histDue (g : Gme) (t : Stream) : List Nat :=
  (List.range g.dstRows).map (fun i => ((t.last.find? (fun y => y.1 = i)).map (fun y => y.2 + 1)).getD 0)

/-- What each of those writes is made from. -/
def histNeeds (g : Gme) (t : Stream) : List (List (Nat × Nat)) :=
  (List.range g.dstRows).map (fun i => t.made i ++ (if g.init then [] else rowRange g.dst i g.elems))

/-- NaN elements of the rows that the cue has written (sp. 06 R169). -/
def accNans (g : Gme) (t : Stream) : Nat :=
  if fElem g.dst.fmt = 5 then 0 else (t.rows.map (fun x => (x.2.filter isNan).length)).sum

/-- One position of HISTOGRAM: the bin's row holds its count. -/
def stepHist (s : State) (g : Gme) (t : Stream) (j : Nat) : Stream :=
  if t.halt.isSome then t else
  match g.index s j with
  | none => if g.strict then { t with halt := some (1, j, 0) } else { t with cnt := { t.cnt with absent := t.cnt.absent + 1 } }
  | some i =>
    let old := ((t.row i).getD (startRow s g i)).headD 0
    let c := clamp32 (signed 32 old + 1)
    let was := (t.row i).isSome
    let t1 := t.setRow i j [g.word j] [unsigned 32 c.1]
    { t1 with cnt := { t1.cnt with sat := t1.cnt.sat + c.2, collisions := t1.cnt.collisions + b01 was } }

/-- One position of PREFIX_SUM: row 0 of the stream holds the running values. -/
def stepPrefix (s : State) (g : Gme) (t : Stream) (j : Nat) : Stream :=
  let run := (t.row 0).getD (List.replicate g.elems 0)
  let res := (run.zip ((List.range g.elems).map (refCode s g.src j))).map (fun x => accElem 5 0 x.1 x.2)
  let nxt := res.map (·.1)
  let t1 := t.setRow 0 j (rowRange g.src j g.elems) nxt
  { t1.put (j + 1) (if g.inclusive then t1.made 0 else t.made 0) [(g.dst.value + j * g.dst.rowStride, packCodes 5 (if g.inclusive then nxt else run))] with
            reads := t1.reads ++ rowRange g.src j g.elems,
            cnt := { t1.cnt with sat := t1.cnt.sat +
              (if g.inclusive ∨ j + 1 < g.count then (res.map (·.2)).sum else 0) } }

/-- The list entry l of MERGE: its rows (keys and payloads), or none when bad (sp. 06 R175, R166). -/
def Gme.listRows (s : State) (g : Gme) (l : Nat) : Option (List (Int × Nat)) :=
  let a := g.aux.value + l * g.aux.rowStride
  let st := signed 32 (loadLE s a 4)
  let ln := signed 32 (loadLE s (a + 4) 4)
  if rangeFenced s a 8 || decide (st < 0) || decide (ln < 0) || decide ((g.srcRows : Int) < st + ln) then none
  else some ((List.range ln.toNat).map (fun k => (signed 32 (refCode s g.src (st.toNat + k) 0), refCode s g.src (st.toNat + k) 1)))

/-- Adjacent rows whose key decreases. -/
def descents : List (Int × Nat) → Nat
  | a :: b :: r => b01 (decide (b.1 < a.1)) + descents (b :: r)
  | _ => 0

/-- The number of the list with the smallest head, the lowest on a tie. -/
def smallestHead : List (Nat × List (Int × Nat)) → Option Nat
  | [] => none
  | (i, l) :: r =>
    match l, smallestHead r with
    | [], x => x
    | _ :: _, none => some i
    | h :: _, some k =>
      match (r.find? (fun y => y.1 = k)).map (fun y => y.2.headD h) with
      | some m => if m.1 < h.1 then some k else some i
      | none => some i

/-- The merge of lists; `n` outputs at most. -/
def mergeLists : Nat → List (Nat × List (Int × Nat)) → List (Int × Nat)
  | 0, _ => []
  | n + 1, ls =>
    match smallestHead ls with
    | none => []
    | some i =>
      match (ls.find? (fun x => x.1 = i)).map (·.2) with
      | some (h :: _) => h :: mergeLists n (ls.map (fun x => if x.1 = i then (i, x.2.drop 1) else x))
      | _ => []

/-- A score ranks before another (sp. 06 R178): larger first, zeros equal, NaN last, ties by index. -/
def ranksBefore (a b : Code32) (i j : Nat) : Bool :=
  if isNan a then isNan b && decide (i < j)
  else if isNan b then true
  else flt b a || (!flt a b && decide (i < j))

/-- The first K of a row of scores, by repeated choice. -/
def topChoose (sc : List (Nat × Code32)) : Nat → List (Nat × Code32)
  | 0 => []
  | k + 1 =>
    match sc with
    | [] => []
    | h :: r =>
      let best := r.foldl (fun b x => if ranksBefore x.2 b.2 x.1 b.1 then x else b) h
      best :: topChoose (sc.filter (fun x => x.1 ≠ best.1)) k

/-- The record of a stream. -/
def streamRecord (g : Gme) (t : Stream) (nan : Nat) : List Byte :=
  match t.halt with
  | none => gmeRecord g.count t.cnt.absent t.cnt.collisions t.cnt.invalid nan t.cnt.sat t.cnt.aux 0xFFFFFF 0 0
  | some (f, j, _) => gmeRecord j t.cnt.absent t.cnt.collisions t.cnt.invalid nan t.cnt.sat t.cnt.aux j 3 f

/-- A number of entries at a reference's stride, each of `b` bytes. -/
def entryList (r : Ref) (js : List Nat) (b : Nat) : List (Nat × Nat) := js.map (fun j => (r.value + j * r.rowStride, b))

/-- The destination row of a position: by its index word, or by the segment that holds it. -/
def Gme.destOf (s : State) (g : Gme) (j : Nat) : Option Nat :=
  if g.op = 0x23 then (List.range g.dstRows).find? (fun i => decide (g.off s i ≤ j ∧ (j : Int) < g.off s (i + 1))) else g.index s j

/-- The tags that positions `js` compare or copy (sp. 06 R170, R171). -/
def Gme.tagReads (s : State) (g : Gme) (js : List Nat) : List (Nat × Nat) :=
  if g.tagMode = 1 then entryList g.srcTag (js.filterMap (g.index s)) 8
  else if g.tagMode = 2 then
    entryList g.srcTag ((js.filter (fun j => (g.destOf s j).isSome)).map (fun j => (g.aff j).toNat)) 8 ++
      entryList g.dstTag (js.filterMap (g.destOf s)) 8
  else []

/-- What AUX gives: the weights of the positions that are not absent, the offsets, or the list entries (sp. 06 Table 6-2). -/
def Gme.auxReads (s : State) (g : Gme) (js : List Nat) : List (Nat × Nat) :=
  if g.op = 0x22 then (if g.weight then entryList g.aux (js.filter (fun j => (g.index s j).isSome)) 4 else [])
  else if g.auxed && g.op ≠ 0x27 then entryList g.aux (List.range g.auxShape.1) g.auxShape.2
  else []

/-- The SRC rows that the good entries of MERGE name (sp. 06 R175). -/
def Gme.mergeReads (s : State) (g : Gme) : List (Nat × Nat) :=
  ((List.range g.lists).map (fun l =>
    let st := loadLE s (g.aux.value + l * g.aux.rowStride) 4
    match g.listRows s l with
    | some rows => ((List.range rows.length).map (fun k => rowRange g.src (st + k) g.elems)).flatten
    | none => [])).flatten

/-- What a stream reads besides its source rows: the index words and tags of its positions (of a halted stream, up to the position
that halted it), AUX, and the destination rows that it accumulates into (sp. 06 R165-R177). -/
def Gme.readsOf (s : State) (g : Gme) (t : Stream) : List (Nat × Nat) :=
  let js := List.range (match t.halt with
    | some (_, j, _) => j + 1
    | none => g.count)
  let rows := if g.init then [] else if g.op = 0x26 then List.range g.dstRows else t.rows.map (·.1)
  (if g.indexed then entryList g.idx js (elemBits (fElem g.idx.fmt) / 8) else []) ++ g.auxReads s js ++ g.tagReads s js ++
  (if g.op = 0x22 ∨ g.op = 0x23 ∨ g.op = 0x26 then (rows.map (fun i => rowRange g.dst i g.elems)).flatten else []) ++ t.reads

/-- What says which rows a stream writes and which positions count: index words, AUX but for weights, tags (sp. 06 R165-R175). -/
def Gme.control (s : State) (g : Gme) : List (Nat × Nat) :=
  let js := List.range g.count
  (if g.indexed then js.map g.word else []) ++ (if g.op = 0x22 then [] else g.auxReads s js) ++ g.tagReads s js

/-- The rows that a stream may write, were its control words others: every destination row where positions choose it. -/
def Gme.spanOf (g : Gme) : List (Nat × Nat) :=
  if g.op = 0x21 ∨ g.op = 0x22 ∨ g.op = 0x23 ∨ g.op = 0x26 then
    ((List.range g.dstRows).map (fun i => rowRange g.dst i g.elems)).flatten
  else []

/-- Where the stream halts should a fence begin before it has read a word (sp. 06 R166): a STRICT index word or list entry that turns
absent, an offset that breaks the order, a destination tag that is not valid; by position. -/
def Gme.chancesOf (s : State) (g : Gme) : List Chance :=
  let js := List.range g.count
  let at0 (f : Nat) : List Chance := (g.auxReads s []).map (fun x => { word := x, fault := f, pos := 0, detail := 0 })
  if g.op = 0x23 then
    at0 4 ++ js.filterMap (fun j => (tagChance j))
  else if g.op = 0x24 then (if g.strict then at0 1 else [])
  else if g.indexed then
    (js.map (fun j => (if g.strict then [({ word := g.word j, fault := 1, pos := j, detail := 0 } : Chance)] else []) ++ (tagChance j).toList)).flatten
  else []
where
  /-- The halt of a position whose destination tag turns invalid (sp. 06 R171). -/
  tagChance (j : Nat) : Option Chance :=
    if g.tagMode ≠ 2 then none else
    (g.destOf s j).bind (fun i =>
      let st := tagAt s g.srcTag (g.aff j).toNat
      if tagLive s st then some { word := tagWord g.dstTag i, fault := 2, pos := j, detail := bits st 63 50 } else none)

/-- A stream that halts at position 0 before anything is written (sp. 06 R172, R174, R175). -/
def haltedAt0 (g : Gme) (f absent : Nat) (reads : List (Nat × Nat)) : GmeRun :=
  let t : Stream := { stream0 with halt := some (f, 0, 0), cnt := ⟨absent, 0, 0, 0, 0⟩ }
  { writes := [], due := [], record := streamRecord g t 0, halt := t.halt, reads := reads, needs := [], ctl := [], span := [], chances := [] }

/-- The run of a stream with these writes, dues and needs. -/
def streamRun (s : State) (g : Gme) (t : Stream) (nan : Nat) (w : List (Nat × List Byte)) (due : List Nat) (needs : List (List (Nat × Nat)))
    (reads : List (Nat × Nat)) : GmeRun :=
  { writes := w, due := due, record := streamRecord g t nan, halt := t.halt, reads := reads, needs := needs,
    ctl := if t.halt.isSome then [] else g.control s, span := g.spanOf, chances := if t.halt.isSome then [] else g.chancesOf s }

/-- A GME cue or window command from its start (sp. 06 R165-R182). Where the chapter is silent (DESIGN CHOICE, log 83): a SEGMENT_REDUCE
that is untagged and has bad offsets, both at position 0, reports UNTAGGED; AUX_COUNT of one that halts later counts every empty segment;
the entry that halts a STRICT MERGE is not counted in ABSENT. -/
def gmeRun (s : State) (op : Nat) (p : List Byte) : GmeRun :=
  let g := parseGme op p
  let js := List.range g.count
  if decide (0x21 ≤ op ∧ op ≤ 0x23) && decide (g.tagMode = 0) && !s.step.tenants.isEmpty then haltedAt0 g 3 0 []
  else if op = 0x20 then
    let t := js.foldl (stepGather s g) stream0
    streamRun s g t 0 t.writes t.due t.needs (g.readsOf s t)
  else if op = 0x21 then
    let t := js.foldl (stepScatter s g) stream0
    streamRun s g t 0 t.writes t.due t.needs (g.readsOf s t)
  else if op = 0x22 then
    let t := js.foldl (stepScatter s g) stream0
    streamRun s g t (accNans g t) (accWrites g t) (accDue g t) (accNeeds g t) (g.readsOf s t)
  else if op = 0x23 then
    if !g.offsOk s then haltedAt0 g 4 0 (g.auxReads s []) else
    let t := js.foldl (stepSegment s g) stream0
    let empty := ((List.range g.dstRows).filter (fun i => decide (g.off s i = g.off s (i + 1)))).length
    let t1 := { t with cnt := { t.cnt with aux := empty } }
    streamRun s g t1 (accNans g t1) (accWrites g t1) (accDue g t1) (accNeeds g t1) (g.readsOf s t1)
  else if op = 0x24 then
    let ls := (List.range g.lists).map (fun l => (l, g.listRows s l))
    let bad := (ls.filter (·.2.isNone)).length
    if g.strict ∧ 0 < bad then haltedAt0 g 1 0 (g.auxReads s []) else
    let good := ls.map (fun x => (x.1, x.2.getD []))
    let total := (good.map (fun x => x.2.length)).sum
    let out := mergeLists g.count good
    let t : Stream := { stream0 with cnt := ⟨bad + (total - g.count), 0, 0, 0, (good.map (fun x => descents x.2)).sum⟩ }
    let rd := g.auxReads s [] ++ g.mergeReads s
    streamRun s g t 0 (js.map (fun j =>
        let h := out.getD j (0x7FFFFFFF, 0xFFFFFFFF)
        (g.dst.value + j * g.dst.rowStride, toLE 4 (unsigned 32 h.1) ++ toLE 4 h.2)))
      (js.map (· + 1)) (js.map (fun _ => rd)) rd
  else if op = 0x25 then
    let t := js.foldl (stepPrefix s g) stream0
    streamRun s g t 0 t.writes t.due t.needs (g.readsOf s t)
  else if op = 0x26 then
    let t := js.foldl (stepHist s g) stream0
    streamRun s g t 0 (histWrites s g t) (histDue g t) (histNeeds g t) (g.readsOf s t)
  else
    let rows := js.map (fun j =>
      let sc := (List.range g.elems).map (fun c => (c, elemF32 s g.src j c g.elems))
      (j, (sc.filter (fun x => isNan x.2)).length, topChoose sc g.topk))
    let nans := (rows.map (fun r => (r.2.2.filter (fun x => isNan x.2)).length)).sum
    let t : Stream := { stream0 with cnt := ⟨0, 0, 0, 0, (rows.map (fun r => r.2.1)).sum⟩ }
    streamRun s g t nans ((rows.map (fun r =>
        [(g.dst.value + r.1 * g.dst.rowStride, packCodes (fElem g.dst.fmt) (r.2.2.map (·.1))),
         (g.aux.value + r.1 * g.aux.rowStride, packCodes 0 (r.2.2.map (fun x => if isNan x.2 then nan32 else x.2)))])).flatten)
      (rows.map (fun r => [r.1 + 1, r.1 + 1])).flatten
      (rows.map (fun r => [rowRange g.src r.1 g.elems, rowRange g.src r.1 g.elems])).flatten
      (rows.map (fun r => rowRange g.src r.1 g.elems)).flatten

end Sys2Proof.Machine
end

