-- ==== Sys2Proof/Machine/Vector.lean ====
section
/-! DEFINITION. The Vector Units and the Optimizer Engine (sp. 08 R217-R240; sp. 03 R91, R92). -/

namespace Sys2Proof.Machine

/-- A Vector Unit descriptor (sp. 08 Tables 8-4, 8-5). -/
structure Vec where
  op : Nat
  rows : Nat
  cols : Nat
  func : Nat
  parts : Nat
  sel : Bool
  out2En : Bool
  outB : Bool
  out2B : Bool
  pthresh : Nat
  kscale : Nat
  stream : Nat
  streamOut : Nat
  streamOut2 : Nat
  row0 : Nat
  col0 : Nat
  logN : Nat
  param : Nat
  partStride : Nat
  doneOff : Nat
  in0 : Ref
  in1 : Ref
  in2 : Ref
  out : Ref
  out2 : Ref
  deriving DecidableEq, Repr

/-- The 256 bytes of a Vector Unit descriptor read. -/
def parseVec (op : Nat) (p : List Byte) : Vec :=
  let w := leAt p 0 64
  { op := op, rows := bits w 511 492, cols := bits w 491 472, func := bits w 471 468, parts := bits w 467 463, sel := bit w 462,
    out2En := bit w 461, outB := bit w 460, out2B := bit w 459, pthresh := bits w 458 427, kscale := bits w 426 395,
    stream := bits w 394 363, streamOut := bits w 362 331, streamOut2 := bits w 330 299, row0 := bits w 298 267,
    col0 := bits w 266 235, logN := bits w 234 203, param := bits w 202 171, partStride := bits w 170 143,
    doneOff := bits w 142 115, in0 := refAt p 64, in1 := refAt p 96, in2 := refAt p 128, out := refAt p 160, out2 := refAt p 192 }

/-- The opcodes with a FUNC. -/
def Vec.hasFunc (v : Vec) : Bool := decide (0x30 ≤ v.op ∧ v.op ≤ 0x34)
/-- The elementwise opcodes: 0x30 to 0x37 (sp. 08 R218 sets SCALE_ROWS and SUMSQ_ROW apart; DEDUCED, log 34). -/
def Vec.elementwise (v : Vec) : Bool := decide (0x30 ≤ v.op ∧ v.op ≤ 0x37)
/-- One result per row: SUMSQ_ROW, CLIP_SCALE. -/
def Vec.perRow (v : Vec) : Bool := v.op = 0x38 || v.op = 0x3B
def Vec.useIn1 (v : Vec) : Bool := v.op = 0x33 || v.op = 0x34 || v.op = 0x39
def Vec.useIn2 (v : Vec) : Bool := v.op = 0x31 || v.op = 0x32 || v.op = 0x34
/-- The columns that IN0, IN1 and OUT hold. -/
def Vec.in0Cols (v : Vec) : Nat := if v.op = 0x3B then 1 else v.cols
def Vec.in1Cols (v : Vec) : Nat := if v.op = 0x39 then 1 else v.cols
def Vec.outCols (v : Vec) : Nat := if v.perRow then 1 else v.cols

/-- The ranges of IN0: every partial of ADD_N (sp. 08 R221). -/
def Vec.in0R (v : Vec) : List (Nat × Nat) :=
  let l := refRanges v.in0 v.rows v.in0Cols false
  if v.op = 0x36 then l.map (fun x => if x.1 = v.in0.value then (x.1, x.2 + (v.parts - 1) * v.partStride) else x) else l
def Vec.in1R (v : Vec) : List (Nat × Nat) := if v.useIn1 then refRanges v.in1 v.rows v.in1Cols false else []
def Vec.in2R (v : Vec) : List (Nat × Nat) := if v.useIn2 then refRanges v.in2 v.rows v.cols false else []
def Vec.outR (v : Vec) : List (Nat × Nat) := refRanges v.out v.rows v.outCols v.outB
def Vec.out2R (v : Vec) : List (Nat × Nat) := if v.out2En then refRanges v.out2 v.rows v.cols v.out2B else []

/-- An output meets no other reference, but for IN0 itself in an elementwise opcode (sp. 08 R221). -/
def Vec.clear (v : Vec) (o : Ref) (l : List (Nat × Nat)) (other : List (Nat × Nat)) : Bool :=
  !anyMeets l (v.in1R ++ v.in2R ++ other) && (!anyMeets l v.in0R || (v.elementwise && o = v.in0))

/-- The formats of sp. 08 R221. -/
def Vec.formatsOk (v : Vec) : Bool :=
  let inp (r : Ref) : Bool := fmtRead r.fmt false && decide (fElem r.fmt ≤ 4) && refTied r
  let outp (r : Ref) : Bool := inp r && fmtOk r.fmt false && decide (fScale r.fmt ≤ 1)
  let f32 (r : Ref) : Bool := fElem r.fmt = 0
  inp v.in0 && (!v.useIn1 || inp v.in1) && (!v.useIn2 || inp v.in2) && outp v.out && (!v.out2En || outp v.out2) &&
  (decide (v.op < 0x38 ∨ v.op = 0x39) || (f32 v.in0 && f32 v.out)) && (v.op ≠ 0x39 || f32 v.in1)

/-- The check of a Vector Unit descriptor at load and at issue (sp. 08 R220, R221). -/
def checkVec (die op : Nat) (p : List Byte) : Bool :=
  let v := parseVec op p
  let w := leAt p 0 64
  decide (1 ≤ v.rows ∧ 1 ≤ v.cols) && bits w 114 0 = 0 && v.doneOff % 32 = 0 && zeroAt p 224 32 &&
  ([64, 96, 128, 160, 192].all (refRsv p)) &&
  (if v.hasFunc then decide (v.func ≤ 6) && (op ≠ 0x32 || (v.func ≠ 4 && v.func ≠ 5)) else v.func = 0) &&
  (if op = 0x36 then decide (2 ≤ v.parts ∧ v.parts ≤ 16) else v.parts = 0 && v.partStride = 0) && (!v.sel || op = 0x34) &&
  (!v.out2En || v.elementwise) && (op = 0x35 || (v.pthresh = 0 && v.kscale = 0 && v.stream = 0)) && (op = 0x3B || v.param = 0) &&
  (v.useIn1 || refZero p 96) && (v.useIn2 || refZero p 128) && (v.out2En || refZero p 192) && v.formatsOk &&
  allInScratch die (v.in0R ++ v.in1R ++ v.in2R ++ v.outR ++ v.out2R ++ [(scratchOf die + v.doneOff, 32)]) &&
  v.clear v.out v.outR v.out2R && (!v.out2En || v.clear v.out2 v.out2R v.outR)

/-- Busy cycles (sp. 08 Table 8-3), at least 1 (R227). -/
def vecCost (op : Nat) (p : List Byte) : Nat :=
  let v := parseVec op p
  let n := ceilDiv (v.rows * v.cols) 512
  max 1 (if op = 0x36 then v.parts * n else if op = 0x38 then v.rows * ceilDiv v.cols 512 + 10
    else if op = 0x3A then 3 * v.rows * ceilDiv v.cols 512 else if op = 0x3B then ceilDiv v.rows 512 else n)

/-! ## Functions (sp. 08 R223, R224) -/

/-- 1.0 in FP32. -/
def one32 : Code32 := 0x3F800000

/-- Coefficient k of segment s of table t: F and D of functions 2 to 5 in turn, then base 2 (DESIGN CHOICE of the order, log
35). -/
def coef (t s k : Nat) : Code32 := ofLE ((List.range 4).map (fun i => Config.tableImage (8192 * t + 16 * s + 4 * k + i)))

/-- The cubic of a segment, inside out. -/
def cubic (t s : Nat) (x : Code32) : Code32 :=
  fadd (coef t s 0) (fmul x (fadd (coef t s 1) (fmul x (fadd (coef t s 2) (fmul x (coef t s 3))))))

/-- floor of m x 2^e with its sign. -/
def floorFix (s : Bool) (m : Nat) (e : Int) : Int :=
  if 0 ≤ e then sgn s (m * 2 ^ e.toNat) else sgn s m / (2 ^ (-e).toNat : Nat)

/-- n x 2^e as a number. -/
def intNum (n : Int) (e : Int) : Num := .fin (decide (n < 0)) n.natAbs e

/-- A tabled function with its limits. -/
def tabled (t : Nat) (low high : Code32) (x : Code32) : Code32 :=
  match ofF32 x with
  | .nan => nan32
  | .inf s => if s then low else high
  | .fin s m e =>
    let k := floorFix s m (e + 4) + 256
    if k < 0 then low else if 512 ≤ k then high
    else cubic t k.toNat (toF32 (addNum (.fin s m e) (negNum (intNum (k - 256) (-4)))))

/-- e^x by the base-2 table (sp. 08 R224). -/
def expF (x : Code32) : Code32 :=
  let z := fmul x 0x3FB8AA3B
  match ofF32 z with
  | .nan => nan32
  | .inf s => if s then 0 else 0x7F800000
  | .fin s m e =>
    let n := floorFix s m e
    if flt z 0xC3160000 then 0
    else if 256 ≤ n then 0x7F800000
    else
      let f := toF32 (addNum (.fin s m e) (negNum (intNum n 0)))
      let k := match ofF32 f with
        | .fin _ fm fe => floorFix false fm (fe + 9)
        | _ => 0
      let t := toF32 (addNum (ofF32 f) (negNum (intNum k (-9))))
      match ofF32 (cubic 8 k.toNat t) with
      | .fin cs cm ce => toF32 (.fin cs cm (ce + n))
      | y => toF32 y

/-- F of Table 8-6. -/
def fnF (func : Nat) (x : Code32) : Code32 :=
  if isNan x then nan32
  else if func = 0 then x
  else if func = 1 then (if flt 0 x then x else 0)
  else if func = 2 then tabled 0 0 one32 x
  else if func = 3 then tabled 2 0xBF800000 one32 x
  else if func = 4 then tabled 4 0 x x
  else if func = 5 then tabled 6 0 x x
  else expF x

/-- D of Table 8-6. -/
def fnD (func : Nat) (x : Code32) : Code32 :=
  if isNan x then nan32
  else if func = 0 then one32
  else if func = 1 then (if flt 0 x then one32 else 0)
  else if func = 2 then tabled 1 0 0 x
  else if func = 3 then tabled 3 0 0 x
  else if func = 4 then tabled 5 0 one32 x
  else if func = 5 then tabled 7 0 one32 x
  else expF x

/-- g of Table 8-6, from the saved output. -/
def fnG (func : Nat) (y : Code32) : Code32 :=
  if isNan y then nan32
  else if func = 0 then one32
  else if func = 1 then (if flt 0 y then one32 else 0)
  else if func = 2 then fmul y (fsub one32 y)
  else if func = 3 then fsub one32 (fmul y y)
  else y

/-! ## A cue -/

/-- What a Vector Unit or Optimizer Engine cue does: its writes, its record, its reads. -/
structure VecRun where
  writes : List (Nat × List Byte)
  record : List Byte
  reads : List (Nat × Nat)
  needs : List (List (Nat × Nat))
  deriving DecidableEq, Repr

/-- A matrix of `r` x `c` codes. -/
def matrix (r c : Nat) (f : Nat → Nat → Nat) : Array (Array Nat) :=
  ((List.range r).map (fun i => ((List.range c).map (f i)).toArray)).toArray

/-- The NaN elements of a matrix. -/
def matNans (m : Array (Array Nat)) : Nat := (m.map (fun r => (r.filter isNan).size)).toList.sum

/-- The factor of CLIP_SCALE (sp. 08 R222). -/
def clipFactor (param s : Code32) : Code32 :=
  if isNan s || s = 0x7F800000 then nan32
  else
    let q := fmul param param
    if !isNan q && !flt q s then one32 else fdiv param (fsqrt s)

/-- The softmax of a row (sp. 08 R222). -/
def softmax (l : List Code32) : List Code32 :=
  let mx := l.foldl fmax (l.headD 0)
  let e := l.map (fun x => expF (fsub x mx))
  let sum := treeSum e
  e.map (fun x => fdiv x sum)

/-- What a Vector Unit reads of its inputs for rows of its result. -/
def Vec.rowReads (v : Vec) (rs : List Nat) : List (Nat × Nat) :=
  ((List.range (if v.op = 0x36 then v.parts else 1)).map (fun i =>
    refReads { v.in0 with value := v.in0.value + i * v.partStride } rs v.in0Cols)).flatten ++
  (if v.useIn1 && !(v.op = 0x34 && v.sel) then refReads v.in1 rs v.in1Cols else []) ++
  (if v.useIn2 then refReads v.in2 rs v.cols else [])

/-- What it reads in all. -/
def Vec.readsOf (v : Vec) : List (Nat × Nat) := v.rowReads (List.range v.rows)

/-- A Vector Unit cue or window command from its start (sp. 08 R218-R228). -/
def vecRun (s : State) (op : Nat) (p : List Byte) : VecRun :=
  let v := parseVec op p
  let idx (r c : Nat) : Nat := (v.row0 + r) * v.logN + v.col0 + c
  let part (i : Nat) : Array (Array Nat) :=
    matrix v.rows v.in0Cols (fun r c => elemF32 s { v.in0 with value := v.in0.value + i * v.partStride } r c v.in0Cols)
  let a := part 0
  let b := if v.useIn1 ∧ !(op = 0x34 ∧ v.sel) then matrix v.rows v.in1Cols (fun r c => elemF32 s v.in1 r c v.in1Cols) else #[]
  let d := if v.useIn2 then matrix v.rows v.cols (fun r c => elemF32 s v.in2 r c v.cols) else #[]
  let more := if op = 0x36 then (List.range (v.parts - 1)).map (fun i => part (i + 1)) else []
  let dropped (r c : Nat) : Bool := op = 0x35 && decide (drawOf s v.stream (idx r c) < v.pthresh)
  let soft : Array (Array Nat) := if op = 0x3A then a.map (fun r => (softmax r.toList).toArray) else #[]
  let res (r c : Nat) : Code32 :=
    let x := mat a r c
    if op = 0x30 then fnF v.func x
    else if op = 0x31 then fmul (mat d r c) (fnD v.func x)
    else if op = 0x32 then fmul (mat d r c) (fnG v.func x)
    else if op = 0x33 then fmul (fnF v.func x) (mat b r c)
    else if op = 0x34 then
      (if v.sel then fmul (mat d r c) (fnF v.func x) else fmul (fmul (mat d r c) (mat b r c)) (fnD v.func x))
    else if op = 0x35 then (if dropped r c then 0 else fmul x v.kscale)
    else if op = 0x36 then treeSum (x :: more.map (fun m => mat m r c))
    else if op = 0x37 then x
    else if op = 0x38 then treeSum ((List.range v.cols).map (fun k => fmul (mat a r k) (mat a r k)))
    else if op = 0x39 then fmul x (mat b r 0)
    else if op = 0x3A then mat soft r c
    else clipFactor v.param x
  let m := matrix v.rows v.outCols res
  let q1 := quant s v.out.fmt v.streamOut v.outB idx m v.rows v.outCols
  let q2 := if v.out2En then [quant s v.out2.fmt v.streamOut2 v.out2B idx m v.rows v.cols] else []
  let drops := if op = 0x35 then
    ((List.range v.rows).map (fun r => ((List.range v.cols).filter (dropped r)).length)).sum else 0
  { writes := quantWrites v.out v.outB q1 0 0 v.rows v.outCols ++
      (q2.map (fun q => quantWrites v.out2 v.out2B q 0 0 v.rows v.cols)).flatten,
    record := vectorRecord (v.rows * v.outCols) (matNans a + matNans b + matNans d + (more.map matNans).sum)
      (q1.nan + (q2.map (·.nan)).sum) (q1.sat + (q2.map (·.sat)).sum) drops 0,
    reads := v.readsOf,
    needs := quantNeeds v.out v.outB q1 (fun i => v.rowReads [i]) ++
      (q2.map (fun q => quantNeeds v.out2 v.out2B q (fun i => v.rowReads [i]))).flatten }

/-! ## Optimizer Engine (sp. 08 R231-R240) -/

/-- An Optimizer Engine descriptor (sp. 08 Tables 8-10, 8-11). -/
structure Opt where
  op : Nat
  per : Nat
  places : Nat
  place0 : Nat
  check : Bool
  copyEn : Bool
  doneOff : Nat
  streamMom : Nat
  streamCopy : Nat
  logical0 : Nat
  master : Ref
  grad : Ref
  mom1 : Ref
  mom2 : Ref
  copy : Ref
  hyper : Ref
  gscale : Ref
  deriving DecidableEq, Repr

/-- The 320 bytes of an Optimizer Engine descriptor read. -/
def parseOpt (op : Nat) (p : List Byte) : Opt :=
  let w := leAt p 0 64
  { op := op, per := bits w 511 484, places := bits w 483 473, place0 := bits w 472 463, check := bit w 462, copyEn := bit w 461,
    doneOff := bits w 460 433, streamMom := bits w 432 401, streamCopy := bits w 400 369, logical0 := bits w 368 305,
    master := refAt p 64, grad := refAt p 96, mom1 := refAt p 128, mom2 := refAt p 160, copy := refAt p 192, hyper := refAt p 224,
    gscale := refAt p 256 }

def Opt.useM1 (o : Opt) : Bool := o.op = 0x40 || o.op = 0x41
def Opt.useM2 (o : Opt) : Bool := o.op = 0x40

/-- The ranges of a moment reference: codes and BF16 block scales (sp. 08 R234). -/
def momRanges (r : Ref) (places per : Nat) : List (Nat × Nat) :=
  [(r.value, (places - 1) * r.rowStride + per), (r.scale, (places - 1) * r.scaleStride + per / 128 * 2)]

/-- The ranges of each reference in use. -/
def Opt.rangesOf (o : Opt) : List (List (Nat × Nat)) :=
  [refRanges o.master o.places o.per false, refRanges o.grad o.places o.per false,
   if o.useM1 then momRanges o.mom1 o.places o.per else [], if o.useM2 then momRanges o.mom2 o.places o.per else [],
   if o.copyEn then refRanges o.copy o.places o.per false else [],
   [(o.hyper.value, (o.places - 1) * o.hyper.rowStride + 64)], [(o.gscale.value, (o.places - 1) * o.gscale.rowStride + 4)]]

/-- No range of one list meets a range of a later one. -/
def noneMeet : List (List (Nat × Nat)) → Bool
  | [] => true
  | l :: r => !anyMeets l r.flatten && noneMeet r

/-- The check of an Optimizer Engine descriptor at load and at issue (sp. 08 R231-R234). -/
def checkOpt (die op : Nat) (p : List Byte) : Bool :=
  let o := parseOpt op p
  let w := leAt p 0 64
  let plain (r : Ref) (e : Nat) : Bool := fmtOk r.fmt false && fElem r.fmt = e
  let input (r : Ref) (e : Nat) : Bool := fmtRead r.fmt false && fElem r.fmt = e
  let ce := fElem o.copy.fmt
  decide (128 ≤ o.per ∧ o.per % 128 = 0 ∧ 1 ≤ o.places ∧ o.place0 + o.places ≤ 1024) && bits w 304 0 = 0 && o.doneOff % 32 = 0 &&
  zeroAt p 288 32 && ([64, 96, 128, 160, 192, 224, 256].all (refRsv p)) &&
  plain o.master 0 && refTied o.master && (input o.grad 0 || input o.grad 1) && refTied o.grad && input o.hyper 0 &&
  refTied o.hyper && input o.gscale 0 && refTied o.gscale &&
  (if o.useM1 then plain o.mom1 7 && o.mom1.tscale = 0 else refZero p 128) &&
  (if o.useM2 then plain o.mom2 8 && o.mom2.tscale = 0 else refZero p 160) &&
  (if o.copyEn then fmtOk o.copy.fmt false && decide (1 ≤ ce ∧ ce ≤ 4) && decide (fScale o.copy.fmt ≤ 1) && refTied o.copy
   else refZero p 192) &&
  allInScratch die (o.rangesOf.flatten ++ [(scratchOf die + o.doneOff, 32)]) && noneMeet o.rangesOf

/-- Busy cycles (sp. 08 R239). -/
def optCost (op : Nat) (p : List Byte) : Nat := let o := parseOpt op p; o.places * ceilDiv o.per 512

/-- An integer as FP32 (small integers are exact). -/
def int32f (i : Int) : Code32 := toF32 (intNum i 0)

/-- The decode of a moment code (sp. 03 R92) under a BF16 scale. -/
def momDecode (elem code scale : Nat) : Code32 :=
  let s := scale * 2 ^ 16
  if isNan s then nan32
  else if elem = 7 then fmul (fdiv (int32f (max (-127) (signed 8 code))) (int32f 127)) s
  else let r := fdiv (int32f code) (int32f 255); fmul (fmul r r) s

/-- rni of sp. 03 R91: an FP32 number to an integer. -/
def rni (mode : Mode) (c : Code32) : Int :=
  match ofF32 c with
  | .fin s m e =>
    let r := ratOf m e
    let q := r.1 / r.2
    sgn s (if roundsUp mode q (r.1 % r.2) r.2 then q + 1 else q)
  | _ => 0

/-- The scale of a block of moments: the largest magnitude rounded to BF16 toward +infinity; NaN when the block holds one. -/
def momScale (l : List Code32) : Nat :=
  if l.any isNan then 0x7FC0 else (l.foldl (fun a c => max a (fabs c)) 0 + 0xFFFF) / 2 ^ 16

/-- The code of one moment and whether it counts as a saturation (sp. 03 R91). -/
def momEncode (elem scale : Nat) (mode : Mode) (x : Code32) : Nat × Nat :=
  let s := scale * 2 ^ 16
  if isNan s ∨ scale = 0 then (0, b01 (elem = 8 && flt x 0))
  else if elem = 7 then
    let y := fdiv x s
    if isNan y then ((Config.momentCorner 7 x).toNat, 0) else (unsigned 8 (rni mode (fmul y (int32f 127))), 0)
  else if flt x 0 then (0, 1)
  else
    let y := fdiv x s
    if isNan y then ((Config.momentCorner 8 x).toNat, 0) else ((rni mode (fmul (fsqrt y) (int32f 255))).toNat % 256, 0)

/-- The hyperparameters of a row (sp. 08 Table 8-12), field k from the top. -/
def hyperAt (s : State) (o : Opt) (q k : Nat) : Code32 :=
  let w := loadLE s (o.hyper.value + q * o.hyper.rowStride) 64
  bits w (511 - 32 * k) (480 - 32 * k)

/-- The new master, first and second moment of one parameter (sp. 08 R236). -/
def optUpdate (op : Nat) (h : Nat → Code32) (g w m v : Code32) : Code32 × Code32 × Code32 :=
  if op = 0x40 then
    let m' := fadd (fmul (h 1) m) (fmul (h 2) g)
    let v' := fadd (fmul (h 3) v) (fmul (h 4) (fmul g g))
    let u := fdiv (fmul m' (h 7)) (fadd (fsqrt (fmul v' (h 8))) (h 5))
    (fsub w (fmul (h 0) (fadd u (fmul (h 6) w))), m', v')
  else if op = 0x41 then
    let m' := fadd (fmul (h 1) m) g
    (fsub w (fmul (h 0) (fadd m' (fmul (h 6) w))), m', v)
  else (fsub w (fmul (h 0) (fadd g (fmul (h 6) w))), m, v)

/-- Some open tenant holds the place in the armed step (sp. 08 R237). -/
def placeOpen (s : State) (p : Nat) : Bool :=
  s.tenants.any (fun e => entryOpen s.now e.2 && decide (e.2.place.toNat = p))

/-- A place is skipped (sp. 08 R237). -/
def placeSkipped (s : State) (o : Opt) (q : Nat) (gs : Code32) : Bool :=
  isNan gs || decide (gs = 0x7F800000) || !flt 0 gs || (o.check && !placeOpen s (o.place0 + q))

/-- One place: its writes and counts (params, skipped, NaN masters, NaN moment blocks, negative second moments, saturated copies). -/
def optPlace (s : State) (o : Opt) (q : Nat) : List (Nat × List Byte) × List Nat :=
  let gs := loadLE s (o.gscale.value + q * o.gscale.rowStride) 4
  let ps := List.range o.per
  let log (p : Nat) : Nat := o.logical0 + q * o.per + p
  let copyOf (w : List Code32) : List (Nat × List Byte) × Nat :=
    if o.copyEn then
      let x := quant s o.copy.fmt o.streamCopy false (fun _ c => log c) #[w.toArray] 1 o.per
      (quantWrites o.copy false x q 0 o.places o.per, x.sat)
    else ([], 0)
  let masters := ps.map (refCode s o.master q)
  if placeSkipped s o q gs then
    let c := copyOf (masters.map (fun w => if isNan w then nan32 else w))
    (c.1, [0, 1, 0, 0, 0, c.2])
  else
    let h := hyperAt s o q
    let sc (r : Ref) (p : Nat) : Nat := loadLE s (r.scale + q * r.scaleStride + p / 128 * 2) 2
    let new := ps.map (fun p =>
      optUpdate o.op h (fmul (elemF32 s o.grad q p o.per) gs) (masters.getD p 0)
        (if o.useM1 then momDecode 7 (refCode s o.mom1 q p) (sc o.mom1 p) else 0)
        (if o.useM2 then momDecode 8 (refCode s o.mom2 q p) (sc o.mom2 p) else 0))
    let enc (r : Ref) (elem stream : Nat) (vals : List Code32) : List (Nat × List Byte) × Nat × Nat :=
      let blocks := (List.range (o.per / 128)).map (fun b => (b, (vals.drop (128 * b)).take 128))
      let res := blocks.map (fun b =>
        let sb := momScale b.2
        (sb, (numbered b.2).map (fun x => momEncode elem sb (modeOf s (fRound r.fmt) stream (log (128 * b.1 + x.1))) x.2)))
      ([(r.value + q * r.rowStride, (res.map (fun x => x.2.map (fun c => BitVec.ofNat 8 c.1))).flatten),
        (r.scale + q * r.scaleStride, (res.map (fun x => toLE 2 x.1)).flatten)],
       (res.filter (fun x => x.1 = 0x7FC0)).length, (res.map (fun x => (x.2.map (·.2)).sum)).sum)
    let ws := new.map (·.1)
    let e1 := if o.useM1 then enc o.mom1 7 o.streamMom (new.map (·.2.1)) else ([], 0, 0)
    let e2 := if o.useM2 then enc o.mom2 8 ((o.streamMom + 1) % 2 ^ 32) (new.map (·.2.2)) else ([], 0, 0)
    let c := copyOf ws
    ((o.master.value + q * o.master.rowStride, packCodes 0 ws) :: e1.1 ++ e2.1 ++ c.1,
     [o.per, 0, (ws.filter isNan).length, e1.2.1 + e2.2.1, e1.2.2 + e2.2.2, c.2])

/-- What the engine reads of one place: its scale and master values; of a place not skipped, its hyperparameters, gradient and
moments too (sp. 08 R236, R237). -/
def Opt.placeReads (s : State) (o : Opt) (q : Nat) : List (Nat × Nat) :=
  let mom (r : Ref) : List (Nat × Nat) :=
    [(r.value + q * r.rowStride, o.per), (r.scale + q * r.scaleStride, o.per / 128 * 2)]
  (o.gscale.value + q * o.gscale.rowStride, 4) :: refReads o.master [q] o.per ++
    (if placeSkipped s o q (loadLE s (o.gscale.value + q * o.gscale.rowStride) 4) then []
     else (o.hyper.value + q * o.hyper.rowStride, 64) :: refReads o.grad [q] o.per ++ (if o.useM1 then mom o.mom1 else []) ++
       (if o.useM2 then mom o.mom2 else []))

/-- An Optimizer Engine cue or window command from its start (sp. 08 R236-R240). -/
def optRun (s : State) (op : Nat) (p : List Byte) : VecRun :=
  let o := parseOpt op p
  let r := (List.range o.places).map (optPlace s o)
  let n (k : Nat) : Nat := (r.map (fun x => x.2.getD k 0)).sum
  { writes := (r.map (·.1)).flatten, record := optimizerRecord (n 0) (n 1) (n 2) (n 3) (n 4) (n 5) 0,
    reads := ((List.range o.places).map (o.placeReads s)).flatten,
    needs := ((numbered r).map (fun x => x.2.1.map (fun _ => o.placeReads s x.1))).flatten }

/-- The factor of each place, which says whether it is skipped (sp. 08 R237). -/
def Opt.factors (o : Opt) : List (Nat × Nat) := (List.range o.places).map (fun q => (o.gscale.value + q * o.gscale.rowStride, 4))

/-- What place `q` may write, were its factor another. -/
def Opt.outputs (o : Opt) (q : Nat) : List (Nat × Nat) :=
  refReads o.master [q] o.per ++ (if o.useM1 then momRanges { o.mom1 with value := o.mom1.value + q * o.mom1.rowStride, scale := o.mom1.scale + q * o.mom1.scaleStride } 1 o.per else []) ++
  (if o.useM2 then momRanges { o.mom2 with value := o.mom2.value + q * o.mom2.rowStride, scale := o.mom2.scale + q * o.mom2.scaleStride } 1 o.per else []) ++
  (if o.copyEn then refReads o.copy [q] o.per else [])

end Sys2Proof.Machine
end

