-- ==== Sys2Proof/Machine/Layout.lean ====
section
/-! DEFINITION. The layout engine (sp. 09 R276-R286): the places of values, scales and tile scales, and the codec forms. -/

namespace Sys2Proof.Machine

/-- A layout-engine descriptor (sp. 09 Tables 9-11 to 9-13): counts, strides of values and scales by dimension on each side. -/
structure Lay where
  op : Nat
  n : List Nat
  bdim : Nat
  doneOff : Nat
  streamAddr : Nat
  streamLimit : Nat
  src : Ref
  dst : Ref
  svs : List Int
  sss : List Int
  dvs : List Int
  dss : List Int
  deriving DecidableEq, Repr

/-- The value strides of a stride unit, dimension 0 first. -/
def valueStrides (w : Nat) : List Int :=
  [signed 40 (bits w 351 312), signed 40 (bits w 391 352), signed 40 (bits w 431 392), signed 40 (bits w 471 432),
   signed 40 (bits w 511 472)]
/-- The scale strides of a stride unit, dimension 0 first. -/
def scaleStrides (w : Nat) : List Int :=
  [signed 32 (bits w 183 152), signed 32 (bits w 215 184), signed 32 (bits w 247 216), signed 32 (bits w 279 248),
   signed 32 (bits w 311 280)]

/-- The 256 bytes of a layout-engine descriptor read. -/
def parseLay (op : Nat) (p : List Byte) : Lay :=
  let w := leAt p 0 64
  { op := op, n := [bits w 511 492, bits w 491 472, bits w 471 452, bits w 451 432, bits w 431 412], bdim := bits w 411 409,
    doneOff := bits w 408 381, streamAddr := bits w 380 325, streamLimit := bits w 324 293, src := refAt p 64, dst := refAt p 96,
    svs := valueStrides (leAt p 128 64), sss := scaleStrides (leAt p 128 64), dvs := valueStrides (leAt p 192 64),
    dss := scaleStrides (leAt p 192 64) }

def Lay.cnt (l : Lay) (d : Nat) : Nat := l.n.getD d 1
def Lay.elem (l : Lay) : Nat := fElem l.src.fmt
def Lay.sc (l : Lay) : Nat := fScale l.src.fmt
/-- Whether each side is strided in stored packing (sp. 09 Table 9-10). -/
def Lay.srcStored (l : Lay) : Bool := l.op = 0x50 || l.op = 0x51 || l.op = 0x53
def Lay.dstStored (l : Lay) : Bool := l.op = 0x50 || l.op = 0x52 || l.op = 0x54

/-- Every index tuple of the given counts, dimension 0 fastest. -/
def tuples : List Nat → List (List Nat)
  | [] => [[]]
  | n :: r => ((tuples r).map (fun t => (List.range n).map (fun i => i :: t))).flatten

/-- Σ index x stride. -/
def dot : List Nat → List Int → Int
  | i :: is, s :: ss => (i : Int) * s + dot is ss
  | _, _ => 0

/-- The counts of the blocks: BDIM's count in steps of 32. -/
def Lay.blockCounts (l : Lay) : List Nat := (numbered l.n).map (fun x => if x.1 = l.bdim then ceilDiv x.2 32 else x.2)

/-- The elements and the elements per dimension product. -/
def Lay.total (l : Lay) : Nat := l.n.foldl (· * ·) 1

/-- The lowest and highest offset of a strided side. -/
def strideSpan (n : List Nat) (st : List Int) : Int × Int :=
  let t := (n.zip st).map (fun x => ((x.1 - 1 : Nat) : Int) * x.2)
  ((t.map (min 0)).sum, (t.map (max 0)).sum)

/-- An address below zero is no address: it lies outside every region. -/
def spanRange (base : Nat) (lo hi : Int) : Nat × Nat :=
  if (base : Int) + lo < 0 then (2 ^ 60, 1) else (((base : Int) + lo).toNat, (hi - lo).toNat + 1)

/-- The byte offset of an element offset. -/
def elemByte (e : Nat) (o : Int) : Int := if e = 4 then o / 2 else o * (elemBits e / 8 : Nat)

/-- The tile scales of the region: outer by K (sp. 03 R88). -/
def Lay.tileCount (l : Lay) : Nat := ceilDiv (l.cnt 0) 128 * ceilDiv (l.cnt 1) 128

/-- The bounding ranges of a stored side. -/
def Lay.storedRanges (l : Lay) (r : Ref) (vs ss : List Int) : List (Nat × Nat) :=
  let v := strideSpan l.n vs
  let b := strideSpan l.blockCounts ss
  let vr := spanRange r.value (elemByte l.elem v.1) (elemByte l.elem v.2 + (max 1 (elemBits l.elem / 8) - 1 : Nat))
  if l.sc = 0 then [vr] else if l.sc = 1 then [vr, spanRange r.scale b.1 b.2]
  else [vr, spanRange r.scale b.1 b.2, (r.tscale, 4 * l.tileCount)]

/-- The bytes of the transit form (sp. 03 R89). -/
def Lay.transitSize (l : Lay) : Nat :=
  if l.sc = 0 then packedBytes l.elem (l.cnt 0 * l.cnt 1)
  else l.cnt 1 * ((ceilDiv (l.cnt 0) 32) + (List.range (ceilDiv (l.cnt 0) 32)).foldl (fun a b =>
    a + packedBytes l.elem (min 32 (l.cnt 0 - 32 * b))) 0) + (if l.sc = 2 then 4 * l.tileCount else 0)

/-- The ranges of the source and of the destination, as a load check bounds them. -/
def Lay.srcR (l : Lay) : List (Nat × Nat) :=
  if l.srcStored then l.storedRanges l.src l.svs l.sss
  else if l.op = 0x52 then [(l.src.value, l.transitSize)] else [(l.src.value, directorySize (l.cnt 1) (l.cnt 0))]
def Lay.dstR (l : Lay) : List (Nat × Nat) :=
  if l.dstStored then l.storedRanges l.dst l.dvs l.dss
  else if l.op = 0x51 then [(l.dst.value, l.transitSize)]
  else [(l.dst.value, directorySize (l.cnt 1) (l.cnt 0)), (l.streamAddr, l.streamLimit)]

/-- No entry appears twice. -/
def distinctInts : List Int → Bool
  | [] => true
  | x :: r => !r.contains x && distinctInts r

/-- A range lies in the die's scratch or in its open HBM (sp. 09 R276). -/
def layInside (die : Nat) (x : Nat × Nat) : Bool := inScratch die x.1 x.2 || inOpenHbm die x.1 x.2

/-- A format the codec takes (sp. 05 Table 5-4). -/
def codecFmt (f : Nat) : Bool := decide (fScale f ≤ 1)

/-- The check of a layout-engine descriptor at load and at issue (sp. 09 R277-R283). -/
def checkLay (die op : Nat) (p : List Byte) : Bool :=
  let l := parseLay op p
  let w := leAt p 0 64
  let sw := leAt p 128 64
  let dw := leAt p 192 64
  let coded := decide (op = 0x53 ∨ op = 0x54)
  l.n.all (fun x => decide (1 ≤ x)) && (op = 0x50 || (l.cnt 2 = 1 && l.cnt 3 = 1 && l.cnt 4 = 1)) && bits w 292 0 = 0 &&
  l.doneOff % 32 = 0 && (op = 0x53 || (l.streamAddr = 0 && l.streamLimit = 0)) && refRsv p 64 && refRsv p 96 &&
  refTied l.src && refTied l.dst && l.src.rowStride = 0 && l.src.scaleStride = 0 && l.dst.rowStride = 0 && l.dst.scaleStride = 0 &&
  bits sw 151 0 = 0 && bits dw 151 0 = 0 && (l.srcStored || sw = 0) && (l.dstStored || dw = 0) &&
  fmtOk l.src.fmt true && fmtOk l.dst.fmt true && fRound l.src.fmt = 0 && fRound l.dst.fmt = 0 &&
  decide (fElem l.src.fmt = fElem l.dst.fmt ∧ l.sc = fScale l.dst.fmt) && decide (fPack l.src.fmt = decide (op = 0x52)) &&
  decide (fPack l.dst.fmt = decide (op = 0x51)) && (!coded || codecFmt l.src.fmt) &&
  (if l.sc = 0 then l.bdim = 7 else decide (l.bdim ≤ 4) && (op = 0x50 || l.bdim = 0)) &&
  (op ≠ 0x50 || l.sc = 0 || l.dvs.getD l.bdim 0 = 1) &&
  (op ≠ 0x50 || decide (l.sc ≠ 2) || (l.cnt 2 = 1 && l.cnt 3 = 1 && l.cnt 4 = 1)) &&
  (!l.dstStored || (distinctInts ((tuples l.n).map (fun t => dot t l.dvs)) &&
    (l.sc = 0 || distinctInts ((tuples l.blockCounts).map (fun t => dot t l.dss))))) &&
  (l.srcR ++ l.dstR ++ [(scratchOf die + l.doneOff, 32)]).all (layInside die) && !anyMeets l.srcR l.dstR &&
  (op ≠ 0x53 || decide (streamNeed l.elem (decide (l.sc = 1)) (l.cnt 1) (l.cnt 0) ≤ l.streamLimit))

/-- The bytes that PERMUTE writes: values, scales and tile scales (sp. 09 R285). -/
def Lay.permuteBytes (l : Lay) : Nat :=
  packedBytes l.elem l.total + (if l.sc = 0 then 0 else l.blockCounts.foldl (· * ·) 1) + (if l.sc = 2 then 4 * l.tileCount else 0)

/-- T of sp. 09 R285. -/
def layCost (op : Nat) (p : List Byte) : Nat :=
  let l := parseLay op p
  let grid := tileGrid (l.cnt 1) (l.cnt 0)
  if op = 0x50 then
    32 + ceilDiv l.permuteBytes (if l.svs.headD 0 = 1 ∧ l.dvs.headD 0 = 1 then 1024 else 512)
  else if op = 0x51 ∨ op = 0x52 then 32 + ceilDiv l.transitSize 1024
  else
    let dsz := (grid.map (fun x => denseSize l.elem (decide (l.sc = 1)) (min 32 (l.cnt 1 - 32 * x.1)) (min 32 (l.cnt 0 - 32 * x.2)))).sum
    32 + ceilDiv dsz 1024 + ceilDiv grid.length 16

/-- A write and what it is made from. -/
structure MadeWrite where
  at_ : Nat
  bytes : List Byte
  need : List (Nat × Nat)
  deriving DecidableEq, Repr

/-- An element on its way: its offset at the destination, its code and what it is made from. -/
structure MadeCode where
  off : Int
  code : Nat
  need : List (Nat × Nat)
  deriving DecidableEq, Repr

/-- The byte or bytes of an element. -/
def elemRange (e base : Nat) (o : Int) : Nat × Nat := (((base : Int) + elemByte e o).toNat, max 1 (elemBits e / 8))

/-- The code at an element offset of a side. -/
def codeAtOff (s : State) (e base : Nat) (o : Int) : Nat :=
  let a := ((base : Int) + elemByte e o).toNat
  if e = 4 then bits (readByte s a).toNat (4 * (o % 2).toNat + 3) (4 * (o % 2).toNat) else loadLE s a (elemBits e / 8)

/-- The writes of codes at element offsets; a nibble write keeps the other nibble of its byte (sp. 09 R281). -/
def offWrites (s : State) (e base : Nat) (l : List MadeCode) : List MadeWrite :=
  if e = 4 then
    let bytes := (l.map (fun x => x.off / 2)).eraseDups
    bytes.map (fun b =>
      let a := ((base : Int) + b).toNat
      let old := (readByte s a).toNat
      let lo := l.find? (fun x => x.off = 2 * b)
      let hi := l.find? (fun x => x.off = 2 * b + 1)
      let need := (lo.map (·.need)).getD [(a, 1)] ++ (hi.map (·.need)).getD [(a, 1)]
      { at_ := a, bytes := [BitVec.ofNat 8 ((lo.map (·.code)).getD (old % 16) + 16 * (hi.map (·.code)).getD (old / 16))], need := need })
  else l.map (fun x => { at_ := ((base : Int) + elemByte e x.off).toNat, bytes := toLE (elemBits e / 8) x.code, need := x.need })

/-- A scale byte of a stored side, by block indices. -/
def scaleAtIdx (s : State) (r : Ref) (st : List Int) (t : List Nat) : Nat := (readByte s ((r.scale : Int) + dot t st).toNat).toNat

/-- A stored scale write, made from `need`. -/
def scaleWrite (r : Ref) (st : List Int) (t : List Nat) (v : Nat) (need : List (Nat × Nat)) : MadeWrite :=
  { at_ := ((r.scale : Int) + dot t st).toNat, bytes := [BitVec.ofNat 8 v], need := need }

/-- What a layout-engine cue does: writes, record, reads, the rejected codec tiles. -/
structure LayRun where
  writes : List MadeWrite
  record : List Byte
  reads : List (Nat × Nat)
  badTiles : List Nat
  deriving DecidableEq, Repr

/-- The transit form's parts in order (sp. 03 R89): a tile scale (tile index), or a block record (row, block). -/
def transitOrder (rows k sc : Nat) : List (Sum Nat (Nat × Nat)) :=
  let nb := ceilDiv k 32
  if sc = 2 then
    ((List.range (ceilDiv rows 128)).map (fun rt => ((List.range (ceilDiv k 128)).map (fun kt =>
      Sum.inl (rt * ceilDiv k 128 + kt) ::
        ((List.range (min 128 (rows - 128 * rt))).map (fun r =>
          (List.range (min 4 (nb - 4 * kt))).map (fun b => Sum.inr (128 * rt + r, 4 * kt + b)))).flatten)).flatten)).flatten
  else ((List.range rows).map (fun r => (List.range nb).map (fun b => Sum.inr (r, b)))).flatten

/-- Codes packed one after another, two to a byte in FP4 (sp. 03 R88), each byte or element with what it is made from. -/
def packMade (e : Nat) : List (Nat × List (Nat × Nat)) → List (List Byte × List (Nat × Nat))
  | [] => []
  | [c] => [(if e = 4 then [BitVec.ofNat 8 (c.1 % 16)] else toLE (elemBits e / 8) c.1, c.2)]
  | c :: d :: r =>
    if e = 4 then ([BitVec.ofNat 8 (c.1 % 16 + 16 * (d.1 % 16))], c.2 ++ d.2) :: packMade e r
    else (toLE (elemBits e / 8) c.1, c.2) :: packMade e (d :: r)

/-- Parts laid one after another from an address. -/
def layMade : Nat → List (List Byte × List (Nat × Nat)) → List MadeWrite
  | _, [] => []
  | a, x :: r => { at_ := a, bytes := x.1, need := x.2 } :: layMade (a + x.1.length) r

/-- PACK: stored to transit. -/
def packParts (s : State) (l : Lay) : List (List Byte × List (Nat × Nat)) :=
  let k := l.cnt 0
  let row (r o n : Nat) : List (Nat × List (Nat × Nat)) := (List.range n).map (fun i =>
    let x := dot [o + i, r] l.svs
    (codeAtOff s l.elem l.src.value x, [elemRange l.elem l.src.value x]))
  if l.sc = 0 then ((List.range (l.cnt 1)).map (fun r => packMade l.elem (row r 0 k))).flatten
  else ((transitOrder (l.cnt 1) k l.sc).map (fun x =>
    match x with
    | .inl t => [(load s (l.src.tscale + 4 * t) 4, [(l.src.tscale + 4 * t, 4)])]
    | .inr (r, b) =>
      ([BitVec.ofNat 8 (scaleAtIdx s l.src l.sss [b, r])], [(((l.src.scale : Int) + dot [b, r] l.sss).toNat, 1)]) ::
        packMade l.elem (row r (32 * b) (min 32 (k - 32 * b))))).flatten

/-- UNPACK: transit to stored; `a` is the address of the part to come. -/
def unpackParts (s : State) (l : Lay) : Nat → List (Sum Nat (Nat × Nat)) → List MadeCode × List MadeWrite
  | _, [] => ([], [])
  | a, .inl t :: r =>
    let x := unpackParts s l (a + 4) r
    (x.1, { at_ := l.dst.tscale + 4 * t, bytes := load s a 4, need := [(a, 4)] } :: x.2)
  | a, .inr (row, b) :: r =>
    let c := min 32 (l.cnt 0 - 32 * b)
    let n := packedBytes l.elem c
    let x := unpackParts s l (a + 1 + n) r
    ((numbered (unpackCodes l.elem (load s (a + 1) n) c)).map (fun y =>
        { off := dot [32 * b + y.1, row] l.dvs, code := y.2, need := [elemRange l.elem (a + 1) y.1] }) ++ x.1,
     scaleWrite l.dst l.dss [b, row] (readByte s a).toNat [(a, 1)] :: x.2)

/-- A codec tile of the stored source. -/
def sourceTile (s : State) (l : Lay) (rt kt : Nat) : CTile :=
  let r := min 32 (l.cnt 1 - 32 * rt)
  let c := min 32 (l.cnt 0 - 32 * kt)
  { codes := ((List.range r).map (fun i => (List.range c).map (fun j =>
      codeAtOff s l.elem l.src.value (dot [32 * kt + j, 32 * rt + i] l.svs)))).flatten,
    scales := if l.sc = 0 then [] else (List.range r).map (fun i => scaleAtIdx s l.src l.sss [kt, 32 * rt + i]) }

/-- The ranges that a stored side touches. -/
def Lay.storedReads (l : Lay) (r : Ref) (vs ss : List Int) : List (Nat × Nat) :=
  (tuples l.n).map (fun t => (((r.value : Int) + elemByte l.elem (dot t vs)).toNat, max 1 (elemBits l.elem / 8))) ++
  (if l.sc = 0 then [] else (tuples l.blockCounts).map (fun t => (((r.scale : Int) + dot t ss).toNat, 1))) ++
  (if l.sc = 2 then [(r.tscale, 4 * l.tileCount)] else [])

/-- The tile scales of a PERMUTE at SCALE = 2, in the destination's order, each that of the source tile that covers the same elements
(sp. 09 R282): on either side the K tile is along the block dimension, and the order is outer tile, then K tile (sp. 03 R88); where a
reversal of a count that is no multiple of 128 lets a destination tile meet two source tiles, the one of its first element (DESIGN
CHOICE, log 84). -/
def Lay.tileScales (s : State) (l : Lay) : List MadeWrite :=
  let o := if l.bdim = 0 then 1 else 0
  let nb := l.cnt l.bdim
  let no := l.cnt o
  let vb := l.svs.getD l.bdim 0
  let vo := l.svs.getD o 0
  let place (st : Int) (n i : Nat) : Nat := if 0 < st then i else if st < 0 then n - 1 - i else 0
  let wide (st : Int) (n : Nat) : Nat := if st = 0 then 1 else n
  let source (x y : Nat) : Nat := y / 128 * ceilDiv (wide vb nb) 128 + x / 128
  ((List.range (ceilDiv no 128)).map (fun r => (List.range (ceilDiv nb 128)).map (fun c =>
    let y := if l.dvs.getD o 0 < 0 then no - 1 - 128 * r else 128 * r
    let a := l.src.tscale + 4 * source (place vb nb (128 * c)) (place vo no y)
    { at_ := l.dst.tscale + 4 * (r * ceilDiv nb 128 + c), bytes := load s a 4, need := [(a, 4)] }))).flatten

/-- A layout-engine cue or window command from its start (sp. 09 R281-R286). -/
def layRun (s : State) (die op : Nat) (p : List Byte) : LayRun :=
  let l := parseLay op p
  let e := l.elem
  let rows := l.cnt 1
  let k := l.cnt 0
  let grid := numbered (tileGrid rows k)
  let inside (a n : Nat) : Bool := layInside die (a, n)
  let hits (rd : List (Nat × Nat)) (wr : List MadeWrite) : Nat :=
    ((mergeBlocks rd).filter (pieceFenced s)).length +
    ((mergeBlocks (wr.map (fun x => (x.at_, x.bytes.length)))).filter (pieceFenced s)).length
  if op = 0x50 then
    let wr := offWrites s e l.dst.value ((tuples l.n).map (fun t =>
        { off := dot t l.dvs, code := codeAtOff s e l.src.value (dot t l.svs), need := [elemRange e l.src.value (dot t l.svs)] })) ++
      (if l.sc = 0 then [] else (tuples l.blockCounts).map (fun t =>
        scaleWrite l.dst l.dss t (scaleAtIdx s l.src l.sss t) [(((l.src.scale : Int) + dot t l.sss).toNat, 1)])) ++
      (if l.sc = 2 then l.tileScales s else [])
    let rd := l.storedReads l.src l.svs l.sss
    { writes := wr, record := layoutRecord l.total l.permuteBytes 0 0 0 0 (hits rd wr) 0, reads := rd, badTiles := [] }
  else if op = 0x51 then
    let wr := layMade l.dst.value (packParts s l)
    let rd := l.storedReads l.src l.svs l.sss
    { writes := wr, record := layoutRecord (rows * k) l.transitSize 0 0 0 0 (hits rd wr) 0, reads := rd, badTiles := [] }
  else if op = 0x52 then
    let x := if l.sc = 0 then
        ((tuples [k, rows]).map (fun t =>
          let i := t.getD 1 0 * k + t.getD 0 0
          { off := dot t l.dvs, code := codeAt s e l.src.value i, need := [elemRange e l.src.value i] }), [])
      else unpackParts s l l.src.value (transitOrder rows k l.sc)
    let wr := offWrites s e l.dst.value x.1 ++ x.2
    { writes := wr, record := layoutRecord (rows * k) l.permuteBytes 0 0 0 0 (hits l.srcR wr) 0, reads := l.srcR, badTiles := [] }
  else if op = 0x53 then
    let enc := grid.map (fun x => encodeTile e (min 32 (rows - 32 * x.2.1)) (min 32 (k - 32 * x.2.2)) (sourceTile s l x.2.1 x.2.2))
    let st := layTiles 0 (enc.map (·.2))
    let n (f : Nat) : Nat := (enc.filter (fun x => x.1 = f)).length
    let rd := l.storedReads l.src l.svs l.sss
    let wr : List MadeWrite :=
      [{ at_ := l.dst.value, bytes := directoryHeader l.streamAddr rows k st.1.length ++ (st.2.map (toLE 4)).flatten, need := rd },
       { at_ := l.streamAddr, bytes := st.1, need := rd }]
    { writes := wr, record := layoutRecord (rows * k) st.1.length (n 0) (n 1) (n 2) 0 (hits rd wr) 0, reads := rd, badTiles := [] }
  else
    let ts := grid.map (fun x => (x, readCTile s l.src.value e (decide (l.sc = 1)) rows k x.2.1 x.2.2 inside))
    let need (x : Nat × Nat) : List (Nat × Nat) := (l.src.value, 16) :: ctileReads s l.src.value k x.1 x.2 inside
    let vals := (ts.map (fun x =>
      let c := min 32 (k - 32 * x.1.2.2)
      (numbered x.2.1.codes).map (fun y =>
        { off := dot [32 * x.1.2.2 + y.1 % c, 32 * x.1.2.1 + y.1 / c] l.dvs, code := y.2, need := need x.1.2 : MadeCode }))).flatten
    let scs := (ts.map (fun x =>
      (numbered x.2.1.scales).map (fun y => scaleWrite l.dst l.dss [x.1.2.2, 32 * x.1.2.1 + y.1] y.2 (need x.1.2)))).flatten
    let wr := offWrites s e l.dst.value vals ++ scs
    let bad := (ts.filter (fun x => x.2.2)).map (fun x => x.1.1)
    let rd := (l.src.value, 16) :: ((tileGrid rows k).map (fun x => ctileReads s l.src.value k x.1 x.2 inside)).flatten
    { writes := wr, record := layoutRecord (rows * k) l.permuteBytes 0 0 0 bad.length (hits rd wr) 0, reads := rd, badTiles := bad }

end Sys2Proof.Machine
end

