-- ==== Sys2Proof/Machine/Units.lean ====
section
/-! DEFINITION. Tallies (sp. 02 R48-R51), the start of a pending cue (R45-R47) and its completion, for every unit; and the rows of
the compute units. -/

namespace Sys2Proof.Machine

/-! ## Tallies -/

/-- A tally at zero. -/
def noTally (_ : Nat) : BitVec 32 := 0
/-- One tally. -/
def tallyOf (s : State) (i : Nat) : BitVec 32 := Sparse.get noTally s.stage.tallies i
/-- The home die of a tally (sp. 02 R51). -/
def homeDie (i : Nat) : Die := Fin.ofNat 4 (i / 4096)
/-- The key of a die's copy of a tally. -/
def copyKey (d : Die) (i : Nat) : Nat := d.val * 16384 + i

/-- A WINDOW_OPEN cue. -/
def isWindow (w : BitVec 256) : Bool := cUnit w = 0 && cOp w = 1

/-- The templates of a WINDOW_OPEN cue whose builder is EXPERT_LIST (sp. 07 R207). -/
def templatesOf (st : CueStore) (w : BitVec 256) : List (BitVec 256) :=
  let d := ofLE (st.desc (cDesc w) 32)
  if isWindow w && bits d 207 200 = 3 then
    let h := ofLE (st.desc (cDesc w + 1) 64)
    (List.range (bits h 502 494 * bits h 477 473)).map (fun i =>
      BitVec.ofNat 256 (ofLE (st.read (st.descBase + 64 * (cDesc w + 2) + 32 * i) 32)))
  else []

/-- A cue or template waits on the tally. -/
def waitsFor (i : Nat) (w : BitVec 256) : Bool := cWaitEn w && cWaitTally w = i

/-- A die's list waits on the tally, by a cue or by a template of one of its windows (sp. 02 R51). -/
def dieWaits (st : CueStore) (d : Die) (i : Nat) : Bool :=
  (List.range (st.count d.val)).any (fun k =>
    let w := st.cue d.val k
    waitsFor i w || (templatesOf st w).any (waitsFor i))

/-- The value of a tally that die `d` sees now: its own, or its copy of another die's (sp. 02 R51). -/
def seenValue (s : State) (d : Die) (i : Nat) : Nat :=
  if homeDie i = d then (tallyOf s i).toNat else (Sparse.get noTally s.stage.copies (copyKey d i)).toNat

/-- A Vector Unit and the Optimizer Engine take the next cue when the busy count of the one they run is over (sp. 08 R227, R239): the
cycle from which the unit of key `k` is free of it. -/
def busyOver (k : Nat) (r : Running) : Option Nat :=
  if 400 ≤ k ∧ k < 424 ∧ !r.halted then some (r.startedAt + 4 + r.cycles) else none

/-- The cycle from which a unit is free to take a cue, if it will be (sp. 02 R45, sp. 04 R117, sp. 08 R227). -/
def freeSince (k : Nat) (v : UnitSt) : Option Nat :=
  match v.running with
  | none => some v.freeAt
  | some r => (busyOver k r).map (max v.freeAt)

/-- A pending cue whose wait the value `v` of cycle `c` settles: its condition holds from the next cycle on, or holds no longer; a cue
whose unit was free by then has started (sp. 02 R45). -/
def noteWait (now k c v : Nat) (u : UnitSt) (p : Pending) : Pending :=
  if cWaitValue p.raw ≤ v then { p with metAt := some (p.metAt.getD (max p.firedAt (c + 1))) }
  else
    match p.metAt, freeSince k u with
    | some m, some f => if max p.firedAt (max m f) ≤ min now c then p else { p with metAt := none }
    | _, _ => { p with metAt := none }

/-- Die `d` sees a new value of tally `i` at the end of cycle `c`: the pending cues that wait on it take note. -/
def noteWaits (s : State) (d : Die) (i c : Nat) : State :=
  let v := seenValue s d i
  { s with stage := { s.stage with units := s.stage.units.map (fun e =>
      match e.2.pending with
      | some p =>
        if keyDie e.1 = d.val ∧ cWaitEn p.raw ∧ cWaitTally p.raw = i then (e.1, { e.2 with pending := some (noteWait s.now e.1 c v e.2 p) })
        else e
      | none => e) } }

/-- The home die sends a tally's new value to the copies of the dies that wait on it (sp. 02 R51). -/
def sendCopies (s : State) (i c : Nat) : State :=
  let h := homeDie i
  let ds := allDies.filter (fun d => decide (d ≠ h) && stepBusy s && dieWaits (sheet s) d i)
  { s with stage := { s.stage with lane := s.stage.lane ++ ds.map (fun d =>
      { origin := h, dest := d, tally := i, value := tallyOf s i, copy := true, sentAt := c, queued := false }) } }

/-- The values of the cycle before are kept for the waits of cycle `c` (sp. 02 R45): `k` is about to leave the value `v`. A change of an
earlier cycle leaves them as they are. -/
def keepBefore (s : State) (k v c : Nat) : State :=
  if c < s.stage.changedAt then s else
  let g := if s.stage.changedAt = c then s.stage else { s.stage with changedAt := c, before := [], added := [], sets := [] }
  { s with stage := (if g.before.any (fun e => e.1 = k) then g else { g with before := (k, v) :: g.before }) }

/-- A tally's value stored in cycle `c`, and sent to its copies when it is new. -/
def putTally (s : State) (i : Nat) (v : BitVec 32) (c : Nat) : State :=
  if tallyOf s i = v then s
  else
    let s1 := keepBefore s i (tallyOf s i).toNat c
    let s2 := { s1 with stage := { s1.stage with tallies := Sparse.set noTally s1.stage.tallies i v } }
    sendCopies (noteWaits s2 (homeDie i) i c) i c

/-- A value stored in a tally: at the largest value, with a TALLY_SATURATE record, when it would pass it (sp. 02 R50). -/
def satTally (s : State) (i v c : Nat) : State :=
  if 0xFFFFFFFF < v then
    raise (putTally s i 0xFFFFFFFF c) (ev 0x05 (dieplace (homeDie i)) 0 0 i 0 .never)
  else putTally s i (BitVec.ofNat 32 v) c

/-- An increment reaches its tally in cycle `c` (sp. 02 R49, R50), and is noted among those of that cycle. -/
def applyTallyAt (s : State) (i n c : Nat) : State :=
  let s1 := keepBefore s i (tallyOf s i).toNat c
  let a := if s1.stage.changedAt = c then Sparse.bump top64 s1.stage.added i n else s1.stage.added
  satTally { s1 with stage := { s1.stage with added := a } } i ((tallyOf s i).toNat + n) c

/-- An increment reaches its tally now. -/
def applyTally (s : State) (i n : Nat) : State := applyTallyAt s i n s.now

/-- A TALLY_SET with cue index `cue` in cycle `c` (sp. 02 R49): the set value plus the increments that the tally took in that cycle. Of
several in one cycle that with the highest cue index counts. -/
def setTally (s : State) (i v cue c : Nat) : State :=
  let s1 := keepBefore s i (tallyOf s i).toNat c
  if s1.stage.changedAt ≠ c then satTally s1 i v c
  else if s1.stage.sets.any (fun x => x.1 = i && decide (cue < x.2.1)) then s1
  else satTally { s1 with stage := { s1.stage with sets := (i, cue, v) :: s1.stage.sets } } i
    (v + Sparse.get (fun _ => 0) s1.stage.added i) c

/-- An increment made on die `d` in cycle `c`: applied at home, or sent along the tally lane (sp. 02 R51). A flow of tally messages is a
stream: with none of the die's free it waits (sp. 09 R273, R275). -/
def signalTally (s : State) (d : Die) (i n c : Nat) : State :=
  if homeDie i = d then applyTallyAt s i n c
  else
    let wait := !(flowsOf s d).contains (homeDie i) && decide (4096 ≤ streamsHeld s d.val)
    let t := if wait then countWait s d true else s
    { t with stage := { t.stage with lane := t.stage.lane ++
      [{ origin := d, dest := homeDie i, tally := i, value := BitVec.ofNat 32 n, copy := false, sentAt := c, queued := wait }] } }

/-- A signal made in cycle `c`, if any. -/
def signalOpt (s : State) (d : Die) (c : Nat) : Option (Nat × Nat) → State
  | none => s
  | some (i, n) => signalTally s d i n c

/-- The increments that builders' lists make at their issue points, up to the present cycle (sp. 07 R208). -/
def settle (s : State) : State :=
  let due := s.stage.later.filter (fun x => decide (x.at_ ≤ s.now))
  if due.isEmpty then s else
  let s1 := { s with stage := { s.stage with later := s.stage.later.filter (fun x => decide (s.now < x.at_)) } }
  due.foldl (fun t x => signalTally t x.die x.tally x.inc x.at_) s1

/-- The value that a wait on die `d` sees: the tally at home, or the die's copy, at the end of the cycle before (sp. 02 R45,
R51). -/
def waitValue (s : State) (d : Die) (i : Nat) : Nat :=
  endedValue s (if homeDie i = d then i else 16384 + copyKey d i) (seenValue s d i)

/-- The start condition of a cue (sp. 02 Table 2-4). -/
def waitHolds (s : State) (d : Die) (w : BitVec 256) : Bool :=
  !cWaitEn w || decide (cWaitValue w ≤ waitValue s d (cWaitTally w))

/-- The first cycle from `f` on in which the condition of a cue that fires in it holds, as the tallies stand (sp. 02 R45): at once, or
after the cycle of the last change. A change that ends the condition comes too late for a cue whose unit was `free` by then. -/
def metFrom (s : State) (d : Die) (w : BitVec 256) (f : Nat) (free : Option Nat) : Option Nat :=
  if !cWaitEn w then some f
  else
    let i := cWaitTally w
    let k := if homeDie i = d then i else 16384 + copyKey d i
    let held := s.stage.changedAt < f ∨ (s.stage.before.find? (fun e => e.1 = k)).all (fun e => decide (cWaitValue w ≤ e.2))
    if seenValue s d i < cWaitValue w then
      if f ≤ s.stage.changedAt ∧ held ∧ free.any (fun c => decide (c ≤ s.stage.changedAt)) ∧
          (s.stage.before.find? (fun e => e.1 = k)).isSome then some f else none
    else if held then some f else some (s.stage.changedAt + 1)

/-! ## Starting -/

/-- The pending cue of a unit. -/
def pendingOf (s : State) (u : UnitId) : Option Pending := (unit s u).pending

/-- An accepted hold has come to its beat: the cycle of that boundary (sp. 02 R58). -/
def holdEdge (s : State) : Option Nat :=
  match s.step.hold with
  | none => none
  | some (g, _) =>
    let d := (beatNow s - g).toNat
    if d < 2 ^ 47 then some (s.now - s.cycle.toNat - 4096 * d) else none

/-- Cues of the die fire and start in cycle `c`: the step is running, has not stopped by then and is not held from then on, the beat
runs, the die is not frozen (sp. 02 R36, R58, R493, sp. 15 R437). -/
def canStart (s : State) (d : Die) (c : Nat) : Bool :=
  decide (s.step.phase = .running) && !(s.step.stopped && decide (s.step.stopAt ≤ c)) && beatRuns s && !s.step.frozen.contains d &&
  (match holdEdge s with
   | some b => decide (c < b)
   | none => true)

/-- The unit is free to take a cue now. -/
def unitFree (s : State) (u : UnitId) : Bool :=
  match freeSince (unitKey u) (unit s u) with
  | some c => decide (c ≤ s.now)
  | none => false

/-- A forward opcode runs on a backward array only within the span of a lend of its die that names the array (sp. 02 R57): the first
such cycle from `c` on. -/
def lentFrom (s : State) (u : UnitId) (op c : Nat) : Option Nat :=
  match u with
  | .array a =>
    if !a.back ∨ op ≠ 0x10 then some c
    else (s.stage.lends.filter (fun l => decide (l.die = a.die) && l.mask.getLsbD a.idx.val)).findSome? (fun l =>
      if max c l.startedAt < l.startedAt + l.span then some (max c l.startedAt) else none)
  | _ => some c

/-- A predictor consumer starts only after PRIOR_CUES consumers of its slot have completed (sp. 05 R152): the first such cycle. -/
def priorSince (s : State) (u : UnitId) (op : Nat) (desc : List Byte) : Option Nat :=
  match u with
  | .array a =>
    let m := (metaOf s a.die.val (parseDme op desc)).1
    if !m.consumer ∨ m.prior = 0 then some 0
    else ((Sparse.get noPred s.stage.preds m.slot).doneAt[m.prior - 1]?).map (· + 1)
  | _ => some 0

/-- The bytes of a unit's descriptor (sp. 04 R105, sp. 06 R160, sp. 08 R219, R232, sp. 09 R278). -/
def descSize : UnitId → Nat
  | .array _ => 320
  | .optimizer _ => 320
  | _ => 256

/-- The earliest cycle from its firing on in which the pending cue of `u` may start: its condition holds on the tally at the end of the
cycle before, its unit is free, its lend and its predecessors are there (sp. 02 R45, R57, sp. 05 R152). -/
def startCycle (s : State) (u : UnitId) (p : Pending) : Option Nat :=
  match p.metAt, freeSince (unitKey u) (unit s u), priorSince s u (cOp p.raw) ((sheet s).desc (cDesc p.raw) (descSize u)) with
  | some m, some f, some q => lentFrom s u (cOp p.raw) (max p.firedAt (max m (max f q)))
  | _, _, _ => none

/-- The pending cue of `u`, with opcode `op`, and the cycle of its start: the earliest one, within its slack (sp. 02 R45). -/
def startable (s : State) (u : UnitId) (op : Nat) : Option (Pending × Nat) :=
  match pendingOf s u with
  | none => none
  | some p =>
    match startCycle s u p with
    | none => none
    | some c =>
      if canStart s (unitDie u) c && cOp p.raw = op && decide (c ≤ p.firedAt + cSlack p.raw) && decide (c ≤ s.now) then some (p, c)
      else none

/-- The clock goes on to the cycle in which the pending cue of `u` starts, when that is still to come. -/
def readyAt (s : State) (u : UnitId) : State :=
  let go (t : State) : State :=
    match pendingOf t u with
    | none => t
    | some p => clockTo t ((startCycle t u p).getD 0)
  let s1 := go (settle s)
  match s1.stage.later with
  | [] => s1
  | x :: _ =>
    match (pendingOf s1 u).bind (startCycle s1 u) with
    | some _ => s1
    | none => go (settle (clockTo s1 x.at_))

/-- The signal of a cue that acts on start, or on completion (sp. 02 Table 2-4). -/
def startSignal (w : BitVec 256) : Option (Nat × Nat) := if cSigOn w = 1 then some (cSigTally w, cSigInc w) else none
def doneSignal (w : BitVec 256) : Option (Nat × Nat) := if cSigOn w = 2 then some (cSigTally w, cSigInc w) else none

/-- What a compute unit's work comes to: writes, their order and what each is made from, record and its place, cycles, predictor counts,
whether it halts, the errors it raises at its start, the ranges it reads, those that choose the rows it writes and the rows that they may
choose, where a fence would halt it, the cost, counts and accumulators of each tile. -/
structure Work where
  writes : List (Nat × List Byte)
  due : List Nat
  needs : List (List (Nat × Nat))
  recAt : Nat
  record : List Byte
  cycles : Nat
  preds : List PredDelta
  halted : Bool
  events : List Event
  reads : List (Nat × Nat)
  ctl : List (Nat × Nat)
  span : List (Nat × Nat)
  chances : List Chance
  tiles : List (Nat × List Nat)
  slots : List (Array (Array Nat))
  deriving DecidableEq, Repr

/-- An event of a unit's cue. -/
def cueEvent (u : UnitId) (cue : Nat) (kind : Byte) (d0 d1 : Nat) (a : AlarmRule) : Event :=
  { kind := kind, place := dieplace (unitDie u), unit := unitKind u, inst := unitInst u, cue := cue, d0 := d0, d1 := d1, alarm := a }

/-- The work of a compute unit (arrays, GME, Vector Unit, Optimizer Engine, layout engine) on a descriptor. -/
def workOf (s : State) (u : UnitId) (op cue : Nat) (desc : List Byte) (window : Bool) : Work :=
  let d := (unitDie u).val
  let o := scratchOf d
  match u with
  | .array _ =>
    let x := parseDme op desc
    let r := dmeRun s d op desc window
    { writes := r.writes, due := r.due, recAt := o + x.doneOff, record := r.record, cycles := r.cycles, preds := r.preds,
      halted := r.mix.isSome, reads := r.reads, tiles := r.tiles,
      needs := r.needs, ctl := [], span := [], chances := [], slots := r.slots,
      events := (if r.badMeta = 0 then [] else [cueEvent u cue 0x08 x.metaOff r.badMeta .every]) ++
        r.badTiles.map (fun i => cueEvent u cue 0x09 3 i .first) ++
        (match r.mix with
         | some (a, b) => [cueEvent u cue 0x0C a b .every]
         | none => []) }
  | .gme _ _ =>
    let x := parseGme op desc
    let r := gmeRun s op desc
    { writes := r.writes, due := r.due, recAt := o + x.doneOff, record := r.record, cycles := gmeCost op desc, preds := [],
      halted := r.halt.isSome, reads := r.reads, tiles := [],
      needs := r.needs, ctl := r.ctl, span := r.span, chances := r.chances, slots := [],
      events := (match r.halt with
                 | some (f, j, v) => [cueEvent u cue 0x0B (f + 16 * j) v .every]
                 | none => []) }
  | .vector _ _ =>
    let r := vecRun s op desc
    { writes := r.writes, due := r.writes.map (fun _ => 1), recAt := o + (parseVec op desc).doneOff, record := r.record,
      cycles := vecCost op desc, preds := [], halted := false, reads := r.reads, needs := r.needs, ctl := [], span := [], chances := [],
      tiles := [], slots := [], events := [] }
  | .optimizer _ =>
    let r := optRun s op desc
    { writes := r.writes, due := r.writes.map (fun _ => 1), recAt := o + (parseOpt op desc).doneOff, record := r.record,
      cycles := optCost op desc, preds := [], halted := false, reads := r.reads, needs := r.needs, ctl := (parseOpt op desc).factors,
      span := [], chances := [], tiles := [], slots := [], events := [] }
  | .layout _ =>
    let r := layRun s d op desc
    let l := parseLay op desc
    { writes := r.writes.map (fun x => (x.at_, x.bytes)), due := r.writes.map (fun _ => 1), recAt := o + l.doneOff, record := r.record,
      cycles := layCost op desc, preds := [], halted := false, reads := r.reads, needs := r.writes.map (·.need), ctl := [],
      span := if op = 0x53 then [(l.streamAddr, l.streamLimit)] else [], chances := [], tiles := [], slots := [],
      events := r.badTiles.map (fun i => cueEvent u cue 0x09 2 i .first) }
  | _ =>
    { writes := [], due := [], recAt := 0, record := [], cycles := 0, preds := [], halted := false, reads := [], needs := [], ctl := [],
      span := [], chances := [], tiles := [], slots := [], events := [] }

/-- The bits of STATUS in a unit's record: [35:32] for the DME, [7:4] for the others. -/
def statusAt : UnitId → Nat
  | .array _ => 32
  | _ => 4

/-- The layout engine's record shows detections in what it reads (sp. 09 R286). -/
def readStatus (s : State) (u : UnitId) (w : Work) : List Byte :=
  match u with
  | .layout _ => if ((wordsRead s (mergeBlocks w.reads)).map (wordEvent s)).flatten.isEmpty then w.record else withStatus w.record 4 1
  | _ => w.record

/-- Fenced transactions among the reads. -/
def fencedReads (s : State) (l : List (Nat × Nat)) : Nat := ((mergeBlocks l).filter (pieceFenced s)).length

/-- Writes of which those marked are undefined: free values (sp. 00 R6). -/
def drawWrites : List ((Nat × List Byte) × Bool) → State → List (Nat × List Byte) × State
  | [], s => ([], s)
  | (x, undefd) :: r, s =>
    let d := if undefd then drawBytes x.2.length s else (x.2, s)
    let y := drawWrites r d.2
    ((x.1, d.1) :: y.1, y.2)

/-- The bytes of ranges drawn: undefined (sp. 00 R6). -/
def drawRanges (l : List (Nat × Nat)) (s : State) : List (Nat × List Byte) × State :=
  drawWrites (l.map (fun x => ((x.1, zeros x.2), true))) s

/-! ## What is undefined of a cue's results (sp. 00 R6, sp. 04 R99, R119, sp. 06 R184) -/

/-- What a running cue reads that another party writes while it runs, or that a fence began to take: what is made from it is undefined. -/
def spoilt (r : Running) : List (Nat × Nat) := r.raced ++ sharedAll r.reads (r.fenced.map (fun f => (f.base, f.len)))

/-- A cue moves elements without any arithmetic (sp. 09 R281). -/
def movesOnly (u : UnitId) (op : Nat) : Bool :=
  match u with
  | .layout _ => decide (op ≤ 0x52)
  | _ => false

/-- A moved element of which fences began to take the source while the cue ran: its transaction was granted before them and reads as
stored, or later and reads zero (sp. 09 R288, R294). Two FP4 codes of a byte have a source each. -/
def takenWrite (l need : List (Nat × Nat)) (b : List Byte) (s : State) : List Byte × State :=
  let f := drawBytes 1 s
  let gone (i : Nat) : Bool := anyMeets (need.drop i |>.take 1) l && (f.1.headD 0).getLsbD i
  (if need.length ≤ 1 then (if gone 0 then zeros b.length else b)
   else b.map (fun x => x &&& (if gone 0 then 0xF0 else 0xFF) &&& (if gone 1 then 0x0F else 0xFF)), f.2)

/-- A write of a cue as it lands: undefined where `undef` says so or it is made from what another party wrote; made from what a fence
began to take, undefined too, but an element that the layout engine moves is as stored or zero. -/
def landWrite (u : UnitId) (r : Running) (undef : Bool) (need : List (Nat × Nat)) (b : List Byte) (s : State) : List Byte × State :=
  let l := r.fenced.map (fun f => (f.base, f.len))
  if undef || anyMeets need r.raced then drawBytes b.length s
  else if anyMeets need l then (if movesOnly u r.opcode.toNat then takenWrite l need b s else drawBytes b.length s)
  else (b, s)

/-- Writes of a cue as they land, `undef` said of each by its place. -/
def landWrites (u : UnitId) (r : Running) (undef : Nat → Bool) : List (Nat × Nat × List Byte) → State → List (Nat × List Byte) × State
  | [], s => ([], s)
  | x :: l, s =>
    let d := landWrite u r (undef x.1) (r.needs.getD x.1 []) x.2.2 s
    let y := landWrites u r undef l d.2
    ((x.2.1, d.1) :: y.1, y.2)

/-- The parts of a cue, its tiles or positions, of which a write is made from spoilt bytes. -/
def spoiltParts (r : Running) : List Nat :=
  ((numbered r.writes).filterMap (fun x => if anyMeets (r.needs.getD x.1 []) (spoilt r) then some (r.due.getD x.1 0) else none)).eraseDups

/-- The rows beyond its writes that a cue may have written, as another party wrote what chooses them: any destination row of a stream, a
place that its factor skips or not, the whole of a stream's space (sp. 06 R184, sp. 08 R237, sp. 05 R140). -/
def chosenRows (u : UnitId) (r : Running) : List (Nat × Nat) :=
  match u with
  | .gme _ _ => if anyMeets r.ctl r.raced then r.span else []
  | .optimizer _ =>
    ((numbered r.ctl).map (fun x => if anyMeets [x.2] r.raced then (parseOpt r.opcode.toNat r.desc).outputs x.1 else [])).flatten
  | .layout _ => if (spoilt r).isEmpty then [] else r.span
  | _ => []

/-- Bits of a record drawn: undefined. -/
def freeBits (l : List (Nat × Nat)) (p : List Byte) (s : State) : List Byte × State :=
  if l.isEmpty then (p, s) else
  let f := drawBytes 32 s
  (toLE 32 (l.foldl (fun w x => setBits w x.1 x.2 (bits (ofLE f.1) x.1 x.2)) (ofLE p)), f.2)

/-- The counts of a GME record that what it reads can move (sp. 06 Table 6-6): `ctl` when what chooses its rows is spoilt. -/
def gmeCounts (op : Nat) (ctl : Bool) : List (Nat × Nat) :=
  let on (b : Bool) (x : Nat × Nat) : List (Nat × Nat) := if b then [x] else []
  on (ctl && op ≠ 0x25 && op ≠ 0x27) (223, 192) ++ on (ctl && decide (0x21 ≤ op ∧ op ≤ 0x26) && op ≠ 0x24 && op ≠ 0x25) (191, 160) ++
  on (ctl && decide (0x20 ≤ op ∧ op ≤ 0x23)) (159, 128) ++ on ([0x22, 0x23, 0x27].contains op) (127, 96) ++
  on ([0x22, 0x23, 0x25, 0x26].contains op) (95, 64) ++ on ((ctl && [0x20, 0x23].contains op) || [0x24, 0x27].contains op) (63, 32)

/-- The bits of the record that are undefined, of a cue whose results are spoilt: the counts that what it reads can move; never how far
it got, STATUS, the reserved fields or FENCE_HITS (sp. 06 Table 6-6, sp. 08 Tables 8-8, 8-13, sp. 09 Table 9-14). -/
def spoiltBits (u : UnitId) (r : Running) : List (Nat × Nat) :=
  let ctl := anyMeets r.ctl (spoilt r)
  if (spoiltParts r).isEmpty && !ctl then [] else
  match u with
  | .gme _ _ => gmeCounts r.opcode.toNat ctl
  | .vector _ _ => [(223, 128)]
  | .optimizer _ => if ctl then [(255, 213), (212, 85)] else [(212, 85)]
  | .layout _ => if r.opcode = 0x53 then [(223, 132)] else if r.opcode = 0x54 then [(131, 112)] else []
  | _ => []

/-- The counts of a DME record that a tile's spoilt operands can move (sp. 04 R118): those of its table entries only where these are
spoilt themselves, SPARSE_PANELS and ZERO_GROUPS only where they are counted. -/
def dmeMoves (u : UnitId) (r : Running) (k : Nat) : Bool :=
  let d := parseDme r.opcode.toNat r.desc
  if k < 2 then anyMeets ((d.tiles.map (d.tableWords (unitDie u).val)).flatten) (spoilt r)
  else if k = 5 then decide (d.panel ≠ 0) else if k = 6 then d.zero else true

/-- The counts of a DME cue's tiles, nothing for one whose count is undefined. -/
def dmeColumn (u : UnitId) (r : Running) (k : Nat) : List Nat :=
  (numbered r.tiles).map (fun t => if (spoiltParts r).contains (t.1 + 1) && dmeMoves u r k then 0 else t.2.2.getD k 0)

/-- What the tiles of undefined counts add: a free value. -/
def dmeFree (u : UnitId) (r : Running) (k free : Nat) : Nat := if !(spoiltParts r).isEmpty && dmeMoves u r k then free else 0

/-- The record of a DME cue from the counts of its tiles. -/
def dmeTotals (u : UnitId) (r : Running) (p : List Byte) (s : State) : List Byte × State :=
  let f := drawBytes 28 s
  let n (k : Nat) : Nat := (dmeColumn u r k).sum + dmeFree u r k (leAt f.1 (4 * k) 4)
  (dmeRecord (bits (ofLE p) 255 236) (n 0) (n 1) (n 2) (n 3) (n 4) (n 5) (n 6) (bits (ofLE p) 35 32), f.2)

/-- The record of a cue as it lands. -/
def landRecord (u : UnitId) (r : Running) (p : List Byte) (s : State) : List Byte × State :=
  match u with
  | .array _ => if r.halted || (spoiltParts r).isEmpty then (p, s) else dmeTotals u r p s
  | _ => freeBits (spoiltBits u r) p s

/-- The writes of a cue as they become visible, its record last: those of a row with a parity detection, and those made from what another
party wrote or a fence took, are undefined (sp. 04 R119, sp. 06 R184, sp. 08 R248); so are the rows that such bytes may have chosen. -/
def landed (s : State) (u : UnitId) (r : Running) (parts : List Nat) : List (Nat × List Byte) × State :=
  let x := landWrites u r (fun i => parts.contains (r.due.getD i 0)) (numbered r.writes) s
  let y := drawRanges (chosenRows u r) x.2
  let p := landRecord u r r.record y.2
  (x.1 ++ y.1 ++ [(r.recAt, p.1)], p.2)

/-! ## The hand-off slots of a DME array (sp. 04 R99) -/

/-- Bytes of a slot undefined; a slot holds a tile's accumulators row by row, four bytes each (DESIGN CHOICE, log 85). -/
def drawSlot (width : Nat) (l : List Nat) (a : Array (Array Nat)) (s : State) : Array (Array Nat) × State :=
  l.foldl (fun x p =>
    let f := drawBytes 1 x.2
    let lo := 8 * (p % 4)
    (x.1.modify (p / 4 / width) (fun row => row.modify (p / 4 % width) (fun c => setBits c (lo + 7) lo (ofLE f.1))), f.2)) (a, s)

/-- The bytes of a slot that a detection names. -/
def slotBytes (x : Detect) : List Nat :=
  ((List.range 64).filter (fun j => x.mask.getLsbD j)).map (fun j => (x.addr.toNat + j) % 0x10000)

/-- A tile leaves the hand-off with a detection in its slot: it is written as it stands, converted from the bytes that the slot holds,
those of the detection undefined (sp. 04 R99); so are its counts and its part of an activity map. -/
def damageTile (x : Running × State) (p : Detect) : Running × State :=
  let r := x.1
  let d := parseDme r.opcode.toNat r.desc
  match d.tiles[p.part - 1]?, r.slots[p.part - 1]? with
  | some t, some a =>
    let c := drawSlot d.w (slotBytes p) a x.2
    let o := d.tileOut c.2 t c.1
    let m := d.mapPart t (positiveRows c.1)
    let new := o.1 ++ (if r.opcode = 0x13 then [(r.recAt + 32 + m.1, m.2)] else [])
    let mine (i : Nat) : Bool := r.due.getD i 0 = p.part || r.due.getD i 0 = d.count + 1
    ({ r with slots := r.slots.set (p.part - 1) c.1,
              writes := (numbered r.writes).map (fun y =>
                if mine y.1 then (new.find? (fun z => z.1 = y.2.1)).getD y.2 else y.2),
              tiles := (numbered r.tiles).map (fun y =>
                if y.1 + 1 = p.part then (y.2.1, y.2.2.take 2 ++ o.2 ++ y.2.2.drop 5) else y.2) }, c.2)
  | _, _ => x

/-- The work of an array after the detections in its slots. -/
def damaged (u : UnitId) (r : Running) (l : List Detect) (s : State) : Running × State :=
  match u with
  | .array _ =>
    if l.isEmpty then (r, s) else
    let x := l.foldl damageTile (r, s)
    let n (k : Nat) : Nat := (x.1.tiles.map (fun t => t.2.getD k 0)).sum
    let w := ofLE r.record
    ({ x.1 with record := dmeRecord (bits w 255 236) (n 0) (n 1) (n 2) (n 3) (n 4) (n 5) (n 6) (bits w 35 32) }, x.2)
  | _ => (r, s)

/-- The predictor counts of a cue: those of a tile with spoilt operands are undefined, each of the four row groups skipped, audited and a
miss or not (sp. 05 R150, R151). -/
def landPreds (r : Running) (s : State) : List PredDelta × State :=
  (numbered r.preds).foldl (fun x p =>
    if (spoiltParts r).contains (p.1 + 1) then
      let a := drawUpTo 4 x.2
      let b := drawUpTo 4 a.2
      let c := drawUpTo 4 b.2
      let m := drawBytes 8 c.2
      (x.1 ++ [{ p.2 with skipped := a.1, audited := b.1, misses := c.1, mass := ofLE m.1 }], m.2)
    else (x.1 ++ [p.2], x.2)) ([], s)

/-! ## Starting work -/

/-- A unit begins work in cycle `c`: its reads are counted, its errors recorded, and a halted one writes what stands and its record at
once (sp. 04 R121, sp. 06 R182); that all of this is seen in its start cycle is a DESIGN CHOICE (log 101). It meets the cues that other
units run: what it reads of their results to come, and what it writes of what they read or write, is undefined (sp. 04 R119, sp. 06 R184,
sp. 07 R211). -/
def beginWork (s : State) (u : UnitId) (op cue firedAt c : Nat) (sig : Option (Nat × Nat)) (win : Option Nat) (desc : List Byte)
    (w : Work) : State :=
  let who := whoUnit u cue
  let key := unitKey u
  let r0 : Running :=
    { cue := cue, opcode := BitVec.ofNat 8 op, firedAt := firedAt, startedAt := c, cycles := w.cycles, writes := w.writes, due := w.due,
      recAt := w.recAt, record := readStatus s u w, signal := sig, preds := w.preds, halted := w.halted, window := win, moves := [],
      port := none, send := { SendSt.zero with hits := fencedReads s w.reads }, desc := desc, reads := w.reads,
      dest := rangesOf w.writes ++ [(w.recAt, 32)], needs := w.needs, ctl := w.ctl, span := w.span, raced := [], clash := [], fenced := [],
      chances := w.chances, tiles := w.tiles, slots := w.slots, queued := false }
  let s1 := raiseAll (readCounts s (mergeBlocks w.reads)) (readEvents who s (mergeBlocks w.reads) ++ w.events)
  let j := joinRun s1 key r0
  let t := match u with
    | .layout d => if opsOf d.val r0 = 0 then j else takeStream j.1 u j.2
    | _ => j
  let x := landed t.1 u t.2 []
  let s3 := if w.halted then storeFree (writeAll who x.2 x.1) t.2.clash else t.1
  let r := if w.halted then { t.2 with writes := [], due := [], reads := [], dest := [] } else t.2
  let v := unit s3 u
  setUnit s3 u { v with running := some r, tail := (match v.running with
                                                    | none => v.tail
                                                    | some x => v.tail ++ [x]) }

/-- The slot that a cue's metadata names, if it is a consumer. -/
def slotNamed (s : State) (u : UnitId) (op : Nat) (desc : List Byte) : List Nat :=
  match u with
  | .array a =>
    let m := (metaOf s a.die.val (parseDme op desc)).1
    if m.consumer then [m.slot] else []
  | _ => []

/-- Slots named in the step (sp. 05 R155). -/
def nameSlots (s : State) (l : List Nat) : State :=
  { s with step := { s.step with slotsNamed := s.step.slotsNamed ++ l.filter (fun k => !s.step.slotsNamed.contains k) } }

/-- The pending cue leaves its place: it has started in cycle `c`. Its start is traced and its signal on start acts (sp. 02 Table 2-4,
sp. 14 R404). -/
def leavePending (s : State) (u : UnitId) (p : Pending) (c : Nat) : State :=
  let s1 := setUnit s u { unit s u with pending := none }
  let s2 := traceAt s1 c 4 (dieplace (unitDie u)) (unitKind u) (unitInst u) p.cue (c - p.firedAt) 0
  signalOpt s2 (unitDie u) c (startSignal p.raw)

/-! A cue takes the open or closed state of every tenant, and the fences, as they stand in its start cycle (sp. 06 R173, sp. 09 R287); its
start may be told of in a later cycle. -/

/-- The fences of tenants that left OPEN after cycle `c`. -/
def laterFences (s : State) (c : Nat) : List Fence :=
  s.mem.fences.filter (fun f => decide (c < (Sparse.get noTenant s.tenants f.tenant).closedAt))

/-- The state without them. -/
def beforeLater (s : State) (c : Nat) : State :=
  { s with mem := { s.mem with fences := s.mem.fences.filter (fun f => !(laterFences s c).contains f) } }

/-- The state as a cue that starts in cycle `c` takes it. -/
def asOf (s : State) (c : Nat) : State := { beforeLater s c with now := c }

/-- The later fences come back, begun while the unit's cue runs. -/
def underLater (s : State) (u : UnitId) (l : List Fence) : State :=
  if l.isEmpty then s else
  let v := unit s u
  setUnit { s with mem := { s.mem with fences := s.mem.fences ++ l } } u { v with running := v.running.map (fenceHit l) }

/-- A compute unit's pending cue starts (sp. 02 R45); nothing happens when none may. -/
def startUnit (s : State) (u : UnitId) (op : Nat) : State :=
  let t := readyAt s u
  match startable t u op with
  | none => s
  | some (p, c) =>
    let desc := (sheet t).desc (cDesc p.raw) (descSize u)
    let w := workOf (asOf t c) u op p.cue desc false
    let s1 := nameSlots (leavePending t u p c) (slotNamed t u op desc)
    underLater (beginWork (beforeLater s1 c) u op p.cue p.firedAt c (doneSignal p.raw) none desc w) u (laterFences s1 c)

/-! ## Completing -/

/-- The counts of several tiles of one consumer. -/
def sumPreds : List PredDelta → Option PredDelta
  | [] => none
  | p :: r =>
    match sumPreds r with
    | none => some p
    | some q => some { p with skipped := p.skipped + q.skipped, audited := p.audited + q.audited, misses := p.misses + q.misses,
                              mass := p.mass + q.mass }

/-- The counts of a consumer that completes in cycle `c` enter its slot (sp. 05 R152); a slot beyond a limit turns, with one PRED_MISS
alarm (R153). -/
def addPred (d : Die) (u : UnitId) (cue c : Nat) (s : State) (p : PredDelta) : State :=
  let o := Sparse.get noPred s.stage.preds p.slot
  let n : Pred :=
    { o with skipped := BitVec.ofNat 32 (stopAt top32 (o.skipped.toNat + p.skipped)),
             audited := BitVec.ofNat 32 (stopAt top32 (o.audited.toNat + p.audited)),
             misses := BitVec.ofNat 32 (stopAt top32 (o.misses.toNat + p.misses)),
             mass := BitVec.ofNat 64 (stopAt top64 (o.mass.toNat + p.mass)), consumers := o.consumers + 1, doneAt := o.doneAt ++ [c] }
  let turns := !o.turned && decide (p.missLimit < n.misses.toNat ∨ p.massLimit < n.mass.toNat)
  let s1 := { s with stage := { s.stage with preds := Sparse.set noPred s.stage.preds p.slot { n with turned := o.turned || turns } } }
  if turns then
    raise s1 { kind := 0x0A, place := dieplace d, unit := unitKind u, inst := unitInst u, cue := cue, d0 := p.slot,
               d1 := n.misses.toNat, alarm := .every }
  else s1

/-- The last completion of the step, in cycle `c`, and of the windows that the unit's command belongs to (sp. 02 R62, R63). -/
def noteDone (s : State) (win : Option Nat) (d : Die) (c : Nat) : State :=
  { s with step := { s.step with lastDone := max s.step.lastDone c },
           stage := { s.stage with windows := s.stage.windows.map (fun x =>
             if win = some x.cue ∧ x.die = d then { x with lastDone := max x.lastDone c } else x) } }

/-- The parity detections in a unit's buffers (sp. 04 R99, sp. 06 R181): one event each, with the row or address and the byte mask. A
DME array has two hand-off slots of 64 KiB, which its tiles take in turn: DETAIL0 is the byte's place in the two, slot 0 first (DESIGN
CHOICE, log 85). -/
def parityEvents (u : UnitId) (cue : Nat) (l : List Detect) : List Event :=
  l.map (fun x => cueEvent u cue 0x06 (match u with
                                       | .array _ => (x.part - 1) % 2 * 0x10000 + x.addr.toNat % 0x10000
                                       | _ => x.addr.toNat) x.mask.toNat .first)

/-- The cycles from the end of the busy count to completion (sp. 08 R227, R239). -/
def tailOf : UnitId → Nat
  | .vector _ _ => 12
  | .optimizer _ => 24
  | _ => 0

/-- The cycle in which a cue or command completes (sp. 04 R117, sp. 06 R180, sp. 08 R227, R239, sp. 09 R285). -/
def completionAt (u : UnitId) (r : Running) (l : List Stall) : Nat := r.startedAt + 4 + r.cycles + tailOf u + (l.map (·.cycles)).sum

/-- The unit without the cue that completes in cycle `c`: the oldest of its tail, or the one it runs; it is free from the next cycle
(sp. 04 R117), a Vector Unit or the Optimizer Engine since its busy count was over (sp. 08 R227). -/
def finished (u : UnitId) (v : UnitSt) (c : Nat) : UnitSt :=
  match v.tail with
  | _ :: l => { v with tail := l }
  | [] => { v with running := none, freeAt := (match u with
                                               | .vector _ _ => c - 12
                                               | .optimizer _ => c - 24
                                               | _ => c + 1) }

/-- The cue that completes next. -/
def oldest (v : UnitSt) : Option Running :=
  match v.tail with
  | x :: _ => some x
  | [] => v.running

/-- An access of a cue that began before fences: they hold for it whatever has become of them (sp. 09 R287, R291). -/
def underFences (s : State) (l : List Fence) (f : State → State) : State :=
  if l.isEmpty then f s else
  let t := f { s with mem := { s.mem with fences := s.mem.fences ++ l.filter (fun x => !s.mem.fences.contains x) } }
  { t with mem := { t.mem with fences := s.mem.fences } }

/-- FENCE_HITS of a layout-engine record: those of its reads and of its writes as they land (sp. 09 R286, R288), and of the transactions
that fences began to take while it ran, a number that no rule fixes. -/
def layoutHits (s : State) (u : UnitId) (r : Running) (p : List Byte) : List Byte × State :=
  match u with
  | .layout _ =>
    let w := mergeBlocks (rangesOf r.writes)
    let new := takenBy r.fenced w
    let k := if r.fenced.isEmpty then (0, s) else drawUpTo (new ++ takenBy r.fenced (mergeBlocks r.reads)).length s
    let old := (w.filter (fun q => pieceFenced s q && !new.contains q)).length
    (toLE 32 (setBits (ofLE p) 111 80 (stopAt top32 (r.send.hits + old + k.1))), k.2)
  | _ => (p, s)

/-- The stalls of a cue are traced (sp. 04 R98, sp. 06 R180, sp. 14 Table 14-3), each in the cycle in which the cue completes or is
stopped: the manual does not say which cycle of a stall a record names (DESIGN CHOICE, log 98). -/
def traceStalls (s : State) (u : UnitId) (cue c : Nat) (l : List Stall) : State :=
  l.foldl (fun t x => traceAt t c 2 (dieplace (unitDie u)) (unitKind u) (unitInst u) cue x.addr.toNat x.cycles) s

/-- The stalls of a cue end before the next one of its unit has started: a Vector Unit and the Optimizer Engine take the next when the
busy count, stalls included, is over (sp. 08 R227, R239). -/
def stallsFit (u : UnitId) (v : UnitSt) (c : Nat) : Bool :=
  match v.tail with
  | [] => true
  | _ :: l =>
    match l.head?.or v.running with
    | some n => decide (c ≤ n.startedAt + tailOf u)
    | none => true

/-- A kill halts a stream in the middle (sp. 06 R166, R171): the fences took an index word, a list entry, an offset or a tag before it was
read. Which of them comes first is free, and so is whether any does (log 105). -/
def fenceHalt (r : Running) (s : State) : Option Chance × State :=
  let l := r.chances.filter (fun x => anyMeets [x.word] (r.fenced.map (fun f => (f.base, f.len))))
  if l.isEmpty then (none, s) else
  let k := drawUpTo l.length s
  (l[k.1]?, k.2)

/-- A running stream halts at position `h.pos`: what the positions before it wrote stands, rows that later ones reach as well are
undefined, and so are the counts; its record and its error say where it halted, and it stays halted (sp. 06 R182). -/
def haltStream (s : State) (u : UnitId) (r : Running) (h : Chance) (l : List Detect) : State :=
  let acc := [0x22, 0x23, 0x26].contains r.opcode.toNat
  let n := r.writes.length
  let keep (i : Nat) : Bool := r.due.getD i 0 ≤ h.pos || (acc && h.pos ≠ 0)
  let q := toLE 32 (setBits (setBits (setBits (setBits (ofLE r.record) 255 224 h.pos) 31 8 h.pos) 7 4 3) 3 0 h.fault)
  let x := landWrites u r (fun i => decide (h.pos < r.due.getD i 0) || (l.map (·.part)).contains (r.due.getD i 0))
    ((numbered r.writes).filter (fun y => y.1 < n && keep y.1)) s
  let p := freeBits (gmeCounts r.opcode.toNat true) q x.2
  let t := writeWith (whoUnit u r.cue) p.2 (x.1 ++ [(r.recAt, p.1)])
    (cueEvent u r.cue 0x0B (h.fault + 16 * h.pos) h.detail .every :: parityEvents u r.cue l)
  setUnit t u { unit t u with running := some { r with halted := true, writes := [], due := [], reads := [], dest := [] } }

/-- A running cue or command completes (sp. 04 R117, sp. 06 R180, sp. 08 R227, R239, sp. 09 R285): its writes and record become
visible, its counts and its signal act, the unit is free. A halted unit completes nothing; a detection in its buffers is recorded and
marks the step (sp. 06 R184). -/
def completeUnit (s : State) (u : UnitId) (fin : Finish) : State :=
  match oldest (unit s u) with
  | none => s
  | some r =>
    if r.halted then raiseAll s (parityEvents u r.cue fin.parity) else
    let d := unitDie u
    let who := whoUnit u r.cue
    let t := completionAt u r fin.stalls
    if !reaches s t || !streamRuns s u r || !stallsFit u (unit s u) t then s else
    let c := if r.queued then max t s.now else t
    let s0 := traceWait (settle (clockTo s c)) u r
    let g := fenceHalt r s0
    match g.1 with
    | some h => underFences g.2 r.fenced (fun t => traceStalls (haltStream t u r h fin.parity) u r.cue c fin.stalls)
    | none =>
      let y := damaged u r fin.parity g.2
      let h := layoutHits y.2 u y.1 (if fin.parity.isEmpty then y.1.record else withStatus y.1.record (statusAt u) 1)
      let x := landed h.2 u { y.1 with record := h.1 } (match u with
                                                        | .array _ => []
                                                        | _ => fin.parity.map (·.part))
      let s1 := underFences x.2 r.fenced (fun t => storeFree (writeWith who t x.1 (parityEvents u r.cue fin.parity)) r.clash)
      let s2 := blurHits x.2 s1 r.fenced (mergeBlocks r.reads)
      let z := landPreds r s2
      let s3 := (sumPreds z.1).toList.foldl (addPred d u r.cue c) z.2
      let s4 := setUnit s3 u (finished u (unit s3 u) c)
      let s5 := traceStalls s4 u r.cue c fin.stalls
      let s6 := if r.window.isSome then s5 else traceAt s5 c 5 (dieplace d) (unitKind u) (unitInst u) r.cue 0 (c - r.firedAt)
      noteDone (signalOpt s6 d c r.signal) r.window d c

/-! ## The rows of the compute units -/

def execMmFwd (arr : Arr) (s : State) : Result := .next (startUnit s (.array arr) 0x10)
def execMmBwdData (die : Die) (n : Fin 32) (s : State) : Result := .next (startUnit s (.array ⟨die, true, n⟩) 0x11)
def execMmBwdWeight (die : Die) (n : Fin 32) (s : State) : Result := .next (startUnit s (.array ⟨die, true, n⟩) 0x12)
def execMmPredict (die : Die) (n : Fin 16) (s : State) : Result :=
  .next (startUnit s (.array ⟨die, false, ⟨n.val, by omega⟩⟩) 0x13)
def execDmeComplete (arr : Arr) (fin : Finish) (s : State) : Result := .next (completeUnit s (.array arr) fin)

def execGather (die : Die) (n : Fin 8) (s : State) : Result := .next (startUnit s (.gme die n) 0x20)
def execScatter (die : Die) (n : Fin 8) (s : State) : Result := .next (startUnit s (.gme die n) 0x21)
def execScatterAcc (die : Die) (n : Fin 8) (s : State) : Result := .next (startUnit s (.gme die n) 0x22)
def execSegmentReduce (die : Die) (n : Fin 8) (s : State) : Result := .next (startUnit s (.gme die n) 0x23)
def execMerge (die : Die) (n : Fin 8) (s : State) : Result := .next (startUnit s (.gme die n) 0x24)
def execPrefixSum (die : Die) (n : Fin 8) (s : State) : Result := .next (startUnit s (.gme die n) 0x25)
def execHistogram (die : Die) (n : Fin 8) (s : State) : Result := .next (startUnit s (.gme die n) 0x26)
def execTopK (die : Die) (n : Fin 8) (s : State) : Result := .next (startUnit s (.gme die n) 0x27)
def execGmeComplete (die : Die) (n : Fin 8) (fin : Finish) (s : State) : Result := .next (completeUnit s (.gme die n) fin)

def execAct (die : Die) (n : Fin 4) (s : State) : Result := .next (startUnit s (.vector die n) 0x30)
def execActGrad (die : Die) (n : Fin 4) (s : State) : Result := .next (startUnit s (.vector die n) 0x31)
def execActGradOut (die : Die) (n : Fin 4) (s : State) : Result := .next (startUnit s (.vector die n) 0x32)
def execGlu (die : Die) (n : Fin 4) (s : State) : Result := .next (startUnit s (.vector die n) 0x33)
def execGluGrad (die : Die) (n : Fin 4) (s : State) : Result := .next (startUnit s (.vector die n) 0x34)
def execDropout (die : Die) (n : Fin 4) (s : State) : Result := .next (startUnit s (.vector die n) 0x35)
def execAddN (die : Die) (n : Fin 4) (s : State) : Result := .next (startUnit s (.vector die n) 0x36)
def execConvert (die : Die) (n : Fin 4) (s : State) : Result := .next (startUnit s (.vector die n) 0x37)
def execSumsqRow (die : Die) (n : Fin 4) (s : State) : Result := .next (startUnit s (.vector die n) 0x38)
def execScaleRows (die : Die) (n : Fin 4) (s : State) : Result := .next (startUnit s (.vector die n) 0x39)
def execSoftmaxRow (die : Die) (n : Fin 4) (s : State) : Result := .next (startUnit s (.vector die n) 0x3A)
def execClipScale (die : Die) (n : Fin 4) (s : State) : Result := .next (startUnit s (.vector die n) 0x3B)
def execVectorComplete (die : Die) (n : Fin 4) (fin : Finish) (s : State) : Result :=
  .next (completeUnit s (.vector die n) fin)

def execAdamw (die : Die) (s : State) : Result := .next (startUnit s (.optimizer die) 0x40)
def execMomentum (die : Die) (s : State) : Result := .next (startUnit s (.optimizer die) 0x41)
def execSgd (die : Die) (s : State) : Result := .next (startUnit s (.optimizer die) 0x42)
def execOptimizerComplete (die : Die) (fin : Finish) (s : State) : Result := .next (completeUnit s (.optimizer die) fin)

def execPermute (die : Die) (s : State) : Result := .next (startUnit s (.layout die) 0x50)
def execPack (die : Die) (s : State) : Result := .next (startUnit s (.layout die) 0x51)
def execUnpack (die : Die) (s : State) : Result := .next (startUnit s (.layout die) 0x52)
def execEncode (die : Die) (s : State) : Result := .next (startUnit s (.layout die) 0x53)
def execDecode (die : Die) (s : State) : Result := .next (startUnit s (.layout die) 0x54)
def execLayoutComplete (die : Die) (fin : Finish) (s : State) : Result := .next (completeUnit s (.layout die) fin)

end Sys2Proof.Machine
end

