-- ==== Sys2Proof/Machine/Steps.lean ====
section
/-! DEFINITION. The step's own events: start, hold and resume, firing and lateness, the control cues but windows, the tally lane, the
curtain (sp. 02 R44-R51, R57-R62, R493; sp. 13 R385, R387), and the scratch banks' power states (sp. 09 R258-R262). -/

namespace Sys2Proof.Machine

/-! ## Start, hold, resume -/

/-- A FREEZE cue: DMA opcode 0x62 with KIND 0 (sp. 14 Table 14-5). -/
def isFreeze (st : CueStore) (w : BitVec 256) : Bool :=
  cUnit w = 7 && cOp w = 0x62 && bits (ofLE (st.desc (cDesc w) 64)) 326 325 = 0

/-- The cues of every list of a sheet with their die and index, in die and index order. -/
def allCues (st : CueStore) : List (Nat × Nat × BitVec 256) :=
  ([0, 1, 2, 3].map (fun d => (List.range (st.count d)).map (fun i => (d, i, st.cue d i)))).flatten

/-- The sheet's FREEZE descriptors. -/
def freezeDescs (st : CueStore) : List Nat :=
  ((allCues st).filter (fun c => isFreeze st c.2.2)).map (fun c => ofLE (st.desc (cDesc c.2.2) 64))

/-- At the start beat the device decides whether the step freezes (sp. 14 R413): a tier is due, no image is held, the sheet holds
FREEZE cues. The image takes its ID, tier set, and the last committed step's commit mode and hash (R411, R414). -/
def decideFreeze (s : State) : State :=
  match freezeDescs (sheet s) with
  | [] => s
  | d :: _ =>
    if s.secure.due.isEmpty || s.secure.image.isSome then s else
    let i : Image :=
      { id := BitVec.ofNat 64 ((s.cfg.deviceId.getD 0).toNat * 2 ^ 56 + bits s.step.lastCommitted.toNat 55 0),
        sections := bits d 335 327, done := [], commit := s.step.lastMode, hash := s.step.lastHash, tiers := s.secure.due,
        sent1 := 0, sent2 := 0, sent3 := 0 }
    { s with step := { s.step with freezes := true }, secure := { s.secure with image := some i, st := .freezing } }

/-- The curtains fire in the cycle of the hold's boundary, `n` beats back (sp. 13 R392). -/
def curtainsMeet (s : State) (n : Nat) : Bool := cPos (lastCue (sheet s) 0) = 4096 * (s.step.relBeat - n)

/-- An accepted hold reaches beat G (sp. 02 R58): at that boundary the counter stops; the final reply names G. Where the curtains fall due
together with it, the curtain ends the step (sp. 13 R392); so it does where all of them are up (DEDUCED, log 41). -/
def execHoldTakesEffect (s : State) : Result :=
  match s.step.hold, holdEdge s with
  | some (g, o), some b =>
    let n := (beatNow s - g).toNat
    if s.step.phase = .running ∧ !s.step.stopped then
      if curtainUp s ∨ curtainsMeet s n then .next (finish { s with step := { s.step with hold := none } } o stNoStep [])
      else
        .next (finish { s with step := { s.step with phase := .held, hold := none, holdAt := b, relBeat := s.step.relBeat - n } } o
          stOk (toLE 6 g.toNat))
    else .next s
  | _, _ => .next s

/-- SLACK does not advance in a hold (sp. 02 R59): the pending cues fired `n` cycles later, and none starts before `c`, the cycle in
which the counter goes on. -/
def shiftPending (s : State) (n c : Nat) : State :=
  let shift (p : Pending) : Pending := { p with firedAt := p.firedAt + n, metAt := p.metAt.map (max c) }
  let us := s.stage.units.map (fun e => (e.1, { e.2 with pending := e.2.pending.map shift }))
  { s with stage := { s.stage with units := us } }

/-- The resume beat begins: the step-relative counter continues from where it stopped, cycle 0 of its beat (sp. 02 R60). -/
def execResumeBeat (s : State) : Result :=
  match s.step.resume with
  | some r =>
    if s.step.phase = .held ∧ beatNow s = r ∧ s.cycle = 0 ∧ beatRuns s ∧ !s.step.stopped ∧ !inHold s then
      .next (shiftPending { s with step := { s.step with phase := .running, resume := none } } (s.now - s.step.holdAt) s.now)
    else .next s
  | none => .next s

/-! ## Firing and lateness -/

/-- A late cue (sp. 02 R46, R47), of cycle `c`: recorded, counted; firing stops from the next cycle. -/
def lateCue (s : State) (u : UnitId) (cue cause d1 c : Nat) : State :=
  let s1 := raise s (cueEvent u cue 0x03 cause d1 .every)
  stopFiring { s1 with step := { s1.step with lateCues := s1.step.lateCues + 1 } } 1 true (c + 1)

/-- The unit that a cue of the sheet goes to: a bank cue's descriptor names its bank (sp. 09 Table 9-5). -/
def targetOf (st : CueStore) (w : BitVec 256) : UnitId := cueUnit w (bits (ofLE (st.desc (cDesc w) 8)) 5 0)

/-- A DMA cue that fires enters its channel's shadow set (sp. 10 R300). -/
def loadShadow (s : State) (u : UnitId) (desc : Nat) : State :=
  match u with
  | .channel d n => setChan s d n { chan s d n with shdDesc := BitVec.ofNat 512 desc }
  | _ => s

/-- The cycle of a position in the present beat of the step (sp. 02 R44). -/
def positionAt (s : State) (cycle : Nat) : Nat := s.now + cycle - s.cycle.toNat

/-- A die's stage manager fires its next cue, in list order, when the step-relative position reaches it (sp. 02 R44); a cue that
finds the pending place taken is late at once (R46). Whether it does in the very cycle in which the pending cue starts, the order of the
commands says: the manual leaves it open (DESIGN CHOICE, log 96). In a hold of cause power or thermal no die fires (sp. 15
R439); in one of cause supply a die does until its own monitor or the freeze signal stops it (R437). -/
def execCueFire (die : Die) (s : State) : Result :=
  let k := Sparse.get (fun _ => 0) s.step.next die.val
  let w := (sheet s).cue die.val k
  let f := positionAt s (cCycle w)
  if canStart s die f && !s.guard.holdPower && !s.guard.holdThermal && decide (k < (sheet s).count die.val) && decide (cBeat w = s.step.relBeat) then
    let s1 := settle (clockTo s f)
    let s2 := { s1 with step := { s1.step with next := Sparse.set (fun _ => 0) s1.step.next die.val (k + 1) } }
    let u := targetOf (sheet s2) w
    match (unit s2 u).pending with
    | some _ => .next (lateCue s2 u k 2 0 f)
    | none => .next (setUnit (loadShadow s2 u (leAt ((sheet s2).desc (cDesc w) 64) 0 64)) u
        { unit s2 u with pending := some { cue := k, raw := w, firedAt := f, metAt := metFrom s2 die w f (freeSince (unitKey u) (unit s2 u)) } })
  else .next s

/-- Why a pending cue has not started by cycle `e`, p + SLACK (sp. 02 R47): 1 its tally, or the predecessors of its predictor slot (sp.
05 R152); 2 its unit only. -/
def lateCause (s : State) (u : UnitId) (p : Pending) (e : Nat) : Nat :=
  let in_ (o : Option Nat) : Bool := o.any (fun c => decide (c ≤ e))
  if in_ p.metAt && in_ (priorSince s u (cOp p.raw) ((sheet s).desc (cDesc p.raw) (descSize u))) then 2 else 1

/-- A pending cue has not started by p + SLACK (sp. 02 R46, R47). A cue that can still start is not late. -/
def execCueLate (u : UnitId) (s : State) : Result :=
  match pendingOf s u with
  | none => .next s
  | some p0 =>
    let e := p0.firedAt + cSlack p0.raw
    if !reaches s e then .next s else
    let t := settle (clockTo s e)
    match pendingOf t u with
    | none => .next s
    | some p =>
      if !canStart t (unitDie u) e || (startCycle t u p).any (fun c => decide (c ≤ e)) then .next s
      else
        let i := cWaitTally p.raw
        let d1 := if lateCause t u p e = 1 ∧ cWaitEn p.raw then i * 2 ^ 32 + waitValue t (unitDie u) i else 0
        .next (lateCue (setUnit t u { unit t u with pending := none }) u p.cue (lateCause t u p e) d1 e)

/-! ## Tallies and control cues -/

/-- The dies that traffic between two dies crosses, ends included (sp. 01 R17, Table 1-2): places 0-3 are the compute dies, 4 and 5 the
I/O dies. Dies that share an edge reach each other over it alone. -/
def route (a b : Nat) : List Nat :=
  let back (p q m : Nat) : Option (List Nat) := if a = p ∧ b = q then some [p, m, q] else if a = q ∧ b = p then some [q, m, p] else none
  if a = b then [a]
  else if a = 0 ∧ b = 3 then [0, 1, 3] else if a = 3 ∧ b = 0 then [3, 2, 0]
  else if a = 1 ∧ b = 2 then [1, 0, 2] else if a = 2 ∧ b = 1 then [2, 3, 1]
  else if a = 4 ∧ b = 5 then [4, 0, 1, 5] else if a = 5 ∧ b = 4 then [5, 1, 0, 4]
  else ((back 4 1 0).orElse (fun _ => (back 4 3 2).orElse (fun _ => (back 5 0 1).orElse (fun _ => back 5 2 3)))).getD [a, b]

/-- The bridge edges that a route crosses, each with its direction. -/
def edgesOf (a b : Nat) : List (Nat × Nat) := (route a b).zip (route a b).tail

/-- The hops between two dies. -/
def hops (a b : Nat) : Nat := (edgesOf a b).length

/-- A message of the tally lane arrives in cycle `c` (sp. 02 R51). -/
def laneArrive (s : State) (m : LaneMsg) (c : Nat) : State :=
  if m.copy then
    let k := copyKey m.dest m.tally
    let s1 := keepBefore s (16384 + k) (Sparse.get noTally s.stage.copies k).toNat c
    noteWaits { s1 with stage := { s1.stage with copies := Sparse.set noTally s1.stage.copies k m.value } } m.dest m.tally c
  else applyTallyAt s m.tally m.value.toNat c

/-- A tally message arrives, 40 cycles per hop of its route after it is sent or later (sp. 02 R51). `pos` counts from the oldest in
flight; messages from one sender to one destination arrive in the order sent. A flow that waits for a stream has none in flight (sp. 09 R275). -/
def execTallyLaneMessage (pos : Nat) (s : State) : Result :=
  match s.stage.lane[pos]? with
  | none => .next s
  | some m =>
    if (s.stage.lane.take pos).any (fun x => x.origin = m.origin && x.dest = m.dest) ||
        !reaches s (m.sentAt + 40 * hops m.origin.val m.dest.val) || (m.queued && !placeFor s m.origin.val 0) then .next s
    else
      let c := m.sentAt + 40 * hops m.origin.val m.dest.val
      let t := clockTo s c
      .next (laneArrive { t with stage := { t.stage with lane := t.stage.lane.eraseIdx pos } } m (max c s.now))

/-- A control cue but WINDOW_OPEN: it starts in cycle c, acts in cycle c + 4 with `act` on its cue number and 8-byte descriptor, and
completes then (sp. 02 R45). The stage manager takes cues without a pause: several may start and act in one cycle, as R49 has it (DEDUCED,
log 107). That the completion is none of the operations which a drain waits for, the curtain's own neither, is a DESIGN CHOICE (log 97). -/
def runControl (s : State) (d : Die) (op : Nat) (act : State → Nat → Nat → Nat → State) : State :=
  let u := UnitId.control d
  let t := readyAt s u
  match startable t u op with
  | none => s
  | some (p, c) =>
    if !reaches t (c + 4) then s else
    let s1 := settle (clockTo (leavePending t u p c) (c + 4))
    let s2 := act s1 p.cue (ofLE ((sheet t).desc (cDesc p.raw) 8)) c
    let s3 := setUnit s2 u { unit s2 u with freeAt := c }
    let s4 := traceAt s3 (c + 4) 5 (dieplace d) 0 0 p.cue 0 (c + 4 - p.firedAt)
    signalOpt s4 d (c + 4) (doneSignal p.raw)

def execTallySet (die : Die) (s : State) : Result :=
  .next (runControl s die 4 (fun s cue d c => setTally s (bits d 45 32) (bits d 31 0) cue (c + 4)))

def execMark (die : Die) (s : State) : Result :=
  .next (runControl s die 7 (fun s cue d c => traceAt s (c + 4) 1 (dieplace die) 0 0 cue d 0))

/-- A LEND (sp. 02 R57): its span counts from the start of the cue. -/
def execLend (die : Die) (s : State) : Result :=
  .next (runControl s die 3 (fun s cue d c =>
    { s with stage := { s.stage with lends := s.stage.lends ++
        [{ die := die, cue := cue, mask := BitVec.ofNat 32 (bits d 63 32), span := bits d 23 0, startedAt := c }] } }))

/-- The span of a lend ends, SPAN cycles after its start (sp. 02 R57). -/
def execLendEnd (die : Die) (cue : Nat) (s : State) : Result :=
  match s.stage.lends.find? (fun l => l.die = die && l.cue = cue) with
  | none => .next s
  | some l =>
    if !reaches s (l.startedAt + l.span) then .next s else
    let t := clockTo s (l.startedAt + l.span)
    .next { t with stage := { t.stage with lends := t.stage.lends.filter (fun l => !(l.die = die && l.cue = cue)) } }

/-- A curtain cue starts (sp. 02 R62); the last of the four starts in cycle L. -/
def execCurtain (die : Die) (s : State) : Result :=
  .next (runControl s die 2 (fun s _ _ c =>
    if s.step.curtains.contains die then s
    else { s with step := { s.step with curtains := die :: s.step.curtains, curtainAt := max s.step.curtainAt c } }))

/-! ## The end -/

/-- The drain expires in cycle L + DRAIN with work still running (sp. 02 R62). -/
def execCurtainDrain (s : State) : Result :=
  if s.step.phase = .running ∧ curtainUp s ∧ !s.step.stopped ∧ reaches s (s.step.curtainAt + drainOf s) then
    let t := clockTo s (s.step.curtainAt + drainOf s)
    if workDone t && inTime t then .next s else .next (stopFiring t 3 true t.now)
  else .next s

/-! ## Bank power (sp. 09 R258-R262) -/

/-- The key of a bank. -/
def bankKey (d : Die) (n : Fin 64) : Nat := 64 * d.val + n.val

/-- A bank cue completes in cycle `c` (sp. 09 R260, R262). -/
def bankDone (s : State) (u : UnitId) (r : Running) (c : Nat) : State :=
  let d := unitDie u
  let s1 := setUnit s u (finished u (unit s u) c)
  noteDone (signalOpt (traceAt s1 c 5 (dieplace d) 0 0 r.cue 0 (c - r.firedAt)) d c r.signal) none d c

/-- A bank cue starts on its bank's power controller and acts in cycle a = s + 4 (sp. 02 R45): it completes there when `idle`; else
`act` sends the bank on its way. -/
def runBank (s : State) (d : Die) (n : Fin 64) (op : Nat) (idle : Bank → Bool) (act : Bank → Nat → Nat → Nat → Bank) : State :=
  let u := UnitId.bank d n
  let t := readyAt s u
  match startable t u op with
  | none => s
  | some (p, c) =>
    if !reaches t (c + 4) then s else
    let r : Running :=
      { cue := p.cue, opcode := BitVec.ofNat 8 op, firedAt := p.firedAt, startedAt := c, cycles := 0, writes := [], due := [],
        recAt := 0, record := [], signal := doneSignal p.raw, preds := [], halted := false, window := none, moves := [],
        port := none, send := SendSt.zero, desc := [], reads := [], dest := [], needs := [], ctl := [],
        span := [], raced := [], clash := [], fenced := [], chances := [], tiles := [], slots := [], queued := false }
    let s1 := settle (clockTo (leavePending t u p c) (c + 4))
    let b := bank s1 (bankKey d n)
    if idle b then bankDone s1 u r (c + 4)
    else
      let s2 := setUnit s1 u { unit s1 u with running := some r }
      setBank s2 (bankKey d n) (act b (ofLE ((sheet t).desc (cDesc p.raw) 8)) p.cue (c + 4))

/-- The bank's contents go: every byte zero with a correct code (sp. 09 Table 9-4, R262); nothing reads them before. -/
def wipeBank (s : State) (k : Nat) : State :=
  let a := scratchBase + k * 0x400000
  { s with mem := { s.mem with bytes := Sparse.clear s.mem.bytes a 0x400000,
                               upsets := s.mem.upsets.filter (fun u => !(a ≤ u.addr && u.addr < a + 0x400000)) } }

/-- BANK_DOWN acts: GATED; already RETAIN or OFF: no effect (sp. 09 R260, R262). -/
def execBankDown (die : Die) (bank : Fin 64) (s : State) : Result :=
  .next (runBank s die bank 5 (fun b => b.state ≠ .on) (fun b d cue now =>
    { b with state := .gated, target := some (if bit d 6 then .off else .retain), cue := cue, draining := true, since := now }))

/-- The drain ends in the first cycle from the gate on at whose end the write queue is empty and no read is in flight (sp. 09 R260). -/
def execBankDrainEnd (die : Die) (bank : Fin 64) (s : State) : Result :=
  let k := bankKey die bank
  let b := Machine.bank s k
  if b.state = .gated ∧ b.draining ∧ reaches s (drainEnd s k b.since) then
    let d := drainEnd s k b.since
    let t := clockTo s d
    .next (setBank { t with mem := { t.mem with queues := Sparse.set noQueue t.mem.queues k (noQueue k) } } k
      { b with draining := false, since := d })
  else .next s

/-- The bank's cue completes in cycle `c`: the running cue of its controller. -/
def bankCueDone (s : State) (d : Die) (n : Fin 64) (c : Nat) : State :=
  match (unit s (.bank d n)).running with
  | none => s
  | some r => bankDone s (.bank d n) r c

/-- The bank is in the state MODE names at the end of cycle d + 32 (sp. 09 R260). -/
def execBankDownComplete (die : Die) (bank : Fin 64) (s : State) : Result :=
  let k := bankKey die bank
  let b := Machine.bank s k
  if b.state = .gated ∧ !b.draining ∧ reaches s (b.since + 32) then
    let t := clockTo s (b.since + 32)
    let s1 := setBank t k { b with state := b.target.getD .retain, target := none, since := 0, cue := 0 }
    .next (bankCueDone (if b.target = some .off then wipeBank s1 k else s1) die bank (b.since + 32))
  else .next s

/-- BANK_UP acts: no effect on a bank already ON (sp. 09 R262); `draining` notes that the bank rises from OFF, by way of zeroing. -/
def execBankUp (die : Die) (bank : Fin 64) (s : State) : Result :=
  .next (runBank s die bank 6 (fun b => b.state = .on) (fun b _ cue now =>
    { b with state := .rising, target := some .on, cue := cue, draining := decide (b.state = .off), since := now }))

/-- The bank is ON: in cycle a + 63 from RETAIN, a + 16,447 from OFF (sp. 09 R262). -/
def execBankUpComplete (die : Die) (bank : Fin 64) (s : State) : Result :=
  let k := bankKey die bank
  let b := Machine.bank s k
  let c := b.since + (if b.draining then 16447 else 63)
  if b.state = .rising ∧ reaches s c then
    .next (bankCueDone (setBank (clockTo s c) k (noBank k)) die bank c)
  else .next s

end Sys2Proof.Machine
end

