-- ==== Sys2Proof/Machine/Arbiter.lean ====
section
/-! DEFINITION. The arbiters: a slot and its grant, and what a disabled channel withdraws (sp. 10 R308, R313-R315, R321); HBM refresh
(sp. 09 R265). -/

namespace Sys2Proof.Machine

/-- An arbiter at reset: grant counter 0, no lock, no port granted, nothing raised (sp. 10 R321). -/
def noArbiter (_ : Nat) : Arbiter :=
  { slot := 0, grant := 0, owner := none, lockChan := none, lockSeq := 0, left := 0, last0 := none, last1 := none, last2 := none,
    last3 := none, raised := [], present := [], served := none }

/-- The key of an arbiter (sp. 10 Table 10-6). -/
def arbKey : ArbId → Nat
  | .bank d n => 64 * d.val + n.val
  | .hbm d n => 1000 + 192 * d.val + n.val
  | .bridge e l => 2000 + 125 * e.val + l.val
  | .peer p => 5000 + p.val
  | .control .a => 6000
  | .control .b => 6001

/-- One arbiter. -/
def arbiter (s : State) (i : ArbId) : Arbiter := Sparse.get noArbiter s.arbs (arbKey i)

/-! ## A slot -/

/-- The port of a rank last granted. -/
def Arbiter.last (a : Arbiter) (r : Fin 4) : Option Nat :=
  if r = 0 then a.last0 else if r = 1 then a.last1 else if r = 2 then a.last2 else a.last3

/-- It, changed. -/
def Arbiter.setLast (a : Arbiter) (r : Fin 4) (p : Nat) : Arbiter :=
  if r = 0 then { a with last0 := some p } else if r = 1 then { a with last1 := some p }
  else if r = 2 then { a with last2 := some p } else { a with last3 := some p }

/-- The first of a list by a measure; the earlier one of equals. -/
def firstBy (f : Request → Nat) : List Request → Option Request
  | [] => none
  | x :: r =>
    match firstBy f r with
    | none => some x
    | some y => if f y < f x then some y else some x

/-- The slot in which a port's request was first seen as its present one: in which it was raised, or came to the front. -/
def sinceOf (a : Arbiter) (x : Request) : Nat := ((a.present.find? (fun e => e.1 = x.port)).map (·.2)).getD x.since

/-- The reserved grant: the request first seen earliest, ties to the lower port (sp. 10 R314). -/
def reservedPick (a : Arbiter) (l : List Request) : Option Request := firstBy (fun x => sinceOf a x * 64 + x.port) l

/-- The grant by rank: the highest rank seen, in round robin from the port after the one of that rank last granted. -/
def rankPick (a : Arbiter) (l : List Request) : Option Request :=
  match firstBy (fun x => x.rank.val) l with
  | none => none
  | some h =>
    let same := l.filter (fun x => x.rank = h.rank)
    let turn (x : Request) : Nat :=
      match a.last h.rank with
      | none => x.port
      | some q => if q < x.port then x.port else 64 + x.port
    firstBy turn same

/-- The head request of each port. -/
def heads : List Request → List Request
  | [] => []
  | x :: r => x :: (heads r).filter (fun y => y.port ≠ x.port)

/-- What the arbiter sees at the start of a slot (sp. 10 R313): the head of every port; and, when `still`, the port whose last request
the slot before was granted to, as still raised. The mark says that its request is gone. -/
def seenAt (a : Arbiter) (still : Bool) : List (Request × Bool) :=
  let h := heads a.raised
  h.map (fun x => (x, false)) ++
  (match a.served with
   | some (x, _) => if still && !h.any (fun y => y.port = x.port) then [(x, true)] else []
   | none => [])

/-- The request is gone from those raised. -/
def dropFirst (x : Request) : List Request → List Request
  | [] => []
  | y :: r => if y = x then r else y :: dropFirst x r

/-- The owner of a lock with transfers left, seen raised with a transfer of the same sequence: of a channel's descriptor the next one, or
a second source read of the same (sp. 10 R298). -/
def lockOwner (a : Arbiter) (l : List (Request × Bool)) : Option (Request × Bool) :=
  if a.left = 0 then none else
  l.find? (fun x => a.owner = some x.1.port && x.1.chan = a.lockChan &&
    (x.1.chan.isNone || decide (x.1.seq = a.lockSeq ∨ x.1.seq = a.lockSeq + 1)))

/-- The choice of a slot outside a lock. -/
def pickSlot (a : Arbiter) (l : List Request) : Option Request := if (a.grant + 1) % 8 = 0 then reservedPick a l else rankPick a l

/-- The request that the slot goes to, its mark, and whether it goes by lock. -/
def slotGrant (a : Arbiter) (still : Bool) : Option (Request × Bool × Bool) :=
  let l := seenAt a still
  match lockOwner a l with
  | some x => some (x.1, x.2, true)
  | none => (pickSlot a (l.map (·.1))).map (fun x => (x, l.contains (x, true), false))

/-- A port's request is granted: another that it has raised is its present one from the next slot on. -/
def promoted (a : Arbiter) (x : Request) (l : List Request) : List (Nat × Nat) :=
  let r := a.present.filter (fun e => e.1 ≠ x.port)
  if l.any (fun y => y.port = x.port) then (x.port, a.slot + 1) :: r else r

/-- The slot goes to a request (sp. 10 R313, R314): an empty one counts as a grant and begins no lock; one by lock counts none. -/
def grantTo (a : Arbiter) (x : Request) (empty lock : Bool) : Arbiter :=
  let n := min 32 x.lock
  let b := if lock then a else a.setLast x.rank x.port
  let l := dropFirst x a.raised
  let c := { b with raised := l, present := if empty then a.present else promoted a x l,
                    served := if empty then none else some ({ x with since := sinceOf a x }, !lock),
                    grant := if lock && !empty then a.grant else a.grant + 1, lockSeq := x.seq }
  if empty then { c with owner := none, lockChan := none, left := 0 }
  else if lock then
    { c with left := a.left - 1, owner := if a.left = 1 then none else a.owner, lockChan := if a.left = 1 then none else a.lockChan }
  else if n ≤ 1 then { c with owner := none, lockChan := none, left := 0 }
  else { c with owner := some x.port, lockChan := x.chan, left := n - 1 }

/-- One slot is decided: by lock, by reservation, by rank (sp. 10 R314). A port that loses keeps its request (R315). -/
def decideSlot (a : Arbiter) (still : Bool) : Arbiter :=
  let b := match slotGrant a still with
    | none => { a with owner := none, lockChan := none, left := 0, served := none }
    | some (x, empty, lock) => grantTo a x empty lock
  { b with slot := a.slot + 1 }

/-- A channel is disabled: what it raised is withdrawn, its lock ends, and a slot already decided for it stays empty and counts as a grant
(sp. 10 R308, R314, R321). -/
def withdrawAt (k : Nat) (a : Arbiter) : Arbiter :=
  let l := a.raised.filter (fun x => x.chan ≠ some k)
  let moved := (heads l).filter (fun x => !(heads a.raised).contains x)
  let b := { a with raised := l, present := moved.map (fun x => (x.port, a.slot)) ++
                      a.present.filter (fun e => (heads l).any (fun x => x.port = e.1) && !moved.any (fun x => x.port = e.1)) }
  let c := if a.lockChan = some k then { b with owner := none, lockChan := none, left := 0 } else b
  match a.served with
  | some (x, counted) => if x.chan = some k then { c with served := none, grant := if counted then c.grant else c.grant + 1 } else c
  | none => c

/-- It is withdrawn at every arbiter. -/
def withdrawChannel (s : State) (d : Die) (n : Fin 128) : State :=
  { s with arbs := (s.arbs.map (fun e => (e.1, withdrawAt (chanKey d n) e.2))).filter (fun e => decide (e.2 ≠ noArbiter e.1)) }

/-- A refresh is performed and changes nothing that a reader sees (sp. 09 R265). -/
def execHbmRefresh (_ : Fin 12) (s : State) : Result := .next s

end Sys2Proof.Machine
end

