-- ==== Sys2Proof/Machine/Power.lean ====
section
/-! DEFINITION. Input power, rails, start-up, resets, supply, power and thermal holds, and the TAP (sp. 15 R428-R447, R453,
sp. 16 R459-R473, sp. 17 R474-R484). A command that stands for an expiry or a condition of the outside is that expiry; where
the state does not let it happen, nothing changes (log 1). -/

namespace Sys2Proof.Machine

/-- A START_REPORT on the control port (sp. 16 R466). -/
def startReport (s : State) : State :=
  sendReport s 0x07 1 ([s.pwr.startKind, BitVec.ofNat 8 s.pwr.stage] ++ toLE 2 s.pwr.failedStacks.toNat ++ zeros 4 ++
    toLE 8 ((s.ref - s.pwr.goodAt) / 1000))

/-- A stage is entered, with its report (sp. 16 R462, R466). -/
def enterStage (s : State) (n : Nat) : State := startReport { s with pwr := { s.pwr with stage := n } }

/-- Every die but the guard copies resets (sp. 15 R441, sp. 16 Table 16-4): what the table names takes its reset value. The
bytes of HBM and scratch stay as they are until they are zeroed (R464, Table 16-2); nothing can read them before that (log
15). -/
def dieReset (s : State) : State :=
  { s with
    pwr := { s.pwr with stage := 0, released := false, failedStacks := 0, slotsChecked := false, hbmInit := false,
                        resetDue := false },
    guard := { s.guard with agree := true, running := none, svRunning := 0, fwVersion := 0, fwDigest := 0, zero := none,
                            slot0Valid := false, slot1Valid := false },
    nor := { s.nor with slot0 := { s.nor.slot0 with loading := false, chunks := [], commit := none },
                        slot1 := { s.nor.slot1 with loading := false, chunks := [], commit := none } },
    beat := Beat.reset, ctl := { a := KcpSt.reset, b := KcpSt.reset, carrier := none, lost := none, sent := s.ctl.sent }, ses := Session.reset,
    cfg := Cfg.reset, store0 := CueStore.reset, store1 := CueStore.reset, step := StepSt.reset, stage := Stage.reset,
    mem := { Mem.reset with bytes := s.mem.bytes }, tenants := [], dma := [], fwHeld := [], waiting1 := [],
    taking := none, arbs := [], xfers := [], ports := [],
    err := Errors.reset, alarms := { places := [], nextId := 1 },
    trace := { on := false, both := false, ring := [], dropped := [], beatDrops := 0, total := 0 },
    health := Health.reset, secure := { Secure.reset with last2 := s.secure.last2 },
    journal := { entries := [], mirror := s.journal.mirror, toMirror := [], fromMirror := true }, restore := none }

/-- One record of the NOR record area, from the guard's registers. -/
def NorRecords.copy (src : NorRecords) (f : NorField) (dst : NorRecords) : NorRecords :=
  match f with
  | .lifecycle => { dst with lifecycle := src.lifecycle }
  | .counters => { dst with counterOp := src.counterOp, counterMk := src.counterMk }
  | .operatorKey => { dst with operatorPub := src.operatorPub }
  | .deviceCert => { dst with deviceCert := src.deviceCert }
  | .fwMinSv => { dst with fwMinSv := src.fwMinSv }
  | .scrubPending => { dst with scrubPending := src.scrubPending }
  | .zeroising => { dst with zeroising := src.zeroising, zeroAfter := src.zeroAfter }
  | .resetCause => { dst with resetCause := src.resetCause }
  | .fences => { dst with fenced := src.fenced }

/-- The tenants whose STATE is FENCED, with their generations: the fence records of the area. -/
def fencedTenants (m : Sparse Tenant) : List (Nat × BitVec 32) :=
  (m.filter (fun e => decide (e.2.st = .fenced))).map (fun e => (e.1, e.2.generation))

/-- What the record area should hold. -/
def norOf (s : State) : NorRecords :=
  { lifecycle := s.guard.lifecycle, counterOp := s.guard.counterOp, counterMk := s.guard.counterMk,
    operatorPub := s.guard.operatorPub, deviceCert := s.guard.deviceCert, fwMinSv := s.guard.fwMinSv,
    scrubPending := s.guard.scrubPending, zeroising := s.guard.zeroising, zeroAfter := s.guard.zeroAfter,
    resetCause := s.guard.resetCause, fenced := fencedTenants s.tenants }

/-- Records are written, both copies, with a correct CRC (sp. 15 R445, R458). -/
def norWrite (s : State) (fs : List NorField) : State :=
  let r := norOf s
  { s with nor := { s.nor with
      recA := fs.foldl (fun d f => r.copy f d) s.nor.recA, recB := fs.foldl (fun d f => r.copy f d) s.nor.recB,
      badA := s.nor.badA.filter (fun f => !fs.contains f), badB := s.nor.badB.filter (fun f => !fs.contains f),
      laterB := s.nor.laterB.filter (fun f => !fs.contains f) } }

/-- The copy of a record that the guard keeps at power-up (sp. 16 R460): the correct one, the later of two correct ones, or
`worst`. -/
def norPick {α : Type} (n : Nor) (f : NorField) (get : NorRecords → α) (worst : α) : α :=
  match n.badA.contains f, n.badB.contains f with
  | false, false => if n.laterB.contains f then get n.recB else get n.recA
  | false, true => get n.recA
  | true, false => get n.recB
  | true, true => worst

/-- The guard domain at power-up (sp. 15 R428, sp. 16 R460): kept records from flash; LIMITS, PORT_ENABLE, the SUPPLY registers, HOLD and the
TAP at reset. Where the rule names no most protective value of a record with no correct copy, its value is free (log 3). -/
def guardPowerUp (s : State) : State :=
  let n := s.nor
  let lost := [NorField.counters, .operatorKey, .deviceCert, .resetCause].any (fun f => n.badA.contains f && n.badB.contains f)
  let d := if lost then drawBytes 113 s else ([], s)
  let f := d.1
  { d.2 with guard := { s.guard with
      lifecycle := norPick n .lifecycle (·.lifecycle) .scrapped,
      counterOp := norPick n .counters (·.counterOp) (BitVec.ofNat 64 (ofLE (slice f 0 8))),
      counterMk := norPick n .counters (·.counterMk) (BitVec.ofNat 64 (ofLE (slice f 8 8))),
      operatorPub := norPick n .operatorKey (·.operatorPub) (slice f 16 65),
      deviceCert := norPick n .deviceCert (·.deviceCert) [],
      fwMinSv := norPick n .fwMinSv (·.fwMinSv) 0xFFFF,
      scrubPending := norPick n .scrubPending (·.scrubPending) true,
      zeroising := norPick n .zeroising (·.zeroising) true,
      zeroAfter := norPick n .zeroising (·.zeroAfter) none,
      resetCause := norPick n .resetCause (·.resetCause) (slice f 81 32),
      agree := true, bootSlot := false, slot0Valid := false, slot1Valid := false, running := none, zero := none,
      holdSupply := false, holdPower := false, holdThermal := false, holdCause := .none, svRunning := 0,
      supplyVcore := Guard.reset.supplyVcore, supplyVsram := Guard.reset.supplyVsram, supplyVlink := Guard.reset.supplyVlink,
      limits := limitsReset, portEnable := portEnableReset, held := [], powers := [], powerAvg := 0, powerLow := 0, warm := [] }, tap := Tap.reset }

/-- The instruction of a code: what Table 17-6 does not list selects BYPASS (sp. 17 R483). -/
def irOf (c : BitVec 4) : TapIr :=
  match c.toNat with
  | 0x0 => .extest
  | 0x1 => .idcode
  | 0x2 => .samplePreload
  | 0x4 => .highz
  | 0x5 => .clamp
  | _ => .bypass

/-- The code of an instruction. -/
def TapIr.code : TapIr → BitVec 4
  | .extest => 0x0
  | .idcode => 0x1
  | .samplePreload => 0x2
  | .highz => 0x4
  | .clamp => 0x5
  | .bypass => 0xF

/-- The instruction in effect. -/
def Tap.ir (t : Tap) : TapIr := irOf t.code

/-- The TAP keeps the module in GUARD (sp. 17 R484). -/
def tapHolds (s : State) : Bool :=
  match s.tap.ir with
  | .extest | .highz | .clamp => true
  | _ => false

/-- GUARD is left for RAMP when its conditions hold (sp. 16 Table 16-1, sp. 17 R475, R484); VCORE starts first (R461). -/
def tryRamp (s : State) : State :=
  if s.pwr.state = .guard ∧ s.pwr.v54 ∧ s.pwr.pwrEn ∧ !s.pwr.shutLatched ∧ !s.pwr.supplyWait ∧ s.pwr.bulkCharged ∧ !tapHolds s then
    { s with pwr := { s.pwr with state := .ramp, railsUp := 1 } }
  else s

def execInputPowerOn (s : State) : Result :=
  if s.pwr.v54 then .next s else
  .next (guardPowerUp { s with pwr := { s.pwr with state := .guard, v54 := true, bulkCharged := false, shutLatched := false,
                                                     supplyWait := false, railsUp := 0, pwrGood := false, startKind := 1 } })

def execPwrEnAssert (s : State) : Result := .next (tryRamp { s with pwr := { s.pwr with pwrEn := true } })

/-- Sp. 16 R471: firing stops, PWR_GOOD drops, programs are abandoned, the rails fall; the module ends in `t`. -/
def powerRemoval (s : State) (t : PowerState) : State :=
  let r := dieReset s
  { r with pwr := { r.pwr with state := t, railsUp := 0, pwrGood := false, shutLatched := false } }

def execPwrEnDeassert (s : State) : Result :=
  let s1 := { s with pwr := { s.pwr with pwrEn := false } }
  match s.pwr.state with
  | .off => .next s1
  | .guard => .next { s1 with pwr := { s1.pwr with startKind := if s.pwr.startKind = 1 then 1 else 2 } }
  | _ =>
    let r := powerRemoval s1 .guard
    .next { r with pwr := { r.pwr with startKind := 2 } }

def execBulkChargeDone (s : State) : Result :=
  if s.pwr.v54 then .next (tryRamp { s with pwr := { s.pwr with bulkCharged := true } }) else .next s

def execRailRampStep (s : State) : Result :=
  if s.pwr.state = .ramp ∧ s.pwr.railsUp < 4 then .next { s with pwr := { s.pwr with railsUp := s.pwr.railsUp + 1 } } else .next s

def execPwrGood (s : State) : Result :=
  if s.pwr.state = .ramp ∧ s.pwr.railsUp = 4 then
    .next (enterStage { s with pwr := { s.pwr with state := .starting, pwrGood := true, goodAt := s.ref } } 1)
  else .next s

/-- The brownout hold ends with the dies: its exit record (sp. 15 Table 15-8, Table 15-14), kept by the guard copies. -/
def keepRecord (s : State) (kind : Byte) (d0 d1 : Nat) : State :=
  { s with guard := { s.guard with held := s.guard.held ++ [eventRec s (gev s kind d0 d1 .every) true false] } }

/-- The hold closes with an outcome: 2 = reset, 3 = shutdown. -/
def closeHold (s : State) (outcome : Nat) : State :=
  if inHold s then
    let s1 := keepRecord s 0x41 outcome (s.ref - s.guard.holdAt)
    { s1 with guard := { s1.guard with holdSupply := false, holdPower := false, holdThermal := false, holdCause := .none, heldTo := s.ref } }
  else s

/-- A supply reset (sp. 15 R441, R458): the hold records, then RESET_CAUSE; the dies reset, the rails go off, the 10 ms wait
begins (sp. 16 R461). -/
def supplyResetWith (s : State) (d0 d1 : Nat) : State :=
  let s1 := closeHold s 2
  let r := eventRec s1 (gev s1 0x42 d0 d1 .every) true false
  let s2 := keepRecord s1 0x42 d0 d1
  let s3 := norWrite { s2 with guard := { s2.guard with resetCause := r.bytes } } [.resetCause]
  let s4 := dieReset s3
  { s4 with pwr := { s4.pwr with state := .guard, railsUp := 0, pwrGood := false, supplyWait := true, startKind := 3 } }

/-- The main stages are on or ramping. -/
def railsLive (s : State) : Bool :=
  match s.pwr.state with
  | .ramp | .starting | .ready => true
  | _ => false

/-- The dies run: STARTING or READY. -/
def diesOn (s : State) : Bool :=
  match s.pwr.state with
  | .starting | .ready => true
  | _ => false

/-- A rail misses its ramp bound (sp. 16 R461): the one that ramps; of the HBM rails the one named (sp. 15 Table 15-14). -/
def execRampFail (missed : RampMiss) (s : State) : Result :=
  if s.pwr.state = .ramp then
    .next (supplyResetWith s (if s.pwr.railsUp < 4 then s.pwr.railsUp else 4 + 16 * missed.hbm.val) missed.reading)
  else .next s

def execSupplyResetWaitEnd (s : State) : Result :=
  if s.pwr.supplyWait then .next (tryRamp { s with pwr := { s.pwr with supplyWait := false } }) else .next s

def execInputLoss (s : State) : Result :=
  match s.pwr.state with
  | .off => .next { s with pwr := { s.pwr with v54 := false } }
  | _ =>
    let r := powerRemoval s .off
    .next { r with pwr := { r.pwr with v54 := false, bulkCharged := false, supplyWait := false },
                   guard := { r.guard with held := [] } }

/-- Input overvoltage, in every power state in which the guard copies run (sp. 17 R476). SHUT is left by PWR_EN alone (sp. 16 Table 16-1). -/
def execInputOvervoltage (reading : Nat) (s : State) : Result :=
  match s.pwr.state with
  | .off => .next s
  | .shut =>
    let r := supplyResetWith s 5 reading
    .next { r with pwr := { r.pwr with state := .shut } }
  | _ => .next (supplyResetWith s 5 reading)

/-- The HBM rails are up, or ramping as the last (sp. 16 R461). -/
def hbmRailsUp (s : State) : Bool := diesOn s || (s.pwr.state = .ramp && s.pwr.railsUp = 4)

def execHbmRailFault (rail : Fin 3) (reading : Nat) (s : State) : Result :=
  if hbmRailsUp s then .next (supplyResetWith s (4 + 16 * rail.val) reading) else .next s


def execDieRelease (s : State) : Result :=
  if s.pwr.state = .starting ∧ s.pwr.stage = 1 ∧ !s.pwr.released then
    .next { s with pwr := { s.pwr with released := true },
                   mem := { s.mem with bytes := Sparse.clear s.mem.bytes scratchBase (4 * 2 ^ 28), banks := [] } }
  else .next s

/-! ## Firmware slots (sp. 15 R445-R448) -/

/-- An erased byte of the flash. -/
def erased (_ : Nat) : Byte := 0xFF

/-- One firmware slot. -/
def fwSlot (s : State) (k : Bool) : FwSlot := if k then s.nor.slot1 else s.nor.slot0

/-- One firmware slot, changed. -/
def setFwSlot (s : State) (k : Bool) (v : FwSlot) : State :=
  if k then { s with nor := { s.nor with slot1 := v } } else { s with nor := { s.nor with slot0 := v } }

/-- The 112-byte header of a slot. -/
def slotHeader (f : FwSlot) : List Byte := Sparse.bytes erased f.bytes 0 112
/-- The body length field. -/
def slotBodyLen (f : FwSlot) : Nat := leAt (slotHeader f) 12 4
/-- The security version field. -/
def slotSv (f : FwSlot) : Nat := leAt (slotHeader f) 8 2
/-- Major, minor and patch as one number for comparison. -/
def slotVersion (f : FwSlot) : Nat := ofBE (slice (slotHeader f) 4 3)

/-- The first check of sp. 15 R447 that a slot fails: 1 magic, 2 length, 3 digest, 4 signature, 5 version (Table 15-14); 0 =
valid. -/
def slotFault (g : Guard) (f : FwSlot) : Nat :=
  let h := slotHeader f
  let n := slotBodyLen f
  if slice h 0 4 ≠ [0x42#8, 0x56#8, 0x46#8, 0x57#8] then 1
  else if n < 1 ∨ 29999888 < n then 2
  else if sha256Bytes (Sparse.bytes erased f.bytes 112 n) ≠ slice h 16 32 then 3
  else if !ecdsaVerify g.makerPub (sha256 (slice h 0 48)) (slice h 48 64) then 4
  else if slotSv f < g.fwMinSv.toNat then 5
  else 0

/-- Of two valid slots, the higher security version, then the higher version, then slot 0 (sp. 15 R447). -/
def bootChoice (a b : FwSlot) : Bool :=
  decide (slotSv a < slotSv b ∨ (slotSv a = slotSv b ∧ slotVersion a < slotVersion b))

/-- BOOT_SLOT for a slot that failed (sp. 15 R447, Table 15-14). -/
def bootSlotEvent (s : State) (k : Nat) (fault sv : Nat) : State :=
  guardRaise s (gev s 0x47 (k + 16 * fault) sv .every)

/-- NO_FIRMWARE: a terminal stage; the module leaves STARTING for READY (sp. 16 R462). -/
def noFirmware (s : State) : State :=
  enterStage { s with pwr := { s.pwr with state := .ready } } 2

/-- The slot check's results in GUARD_STATUS (sp. 15 R429, R447). -/
def slotResults (s : State) : State :=
  let f0 := slotFault s.guard s.nor.slot0
  let f1 := slotFault s.guard s.nor.slot1
  let pick := if f0 = 0 ∧ f1 = 0 then bootChoice s.nor.slot0 s.nor.slot1 else decide (f0 ≠ 0)
  let ok := decide (f0 = 0 ∨ f1 = 0)
  let b := fwSlot s pick
  let s1 := { s with
    pwr := { s.pwr with slotsChecked := true },
    guard := { s.guard with slot0Valid := f0 = 0, slot1Valid := f1 = 0, bootSlot := (if ok then pick else s.guard.bootSlot),
                            svRunning := (if ok then BitVec.ofNat 16 (slotSv b) else 0) } }
  if ok then s1
  else bootSlotEvent (bootSlotEvent s1 0 f0 (slotSv s.nor.slot0)) 1 f1 (slotSv s.nor.slot1)

/-- A slot is valid. -/
def anySlot (s : State) : Bool := s.guard.slot0Valid || s.guard.slot1Valid

def execSlotCheck (s : State) : Result :=
  if s.pwr.state = .starting ∧ s.pwr.stage = 1 ∧ s.pwr.released ∧ !s.pwr.slotsChecked then
    let s1 := slotResults s
    if s1.guard.zeroising then
      .next (enterStage { s1 with guard := { s1.guard with zero := some { reply := none, counter := 0 } } } 3)
    else if anySlot s1 then .next s1
    else .next (noFirmware s1)
  else .next s

/-- A held record enters, with its own beat and cycle, in the order of occurrence (log 17): sources, FIFO and latch (sp. 16 R469, sp. 15 R441). -/
def enterHeld (s : State) (r : ErrRec) : State :=
  let p := r.place.toNat
  let e : Event := { kind := r.kind, place := Fin.ofNat 6 p, unit := r.unit.toNat, inst := r.inst.toNat, cue := r.cue.toNat,
                     d0 := r.d0.toNat, d1 := r.d1.toNat, alarm := .every }
  let s1 := sourceUpdate s e r
  let s2 := if s1.err.fifo.length < 1024 then
      { s1 with err := { s1.err with fifo := s1.err.fifo ++ [{ r with recno := s1.err.recno }], recno := s1.err.recno + 1 } }
    else { s1 with err := { s1.err with overflow := true, coalesced := stopAt top32 (s1.err.coalesced + 1) } }
  if r.alarm then latchAlarm s2 (Fin.ofNat 6 p : Fin 6).val r else s2

def execFirmwareRunning (s : State) : Result :=
  if s.pwr.state = .starting ∧ (s.pwr.stage = 1 ∨ s.pwr.stage = 3) ∧ s.pwr.slotsChecked ∧ anySlot s ∧ !s.guard.zeroising then
    let f := fwSlot s s.guard.bootSlot
    let h := slotHeader f
    let s1 := { s with guard := { s.guard with running := some s.guard.bootSlot,
                                               fwVersion := BitVec.ofNat 24 (ofBE (slice h 4 3)),
                                               fwDigest := BitVec.ofNat 256 (ofBE (slice h 16 32)), held := [] } }
    .next (enterStage (s.guard.held.foldl enterHeld s1) 4)
  else .next s

def execHbmTrained (failed : BitVec 12) (s : State) : Result :=
  if s.pwr.state = .starting ∧ s.pwr.stage = 4 then
    .next (enterStage { s with pwr := { s.pwr with failedStacks := failed } } (if failed = 0 then 5 else 7))
  else .next s

def execHbmInitDone (s : State) : Result :=
  if s.pwr.state = .starting ∧ s.pwr.stage = 5 ∧ !s.pwr.hbmInit then
    .next { s with pwr := { s.pwr with hbmInit := true }, tenants := [],
                   mem := { s.mem with
                     bytes := Sparse.clear s.mem.bytes 0 hbmEnd,
                     upsets := s.mem.upsets.filter (fun u => decide (hbmEnd ≤ u.addr)), fences := [], waiting := [] } }
  else .next s

def execStartReady (s : State) : Result :=
  if s.pwr.state = .starting ∧ s.pwr.stage = 5 ∧ s.pwr.hbmInit then
    let s1 := { s with journal := { s.journal with entries := s.journal.mirror },
                       guard := { s.guard with scrubPending := false } }
    .next (enterStage (norWrite { s1 with pwr := { s1.pwr with state := .ready } } [.scrubPending, .fences]) 6)
  else .next s

/-- A record of one phase of a zeroisation; the phases lie far apart, so each finds its recorder free (sp. 15 Table 15-14). -/
def zeroiseRecord (s : State) (phase bytes : Nat) : State :=
  guardRaise { s with err := { s.err with busyUntil := [] } } (gev s 0x4D phase bytes .every)

/-- The bytes of open HBM, scratch and the firmware region: 768 GiB + 1 GiB (sp. 01 R21). -/
def zeroBytes2 : Nat := hbmEnd + 4 * 2 ^ 28
/-- The NAND flash: 4 TB (sp. 15 R453). -/
def zeroBytes3 : Nat := 4000000000000
/-- OPERATOR_KEY, the operator counter and the understudy window entry: 32 + 8 + 16 bytes (log 22). -/
def zeroBytes4 : Nat := 56

/-- A cue-sheet store emptied: a verification under way keeps its reply to give, and will find no sheet (sp. 13 R377; log 50). -/
def emptied (c : CueStore) : CueStore := { CueStore.reset with verify := c.verify }

/-- The four phases of zeroisation done (sp. 15 R453). -/
def zeroiseAll (s : State) : State :=
  let s1 := zeroiseRecord { s with tenants := [], mem := { s.mem with fences := [], waiting := [] } } 1 0
  let s2 := zeroiseRecord { s1 with mem := { s1.mem with bytes := [], upsets := [] }, store0 := emptied s1.store0,
                                    store1 := emptied s1.store1, journal := { s1.journal with entries := [], toMirror := [] },
                                    trace := { s1.trace with ring := [] } } 2 zeroBytes2
  let s3 := zeroiseRecord { s2 with nand := { slot0 := { valid := none, bytes := [] }, slot1 := { valid := none, bytes := [] }, next1 := false },
                                    journal := { s2.journal with mirror := [] },
                                    secure := { s2.secure with last2 := 0 } } 3 zeroBytes3
  zeroiseRecord { s3 with guard := { s3.guard with operatorPub := [], counterOp := 0, scrubPending := false },
                          cfg := { s3.cfg with understudy := 0 } } 4 zeroBytes4

/-- The lifecycle changes, recorded (sp. 15 R452, Table 15-14). -/
def lifecycleMove (s : State) (l : Lifecycle) (counter : BitVec 64) : State :=
  if s.guard.lifecycle = l then s else
  let s1 := guardRaise { s with err := { s.err with busyUntil := [] } }
    (gev s 0x48 (l.code + 8 * s.guard.lifecycle.code) counter.toNat .every)
  norWrite { s1 with guard := { s1.guard with lifecycle := l } } [.lifecycle]

/-- Zeroisation is complete: SCRAP blows the SCRAPPED fuse, and the lifecycle changes (sp. 15 R436, R453). -/
def execZeroiseComplete (s : State) : Result :=
  match s.guard.zero with
  | none => .next s
  | some z =>
    let s1 := zeroiseAll s
    let s2 := match s.guard.zeroAfter with
      | some l => lifecycleMove s1 l z.counter
      | none => s1
    let fuse := s2.guard.scrapFuse || decide (s.guard.zeroAfter = some .scrapped)
    let s3 := norWrite { s2 with guard := { s2.guard with zeroising := false, zeroAfter := none, zero := none, scrapFuse := fuse } }
      [.zeroising, .operatorKey, .counters, .scrubPending, .fences]
    match z.reply with
    | some o => .next (finish s3 o stOk [])
    | none => if anySlot s3 then .next s3 else .next (noFirmware s3)

def execCommandReset (s : State) : Result :=
  if s.pwr.resetDue ∧ diesOn s then
    let r := dieReset s
    .next (enterStage { r with pwr := { r.pwr with state := .starting, startKind := 4, goodAt := s.ref } } 1)
  else .next s

/-! ## The brownout hold (sp. 15 R437-R443) -/

/-- WARN and RESET thresholds of a rail (sp. 15 Table 15-3). -/
def supplyOf (s : State) (rail : Fin 3) : BitVec 32 :=
  if rail = 0 then s.guard.supplyVcore else if rail = 1 then s.guard.supplyVsram else s.guard.supplyVlink
/-- WARN in 0.5 mV. -/
def warnOf (s : State) (rail : Fin 3) : Nat := bits (supplyOf s rail).toNat 31 20
/-- RESET in 0.5 mV. -/
def resetOf (s : State) (rail : Fin 3) : Nat := bits (supplyOf s rail).toNat 19 8

/-- POWER_CAP in W. -/
def powerCap (s : State) : Nat := bits s.guard.limits.toNat 63 52
/-- THERM_WARN in degrees. -/
def thermWarn (s : State) : Nat := bits s.guard.limits.toNat 51 44
/-- THERM_HOLD in degrees. -/
def thermHold (s : State) : Nat := bits s.guard.limits.toNat 43 36
/-- THERM_SHUT in degrees. -/
def thermShut (s : State) : Nat := bits s.guard.limits.toNat 35 28

/-- The code of a cause (sp. 15 Table 15-2). -/
def HoldCause.code : HoldCause → Nat
  | .none => 0
  | .supply => 1
  | .power => 2
  | .thermal => 3

/-- The flag of a cause, set. -/
def setHold (g : Guard) (c : HoldCause) : Guard :=
  match c with
  | .none => g
  | .supply => { g with holdSupply := true }
  | .power => { g with holdPower := true }
  | .thermal => { g with holdThermal := true }

/-- The flag of a cause, cleared. -/
def clearHold (g : Guard) (c : HoldCause) : Guard :=
  match c with
  | .none => g
  | .supply => { g with holdSupply := false }
  | .power => { g with holdPower := false }
  | .thermal => { g with holdThermal := false }

/-- A cause of the hold begins (sp. 15 R438, R439): BROWNOUT_ENTER; the first cause begins the hold, which the step and the
health monitor feel. -/
def enterHold (s : State) (c : HoldCause) (loc reading : Nat) : State :=
  let first := !inHold s
  let g := setHold s.guard c
  let g' := if first then { g with holdCause := c, holdAt := s.ref } else g
  let s1 := guardRaise { s with guard := g' } (gev s 0x40 (c.code + 16 * loc) reading .every)
  if first then
    markBrownout { s1 with health := { s1.health with cur := { s1.health.cur with holds := s1.health.cur.holds + 1 } } }
  else s1

/-- A cause has met its exit (sp. 15 R438, R440): the hold ends when no cause is left. -/
def exitHold (s : State) (c : HoldCause) : State :=
  let s1 := { s with guard := clearHold s.guard c }
  if inHold s1 then s1 else
  let s2 := guardRaise s1 (gev s1 0x41 1 (s.ref - s.guard.holdAt) .every)
  let t := s2.step
  let t' := { t with frozen := [], stopped := t.stopped || (t.suspect && stepStarted s2) }
  discardPending { s2 with guard := { s2.guard with holdCause := .none, heldTo := s.ref }, step := t' } (fun _ => t'.suspect)

/-- Every die's stage manager freezes. -/
def freezeAll (s : State) : State := allDies.foldl freezeDie s

def execSupplyWarn (place : Place) (rail : Fin 3) (reading : Nat) (s : State) : Result :=
  if s.pwr.state = .ready ∧ reading < warnOf s rail then
    let s1 := if s.guard.holdSupply then
        if s.guard.lowRail = rail.val + 1 then { s with guard := { s.guard with lowReading := min s.guard.lowReading reading } } else s
      else
        enterHold { s with guard := { s.guard with lowRail := rail.val + 1, lowReading := reading } } .supply (rail.val + 1) reading
    if h : place.val < 4 then .next (freezeDie s1 ⟨place.val, h⟩) else .next s1
  else .next s

def execFreezeSignal (die : Die) (s : State) : Result :=
  if s.guard.holdSupply then .next (freezeDie s die) else .next s

def execSupplyRecovery (s : State) : Result :=
  if s.guard.holdSupply then .next (exitHold s .supply) else .next s

/-- 50 us of a supply hold without recovery: a supply reset, with the rail that began the hold (sp. 15 Table 15-8). HOLD outlasts a PWR_EN
restart (sp. 16 Table 16-4), its limit is one of READY (R459). -/
def execSupplyHoldTimeout (s : State) : Result :=
  if s.guard.holdSupply ∧ s.pwr.state = .ready then .next (supplyResetWith s s.guard.lowRail s.guard.lowReading) else .next s

def execSupplyReset (rail : Fin 3) (reading : Nat) (s : State) : Result :=
  if diesOn s ∧ reading < resetOf s rail then .next (supplyResetWith s (rail.val + 1) reading) else .next s

/-- The guard with one more sample of the input: the running average over 1,000 samples of 1 us, a sample not yet taken counting as 0 (log 94),
and the run of averages at or below POWER_CAP - 50 W. -/
def takeSample (s : State) (m : InputSample) : Guard :=
  let l := (m.mv * m.ma :: s.guard.powers).take 1000
  let avg := l.sum / 1000000000
  { s.guard with powers := l, powerAvg := avg, powerLow := if l.sum + 50000000000 ≤ powerCap s * 1000000000 then s.guard.powerLow + 1 else 0 }

/-- The 1 ms average exceeds POWER_CAP. -/
def overCap (g : Guard) (cap : Nat) : Bool := decide (cap * 1000000000 < g.powers.sum)

/-- A sample of the input (sp. 15 R443): an average above POWER_CAP is recorded and begins the hold, which lies in READY; in another power state it is
recorded as it first exceeds the cap. -/
def execPowerSample (m : InputSample) (s : State) : Result :=
  if !s.pwr.v54 then .next s else
  let s1 := { s with guard := takeSample s m }
  let above := overCap s1.guard (powerCap s)
  if s.pwr.state = .ready ∧ above ∧ !s.guard.holdPower then
    let s2 := guardRaise s1 (gev s1 0x44 s1.guard.powerAvg (powerCap s) .every)
    .next (freezeAll (enterHold s2 .power 0 s1.guard.powerAvg))
  else if s.pwr.state ≠ .ready ∧ above ∧ !overCap s.guard (powerCap s) then
    .next (guardRaise s1 (gev s1 0x44 s1.guard.powerAvg (powerCap s) .every))
  else .next s1

/-- The average has stayed at or below POWER_CAP - 50 W for 1 ms (sp. 15 Table 15-8). -/
def execPowerHoldExit (s : State) : Result :=
  if s.guard.holdPower ∧ 1000 ≤ s.guard.powerLow then .next (exitHold s .power) else .next s

/-- The hottest of the readings, with its die, if one reaches `t`. -/
def hottest (t : Int) : Nat → List Int → Option (Nat × Int)
  | _, [] => none
  | d, x :: r => if t ≤ x then some (d, x) else hottest t (d + 1) r

/-- THERM_WARN reached from below by a die: THERMAL_WARN, with an alarm once per step (sp. 15 R442; log 14). -/
def warmOne (s : State) (d : Nat) (x : Int) : State :=
  if (thermWarn s : Int) ≤ x then
    if s.guard.warm.contains d then s
    else guardRaise { s with guard := { s.guard with warm := d :: s.guard.warm } } (gev s 0x43 d (unsigned 64 x) .first)
  else { s with guard := { s.guard with warm := s.guard.warm.filter (fun y => y ≠ d) } }

/-- The warning trip over the dies in order. -/
def warmAll : Nat → List Int → State → State
  | _, [], s => s
  | d, x :: r, s => warmAll (d + 1) r (warmOne s d x)

/-- The smallest margin to THERM_WARN of a list of readings (sp. 14 Table 14-4). -/
def marginOf (w : Int) : List Int → Option Int
  | [] => none
  | x :: r => match marginOf w r with
    | none => some (w - x)
    | some m => some (min (w - x) m)

/-- The smaller of two margins. -/
def minMargin (a b : Option Int) : Option Int :=
  match a, b with
  | none, y => y
  | x, none => x
  | some x, some y => some (min x y)

/-- A thermal shutdown (sp. 15 R442): firing stops, the stages go off, the record is kept; the module enters SHUT. -/
def thermalShutdown (s : State) (d : Nat) (x : Int) : State :=
  let s1 := keepRecord (closeHold s 3) 0x45 d (unsigned 64 x)
  let r := dieReset s1
  { r with pwr := { r.pwr with state := .shut, railsUp := 0, pwrGood := false, shutLatched := true } }

def execSensorRead (temps : List Int) (s : State) : Result :=
  if !s.pwr.v54 then .next s else
  match hottest (thermShut s) 0 temps with
  | some (d, x) => if railsLive s then .next (thermalShutdown s d x) else .next s
  | none =>
    let m := marginOf (thermWarn s) temps
    let s0 := { s with guard := { s.guard with margin := m },
                       health := { s.health with cur := { s.health.cur with margin := minMargin s.health.cur.margin m } } }
    let s1 := if diesOn s then warmAll 0 temps s0 else s0
    match hottest (thermHold s) 0 temps with
    | some (d, x) =>
      if s.pwr.state = .ready ∧ !s.guard.holdThermal then .next (freezeAll (enterHold s1 .thermal d (unsigned 64 x)))
      else .next s1
    | none => .next s1

def execThermalHoldExit (s : State) : Result :=
  if s.guard.holdThermal then .next (exitHold s .thermal) else .next s

/-! ## The TAP (sp. 17 R483, R484) -/

/-- ALERT_N is asserted (sp. 16 Table 16-5). -/
def alertAsserted (s : State) : Bool :=
  s.pwr.v54 && (s.pwr.state = .shut || s.pwr.stage = 2 || s.pwr.stage = 7 || !s.guard.agree)

/-- EXTEST, HIGHZ and CLAMP take effect only in GUARD and SHUT; elsewhere they act as BYPASS (sp. 17 R484). -/
def tapWorks (s : State) : Bool := s.pwr.state = .guard || s.pwr.state = .shut

/-- The instruction drives the outputs. -/
def tapDrives (s : State) : Bool := tapHolds s && tapWorks s

/-- The PWR_GOOD pin (sp. 16 R472, sp. 17 R483, R484): in EXTEST and CLAMP from cells 1 and 2, in HIGHZ low by its pull-down. -/
def pinPwrGood (s : State) : Bool :=
  if tapDrives s then (s.tap.ir ≠ .highz && s.tap.cells.getLsbD 2 && s.tap.cells.getLsbD 1) else s.pwr.pwrGood

/-- The ALERT_N pin pulled low (sp. 16 R472): in EXTEST and CLAMP by cells 3 and 4, released in HIGHZ. -/
def pinAlert (s : State) : Bool :=
  if tapDrives s then (s.tap.ir ≠ .highz && s.tap.cells.getLsbD 4 && !s.tap.cells.getLsbD 3) else alertAsserted s

/-- TDO between commands: high impedance, since each command leaves the controller outside Shift-DR and Shift-IR (sp. 17 Table 17-5). What a
Shift-DR brings out in a command stands in `Tap.out`. -/
def pinTdo (_ : State) : Option Bool := none

/-- A pin as a bit. -/
def pinBit (b : Bool) : BitVec 1 := if b then 1 else 0

/-- The identification register (sp. 17 Table 17-6). -/
def idcodeValue : BitVec 32 := 0x1B4C85AB

/-- The low `n` bits, the lowest first. -/
def bitsOut (n : Nat) (v : Nat) : List Bool := (List.range n).map (bit v)

/-- The boundary register as Shift-DR brings it out, the cell next to TDO first: the input cells hold the captured pins, the output enables what
they held (log 5). -/
def boundaryOut (t : Tap) : List Bool :=
  [t.cells.getLsbD 4, t.captured.getLsbD 2, t.cells.getLsbD 2, t.captured.getLsbD 1, t.captured.getLsbD 0]

/-- What the data register of an instruction brings out in a scan: the boundary cells, the identification register, or the bypass bit, which
captures 0 (sp. 17 Table 17-6, IEEE 1149.1). -/
def scanOut (t : Tap) (i : TapIr) : List Bool :=
  match i with
  | .extest | .samplePreload => boundaryOut t
  | .idcode => bitsOut 32 idcodeValue.toNat
  | _ => [false]

/-- What an instruction captures of the pins: SAMPLE all three; EXTEST, while it takes effect, PWR_EN. -/
def captureOf (s : State) (i : TapIr) : BitVec 3 :=
  match i with
  | .samplePreload => pinBit (!alertAsserted s) ++ pinBit s.pwr.pwrGood ++ pinBit s.pwr.pwrEn
  | .extest => if tapWorks s then s.tap.captured.extractLsb' 1 2 ++ pinBit s.pwr.pwrEn else s.tap.captured
  | _ => s.tap.captured

/-- An instruction that takes no effect acts as BYPASS (sp. 17 R484). -/
def actsAs (s : State) (i : TapIr) : TapIr :=
  match i with
  | .extest => if tapWorks s then .extest else .bypass
  | _ => i

/-- An instruction is loaded and its data register scanned once (sp. 17 R483); the TAP works in every power state except OFF. -/
def tapLoad (s : State) (i : TapIr) : State :=
  if s.pwr.state = .off then s
  else
    let t := { s.tap with code := i.code, captured := captureOf s i, atReset := false }
    tryRamp { s with tap := { t with out := scanOut t (actsAs s i) } }

/-- EXTEST drives PWR_GOOD and ALERT_N from the cells, which SAMPLE/PRELOAD has loaded, and captures PWR_EN. -/
def execExtest (s : State) : Result := .next (tapLoad s .extest)
/-- IDCODE brings out the identification register. -/
def execIdcode (s : State) : Result := .next (tapLoad s .idcode)
/-- SAMPLE/PRELOAD: the three pins are sampled, and the cells `cells` are shifted in for a later EXTEST or CLAMP. -/
def execSamplePreload (cells : BitVec 5) (s : State) : Result :=
  let s1 := tapLoad s .samplePreload
  if s.pwr.state = .off then .next s1 else .next { s1 with tap := { s1.tap with cells := cells } }
def execHighz (s : State) : Result := .next (tapLoad s .highz)
def execClamp (s : State) : Result := .next (tapLoad s .clamp)
def execBypass (s : State) : Result := .next (tapLoad s .bypass)

/-- Test-Logic-Reset selects IDCODE; nothing is scanned (sp. 17 Table 17-6). -/
def execTestLogicReset (s : State) : Result :=
  if s.pwr.state = .off then .next s else .next (tryRamp { s with tap := { s.tap with code := TapIr.code .idcode, atReset := true } })

end Sys2Proof.Machine
end

