-- ==== Sys2Proof/Machine/Beat.lean ====
section
/-! DEFINITION. The beat: marks, boundaries, the lock (sp. 02 R32-R38), moves of control that move the beat source (sp. 02 R35,
sp. 13 R366), and what happens at every boundary: relays, the health score (sp. 14 R407-R409), drop summaries (R405). -/

namespace Sys2Proof.Machine

/-- A move of the beat lock, recorded as BEAT_LOCK, with an alarm into HOLDOVER or LOST (sp. 02 R34); LOST ends a started
step. Marks received before the entry into HOLDOVER do not count towards leaving it. -/
def setLock (s : State) (n : Lock) : State :=
  let o := s.beat.lock
  if o = n then s else
  let early (l : List SeenMark) : List SeenMark := if n = .holdover then l.map (fun m => { m with early := true }) else l
  let b := { s.beat with lock := n, goodRun := 0, wrongRun := 0, heldBeats := 0, holdA := 0, holdB := 0,
                         seenA := early s.beat.seenA, seenB := early s.beat.seenB }
  let s1 := raise { s with beat := b }
    (ev 0x01 (guardPlace s) 21 0 (n.code + 8 * o.code) s.beat.source.toNat
      (if n = .holdover ∨ n = .lost then .every else .never))
  if n = .lost then stepLost s1 else s1

/-- Consecutive good marks of a port. -/
def runOf (b : Beat) : Kcp → Nat
  | .a => b.runA
  | .b => b.runB

/-- The beat source follows control to port `k` (sp. 02 R35). The count of wrong-number marks, which are those of the beat source, starts
again with the new source (DEDUCED, log 78). -/
def moveSource (s : State) (k : Kcp) : State :=
  let s1 := { s with beat := { s.beat with wrongRun := 0 } }
  match s.beat.lock with
  | .locked => if 16 ≤ runOf s.beat k then s1 else setLock s1 .holdover
  | .acquiring => setLock s1 .unlocked
  | _ => s1

/-- A move of control to port `k`: recorded as CONTROL_MOVED with an alarm, and reported on the new control port (sp. 13 R366). -/
def controlMoved (s : State) (k : Kcp) (cause : Nat) : State :=
  let s1 := raise s (ev 0x13 (kcpPlace k) 18 (kcpNo k) (kcpNo k) cause .every)
  sendReport s1 0x06 1 [BitVec.ofNat 8 (kcpNo k), BitVec.ofNat 8 cause]

/-- Control goes to port `k` (sp. 13 R366). With no port carrying control it is a move when the other port carried it last, for the
cause of that loss; a port that takes control back, and the first take after a reset, move nothing (DEDUCED, log 23). -/
def takeControl (s : State) (k : Kcp) (cause : Nat) : State :=
  let s1 := moveSource { s with ctl := { s.ctl with carrier := some k, lost := none } } k
  match s.ctl.carrier with
  | none =>
    match s.ctl.lost with
    | some (c, why) => if c = k then s1 else controlMoved s1 k why
    | none => s1
  | some c => if c = k then s else controlMoved s1 k cause

/-- No port carries control any more: its carrier is lost for a cause (sp. 13 R366). -/
def loseControl (s : State) (cause : Nat) : State :=
  { s with ctl := { s.ctl with carrier := none, lost := s.ctl.carrier.map (fun k => (k, cause)) } }

/-- The CRC of a mark is correct (sp. 02 R32): over bits [127:32], bytes 4-15. -/
def markCrcOk (w : BitVec 128) : Bool := crc32c (slice (toLE 16 w.toNat) 4 12) = bits w.toNat 31 0

/-- The delay compensation of a port (sp. 02 R32). -/
def delayOf (b : Beat) : Kcp → Int
  | .a => b.delayA
  | .b => b.delayB

/-- The boundary a compensated arrival is nearest to, counted from the coming one (0): both in cycles relative to that one (sp. 02
R33). -/
def nearBoundary (x : Int) : Int := (x + 2048) / 4096

/-- The compensated arrival lies within +-2 cycles of a local boundary (sp. 02 R33). -/
def inPhase (x : Int) : Bool := decide ((x - 4096 * nearBoundary x).natAbs ≤ 2)

/-- The beat that begins at boundary `k`, counted from the coming one (sp. 02 R33). -/
def beatAt (b : Beat) (k : Int) : BitVec 48 := BitVec.ofInt 48 (b.count.toNat + 1 + k)

/-- The marks seen on a port. -/
def seenOf (b : Beat) : Kcp → List SeenMark
  | .a => b.seenA
  | .b => b.seenB

/-- The mark judged for a boundary. -/
def markAt (l : List SeenMark) (k : Int) : Option SeenMark := l.find? (fun m => m.at_ = k)

/-- A mark judged for a boundary. Of two marks of one port in phase with one boundary the first counts (DESIGN CHOICE, log 78). -/
def seeMark (b : Beat) (k : Kcp) (m : SeenMark) : Beat :=
  let put (l : List SeenMark) : List SeenMark := if (markAt l m.at_).isSome then l else l ++ [m]
  match k with
  | .a => { b with seenA := put b.seenA }
  | .b => { b with seenB := put b.seenB }

/-- The first mark on the beat source loads the counter (sp. 02 R34): the mark defines the instant `d` cycles before its arrival. -/
def loadBeat (s : State) (n : BitVec 48) (d : Int) : State :=
  { s with cycle := BitVec.ofInt 12 d, beat := { s.beat with count := n + BitVec.ofInt 48 (d / 4096), seenA := [], seenB := [], awaitA := false, awaitB := false } }

/-- The boundary whose marks have all come when a local boundary passes, counted from that one: marks of a port with compensation
`d` arrive `d` cycles after the instant they define (sp. 02 R33). -/
def judged (d : Int) : Int := if d ≤ 0 then 0 else - ((d + 4095) / 4096)

/-- The mark of that boundary may still come, up to 2 cycles late (sp. 02 R33). -/
def lateMark (d : Int) : Bool := decide (-2 < 4096 * judged d + d)

/-- The mark of a port for the boundary that is judged, `j` boundaries before the coming one: 0 as the boundary passes, 1 after it. -/
def portMark (b : Beat) (k : Kcp) (j : Int) : Option SeenMark := markAt (seenOf b k) (judged (delayOf b k) - j)

/-- The run of good marks after a boundary. -/
def nextRun (r : Nat) (m : Option SeenMark) : Nat := if m.any (fun x => x.kind = .good) then r + 1 else 0

/-- That run, of the marks received since the entry into HOLDOVER (sp. 02 R34). -/
def nextHold (r : Nat) (m : Option SeenMark) : Nat := if m.any (fun x => x.kind = .good && !x.early) then r + 1 else 0

/-- The mark that the beat source brought for the boundary that is judged. -/
def sourceMark (s : State) (j : Int) : Option MarkKind :=
  match s.ctl.carrier with
  | some k => (portMark s.beat k j).map (·.kind)
  | none => none

/-- The mark of the boundary just passed is still awaited on a port. -/
def awaits (b : Beat) : Kcp → Bool
  | .a => b.awaitA
  | .b => b.awaitB

/-- The ports whose mark is judged now: `b` says of a port that its mark is in or can come no more. -/
structure Judges where
  a : Bool
  b : Bool
  deriving DecidableEq, Repr

/-- A port is among them. -/
def Judges.has (g : Judges) : Kcp → Bool
  | .a => g.a
  | .b => g.b

/-- The beat source is judged now; with no port carrying control nothing is awaited. -/
def Judges.source (g : Judges) (s : State) : Bool := s.ctl.carrier.all g.has

/-- HOLDOVER at a boundary (sp. 02 R34): 16 good marks in a row on one port lock again and make it the beat source; 3
wrong-number marks on the source lose the beat. With 16 on both ports at one boundary the present source stays, port A where there is
none; and with 16 on one port at the boundary that brings the third wrong number on the source, LOCKED wins (DESIGN CHOICE, log 78). -/
def holdoverJudge (s : State) (j : Int) (g : Judges) : State :=
  let b := s.beat
  let ha := if g.a then nextHold b.holdA (portMark b .a j) else b.holdA
  let hb := if g.b then nextHold b.holdB (portMark b .b j) else b.holdB
  let w := if !g.source s then b.wrongRun else if sourceMark s j = some .wrongNumber then b.wrongRun + 1 else 0
  let s1 := { s with beat := { b with holdA := ha, holdB := hb, wrongRun := w } }
  let srcFirst := if s.ctl.carrier = some .b then [(Kcp.b, hb), (Kcp.a, ha)] else [(Kcp.a, ha), (Kcp.b, hb)]
  match srcFirst.find? (fun x => decide (16 ≤ x.2)) with
  | some (k, _) => takeControl (setLock s1 .locked) k 4
  | none => if 3 ≤ w then setLock s1 .lost else s1

/-- The lock at a boundary, as the source's mark is judged (sp. 02 R34, Table 2-2). -/
def sourceJudge (s : State) (j : Int) : State :=
  let m := sourceMark s j
  match s.beat.lock with
  | .acquiring =>
    if m = some .good then
      if 64 ≤ s.beat.goodRun + 1 then setLock s .locked
      else { s with beat := { s.beat with goodRun := s.beat.goodRun + 1 } }
    else { s with beat := { s.beat with goodRun := 0 } }
  | .locked =>
    match m with
    | none => setLock s .holdover
    | some .good => { s with beat := { s.beat with wrongRun := 0 } }
    | some .wrongNumber =>
      if 3 ≤ s.beat.wrongRun + 1 then setLock s .lost else { s with beat := { s.beat with wrongRun := s.beat.wrongRun + 1 } }
  | _ => s

/-- The lock at a boundary (sp. 02 R34): the marks of the ports in `g` are judged. -/
def lockJudge (s : State) (j : Int) (g : Judges) : State :=
  match s.beat.lock with
  | .holdover => holdoverJudge s j g
  | _ => if g.source s then sourceJudge s j else s

/-- The counter steps at each boundary but in UNLOCKED and LOST (sp. 02 Table 2-2), and the beats of HOLDOVER are counted. -/
def countBoundary (s : State) : State :=
  match s.beat.lock with
  | .acquiring | .locked => { s with beat := { s.beat with count := s.beat.count + 1 } }
  | .holdover => { s with beat := { s.beat with count := s.beat.count + 1, heldBeats := s.beat.heldBeats + 1 } }
  | _ => s

/-- The runs of the ports judged. -/
def runsJudge (s : State) (j : Int) (g : Judges) : State :=
  let b := s.beat
  { s with beat := { b with runA := (if g.a then nextRun b.runA (portMark b .a j) else b.runA),
                            runB := (if g.b then nextRun b.runB (portMark b .b j) else b.runB) } }

/-- A boundary's marks are judged on the ports in `g`, which await it no more (sp. 02 R33, R34). -/
def judge (s : State) (j : Int) (g : Judges) : State :=
  let s1 := { s with beat := { s.beat with awaitA := s.beat.awaitA && !g.a, awaitB := s.beat.awaitB && !g.b } }
  lockJudge (runsJudge s1 j g) j g

/-- As a boundary passes: a port whose mark has not come and may come up to 2 cycles late is awaited; the others are judged. -/
def judgeBoundary (s : State) : State :=
  let w (k : Kcp) : Bool := (portMark s.beat k 0).isNone && lateMark (delayOf s.beat k)
  judge { s with beat := { s.beat with awaitA := w .a, awaitB := w .b } } 0 { a := !w .a, b := !w .b }

/-- More than 2 cycles after a boundary, what is still awaited counts as missing (sp. 02 R34). -/
def judgeRest (s : State) : State :=
  if s.beat.awaitA || s.beat.awaitB then judge s 1 { a := s.beat.awaitA, b := s.beat.awaitB } else s

/-- A beat mark (sp. 02 R32-R34): `off` is its arrival relative to the coming local boundary. A mark with a bad CRC or out of phase
after compensation is as good as absent. In UNLOCKED the first mark with a correct CRC on the beat source loads the counter. A mark of the boundary
just passed that is still awaited is judged as it comes. -/
def execBeatMark (port : Kcp) (w : BitVec 128) (off : Int) (s : State) : Result :=
  if !(kcp s port).up || !firmwareUp s || !markCrcOk w then .next s else
  let n : BitVec 48 := BitVec.ofNat 48 (bits w.toNat 127 80)
  let src := s.ctl.carrier = some port
  let s1 := if src then { s with beat := { s.beat with source := BitVec.ofNat 8 (bits w.toNat 79 72) } } else s
  let x := off - delayOf s.beat port
  match s.beat.lock with
  | .unlocked => if src then .next (loadBeat (setLock s1 .acquiring) n (delayOf s.beat port)) else .next s1
  | .lost => .next s1
  | _ =>
    if inPhase x then
      let k := nearBoundary x
      let m : SeenMark := { at_ := k, kind := (if n = beatAt s.beat k then .good else .wrongNumber), early := false }
      let s2 := { s1 with beat := seeMark s1.beat port m }
      if awaits s.beat port && (k = judged (delayOf s.beat port) - 1) then
        .next (judge s2 1 { a := decide (port = .a), b := decide (port = .b) })
      else .next s2
    else .next s1

/-- A RELAY flit on each UP port, in LOCKED and HOLDOVER (sp. 11 R344, Table 11-5). -/
def relayOne (s : State) (p : PortNo) : State :=
  if (port s p).st = .up then
    setPort s p (sendFlits (port s p) [flit 6 0 0 (relayBody s)])
  else s

/-- The relays of a beat. -/
def relayAll (s : State) : State := if beatRuns s then allPorts.foldl relayOne s else s

/-! ## The health score (sp. 14 R407-R409) -/

/-- The floor of log2(1 + x). -/
def lg (x : Nat) : Nat := Nat.log2 (1 + x)

/-- The largest of sums of two maps over keys below `n` that satisfy `sel`. -/
def worstOf (n : Nat) (sel : Nat → Bool) (a b : Sparse Nat) : Nat :=
  ((List.range n).map (fun k => if sel k then Sparse.get (fun _ => 0) a k + Sparse.get (fun _ => 0) b k else 0)).foldl max 0

/-- The nine terms of sp. 14 Table 14-4, over the present epoch and the one before. -/
def healthTerms (s : State) : List Nat :=
  let a := s.health.cur
  let b := s.health.prev
  let up (k : Nat) : Bool := decide ((Sparse.get noPort s.ports (k / 8)).st = .up)
  [min 32 (4 * lg (a.wm + b.wm)),
   min 32 (4 * lg (worstOf 12 (fun _ => true) a.hbm b.hbm)),
   min 96 (32 * (a.det + b.det)),
   min 48 (8 * (Nat.log2 (2 ^ 20 + worstOf 48 up a.fec b.fec) - 20)),
   min 48 (16 * (a.unc + b.unc)),
   min 48 (16 * (a.downs + b.downs)),
   min 64 (32 * (a.holds + b.holds)),
   (match minMargin a.margin b.margin with
    | none => 0
    | some m => min 40 (4 * (10 - m).toNat)),
   s.health.host.toNat]

/-- The score: the terms' sum, clamped to 255. -/
def scoreOf (ts : List Nat) : Nat := min 255 ts.sum

/-- The staged HOST and thresholds take effect (sp. 14 R408). -/
def healthStaged (h : Health) : Health :=
  match h.staged with
  | none => h
  | some (x, a, b, c) => { h with host := x, t1 := a, t2 := b, t3 := c, staged := none }

/-- Epochs of 65,536 beats, counted from the first LOCKED beat (sp. 14 R407). -/
def healthEpoch (h : Health) (locked : Bool) : Health :=
  if !h.lockedYet && !locked then h
  else if !h.lockedYet then { h with lockedYet := true, epochBeat := 0 }
  else if h.epochBeat + 1 < 65536 then { h with epochBeat := h.epochBeat + 1 }
  else { h with epochBeat := 0, prev := h.cur, cur := EpochCounts.reset, alarmed := [] }

/-- A HEALTH alarm for threshold n when the score rises to or above it, once per epoch (sp. 14 R409). -/
def healthAlarm (old new : Nat) (s : State) (n : Nat × Nat) : State :=
  if old < n.2 ∧ n.2 ≤ new ∧ !s.health.alarmed.contains n.1 then
    raise { s with health := { s.health with alarmed := n.1 :: s.health.alarmed } }
      (ev 0x17 (guardPlace s) 20 0 n.1 new .every)
  else s

/-- The health monitor at a boundary. -/
def healthBoundary (s : State) : State :=
  let old := s.health.score
  let s1 := { s with health := healthEpoch (healthStaged s.health) (decide (s.beat.lock = .locked)) }
  let ts := healthTerms s1
  let sc := scoreOf ts
  let s2 := { s1 with health := { s1.health with score := sc, terms := ts } }
  [(1, s2.health.t1.toNat), (2, s2.health.t2.toNat), (3, s2.health.t3.toNat)].foldl (healthAlarm old sc) s2

/-- A DROP_SUMMARY record in the first cycle of a beat that follows a beat with drops (sp. 14 R405). -/
def traceBoundary (s : State) : State :=
  if s.trace.beatDrops = 0 then s else
  let r : TraceRec := { kind := 0xFF, place := BitVec.ofNat 3 (guardPlace s).val, unit := 22, inst := 0, cue := 0xFFFFFF,
                        beat := beatNow s, cycle := 0, addr := BitVec.ofNat 64 s.trace.beatDrops,
                        count := BitVec.ofNat 32 (stopAt top32 s.trace.total) }
  let n := s.trace.beatDrops
  let s1 := if s.trace.on || !s.trace.ring.isEmpty then traceAdd s r else s
  { s1 with trace := { s1.trace with beatDrops := s1.trace.beatDrops - n } }

/-- The step-relative beat advances while the step runs and no hold stands (sp. 02 R44, R58; sp. 15 R439). -/
def stepBoundary (s : State) : State :=
  if s.step.phase = .running ∧ !inHold s ∧ s.step.frozen.isEmpty then
    { s with step := { s.step with relBeat := s.step.relBeat + 1 } }
  else s

/-- The local boundary itself: cycle 0 of the next beat. -/
def clockBoundary (s : State) : State := { refPass s (4096 - s.cycle.toNat) with cycle := 0 }

/-- The boundary passes: the marks seen are counted from the next one, and those of boundaries before the one just passed are done with. -/
def passMarks (s : State) : State :=
  let next (d : Int) (l : List SeenMark) : List SeenMark :=
    (l.map (fun m => { m with at_ := m.at_ - 1 })).filter (fun m => decide (judged d - 1 ≤ m.at_))
  { s with beat := { s.beat with seenA := next s.beat.delayA s.beat.seenA, seenB := next s.beat.delayB s.beat.seenB } }

/-- A local beat boundary (sp. 02 R34). -/
def execBeatBoundary (s : State) : Result :=
  if !s.pwr.v54 then .next s else
  .next (traceBoundary (healthBoundary (relayAll (stepBoundary (passMarks (judgeBoundary (countBoundary
    (clockBoundary (judgeRest s)))))))))

def execHoldoverTimeout (s : State) : Result :=
  if s.beat.lock = .holdover ∧ 4096 ≤ s.beat.heldBeats then .next (setLock s .lost) else .next s

end Sys2Proof.Machine
end

