-- ==== Sys2Proof/Machine/Windows.lean ====
section
/-! DEFINITION. Elastic windows and their builders (sp. 02 R52-R56; sp. 07 R192-R209). -/

namespace Sys2Proof.Machine

/-! ## Descriptor fields (sp. 02 Table 2-8) -/
def wdLen (d : Nat) : Nat := bits d 255 232
def wdBuild (d : Nat) : Nat := bits d 231 208
def wdBuilder (d : Nat) : Nat := bits d 207 200
def wdResult (d : Nat) : Nat := bits d 127 72

/-- The static build cost (sp. 07 Table 7-5), of the builder and its parameter block. -/
def buildCost (builder blk : Nat) : Nat :=
  match builder with
  | 1 => 256 + ceilDiv (bits blk 511 492) 16
  | 2 =>
    512 + ceilDiv (bits blk 511 492 * bits blk 482 479) 4 + ceilDiv (bits blk 453 445 * bits blk 478 463) 8 +
      ceilDiv (bits blk 424 405 * bits blk 482 479) 8
  | _ => 256 + 24 * (bits blk 502 494 * bits blk 477 473)

/-- A prompter, as records name it (sp. 02 R42). -/
def whoPrompter (cue : Nat) : Who := { unit := 8, inst := 0, cue := cue }

/-- What a builder has worked out: its outputs, the ranges it reads, and the two tags of a tenant mix. -/
structure BuildOut where
  writes : List (Nat × List Byte)
  reads : List (Nat × Nat)
  mix : Option (Nat × Nat)
  deriving DecidableEq, Repr

/-- The low 32 bits of a signed number, as a little-endian word. -/
def int32Bytes (i : Int) : List Byte := toLE 4 (unsigned 32 i)

/-- The 4-byte entries of an output. -/
def wordsOf (l : List Int) : List Byte := (l.map int32Bytes).flatten

/-! ## TENANT_BIND (sp. 07 R195-R198) -/

/-- G (sp. 07 Table 7-6). -/
def granuleOf (blk : Nat) : Nat :=
  match bits blk 491 490 with
  | 0 => 16
  | 1 => 32
  | 2 => 128
  | _ => 256

/-- A list in pieces of `g`, at most `fuel` of them. -/
def inPieces {α : Type} (g : Nat) : Nat → List α → List (List α)
  | 0, _ => []
  | f + 1, l => if l.isEmpty then [] else l.take g :: inPieces g f (l.drop g)

/-- TENANT of a tag (sp. 07 Table 7-1). -/
def tagTenant (t : Nat) : Nat := bits t 63 50

/-- The tags of a granule that are valid and name an open tenant. -/
def openTags (s : State) (l : List Nat) : List Nat := l.filter (fun t => bit t 2 && tenantOpen s (tagTenant t))

/-- The first two tags of different tenants among them. -/
def mixedTags : List Nat → Option (Nat × Nat)
  | [] => none
  | t :: r => (r.find? (fun u => tagTenant u ≠ tagTenant t)).map (fun u => (t, u))

/-- TENANT_BIND: the map, the record, and the mix of the first faulty granule. TENANT_A and TENANT_B of a record without one are 0, which
the manual does not say (DESIGN CHOICE, log 103). -/
def bindBuild (s : State) (die blk result : Nat) : BuildOut :=
  let g := granuleOf blk
  let rows := bits blk 511 492
  let tags := (List.range rows).map (fun i => loadLE s (result + 8 * i) 8)
  let gs := inPieces g (ceilDiv rows g) tags
  let os := gs.map (openTags s)
  let entry (l : List Nat) : Int :=
    match l with
    | [] => -1
    | t :: _ => if (mixedTags l).isSome then -1 else ((Sparse.get noTenant s.tenants (tagTenant t)).place.toNat : Int)
  let fault := (numbered os).find? (fun x => (mixedTags x.2).isSome)
  let mix := fault.bind (fun x => mixedTags x.2)
  let stray := (tags.filter (fun t => bit t 2 && !tenantOpen s (tagTenant t))).length
  let bound := (os.filter (fun l => !l.isEmpty && (mixedTags l).isNone)).length
  let empty := (os.filter (·.isEmpty)).length
  let record := bindRecord gs.length bound empty stray (if mix.isSome then 1 else 0)
    (match fault with
     | some x => x.1
     | none => 0xFFFFF)
    (match mix with
     | some (a, _) => tagTenant a
     | none => 0)
    (match mix with
     | some (_, b) => tagTenant b
     | none => 0)
  { writes := [(scratchOf die + bits blk 489 462, wordsOf (os.map entry)), (scratchOf die + bits blk 461 434, record)],
    reads := [(result, 8 * rows)], mix := mix }

/-! ## ROUTE_ALLOC (sp. 07 R201-R206) -/

/-- The fills, the slots in rank-major order, and the counts of bad and dropped choices (sp. 07 R203). -/
structure RouteSt where
  fill : Array Nat
  slots : Array (Option Nat)
  bad : Nat
  dropped : Nat
  deriving DecidableEq, Repr

/-- A token is routable (sp. 07 R202). -/
def routable (s : State) (tag : Nat) : Bool :=
  bit tag 2 && (s.step.tenants.isEmpty || (Sparse.get noTenant s.tenants (tagTenant tag)).active)

/-- One choice (sp. 07 R203): `k` ranks per token, `e` experts of capacity `c`; `ch` are the choices, `rt` says which tokens are
routable. -/
def routeOne (k e c : Nat) (ch : Array Int) (rt : Array Bool) (r : Nat) (st : RouteSt) (t : Nat) : RouteSt :=
  if !rt.getD t false then { st with slots := st.slots.push none } else
  let x := ch.getD (t * k + r) (-1)
  if x < 0 ∨ (e : Int) ≤ x ∨ (List.range r).any (fun q => ch.getD (t * k + q) (-1) = x) then
    { st with slots := st.slots.push none, bad := st.bad + 1 }
  else
    let n := st.fill.getD x.toNat 0
    if n < c then { st with fill := st.fill.setIfInBounds x.toNat (n + 1), slots := st.slots.push (some (x.toNat * c + n)) }
    else { st with slots := st.slots.push none, dropped := st.dropped + 1 }

/-- The allocation over the whole slice (sp. 07 R203). -/
def routeAll (k e c n : Nat) (ch : Array Int) (rt : Array Bool) : RouteSt :=
  (List.range k).foldl (fun st r => (List.range n).foldl (routeOne k e c ch rt r) st)
    { fill := Array.replicate e 0, slots := #[], bad := 0, dropped := 0 }

/-- The weights of one token's kept ranks (sp. 07 R205). -/
def keptWeights (renorm : Bool) (k : Nat) (slot : Nat → Option Nat) (w : Nat → Code32) : Nat → Code32 :=
  let sum := ((List.range k).filter (fun r => (slot r).isSome)).foldl (fun acc r => fadd acc (w r)) 0
  fun r => if (slot r).isNone then 0 else if renorm then fdiv (w r) sum else w r

/-- A slot tag (sp. 07 R204): the token's tag with RANK = r, VALID = 0 when the step names tenants and this one is not open. -/
def slotTag (s : State) (tag r : Nat) : Nat :=
  let t := setBits tag 5 3 r
  if !s.step.tenants.isEmpty && !tenantOpen s (tagTenant tag) then setBits t 2 2 0 else t

/-- ROUTE_ALLOC: the outputs of sp. 07 Table 7-10 and the record. -/
def routeBuild (s : State) (die blk result : Nat) : BuildOut :=
  let n := bits blk 511 492
  let e := bits blk 491 483
  let k := bits blk 482 479
  let c := bits blk 478 463
  let ef := bits blk 462 454
  let ec := bits blk 453 445
  let hf := bits blk 444 425
  let hc := bits blk 424 405
  let o := scratchOf die
  let cb := if bit blk 403 then 4 else 2
  let wOff := o + bits blk 399 372
  let tOff := o + bits blk 371 344
  let ch := ((List.range (n * k)).map (fun i => signed (8 * cb) (loadLE s (result + cb * i) cb))).toArray
  let tags := ((List.range n).map (fun t => loadLE s (tOff + 8 * t) 8)).toArray
  let rt := tags.map (routable s)
  let st := routeAll k e c n ch rt
  let slot (t r : Nat) : Option Nat := st.slots.getD (r * n + t) none
  let slotInt (t r : Nat) : Int := match slot t r with
    | some x => x
    | none => -1
  let here := ((List.range k).map (fun r => (List.range n).map (fun t => (t, r)))).flatten.filter (fun x =>
    match slot x.1 x.2 with
    | some q => decide (ef * c ≤ q ∧ q < (ef + ec) * c)
    | none => false)
  let place (x : Nat × Nat) : Nat := ((slot x.1 x.2).getD 0) - ef * c
  let idx := here.foldl (fun (a : Array Int) x => a.setIfInBounds (place x) x.1) (Array.replicate (ec * c) (-1))
  let stg := here.foldl (fun (a : Array Nat) x => a.setIfInBounds (place x) (slotTag s (tags.getD x.1 0) x.2)) (Array.replicate (ec * c) 0)
  let home := ((List.range k).map (fun r => (List.range hc).map (fun j => (hf + j, r)))).flatten
  let wts := ((List.range hc).map (fun j =>
    let t := hf + j
    let f := keptWeights (bit blk 404) k (slot t) (fun r => loadLE s (wOff + 4 * (t * k + r)) 4)
    ((List.range k).map f).toArray)).toArray
  let toks := List.range n
  let isR (t : Nat) : Bool := rt.getD t false
  let kept := (st.slots.toList.filter (·.isSome)).length
  let record := allocRecord (toks.filter isR).length
    (toks.filter (fun t => isR t && (List.range k).all (fun r => (slot t r).isNone))).length
    (toks.filter (fun t => !isR t)).length kept st.dropped st.bad (st.fill.toList.foldl max 0)
    (st.fill.toList.filter (· = c)).length
    (crc32c (wordsOf (((List.range k).map (fun r => toks.map (fun t => slotInt t r))).flatten)))
  { writes :=
      [(o + bits blk 203 176, wordsOf (st.fill.toList.map Int.ofNat)),
       (o + bits blk 343 316, wordsOf idx.toList),
       (o + bits blk 315 288, (stg.toList.map (toLE 8)).flatten),
       (o + bits blk 287 260, wordsOf (home.map (fun x => slotInt x.1 x.2))),
       (o + bits blk 231 204, wordsOf (home.map (fun x => if (slot x.1 x.2).isSome then ((x.1 - hf : Nat) : Int) else -1))),
       (o + bits blk 259 232, (home.map (fun x => toLE 4 (mat wts (x.1 - hf) x.2))).flatten),
       (o + bits blk 175 148, record)],
    reads := [(result, n * k * cb), (wOff, 4 * n * k), (tOff, 8 * n)], mix := none }

/-! ## EXPERT_LIST (sp. 07 R207-R209, sp. 02 R54) -/

/-- The field [hi:lo] of a descriptor's 64-byte control block, replaced. -/
def patchField (p : List Byte) (hi lo v : Nat) : List Byte := toLE 64 (setBits (leAt p 0 64) hi lo v) ++ p.drop 64

/-- The descriptor with its row count set to `f`; none where `f` or the tile count does not fit its field (sp. 07 R208). R208 names no row
count of an Optimizer Engine or layout-engine descriptor: a PATCH bit leaves it as it is (DESIGN CHOICE, log 104). -/
def patchDesc (u : UnitId) (op : Nat) (p : List Byte) (f : Nat) : Option (List Byte) :=
  match u with
  | .array _ =>
    let d := parseDme op p
    let n := ceilDiv f d.h * d.nt
    if f < 2 ^ 20 ∧ n < 2 ^ 20 then some (patchField (patchField (patchField p 511 492 f) 439 420 0) 419 400 n) else none
  | .gme _ _ =>
    let g := parseGme op p
    if g.affine then (if f < 2 ^ 20 then some (patchField (patchField p 511 488 f) 419 400 f) else none)
    else if f < 2 ^ 24 then some (patchField p 511 488 f) else none
  | .vector _ _ => if f < 2 ^ 20 then some (patchField p 511 492 f) else none
  | _ => some p

/-- The check of a descriptor for its unit (sp. 04 R109, sp. 06 R164, sp. 08 R221, R234, sp. 09 R283). -/
def checkDesc (u : UnitId) (op : Nat) (p : List Byte) : Bool :=
  let d := (unitDie u).val
  match u with
  | .array _ => checkDme d op p
  | .gme _ _ => checkGme d op p
  | .vector _ _ => checkVec d op p
  | .optimizer _ => checkOpt d op p
  | .layout _ => checkLay d op p
  | _ => false

/-- The busy count T of a command, and the unit's fixed latency (sp. 02 R54). -/
def listCost (s : State) (u : UnitId) (op : Nat) (p : List Byte) : Nat :=
  match u with
  | .array a => dmeCost s a.die.val op p + 5
  | .gme _ _ => gmeCost op p + 5
  | .vector _ _ => vecCost op p + 17
  | .optimizer _ => optCost op p + 29
  | .layout _ => layCost op p + 5
  | _ => 0

/-- One template as the builder treats it: its cue word, its unit, and its descriptor; none when the expert has no row. -/
structure Planned where
  word : BitVec 256
  unit : UnitId
  desc : Option (List Byte)
  deriving DecidableEq, Repr

/-- The fills of this die's experts (sp. 07 R208), free where another party writes them while the list is built (R211). -/
def fillsOf (s : State) (blk result : Nat) : List Int × State :=
  let busy := openWrites s none
  (List.range (bits blk 502 494)).foldl (fun x i =>
    let a := result + 4 * (bits blk 511 503 + i)
    let f := if anyMeets [(a, 4)] busy then drawBytes 4 x.2 else (load s a 4, x.2)
    (x.1 ++ [signed 32 (ofLE f.1)], f.2)) ([], s)

/-- The plan of a list, or the unit of the first command that its check rejects (sp. 07 R208); `fills` are those of its experts. -/
def planList (blk : Nat) (fills : List Int) (st : CueStore) (ts : List (BitVec 256)) : Except UnitId (List Planned) :=
  let tpl := bits blk 477 473
  (numbered ts).foldr (fun x acc =>
    let w := x.2
    let u := cueUnit w 0
    let i := x.1 / tpl
    let n := x.1 % tpl
    let f := fills.getD i 0
    if f ≤ 0 then acc.map (fun l => { word := w, unit := u, desc := none } :: l)
    else
      let p := st.desc (cDesc w) (descSize u)
      let q := if bit blk (457 + n) then patchDesc u (cOp w) p f.toNat else some p
      match q with
      | some d => if checkDesc u (cOp w) d then acc.map (fun l => { word := w, unit := u, desc := some d } :: l) else .error u
      | none => .error u) (.ok [])

/-- Ends of the path so far: of each unit's commands and of each tally's signals. -/
structure PathSt where
  units : List (Nat × Nat)
  sigs : List (Nat × Nat)
  total : Nat
  deriving DecidableEq, Repr

/-- The largest end noted under a key. -/
def endOf (l : List (Nat × Nat)) (k : Nat) : Nat := (l.filter (fun x => x.1 = k)).foldl (fun a x => max a x.2) 0

/-- The list cost of sp. 02 R54: the longest path of summed command costs through the template waits, commands on one unit in
issue order; a waiting command follows every earlier command that signals its tally (log 43). -/
def pathCost (s : State) (l : List Planned) : Nat :=
  (l.foldl (fun (a : PathSt) x =>
    match x.desc with
    | none => a
    | some d =>
      let w := x.word
      let k := unitKey x.unit
      let start := max (endOf a.units k) (if cWaitEn w then endOf a.sigs (cWaitTally w) else 0)
      let e := start + listCost s x.unit (cOp w) d
      { units := (k, e) :: a.units.filter (fun y => y.1 ≠ k),
        sigs := if cSigOn w = 0 then a.sigs else (cSigTally w, max e (endOf a.sigs (cSigTally w))) :: a.sigs.filter (fun y => y.1 ≠ cSigTally w),
        total := max a.total e }) { units := [], sigs := [], total := 0 }).total

/-- A built command. -/
def builtOf (x : Planned) : Option Built :=
  x.desc.map (fun d =>
    { unit := x.unit, opcode := BitVec.ofNat 8 (cOp x.word), desc := d,
      wait := if cWaitEn x.word then some (cWaitTally x.word, cWaitValue x.word) else none,
      signal := if cSigOn x.word = 0 then none else some (cSigTally x.word, cSigInc x.word),
      onStart := decide (cSigOn x.word = 1), issued := false })

/-- The signals of the templates of experts without a row act at the issue point, as if the command had completed (sp. 07 R208): when
the list is built, in cycle `c`. -/
def signalEmpty (s : State) (d : Die) (l : List Planned) (c : Nat) : State :=
  let more := l.filterMap (fun x =>
    if x.desc.isSome ∨ cSigOn x.word = 0 then none
    else some { at_ := c, die := d, tally := cSigTally x.word, inc := cSigInc x.word : LaterTally })
  { s with stage := { s.stage with later := s.stage.later ++ more } }

/-! ## Opening -/

/-- A WINDOW_OVERRUN of the builder (sp. 14 Table 14-2): the unit of a command rejected at issue, if any, and the list cost. -/
def overrun (s : State) (d : Die) (cue builder : Nat) (u : Option UnitId) (cost at_ : Nat) : State :=
  let x := match u with
    | some v => unitKind v * 2 ^ 16 + unitInst v * 2 ^ 24
    | none => 0
  stopFiring (raise s { kind := 0x04, place := dieplace d, unit := 8, inst := 0, cue := cue, d0 := builder + x, d1 := cost,
                        alarm := .every }) 2 true at_

/-- A window opens with its builder's results. -/
def addWindow (s : State) (w : Window) : State := { s with stage := { s.stage with windows := s.stage.windows ++ [w] } }

/-- The window as it opens in cycle `c`, with what its builder reads; what other cues still write of it makes its outputs undefined (sp.
07 R211). -/
def openedWindow (s : State) (d : Die) (p : Pending) (c desc cost : Nat) (rd : List (Nat × Nat)) : Window :=
  { die := d, cue := p.cue, firedAt := p.firedAt, openedAt := c, desc := BitVec.ofNat 256 desc, signal := doneSignal p.raw,
    builtAt := c + cost, reads := rd,
    raced := anyMeets rd (openWrites s none ++ (laterFences s c).map (fun f => (f.base, f.len))), outputs := [], built := [], cost := 0, failed := false,
    lastDone := c + cost - 1 }

/-- A builder that writes arrays: TENANT_BIND, ROUTE_ALLOC. Its outputs are computed from the window's first cycle (sp. 07 R193); a
tenant mix fails the step when the build ends (R197). -/
def openArrays (s : State) (d : Die) (p : Pending) (c desc blk : Nat) (r : BuildOut) : State :=
  let n := buildCost (wdBuilder desc) blk
  let s1 := readAll (whoPrompter p.cue) s r.reads
  let w0 := openedWindow s d p c desc n r.reads
  let w := { w0 with outputs := r.writes, failed := r.mix.isSome, raced := w0.raced || anyMeets (rangesOf r.writes) (openWrites s none) }
  let s2 := addWindow (otherWrites s1 none (rangesOf r.writes)) w
  match r.mix with
  | none => s2
  | some (a, b) =>
    stopFiring (raise s2 { kind := 0x0C, place := dieplace d, unit := 8, inst := 0, cue := p.cue, d0 := a, d1 := b, alarm := .every })
      2 true (c + n)

/-- EXPERT_LIST (sp. 07 R208, sp. 02 R54): a rejected command, or a list beyond WINDOW_LEN - BUILD_LEN, fails the step; otherwise
the commands are built. -/
def openList (s : State) (d : Die) (p : Pending) (c desc blk : Nat) : State :=
  let n := buildCost 3 blk
  let rd := [(wdResult desc + 4 * bits blk 511 503, 4 * bits blk 502 494)]
  let s1 := readAll (whoPrompter p.cue) s rd
  let w := openedWindow s d p c desc n rd
  let fills := fillsOf s1 blk (wdResult desc)
  let s2 := fills.2
  match planList blk fills.1 (sheet s) (templatesOf (sheet s) p.raw) with
  | .error u => overrun (addWindow s2 { w with failed := true }) d p.cue 3 (some u) 0 (c + n)
  | .ok l =>
    let cost := pathCost s l
    if wdLen desc - wdBuild desc < cost then overrun (addWindow s2 { w with failed := true, cost := cost }) d p.cue 3 none cost (c + n)
    else signalEmpty (addWindow s2 { w with built := l.filterMap builtOf, cost := cost }) d l (c + n)

/-- The pending WINDOW_OPEN cue of a die, with the builder wanted, starts in cycle `c`: the window's first (sp. 02 R52). -/
def openWindow (s : State) (d : Die) (builder : Nat) (f : State → Pending → Nat → Nat → Nat → State) : State :=
  let u := UnitId.control d
  let t := readyAt s u
  match startable t u 1 with
  | none => s
  | some (p, c) =>
    let desc := ofLE ((sheet t).desc (cDesc p.raw) 32)
    if wdBuilder desc ≠ builder then s
    else
      let t1 := leavePending t u p c
      f (setUnit t1 u { unit t1 u with freeAt := c }) p c desc (ofLE ((sheet t).desc (cDesc p.raw + 1) 64))

def execTenantBind (die : Die) (s : State) : Result :=
  .next (openWindow s die 1 (fun t p c desc blk => openArrays t die p c desc blk (bindBuild (asOf t c) die.val blk (wdResult desc))))

def execRouteAlloc (die : Die) (s : State) : Result :=
  .next (openWindow s die 2 (fun t p c desc blk => openArrays t die p c desc blk (routeBuild (asOf t c) die.val blk (wdResult desc))))

def execExpertList (die : Die) (s : State) : Result :=
  .next (openWindow s die 3 (fun t p c desc blk => openList t die p c desc blk))

/-! ## Issue -/

/-- The first command of a list that is not issued and goes to the unit, marked issued. -/
def takeBuilt (u : UnitId) : List Built → Option (Built × List Built)
  | [] => none
  | b :: r =>
    if b.unit = u ∧ !b.issued then some (b, { b with issued := true } :: r)
    else (takeBuilt u r).map (fun x => (x.1, b :: x.2))

/-- The oldest open window of the die with a command for the unit, that command, and the windows with it issued. -/
def takeWindow (d : Die) (u : UnitId) : List Window → Option (Window × Built × List Window)
  | [] => none
  | w :: r =>
    match (if w.die = d then takeBuilt u w.built else none) with
    | some (b, l) => some (w, b, { w with built := l } :: r)
    | none => (takeWindow d u r).map (fun x => (x.1, x.2.1, w :: x.2.2))

/-- The first cycle from which a built command's wait holds, as far as the last change tells (sp. 07 R209). -/
def builtFrom (s : State) (d : Die) (b : Built) : Option Nat :=
  match b.wait with
  | none => some 0
  | some (i, v) =>
    if seenValue s d i < v then none
    else if v ≤ waitValue s d i then some 0 else some (s.stage.changedAt + 1)

/-- The cycle in which a prompter issues a built command: built, its wait holding, its unit free and lent, the consumers before it of
its predictor slot done (sp. 02 R53, R57, sp. 05 R152, sp. 07 R209). -/
def issueCycle (s : State) (w : Window) (d : Die) (u : UnitId) (b : Built) : Option Nat :=
  match builtFrom s d b, freeSince (unitKey u) (unit s u), priorSince s u b.opcode.toNat b.desc with
  | some m, some f, some q => lentFrom s u b.opcode.toNat (max w.builtAt (max m (max f q)))
  | _, _, _ => none

/-- A prompter issues the unit's next built command, once it is built, inside the window (sp. 02 R53, sp. 07 R209), in the first cycle
from now on in which it may. -/
def issueBuilt (s : State) (d : Die) (u : UnitId) : State :=
  let s0 := settle s
  match takeWindow d u s0.stage.windows with
  | none => s
  | some (w, b, ws) =>
    match issueCycle s0 w d u b with
    | none => s
    | some m =>
      let c := max m s0.now
      if !reaches s0 c || unitDie u ≠ d || decide (w.openedAt + wdLen w.desc.toNat ≤ c) then s else
      let t := clockTo s0 c
      let s1 := { t with stage := { t.stage with windows := ws } }
      let s2 := if b.onStart then signalOpt s1 d c b.signal else s1
      beginWork (nameSlots s2 (slotNamed s2 u b.opcode.toNat b.desc)) u b.opcode.toNat w.cue c c (if b.onStart then none else b.signal)
        (some w.cue) b.desc (workOf s2 u b.opcode.toNat w.cue b.desc true)

def execPrompterIssue (die : Die) (u : UnitId) (s : State) : Result := .next (issueBuilt s die u)

/-! ## Close (sp. 02 R55, sp. 07 R194) -/

/-- The units that a window names (sp. 02 Table 2-8), by ascending key. -/
def namedUnits (d : Die) (desc : Nat) : List UnitId :=
  ((List.range 16).filter (fun k => bit desc (48 + k))).map (fun k => UnitId.array ⟨d, false, Fin.ofNat 32 k⟩) ++
  ((List.range 32).filter (fun k => bit desc (16 + k))).map (fun k => UnitId.array ⟨d, true, Fin.ofNat 32 k⟩) ++
  ((List.range 4).filter (fun k => bit desc (12 + k))).map (fun k => UnitId.vector d (Fin.ofNat 4 k)) ++
  (if bit desc 3 then [UnitId.optimizer d] else []) ++
  ((List.range 8).filter (fun k => bit desc (4 + k))).map (fun k => UnitId.gme d (Fin.ofNat 8 k)) ++
  (if bit desc 2 then [UnitId.layout d] else [])

/-- The work a unit of the window holds at its close: commands of the window, and cues that fired before it (sp. 02 R55). -/
def unitWork (v : UnitSt) : List Running := v.tail ++ v.running.toList

/-- The units of a window that are still busy, or have commands of it unissued, by ascending key (sp. 02 R55). -/
def busyUnits (s : State) (w : Window) : List UnitId :=
  (namedUnits w.die w.desc.toNat).filter (fun u =>
    !(unitWork (unit s u)).isEmpty || w.built.any (fun x => x.unit = u && !x.issued))

/-- The tiles of a DME command written in full by the end of cycle `e` (sp. 04 R117): tile k by a + F + X + the costs up to it - 1. -/
def tilesBy (r : Running) (e : Nat) : Nat :=
  let lead := r.startedAt + 4 + (r.cycles - (r.tiles.map (·.1)).sum)
  ((List.range r.tiles.length).filter (fun k => decide (lead + ((r.tiles.take (k + 1)).map (·.1)).sum ≤ e + 1))).length

/-- The tiles or positions that a command stopped at the end of cycle `e` has done: what the environment says, within what it can have
done by then and has to do; `lost` of its cycles were stalls. -/
def doneBy (u : UnitId) (r : Running) (n lost last : Nat) : Nat :=
  let e := last - lost
  match u with
  | .array _ => min n (tilesBy r e)
  | .gme _ _ => min n (min (bits (ofLE r.record) 255 224) (64 * (e + 1 - (r.startedAt + 4))))
  | _ => n

/-- The writes of a stopped command (sp. 04 R119, sp. 06 Table 6-7, sp. 08 Table 8-12): what was written in full stands, as it lands;
the tile in progress, or every later row, is undefined. `n` tiles or positions were done. -/
def stopWrites (u : UnitId) (n : Nat) (s : State) (r : Running) : List (Nat × List Byte) × State :=
  let kept (i : Nat) : Bool := match u with
    | .array _ => decide (r.due.getD i 0 ≤ n)
    | .gme _ _ => decide (r.due.getD i 0 ≤ n)
    | _ => false
  let touched (i : Nat) : Bool := match u with
    | .array _ => decide (r.due.getD i 0 = n + 1)
    | _ => true
  landWrites u r (fun i => !kept i) ((numbered r.writes).filter (fun x => kept x.1 || touched x.1)) s

/-- A count of a stopped DME command: those of the tiles written, and as much of the tile in progress as a free value says. -/
def stoppedCount (l : List Nat) (n free : Nat) : Nat := (l.take n).sum + free % ((l.drop n).headD 0 + 1)

/-- The record of a stopped DME command (sp. 04 R118): STATUS = 2 and the tiles written; each count is that of the tiles written with a
part of the tile in progress, whose extent is free (log 44). What another party or a fence spoilt of its tiles leaves their counts free. -/
def stopDme (u : UnitId) (n : Nat) (r : Running) (f : List Byte) : List Byte :=
  let at_ (k : Nat) : Nat := stoppedCount (dmeColumn u r k) n (leAt f (4 * k) 4) + dmeFree u r k (leAt f (4 * k) 4)
  dmeRecord n (at_ 0) (at_ 1) (at_ 2) (at_ 3) (at_ 4) (at_ 5) (at_ 6) 2

/-- The record of a stopped command: STATUS = 2 and, for the DME and the GME, the tiles or positions done; the reserved field zero;
the other fields are undefined (log 44). -/
def stopRecord (u : UnitId) (n : Nat) (r : Running) (p : List Byte) : List Byte :=
  let w := ofLE p
  match u with
  | .array _ => stopDme u n r p
  | .gme _ _ => toLE 32 (setBits (setBits (setBits (setBits w 255 224 n) 31 8 0xFFFFFF) 7 4 2) 3 0 0)
  | .vector _ _ => toLE 32 (setBits (setBits w 95 8 0) 7 0 0x20)
  | .optimizer _ => toLE 32 (setBits (setBits w 84 8 0) 7 0 0x20)
  | _ => toLE 32 (setBits (setBits w 79 8 0) 7 0 0x20)

/-- One unfinished command is stopped at the end of cycle `e` (sp. 02 R55); a halted one keeps its record (sp. 06 R183). A predictor
slot keeps the counts of the tiles written (sp. 05 Table 5-9): they enter it as a completed consumer's do, and can turn it (DESIGN
CHOICE, log 79). Its stalls until then are traced. -/
def stopRunning (u : UnitId) (q : Progress) (e : Nat) (s : State) (r : Running) : State :=
  if r.halted then s else
  let who := whoUnit u r.cue
  let k := doneBy u r q.done ((q.stalls.map (·.cycles)).sum) e
  let x := stopWrites u k s r
  let f := drawBytes 32 x.2
  let s1 := underFences f.2 r.fenced (fun t =>
    storeFree (writeAll who t (x.1 ++ [(r.recAt, stopRecord u k r f.1)])) (r.clash ++ chosenRows u r))
  let s2 := traceStalls (blurHits f.2 s1 r.fenced (mergeBlocks r.reads)) u r.cue e q.stalls
  let z := landPreds r s2
  match sumPreds (z.1.take k) with
  | none => z.2
  | some p => addPred (unitDie u) u r.cue e z.2 p

/-- A unit is stopped at the window's close, in cycle `e`: what it runs discarded, WINDOW_OVERRUN recorded (sp. 02 R55). -/
def stopUnit (w : Window) (e : Nat) (s : State) (x : UnitId × Progress) : State :=
  let u := x.1
  let s1 := (unitWork (unit s u)).foldl (stopRunning u x.2 e) s
  let v := unit s1 u
  let s2 := setUnit s1 u { v with running := none, tail := [], freeAt := e + 1 }
  raise s2 { kind := 0x04, place := dieplace w.die, unit := unitKind u, inst := unitInst u, cue := w.cue,
             d0 := wdBuilder w.desc.toNat + 2 ^ 8 + unitKind u * 2 ^ 16 + unitInst u * 2 ^ 24, d1 := w.cost, alarm := .every }

/-- Each stopped unit with how far it has come, as the environment says in ascending order of units. -/
def withProgress : List UnitId → List Progress → List (UnitId × Progress)
  | [], _ => []
  | u :: r, [] => (u, { done := 0, stalls := [] }) :: withProgress r []
  | u :: r, n :: l => (u, n) :: withProgress r l

/-- The builder's outputs as they become visible: undefined where another party wrote what the builder reads, or the outputs, while it
built (sp. 07 R211). -/
def windowOut (s : State) (w : Window) : List (Nat × List Byte) × State := drawWrites (w.outputs.map (fun x => (x, w.raced))) s

/-- The window closes: in its last cycle the builder's outputs are visible and the WINDOW_OPEN completes (sp. 07 R194); then every
unit still busy is stopped (sp. 02 R55); cycles that nothing used are idle. -/
def closeWindow (s : State) (w : Window) (written : List Progress) : State :=
  let last := w.openedAt + wdLen w.desc.toNat - 1
  let s1 := settle (clockTo s last)
  let o := windowOut s1 w
  let s2 := writeAll (whoPrompter w.cue) o.2 o.1
  let s3 := noteDone (signalOpt (traceAt s2 last 5 (dieplace w.die) 0 0 w.cue 0 (last - w.firedAt)) w.die last w.signal) none w.die last
  let s4 := { s3 with stage := { s3.stage with windows := s3.stage.windows.filter (fun x => !(x.die = w.die && x.cue = w.cue)) } }
  match busyUnits s4 w with
  | [] =>
    if w.failed then s4
    else { s4 with step := { s4.step with idleCycles := stopAt top64 (s4.step.idleCycles + (last - w.lastDone)) } }
  | us =>
    let s5 := clockTo s4 (last + 1)
    stopFiring ((withProgress us written).foldl (stopUnit w last) s5) 2 true (last + 1)

def execWindowClose (die : Die) (cue : Nat) (written : List Progress) (s : State) : Result :=
  match s.stage.windows.find? (fun w => w.die = die && w.cue = cue) with
  | none => .next s
  | some w => if reaches s (w.openedAt + wdLen w.desc.toNat - 1) then .next (closeWindow s w written) else .next s

end Sys2Proof.Machine
end

