-- ==== Sys2Proof/Machine/Dma.lean ====
section
/-! DEFINITION. DMA channels (sp. 10 R295-R310): descriptors, transfers and their faults, the channel registers; and the transfers to
peers (sp. 11 R336-R343) as their channel sees them. -/

namespace Sys2Proof.Machine

/-! ## Descriptors and transfers -/

/-- The common fields of a DMA descriptor (sp. 10 Table 10-2, sp. 11 Table 11-7). -/
structure Dma where
  src : Nat
  dst : Nat
  rowBytes : Nat
  rows : Nat
  srcStride : Int
  dstStride : Int
  doneOff : Nat
  deriving DecidableEq, Repr

/-- They, from the 512-bit descriptor. -/
def parseDma (w : Nat) : Dma :=
  { src := bits w 511 448, dst := bits w 447 384, rowBytes := bits w 383 360, rows := bits w 359 336,
    srcStride := signed 40 (bits w 335 296), dstStride := signed 40 (bits w 295 256), doneOff := bits w 247 220 }

/-- The address of row `r` (sp. 10 R298). -/
def rowAt (base : Nat) (stride : Int) (r : Nat) : Nat := unsigned 64 ((base : Int) + (r : Int) * stride)

/-- The local address [55:0] of a global one (sp. 01 R21). -/
def localOf (a : Nat) : Nat := bits a 55 0

/-- This device's ID, 0 when not set. -/
def ownId (s : State) : Nat := (s.cfg.deviceId.getD 0).toNat

/-- The global address of a local one of this device. -/
def globalOf (s : State) (a : Nat) : Nat := ownId s * 2 ^ 56 + a

/-- The transfers of a COPY: each row split at every 256-B boundary of its destination, in row and address order (sp. 10 R298). -/
def copyMoves (d : Dma) : List Move :=
  ((List.range d.rows).map (fun r =>
    let a := rowAt d.src d.srcStride r
    let b := rowAt d.dst d.dstStride r
    (pieces b d.rowBytes).map (fun p => ({ src := a + (p.1 - b), dst := p.1, len := p.2 } : Move)))).flatten

/-- The fault of one byte at a local address: 2 firmware region, 4 a write to tally space, 3 unmapped (sp. 09 Table 9-8, sp. 10
Table 10-5). -/
def byteFault (a : Nat) (write : Bool) : Option Nat :=
  if decodes a 1 write then none
  else if fwBase ≤ a ∧ a < hbmEnd then some 2
  else if tallyBase ≤ a ∧ a < tallyBase + 0x20000 then some 4 else some 3

/-- The fault of a local range: that of its first byte that does not decode. -/
def localFault (a n : Nat) (write : Bool) : Option Nat :=
  if decodes a n write then none else (List.range n).findSome? (fun i => byteFault (a + i) write)

/-- The address decode of a global range (sp. 10 R309): an address of another device is unmapped, and every address is while the device
has no ID (sp. 09 R272). -/
def decodeFault (s : State) (a n : Nat) (write : Bool) : Option Nat :=
  if s.cfg.deviceId.isNone ∨ bits a 63 56 ≠ ownId s then some 3 else localFault (localOf a) n write

/-- Some byte of a local range meets a bank that is not ON; a fenced byte reaches no bank (sp. 09 R261, R288). -/
def bankFault (s : State) (a n : Nat) : Bool :=
  (List.range n).any (fun i => !fencedAt s (a + i) && gatedAt s (swapAddr s (a + i)))

/-- A bus error: its cause, its direction (true: the destination write) and the first byte of the failing transfer (sp. 10 R309,
Table 10-5). -/
structure BusError where
  cause : Nat
  dir : Bool
  addr : Nat
  deriving DecidableEq, Repr

/-- The decode fault of a transfer: the source read comes first (sp. 10 R309). -/
def moveDecode (s : State) (m : Move) : Option BusError :=
  match decodeFault s m.src m.len false with
  | some c => some ⟨c, false, m.src⟩
  | none =>
    match decodeFault s m.dst m.len true with
    | some c => some ⟨c, true, m.dst⟩
    | none => none

/-- The bus error that a transfer meets now, if any. -/
def moveFault (s : State) (m : Move) : Option BusError :=
  match moveDecode s m with
  | some e => some e
  | none =>
    if bankFault s (localOf m.src) m.len then some ⟨1, false, m.src⟩
    else if bankFault s (localOf m.dst) m.len then some ⟨1, true, m.dst⟩ else none

/-- One transfer takes effect: the source is read and checked, the destination written; what it writes is undefined when `undefd`. -/
def applyMove (who : Who) (s : State) (m : Move) (undefd : Bool) : State :=
  let p := load s (localOf m.src) m.len
  let s1 := touchRead who s (localOf m.src) m.len
  let d := if undefd then drawBytes m.len s1 else (p, s1)
  writeMem who d.2 (localOf m.dst) d.1

/-- The local ranges that transfers read, and those that they write. -/
def moveSources (l : List Move) : List (Nat × Nat) := l.map (fun m => (localOf m.src, m.len))
def moveDests (l : List Move) : List (Nat × Nat) := l.map (fun m => (localOf m.dst, m.len))

/-- Transfers take effect in order. A transfer's bytes are undefined where a detection falls in it (by its number from 1) or its source
meets `bad` (sp. 09 R256, R274). -/
def applyMoves (who : Who) (s : State) (l : List Move) (parts : List Nat) (bad : List (Nat × Nat)) : State :=
  (numbered l).foldl (fun t x =>
    applyMove who t x.2 (parts.contains (x.1 + 1) || bad.any (meets (localOf x.2.src, x.2.len)))) s

/-- The transfer touches a fenced region. -/
def moveHit (s : State) (m : Move) : Bool :=
  decide (0 < hitsOf s (localOf m.src) m.len ∨ 0 < hitsOf s (localOf m.dst) m.len)

/-- The transfer touches what fences of a list take. -/
def moveTaken (l : List Fence) (m : Move) : Bool := !(takenBy l [(localOf m.src, m.len), (localOf m.dst, m.len)]).isEmpty

/-- FENCE_HITS of transfers that take effect (sp. 10 R302): those that fences touched from the start on, and of those that fences of
`new` took, which began meanwhile, a number that no rule fixes. -/
def moveHits (s : State) (new : List Fence) (l : List Move) : Nat × State :=
  let old := (l.filter (fun m => moveHit s m && !moveTaken new m)).length
  if new.isEmpty then (old, s) else
  let k := drawUpTo (l.filter (moveTaken new)).length s
  (old + k.1, k.2)

/-- Bytes of a list of transfers. -/
def moveBytes (l : List Move) : Nat := (l.map (·.len)).sum

/-- The detections counted so far: a completion compares them to see whether its own accesses met one (sp. 09 R256). -/
def detections (s : State) : Nat :=
  (s.mem.counters.det.map (·.2)).sum + (s.mem.counters.hbmBad.map (·.2)).sum

/-- The completion record of sp. 10 Table 10-3. -/
def dmaRecord (bytes transfers hits status cause : Nat) : List Byte :=
  toLE 32 (stopAt top32 bytes * 2 ^ 224 + stopAt top32 transfers * 2 ^ 192 + stopAt top32 hits * 2 ^ 160 + status * 16 + cause)

/-! ## A channel's run -/

/-- The channel's unit. -/
def chanUnit (d : Die) (n : Fin 128) : UnitId := .channel d n

/-- The run of a DMA cue that started in cycle `c`: its transfers, what it reads and writes of local memory beside its record. -/
def dmaRun (d : Die) (c : Nat) (p : Pending) (op w : Nat) (moves : List Move) (reads dest : List (Nat × Nat)) : Running :=
  { cue := p.cue, opcode := BitVec.ofNat 8 op, firedAt := p.firedAt, startedAt := c, cycles := 0, writes := [], due := [],
    recAt := scratchOf d.val + (parseDma w).doneOff, record := [], signal := doneSignal p.raw, preds := [], halted := false,
    window := none, moves := moves, port := none, send := SendSt.zero, desc := [], reads := reads,
    dest := dest ++ [(scratchOf d.val + (parseDma w).doneOff, 32)], needs := [], ctl := [], span := [], raced := [],
    clash := [], fenced := [], chances := [], tiles := [], slots := [], queued := false }

/-- The channel runs `r`. -/
def setRun (s : State) (d : Die) (n : Fin 128) (r : Running) : State :=
  setUnit s (chanUnit d n) { unit s (chanUnit d n) with running := some r }

/-- A cue begins on its channel: it meets what runs, and takes its stream (sp. 09 R273-R275). -/
def beginRun (s : State) (d : Die) (n : Fin 128) (r : Running) : State × Running :=
  let j := joinRun s (unitKey (chanUnit d n)) r
  takeStream j.1 (chanUnit d n) j.2

/-- The start of a DMA cue in cycle c (sp. 10 R300): the shadow set moves to the active set, and the channel first acts in cycle c + 4,
by `act` on the cue, its descriptor and c. Nothing happens when no cue with opcode `op` that `sel` takes may start, or the channel is
not IDLE. -/
def startDma (s : State) (d : Die) (n : Fin 128) (op : Nat) (sel : Nat → Bool) (act : State → Pending → Nat → Nat → State) : State :=
  let u := chanUnit d n
  let t := readyAt s u
  match startable t u op with
  | none => s
  | some (p, c) =>
    let w := leAt ((sheet t).desc (cDesc p.raw) 64) 0 64
    if (chan t d n).st ≠ .idle ∨ !sel w ∨ !reaches t (c + 4) then s else
    let s1 := settle (clockTo (leavePending t u p c) (c + 4))
    let x := chan s1 d n
    act (setChan s1 d n { x with st := .active, actCue := BitVec.ofNat 24 p.cue, actDesc := BitVec.ofNat 512 w, shdDesc := 0,
                                 shdFull := false, actBytes := 0, firmware := false }) p w c

/-- A stream is released (sp. 10 R301): the channel is IDLE and its end-of-count event occurs. -/
def endOfCount (s : State) (d : Die) (n : Fin 128) (bytes : Nat) : State :=
  setChan s d n { chan s d n with st := .idle, actCue := 0xFFFFFF, irqPending := true, firmware := false, queued := false,
                                  actBytes := BitVec.ofNat 32 (stopAt top32 bytes) }

/-- Firmware, as it writes a halted cue's record (sp. 10 R310). -/
def whoFirmware : Who := { unit := 22, inst := 0, cue := noCue }

/-- A bus error is latched and recorded (sp. 10 R309, R310): the FAIL fields, DMA_BUS_ERROR with its alarm. -/
def latchError (s : State) (d : Die) (n : Fin 128) (cue : Nat) (e : BusError) : State :=
  raise (setChan s d n { chan s d n with failCause := BitVec.ofNat 4 e.cause, failDir := e.dir, failAddr := BitVec.ofNat 64 e.addr })
    { kind := 0x0E, place := dieplace d, unit := 7, inst := n.val, cue := cue, d0 := e.addr, d1 := e.cause + 16 * b01 e.dir,
      alarm := .every }

/-- A halted cue: it stays, and neither reads nor writes any more. -/
def haltRun (r : Running) : Running := { r with halted := true, reads := [], dest := [] }

/-- A bus error halts the channel (sp. 10 R309, R310): latched and recorded, then the record with STATUS 3 and the transfers before the
failing one; a running cue stays, halted. -/
def haltChannel (s : State) (d : Die) (n : Fin 128) (cue recAt : Nat) (e : BusError) (bytes transfers hits : Nat) : State :=
  let u := chanUnit d n
  let s1 := latchError s d n cue e
  let s2 := setChan s1 d n { chan s1 d n with st := .halted, actBytes := BitVec.ofNat 32 (stopAt top32 bytes) }
  let s3 := writeMem whoFirmware s2 recAt (dmaRecord bytes transfers hits 3 e.cause)
  setUnit s3 u { unit s3 u with running := (unit s3 u).running.map haltRun }

/-- A DMA cue completes in cycle `c` with its record (sp. 10 R301, R302). A record that its bank refuses is a bus error (sp. 09 R261). -/
def dmaDone (s : State) (d : Die) (n : Fin 128) (r : Running) (record : List Byte) (bytes c : Nat) : State :=
  let u := chanUnit d n
  if bankFault s r.recAt 32 then
    haltChannel s d n r.cue r.recAt ⟨1, true, globalOf s r.recAt⟩ bytes (bits (ofLE record) 223 192) (bits (ofLE record) 191 160)
  else
    let s1 := storeFree (writeMem (whoUnit u r.cue) s r.recAt record) r.clash
    let s2 := endOfCount (setUnit s1 u (finished u (unit s1 u) c)) d n bytes
    let s3 := traceAt s2 c 5 (dieplace d) 7 n.val r.cue 0 (c - r.firedAt)
    noteDone (signalOpt s3 d c r.signal) none d c

/-- Parity detections on the buses and in the buffers of a place (sp. 09 R256): each counted and recorded with its row or address and
byte mask. -/
def busParity (s : State) (p : Place) (unit inst cue : Nat) (l : List Detect) : State :=
  let c := s.mem.counters
  raiseAll { s with mem := { s.mem with counters := { c with bus := Sparse.bump top32 c.bus p.val l.length } } }
    (l.map (fun x => { kind := 0x06, place := p, unit := unit, inst := inst, cue := cue, d0 := x.addr.toNat, d1 := x.mask.toNat,
                       alarm := .first }))

/-- Those of a channel. -/
def chanParity (s : State) (d : Die) (n : Fin 128) (cue : Nat) (l : List Detect) : State :=
  if l.isEmpty then s else busParity s (dieplace d) 7 n.val cue l

/-- Transfers that took effect before a bank was gated: they meet no gate (sp. 10 R309). -/
def applyEarlier (who : Who) (s : State) (l : List Move) (bad : List (Nat × Nat)) : State :=
  let s1 := applyMoves who { s with mem := { s.mem with banks := [] } } l [] bad
  { s1 with mem := { s1.mem with banks := s.mem.banks } }

/-- The destination bytes of transfers that never took effect are undefined where they exist (sp. 10 R308, R309). -/
def freeMoves (s : State) (l : List Move) : State :=
  storeFree s (moveDests (l.filter (fun m => (decodeFault s m.dst m.len true).isNone)))

/-- What transfers that take effect leave: the state, the hits for their record, and whether a detection was met. -/
structure Moved where
  st : State
  hits : Nat
  det : Bool

/-- The transfers of a cue take effect under its fences. -/
def moveAll (s : State) (d : Die) (n : Fin 128) (r : Running) (parity : List Detect) : Moved :=
  let h := moveHits s r.fenced r.moves
  let s1 := underFences h.2 r.fenced (fun t => applyMoves (whoUnit (chanUnit d n) r.cue) t r.moves (parity.map (·.part)) (spoilt r))
  { st := blurHits h.2 (chanParity s1 d n r.cue parity) r.fenced [], hits := h.1,
    det := !parity.isEmpty || decide (detections s1 ≠ detections h.2) }

/-- Every transfer of a COPY takes effect and its cue completes; nothing happens while a transfer meets a bus error. -/
def finishCopy (s : State) (d : Die) (n : Fin 128) (r : Running) (parity : List Detect) : State :=
  if (r.moves.findSome? (moveFault s)).isSome then s else
  let m := moveAll (traceWait s (chanUnit d n) r) d n r parity
  dmaDone m.st d n r (dmaRecord (moveBytes r.moves) r.moves.length m.hits (b01 m.det) 0) (moveBytes r.moves) m.st.now

/-- A COPY's first action: its transfers begin. -/
def copyAct (d : Die) (n : Fin 128) (s : State) (p : Pending) (w c : Nat) : State :=
  let l := copyMoves (parseDma w)
  let j := beginRun s d n (dmaRun d c p 0x60 w l (moveSources l) (moveDests l))
  setRun j.1 d n j.2

def execCopy (die : Die) (n : Fin 128) (s : State) : Result := .next (startDma s die n 0x60 (fun _ => true) (copyAct die n))

/-! ## Transfers to a peer (sp. 11 R336-R343) -/

/-- The bytes as data flits' payloads of 256 bytes, the last one zero-padded (sp. 11 R338). -/
def flitPayloads : Nat → List Byte → List (List Byte)
  | 0, _ => []
  | f + 1, p => if p.isEmpty then [] else
    let h := p.take 256
    (h ++ zeros (256 - h.length)) :: flitPayloads f (p.drop 256)

/-- The body of a HEAD flit from byte 16 (sp. 11 Table 11-5). -/
def headBytes (h : HeadBody) : List Byte :=
  toLE 7 h.dst.toNat ++ [0] ++ toLE 4 h.rowBytes.toNat ++ toLE 4 h.rows.toNat ++ toLE 5 h.dstStride.toNat ++
  [BitVec.ofNat 8 (h.op.toNat + 4 * h.codec.toNat + 32 * b01 h.snap)] ++ toLE 2 h.format.toNat ++ toLE 3 h.codecK.toNat ++
  toLE 4 (h.tally.toNat + 2 ^ 14 * h.inc.toNat + 2 ^ 22 * b01 h.sigEn) ++ [0] ++ toLE 8 h.bytes.toNat

/-- The flits of a transfer: HEAD, data, and END when it is whole (sp. 11 R338). -/
def transferFlits (h : HeadBody) (x : BitVec 16) (p : List Byte) (whole : Bool) : List OutFlit :=
  (flit 1 h.cls x (headBytes h) :: (flitPayloads p.length p).map (fun q => flit 0 h.cls x q) ++
    (if whole then [flit 3 h.cls x (toLE 8 p.length ++ toLE 4 (crc32c p))] else [])).map (fun f => { f with snap := h.snap })

/-- A transfer is handed to a port's transmitter; its DONE is awaited by the channel. -/
def sendTransfer (s : State) (d : Die) (n : Fin 128) (p : PortNo) (h : HeadBody) (payload : List Byte) (whole : Bool) : State :=
  let q := port s p
  let x := q.nextXfer
  let q1 := { q with nextXfer := x + 1, tx := q.tx ++ [{ xfer := x, die := d, chan := n, bytes := payload.length }] }
  setPort s p (sendFlits q1 (transferFlits h x payload whole))

/-- The port of a PEER_SEND descriptor (sp. 11 Table 11-7). -/
def sendPort (w : Nat) : PortNo := Fin.ofNat 6 (bits w 219 217)
/-- CODEC. -/
def sendCodec (w : Nat) : Nat := bits w 215 213
/-- TALLY_ONLY. -/
def sendTallyOnly (w : Nat) : Bool := bit w 210
/-- FORMAT. -/
def sendFormat (w : Nat) : Nat := bits w 186 171
/-- CODEC_K. -/
def sendK (w : Nat) : Nat := bits w 170 151

/-- The HEAD of a PEER_SEND's transfer of `bytes` payload bytes. -/
def sendHead (w bytes : Nat) : HeadBody :=
  { cls := if bit w 216 then 3 else 2, dst := BitVec.ofNat 64 (localOf (bits w 447 384)), rowBytes := BitVec.ofNat 32 (bits w 383 360),
    rows := BitVec.ofNat 32 (bits w 359 336), dstStride := BitVec.ofNat 40 (bits w 295 256), op := BitVec.ofNat 2 (bits w 212 211),
    codec := BitVec.ofNat 3 (sendCodec w), snap := false, format := BitVec.ofNat 16 (sendFormat w),
    codecK := BitVec.ofNat 24 (sendK w), tally := BitVec.ofNat 14 (bits w 208 195), inc := BitVec.ofNat 8 (bits w 194 187),
    sigEn := bit w 209, bytes := BitVec.ofNat 64 bytes }

/-- A codec tile of a dense source in transit packing, from its rows' bytes (sp. 03 R89, sp. 11 R337). -/
def transitTile (e : Nat) (scaled : Bool) (rows k : Nat) (row : Nat → List Byte) (rt kt : Nat) : CTile :=
  let r := min 32 (rows - 32 * rt)
  let c := min 32 (k - 32 * kt)
  let o := kt * (b01 scaled + packedBytes e 32)
  let part (i : Nat) : List Byte := slice (row (32 * rt + i)) o (b01 scaled + packedBytes e c)
  { codes := ((List.range r).map (fun i => unpackCodes e ((part i).drop (b01 scaled)) c)).flatten,
    scales := if scaled then (List.range r).map (fun i => byteAt (part i) 0) else [] }

/-- The ranges that a stored compressed tensor's tiles occupy: address and bytes of each, in directory order (sp. 05 R140). -/
def storedTiles (s : State) (dir rows k : Nat) : List (Nat × Nat) :=
  let base := bits (loadLE s dir 16) 127 72
  (List.range (ceilDiv rows 32 * ceilDiv k 32)).map (fun i =>
    let a := base + loadLE s (dir + 16 + 4 * i) 4
    (a, 8 + bits (loadLE s a 8) 44 32))

/-- The source reads of a PEER_SEND: its rows, or its directory and tiles (sp. 11 R338; sp. 05 Table 5-7). -/
def sendReads (s : State) (w : Nat) : List (Nat × Nat) :=
  let d := parseDma w
  if sendCodec w < 3 then (List.range d.rows).map (fun r => (rowAt d.src d.srcStride r, d.rowBytes))
  else (d.src, directorySize d.rows (sendK w)) ::
    (storedTiles s (localOf d.src) d.rows (sendK w)).map (fun x => (bits d.src 63 56 * 2 ^ 56 + x.1, x.2))

/-- The source reads as transfers of at most 256 bytes. -/
def sendMoves (s : State) (w : Nat) : List Move :=
  ((sendReads s w).map (fun x => (pieces x.1 x.2).map (fun p => ({ src := p.1, dst := 0, len := p.2 } : Move)))).flatten

/-- The bus error of a source read. -/
def readFault (s : State) (m : Move) : Option BusError :=
  match decodeFault s m.src m.len false with
  | some c => some ⟨c, false, m.src⟩
  | none => if bankFault s (localOf m.src) m.len then some ⟨1, false, m.src⟩ else none

/-- A stored tile as it leaves: padded as its stream holds it; a zero tile where any of it is fenced (sp. 05 Table 5-9). -/
def sendStored (s : State) (w rows : Nat) (x : (Nat × Nat) × (Nat × Nat)) (ea : Nat) : List Byte :=
  let dir := localOf (parseDma w).src
  let scaled := decide (fScale (sendFormat w) = 1)
  let r := min 32 (rows - 32 * x.1.1)
  let c := min 32 (sendK w - 32 * x.1.2)
  if rangeFenced s dir 16 || rangeFenced s ea 4 || rangeFenced s x.2.1 x.2.2 then
    padTo8 (encodeTile (fElem (sendFormat w)) r c (zeroCTile scaled r c)).2
  else padTo8 (load s x.2.1 x.2.2)

/-- The payload of a PEER_SEND (sp. 11 R338): the rows, or the encoded tiles in directory order, each padded as the stream holds
it (sp. 05 R140). -/
def sendPayload (s : State) (w : Nat) : List Byte :=
  let d := parseDma w
  let e := fElem (sendFormat w)
  let scaled := decide (fScale (sendFormat w) = 1)
  let row (r : Nat) : List Byte := load s (localOf (rowAt d.src d.srcStride r)) d.rowBytes
  if sendCodec w = 0 then ((List.range d.rows).map row).flatten
  else if sendCodec w < 3 then
    ((tileGrid d.rows (sendK w)).map (fun x =>
      padTo8 (encodeTile e (min 32 (d.rows - 32 * x.1)) (min 32 (sendK w - 32 * x.2))
        (transitTile e scaled d.rows (sendK w) row x.1 x.2)).2)).flatten
  else
    let g := (tileGrid d.rows (sendK w)).zip (storedTiles s (localOf d.src) d.rows (sendK w))
    ((numbered g).map (fun x => sendStored s w d.rows x.2 (localOf d.src + 16 + 4 * x.1))).flatten

/-- The transfers before the first that meets a fault. -/
def beforeFault (s : State) (l : List Move) : List Move := l.takeWhile (fun m => (readFault s m).isNone)

/-- The source reads of a send or a stream are made (sp. 10 R309): those before the first that meets a fault are counted and checked;
the run keeps them, the fault if there is one, and whether a detection was met. -/
def readSources (s : State) (d : Die) (n : Fin 128) (r : Running) : State × Running :=
  let good := beforeFault s r.moves
  let s1 := good.foldl (fun t m => touchRead (whoUnit (chanUnit d n) r.cue) t (localOf m.src) m.len) s
  (s1, { r with moves := good,
                send := { r.send with status := b01 (decide (detections s1 ≠ detections s)),
                                      hits := (mergeBlocks (moveSources good) |>.filter (pieceFenced s)).length,
                                      fault := (r.moves.findSome? (readFault s)).map (fun e => (e.cause, e.addr)) } })

/-- What leaves of a payload: undefined where another party writes what it was read from (sp. 09 R274). -/
def sentBytes (r : Running) (p : List Byte) (s : State) : List Byte × State :=
  if (spoilt r).isEmpty then (p, s) else drawBytes p.length s

/-- The start of a send or stream: its first action (`act`), or, of one whose stream had to wait, what it does with its place (`go`). The same
command tells of both (DESIGN CHOICE, log 76). -/
def startOrGo (s : State) (d : Die) (n : Fin 128) (op : Nat) (sel : Nat → Bool) (act : State → Pending → Nat → Nat → State)
    (go : State → Running → Nat → State) : State :=
  let u := chanUnit d n
  let w := (chan s d n).actDesc.toNat
  match (unit s u).running with
  | some r =>
    if r.queued && !r.halted && r.opcode.toNat = op && sel w && streamRuns s u r then go (traceWait s u r) { r with queued := false } w
    else startDma s d n op sel act
  | none => startDma s d n op sel act

/-- A PEER_SEND reads and sends (sp. 11 R338, sp. 10 R309): a source fault stops the transfer after the whole data flits before it, without
END. -/
def sendGo (d : Die) (n : Fin 128) (s : State) (r : Running) (w : Nat) : State :=
  let pt := sendPort w
  let x := readSources s d n r
  let whole := x.2.send.fault.isNone
  let payload := if whole then sendPayload s w
    else if sendCodec w = 0 then
      ((x.2.moves.map (fun m => load s (localOf m.src) m.len)).flatten).take (moveBytes x.2.moves / 256 * 256)
    else []
  let b := sentBytes x.2 payload x.1
  let flits := (flitPayloads b.1.length b.1).length
  let xf := (port b.2 pt).nextXfer
  let s2 := sendTransfer b.2 d n pt (sendHead w b.1.length) b.1 whole
  setRun s2 d n { x.2 with port := some (pt, xf), reads := [], send := { x.2.send with todo := 1, flits := flits, hits := 0 } }

/-- A PEER_SEND's first action (sp. 11 R337, sp. 10 R309): a port not UP halts the channel. -/
def sendAct (d : Die) (n : Fin 128) (s : State) (p : Pending) (w c : Nat) : State :=
  let l := if sendTallyOnly w then [] else sendMoves s w
  let r0 := dmaRun d c p 0x61 w l (moveSources l) []
  if (port s (sendPort w)).st ≠ .up then haltChannel (setRun s d n r0) d n p.cue r0.recAt ⟨5, true, bits w 447 384⟩ 0 0 0
  else
    let j := beginRun s d n r0
    if j.2.queued then setRun j.1 d n j.2 else sendGo d n j.1 j.2 w

def execPeerSend (die : Die) (n : Fin 128) (s : State) : Result :=
  .next (startOrGo s die n 0x61 (fun w => !sendTallyOnly w) (sendAct die n) (sendGo die n))

/-- The body of a TALLY flit with one entry (sp. 11 Table 11-5). -/
def tallyBody (w : Nat) : List Byte := toLE 8 (bits w 208 195 * 2 ^ 50 + bits w 194 187 * 2 ^ 42)

/-- A TALLY_ONLY cue sends its signal as one TALLY flit, whose ACK completes it (sp. 11 R340). -/
def tallyGo (d : Die) (n : Fin 128) (s : State) (r : Running) (w : Nat) : State :=
  let pt := sendPort w
  let f := { flit 5 1 0 (tallyBody w) with owner := 1 + chanKey d n }
  setRun (setPort s pt (sendFlits (port s pt) [f])) d n { r with port := some (pt, 0) }

/-- Its first action. -/
def tallyAct (d : Die) (n : Fin 128) (s : State) (p : Pending) (w c : Nat) : State :=
  let r := dmaRun d c p 0x61 w [] [] []
  if (port s (sendPort w)).st ≠ .up then haltChannel (setRun s d n r) d n p.cue r.recAt ⟨5, true, bits w 447 384⟩ 0 0 0
  else
    let j := beginRun s d n r
    if j.2.queued then setRun j.1 d n j.2 else tallyGo d n j.1 j.2 w

def execTallyOnly (die : Die) (n : Fin 128) (s : State) : Result :=
  .next (startOrGo s die n 0x61 sendTallyOnly (tallyAct die n) (tallyGo die n))

/-- The progress of a tier, in bytes of the order in which the image is sent: sections first, header last (sp. 14 R415). -/
def imgSent (i : Image) (t : Nat) : Nat := if t = 1 then i.sent1 else if t = 2 then i.sent2 else i.sent3

/-- It, moved. -/
def setSent (i : Image) (t v : Nat) : Image :=
  if t = 1 then { i with sent1 := v } else if t = 2 then { i with sent2 := v } else { i with sent3 := v }

/-- The progress of a tier moves by what a STREAM takes to send (sp. 14 R415). -/
def moveProgress (s : State) (t adv : Nat) : State :=
  match s.secure.image with
  | none => s
  | some i => { s with secure := { s.secure with image := some (setSent i t (imgSent i t + adv)) } }

/-- What a STREAM took has not all been sent well: the tier goes on from where that STREAM began (sp. 14 Tables 14-7, 14-12). -/
def streamBack (s : State) (d : Die) (n : Fin 128) (r : Running) : State :=
  let t := bits (chan s d n).actDesc.toNat 324 323
  match s.secure.image with
  | none => s
  | some i =>
    if r.opcode = 0x62 ∧ r.send.adv ≠ 0 then { s with secure := { s.secure with image := some (setSent i t (min (imgSent i t) r.send.base)) } }
    else s

/-- A transfer's DONE has come for the channel's cue (sp. 11 R340, R341): the record and completion, or the halt with the values that
DONE reports. For a streamed image more than one may be awaited. Once firing has stopped the cue is abandoned (sp. 02 R493). -/
def sendDone (s : State) (d : Die) (n : Fin 128) (b : DoneBody) : State :=
  match (unit s (chanUnit d n)).running with
  | none => s
  | some r =>
    if r.halted ∨ r.send.todo = 0 ∨ stopNow s then s
    else if b.status = 3 then
      haltChannel (streamBack s d n r) d n r.cue r.recAt ⟨b.cause.toNat, b.failDir, b.failAddr.toNat⟩ (r.send.bytes + b.bytes.toNat) r.send.flits
        (r.send.hits + b.fenceHits.toNat)
    else
      let q := { r.send with todo := r.send.todo - 1, hits := r.send.hits + b.fenceHits.toNat,
                             bytes := r.send.bytes + b.bytes.toNat, status := max r.send.status (b01 (decide (b.status = 1))) }
      if q.todo = 0 then
        let s1 := if q.status = 0 then s else streamBack s d n r
        dmaDone s1 d n r (dmaRecord q.bytes q.flits q.hits q.status 0) q.bytes s1.now
      else setRun s d n { r with send := q }

/-! ## Securing streams (sp. 14 R412-R417) -/

/-- Fields of a SNAPSHOT descriptor (sp. 14 Table 14-5). -/
def snLength (w : Nat) : Nat := bits w 383 344
def snSection (w : Nat) : Nat := bits w 343 336
def snKind (w : Nat) : Nat := bits w 326 325
def snTier (w : Nat) : Nat := bits w 324 323
def snPort (w : Nat) : PortNo := Fin.ofNat 6 (bits w 322 320)

/-- The valid state region in which a local range lies as the plan addresses it, and the offset there (sp. 14 R413, R414). -/
def sectionRegion (s : State) (a n : Nat) : Option (Nat × Nat) :=
  s.cfg.regions.findSome? (fun e =>
    let b := bits e.2.toNat 127 112 * 2 ^ 24
    if entryBit e.2 79 && decide (b ≤ a ∧ a + n ≤ b + bits e.2.toNat 95 80 * 2 ^ 24) then some (e.1, a - b) else none)

/-- The transfers of a FREEZE: one row of LENGTH bytes. -/
def freezeMoves (w : Nat) : List Move :=
  copyMoves { src := bits w 511 448, dst := bits w 447 384, rowBytes := snLength w, rows := 1, srcStride := 0, dstStride := 0,
              doneOff := 0 }

/-- A FREEZE starts (sp. 14 R413): it copies its section in a step that freezes; a source outside one valid state region discards
the image. -/
def freezeAct (d : Die) (n : Fin 128) (s : State) (p : Pending) (w c : Nat) : State :=
  let l := if s.step.freezes then freezeMoves w else []
  let j := beginRun s d n (dmaRun d c p 0x62 w l (moveSources l) (moveDests l))
  let t := j.1
  let s1 := if t.step.freezes ∧ (sectionRegion t (localOf (bits w 511 448)) (snLength w)).isNone then
    (if t.secure.st = .freezing then discardImage t 2 else t) else t
  setRun s1 d n j.2

def execFreeze (die : Die) (n : Fin 128) (s : State) : Result :=
  .next (startDma s die n 0x62 (fun w => snKind w = 0) (freezeAct die n))

/-- The section is recorded in the image being frozen; when every section is, the image is held (sp. 14 R413, R417). -/
def recordSection (s : State) (w crc status : Nat) : State :=
  match s.secure.image with
  | none => s
  | some i =>
    if s.secure.st ≠ .freezing then s
    else if status ≠ 0 then discardImage s 1
    else
      match sectionRegion s (localOf (bits w 511 448)) (snLength w) with
      | none => s
      | some (k, off) =>
        let i' := { i with done := i.done ++ [{ num := snSection w, region := k, off := off, len := snLength w,
                                                crc := BitVec.ofNat 32 crc, addr := localOf (bits w 447 384) }] }
        { s with secure := { s.secure with image := some i', st := if i'.done.length = i'.sections then .held else .freezing } }

/-- A FREEZE completes (sp. 14 R413): with its copy and the CRC of what it read, or empty in the fourth cycle after its first action. -/
def finishFreeze (s : State) (d : Die) (n : Fin 128) (r : Running) (w : Nat) (parity : List Detect) : State :=
  if r.moves.isEmpty then dmaDone s d n r (dmaRecord 0 0 0 0 0) 0 (r.startedAt + 8)
  else if (r.moves.findSome? (moveFault s)).isSome then s
  else
    let m := moveAll (traceWait s (chanUnit d n) r) d n r parity
    let t := if (spoilt r).isEmpty then s else m.st
    let l := if (spoilt r).isEmpty then moveSources r.moves else moveDests r.moves
    let crc := crc32c ((l.map (fun x => load t x.1 x.2)).flatten)
    recordSection (dmaDone m.st d n r (dmaRecord (moveBytes r.moves) r.moves.length m.hits (b01 m.det) 0) (moveBytes r.moves) m.st.now)
      w crc (b01 m.det)

/-! ### The image (sp. 14 R414) -/

/-- The sections in SECTION order. -/
def imgSections (i : Image) : List ImgSection := i.done.mergeSort (fun a b => decide (a.num ≤ b.num))

/-- The bytes of the header, its entries and their padding. -/
def imgHead (i : Image) : Nat := 256 * ceilDiv (64 + 32 * i.sections) 256

/-- I: the length of the image. -/
def imgLen (i : Image) : Nat := imgHead i + (i.done.map (·.len)).sum

/-- The sections with their offsets in the image, from offset `o`. -/
def imgPlaces : Nat → List ImgSection → List (Nat × ImgSection)
  | _, [] => []
  | o, x :: r => (o, x) :: imgPlaces (o + x.len) r

/-- The header with its entries (sp. 14 Table 14-6), zero-padded. -/
def imgHeader (i : Image) : List Byte :=
  let es := ((imgPlaces (imgHead i) (imgSections i)).map (fun x =>
    toLE 32 (x.2.region * 2 ^ 250 + x.2.off * 2 ^ 200 + x.2.len * 2 ^ 160 + x.1 * 2 ^ 120 + x.2.crc.toNat))).flatten
  let w := 0x0014 * 2 ^ 496 + i.id.toNat / 2 ^ 56 * 2 ^ 488 + i.sections * 2 ^ 479 + b01 i.commit * 2 ^ 478 +
    imageStep i.id * 2 ^ 416 + imgLen i * 2 ^ 376 + ofLE (toBE 32 i.hash.toNat) * 2 ^ 120
  let body := (toLE 64 w).drop 4 ++ es
  let p := toLE 4 (crc32c body) ++ body
  p ++ zeros (imgHead i - p.length)

/-- The section bytes as they stand. -/
def sectionBytes (s : State) (x : ImgSection) : List Byte := load s x.addr x.len

/-- `n` bytes of the image from offset `o`, which lie in the header or among the sections. -/
def imgBytes (s : State) (i : Image) (o n : Nat) : List Byte :=
  if o < imgHead i then slice (imgHeader i) o n
  else ((imgPlaces (imgHead i) (imgSections i)).map (fun x =>
    let lo := max o x.1
    let hi := min (o + n) (x.1 + x.2.len)
    load s (x.2.addr + (lo - x.1)) (hi - lo))).flatten

/-- The local ranges from which bytes of the image come: none for the header, which firmware makes. -/
def imgReads (i : Image) (o n : Nat) : List (Nat × Nat) :=
  if o < imgHead i then [] else
  ((imgPlaces (imgHead i) (imgSections i)).map (fun x =>
    let lo := max o x.1
    let hi := min (o + n) (x.1 + x.2.len)
    (x.2.addr + (lo - x.1), hi - lo))).filter (fun y => y.2 ≠ 0)

/-- The next parts of the image at a tier, at most `n` bytes: (image offset, bytes). -/
def nextParts (i : Image) (t n : Nat) : List (Nat × Nat) :=
  let p := imgSent i t
  let secs := imgLen i - imgHead i
  let a := min n (secs - p)
  let q := p + a - secs
  let b := if p + a < secs then 0 else min (n - a) (imgHead i - q)
  (if a = 0 then [] else [(imgHead i + p, a)]) ++ (if b = 0 then [] else [(q, b)])

/-- A section whose last byte is in a part sent no longer has the recorded CRC (sp. 14 R415). -/
def partBad (s : State) (i : Image) (x : Nat × Nat) : Bool :=
  (imgPlaces (imgHead i) (imgSections i)).any (fun y =>
    decide (x.1 < y.1 + y.2.len ∧ y.1 + y.2.len ≤ x.1 + x.2) && decide (crc32c (sectionBytes s y.2) ≠ y.2.crc.toNat))

/-- A STREAM acts (sp. 14 R415): an image is held, frozen in an earlier step, and its tier is set and not complete. -/
def streamImage (s : State) (t : Nat) : Option Image :=
  match s.secure.image with
  | none => none
  | some i =>
    if (s.secure.st = .held || s.secure.st = .draining) && !s.step.freezes && i.tiers.contains t && decide (imgSent i t < imgLen i)
    then some i else none

/-- The NAND slot that takes a tier-2 image: the one that does not hold the last complete one (sp. 14 R416). -/
def nandTarget (s : State) : Bool := s.nand.next1

/-- One NAND slot. -/
def nandSlot (s : State) (k : Bool) : NandSlot := if k then s.nand.slot1 else s.nand.slot0

/-- One NAND slot, changed. -/
def setNandSlot (s : State) (k : Bool) (v : NandSlot) : State :=
  if k then { s with nand := { s.nand with slot1 := v } } else { s with nand := { s.nand with slot0 := v } }

/-- Image bytes are programmed into the slot of the image being streamed, which holds no valid image meanwhile. -/
def nandPut (s : State) (x : Nat × List Byte) : State :=
  let k := nandTarget s
  let v := nandSlot s k
  setNandSlot s k { v with valid := none, bytes := Sparse.put (fun _ => 0xFF) v.bytes x.1 x.2 }

/-- A READ_DATA report leaves on the control port, or on the other one when `other` and that port is up (sp. 13 Table 13-2,
R382). -/
def sendData (s : State) (other : Bool) (f : FrameOut) : State :=
  match s.ctl.carrier with
  | none => s
  | some k => if other && (kcp s (otherKcp k)).up then sendOn s (otherKcp k) f else sendOn s k f

/-- READ_DATA reports of bytes from an offset (sp. 13 Table 13-7): 8,128 bytes each, MORE in all but the last; with `both` in turn on
the two ports, the control port first. -/
def readData (both : Bool) : Nat → Bool → BitVec 32 → Nat → List Byte → State → State
  | 0, _, _, _, _, s => s
  | f + 1, other, id, off, p, s =>
    if p.isEmpty then s else
    let s1 := sendData s other { opcode := 0x34, cls := 2, more := decide (8128 < p.length), report := true, status := 0, refSeq := 0,
                                 payload := toLE 4 id.toNat ++ zeros 4 ++ toLE 8 off ++ p.take 8128 }
    readData both f (both && !other) id (off + 8128) (p.drop 8128) s1

/-- The HEAD of a tier-1 part: one 256-byte row after another (sp. 14 R416; log 45). -/
def snapHead (dst bytes : Nat) : HeadBody :=
  { cls := 2, dst := BitVec.ofNat 64 dst, rowBytes := 256, rows := BitVec.ofNat 32 (bytes / 256), dstStride := 256, op := 0,
    codec := 0, snap := true, format := 0, codecK := 0, tally := 0, inc := 0, sigEn := false, bytes := BitVec.ofNat 64 bytes }

/-- A tier-1 STREAM hands its parts to the port, into the half of the window that does not hold the last complete image; a source fault
stops it after the whole data flits before the fault, without END (sp. 10 R309). -/
def streamTier1 (d : Die) (n : Fin 128) (s : State) (r : Running) (w : Nat) (parts : List (Nat × List Byte)) : State :=
  let base := localOf (bits w 447 384) + (if s.secure.slot1 then Config.understudyHalf else 0)
  let x := (port s (snPort w)).nextXfer
  let whole := r.send.fault.isNone
  let out := if whole then parts else (parts.take 1).map (fun y => (y.1, y.2.take (moveBytes r.moves / 256 * 256)))
  let s1 := out.foldl (fun t y => sendTransfer t d n (snPort w) (snapHead (base + y.1) y.2.length) y.2 whole) s
  let total := (out.map (·.2.length)).sum
  setRun s1 d n { r with port := some (snPort w, x), reads := [],
                         send := { r.send with todo := out.length, flits := total / 256, hits := 0 } }

/-- The parts of an image that a STREAM sends, as read. -/
def streamParts (s : State) (i : Image) (t n : Nat) : List (Nat × List Byte) :=
  (nextParts i t n).map (fun y => (y.1, imgBytes s i y.1 y.2))

/-- The transfers that read parts of an image. -/
def partMoves (s : State) (i : Image) (l : List (Nat × Nat)) : List Move :=
  (((l.map (fun y => imgReads i y.1 y.2)).flatten).map (fun y =>
    (pieces y.1 y.2).map (fun q => ({ src := globalOf s q.1, dst := 0, len := q.2 } : Move)))).flatten

/-- A STREAM reads and sends its parts (sp. 14 R415): the tier's progress moves on at once, so that the next STREAM goes on behind it. A
section whose CRC is not the recorded one discards the image: the header does not leave. -/
def streamGo (d : Die) (n : Fin 128) (s : State) (r : Running) (w : Nat) : State :=
  let t := snTier w
  match streamImage s t with
  | none => setRun s d n { r with moves := [], reads := [] }
  | some i =>
    let ps := nextParts i t (snLength w)
    let bad := ps.any (partBad s i)
    let keep := if bad then ps.filter (fun y => decide (imgHead i ≤ y.1)) else ps
    let x := readSources s d n r
    let adv := (ps.map (·.2)).sum
    let s0 := moveProgress { x.1 with secure := { x.1.secure with st := .draining } } t adv
    let parts := keep.map (fun y => (y.1, imgBytes s i y.1 y.2))
    let b := if (spoilt x.2).isEmpty then (parts, s0) else drawWrites (parts.map (fun y => (y, true))) s0
    let q := { x.2 with send := { x.2.send with adv := adv, base := imgSent i t } }
    let s1 := if t = 1 ∧ !b.1.isEmpty then streamTier1 d n b.2 q w b.1 else setRun b.2 d n { q with writes := b.1, reads := [] }
    if bad then discardImage s1 3 else s1

/-- A STREAM starts (sp. 14 R415, R417): it reads its parts under the channel rules (sp. 10 R296). One that does not act takes no stream. -/
def streamAct (d : Die) (n : Fin 128) (s : State) (p : Pending) (w c : Nat) : State :=
  let t := snTier w
  let idle (a : State) : State :=
    let j := joinRun a (unitKey (chanUnit d n)) (dmaRun d c p 0x62 w [] [] [])
    setRun j.1 d n j.2
  match streamImage s t with
  | none => idle s
  | some i =>
    if t = 1 ∧ (port s (snPort w)).st ≠ .up then imageError (idle s) i.id 4
    else
      let ps := nextParts i t (snLength w)
      let j := beginRun s d n (dmaRun d c p 0x62 w (partMoves s i ps) ((ps.map (fun y => imgReads i y.1 y.2)).flatten) [])
      if j.2.queued then setRun j.1 d n j.2 else streamGo d n j.1 j.2 w

def execStream (die : Die) (n : Fin 128) (s : State) : Result :=
  .next (startOrGo s die n 0x62 (fun w => snKind w = 1) (streamAct die n) (streamGo die n))

/-- Parts whose bytes are undefined in the 256-byte transfers with a detection (sp. 09 R256). -/
def blurParts (l : List (Nat × List Byte)) (ks : List Nat) (s : State) : List (Nat × List Byte) × State :=
  if ks.isEmpty then (l, s) else
  let b := (l.map (·.2)).flatten
  let f := drawBytes b.length s
  let v := (numbered (b.zip f.1)).map (fun x => if ks.contains (x.1 / 256 + 1) then x.2.2 else x.2.1)
  ((l.foldl (fun (a : List (Nat × List Byte) × Nat) x => (a.1 ++ [(x.1, slice v a.2 x.2.length)], a.2 + x.2.length)) ([], 0)).1, f.2)

/-- Image bytes reach tier 2 or 3: programmed into the NAND slot, or sent as READ_DATA (sp. 14 R416). -/
def deliverParts (s : State) (t : Nat) (l : List (Nat × List Byte)) : State :=
  if t = 2 then l.foldl nandPut s else l.foldl (fun a x => readData true x.2.length false tier3Id x.1 x.2 a) s

/-- A STREAM of tier 2 or 3 completes: its bytes are programmed or have left (sp. 14 R416); one that does not act completes in the
fourth cycle after its first action (R415). Tier 3 waits for a control port. -/
def finishStream (s : State) (d : Die) (n : Fin 128) (r : Running) (w : Nat) (parity : List Detect) : State :=
  if r.send.fault.isSome ∨ r.queued ∨ (snTier w = 3 ∧ !r.writes.isEmpty ∧ s.ctl.carrier.isNone) then s
  else if r.writes.isEmpty then dmaDone s d n r (dmaRecord 0 0 0 0 0) 0 (r.startedAt + 8)
  else
    let t := snTier w
    let b := blurParts r.writes (parity.map (·.part)) (chanParity s d n r.cue parity)
    let s1 := if s.secure.image.isNone then b.2 else deliverParts b.2 t b.1
    let bytes := (r.writes.map (·.2.length)).sum
    dmaDone s1 d n r (dmaRecord bytes (ceilDiv bytes 256) r.send.hits (max r.send.status (b01 (!parity.isEmpty))) 0)
      bytes s1.now

/-! ## Completion, bus errors and the channel registers -/

/-- The run that stands for a transfer that firmware started by GO, which meets what runs when it ends. -/
def goRun (s : State) (d : Die) (n : Fin 128) : Running :=
  let w := (chan s d n).actDesc.toNat
  let l := copyMoves (parseDma w)
  let p : Pending := { cue := noCue, raw := 0, firedAt := s.now, metAt := none }
  let r := dmaRun d s.now p 0x60 w l (moveSources l) (moveDests l)
  { r with raced := sharedAll r.reads (openWrites s none), clash := sharedAll r.dest (openWrites s none) }

/-- The operations that the descriptor of a GO calls for. -/
def goOps (d : Die) (w : Nat) : Nat := opsOf d.val (dmaRun d 0 { cue := noCue, raw := 0, firedAt := 0, metAt := none } 0x60 w []
  (moveSources (copyMoves (parseDma w))) (moveDests (copyMoves (parseDma w))))

/-- A transfer that firmware started by GO ends (sp. 10 R304, R306): its record and its end-of-count event. -/
def finishFirmware (s : State) (d : Die) (n : Fin 128) (parity : List Detect) : State :=
  let r := goRun s d n
  if (chan s d n).queued ∧ !placeFor s d.val (goOps d (chan s d n).actDesc.toNat) then s
  else if (r.moves.findSome? (moveFault s)).isSome then s else
  let m := moveAll (otherWrites s none r.dest) d n r parity
  let bytes := moveBytes r.moves
  if bankFault m.st r.recAt 32 then
    haltChannel m.st d n noCue r.recAt ⟨1, true, globalOf s r.recAt⟩ bytes r.moves.length m.hits
  else
    endOfCount (storeFree (writeMem (whoUnit (chanUnit d n) noCue) m.st r.recAt
      (dmaRecord bytes r.moves.length m.hits (b01 m.det) 0)) r.clash) d n bytes

/-- The first cycle in which a cue's stream can be released: its first transfer acts in cycle s + 4, and one that does not act completes
four cycles later (sp. 10 R300, R301; sp. 14 R413, R415). -/
def dmaReady (r : Running) : Nat := if r.opcode = 0x62 ∧ r.moves.isEmpty ∧ r.writes.isEmpty then r.startedAt + 8 else r.startedAt + 5

def execDmaComplete (die : Die) (n : Fin 128) (parity : List Detect) (s : State) : Result :=
  match (unit s (chanUnit die n)).running with
  | none =>
    if (chan s die n).firmware ∧ (chan s die n).st = .active then .next (finishFirmware s die n parity) else .next s
  | some r =>
    let w := (chan s die n).actDesc.toNat
    if r.halted ∨ r.port.isSome ∨ (r.queued ∧ r.opcode = 0x61) ∨ !reaches s (dmaReady r) ∨ !streamRuns s (chanUnit die n) r then .next s
    else
      let t := settle (clockTo s (dmaReady r))
      if r.opcode = 0x60 then .next (finishCopy t die n r parity)
      else if r.opcode = 0x62 then .next (if snKind w = 0 then finishFreeze t die n r w parity else finishStream t die n r w parity)
      else .next s

/-- The bus error at transfer `k` of a list, when no earlier transfer could fail its decode. -/
def faultAt (s : State) (l : List Move) (k : Nat) : Option BusError :=
  if (l.take k).any (fun m => (moveDecode s m).isSome) then none else (l[k]?).bind (moveFault s)

/-- The flits of a channel's send that have not left its port. -/
def unsent (s : State) (r : Running) : List OutFlit :=
  match r.port with
  | some (p, x) => (port s p).waitq.filter (fun f => decide ((f.xfer - x).toNat < r.send.todo))
  | none => []

/-- The data flits of a send that stand whole before its transfer `k`. -/
def flitsBefore (s : State) (d : Die) (n : Fin 128) (r : Running) (k : Nat) : Nat :=
  if r.opcode = 0x61 ∧ sendCodec (chan s d n).actDesc.toNat ≠ 0 then 0 else moveBytes (r.moves.take k) / 256

/-- A bank that goes down meanwhile fails source read `k` of a send or stream in its own bank cycle (sp. 10 R309): nothing that this read
gives has left yet. -/
def lateFault (s : State) (d : Die) (n : Fin 128) (r : Running) (k : Nat) : Option BusError :=
  let q := unsent s r
  let left := r.send.flits - (q.filter (fun f => f.kind = 0)).length
  if r.port.isSome ∧ (!q.any (fun f => f.kind = 3) ∨ flitsBefore s d n r k < left) then none
  else ((r.moves[k]?).bind (readFault s)).filter (fun e => e.cause = 1)

/-- The flits beyond the first `m` data flits of a send, and its END, do not leave. -/
def cutSend (s : State) (r : Running) (m : Nat) : State :=
  match r.port with
  | none => s
  | some (p, _) =>
    let q := unsent s r
    let left := r.send.flits - (q.filter (fun f => f.kind = 0)).length
    let keep := (q.filter (fun f => f.kind = 1)).take 1 ++ (q.filter (fun f => f.kind = 0)).take (m - left)
    let pt := port s p
    setPort s p { pt with waitq := pt.waitq.filter (fun f => !q.contains f || keep.contains f) }

/-- The bus error that a channel's transfer `k` meets: a source read's of a send or stream, found when it was issued or in its bank cycle;
or that of a COPY, FREEZE or firmware transfer now (sp. 10 R309). -/
def chanFault (s : State) (d : Die) (n : Fin 128) (k : Nat) : Option BusError :=
  match (unit s (chanUnit d n)).running with
  | none => if (chan s d n).firmware ∧ (chan s d n).st = .active then faultAt s (goRun s d n).moves k else none
  | some r =>
    if r.halted then none
    else
      match r.send.fault with
      | some (c, a) => some ⟨c, false, a⟩
      | none =>
        if r.opcode = 0x60 ∨ (r.opcode = 0x62 ∧ snKind (chan s d n).actDesc.toNat = 0) then faultAt s r.moves k
        else lateFault s d n r k

/-- A COPY, FREEZE or firmware transfer halts at its transfer `k` (sp. 10 R309, R310): the earlier ones take effect, the bytes of the
others are undefined. -/
def failCopy (s : State) (d : Die) (n : Fin 128) (r : Running) (k : Nat) (e : BusError) : State :=
  let good := r.moves.take k
  let h := moveHits s r.fenced good
  let s1 := underFences h.2 r.fenced (fun t => applyEarlier (whoUnit (chanUnit d n) r.cue) t good (spoilt r))
  let s2 := storeFree (freeMoves (blurHits h.2 s1 r.fenced []) (r.moves.drop k)) r.clash
  haltChannel s2 d n r.cue r.recAt e (moveBytes good) k h.1

/-- A send or stream halts on a source read that failed (sp. 10 R309): what was read before has left. Its transfer `k` is the failing one
where the fault was not found at its issue. -/
def failSend (s0 : State) (d : Die) (n : Fin 128) (r : Running) (k : Nat) (e : BusError) : State :=
  let s := streamBack s0 d n r
  let good := if r.send.fault.isSome then r.moves else r.moves.take k
  if r.port.isSome then
    let m := if r.send.fault.isSome then r.send.flits else flitsBefore s d n r k
    haltChannel (if r.send.fault.isSome then s else cutSend s r m) d n r.cue r.recAt e (256 * m) m 0
  else
    let g := moveBytes good
    let out := (r.writes.take 1).map (fun y => (y.1, y.2.take g))
    let s1 := if s.secure.image.isNone then s else deliverParts s (snTier (chan s d n).actDesc.toNat) out
    haltChannel s1 d n r.cue r.recAt e g good.length r.send.hits

/-- A freezing securing fails with its section (sp. 14 R413). -/
def failSecuring (s : State) (d : Die) (n : Fin 128) (r : Running) : State :=
  if r.opcode = 0x62 ∧ (chan s d n).st = .halted ∧ s.secure.st = .freezing then discardImage s 1 else s

def execDmaBusError (die : Die) (n : Fin 128) (k : Nat) (s : State) : Result :=
  match chanFault s die n k with
  | none => .next s
  | some e =>
    match (unit s (chanUnit die n)).running with
    | none => .next (failCopy s die n (goRun s die n) k e)
    | some r =>
      if r.opcode = 0x60 ∨ (r.opcode = 0x62 ∧ snKind (chan s die n).actDesc.toNat = 0) then
        .next (failSecuring (failCopy s die n r k e) die n r)
      else .next (failSend s die n r k e)

/-- The destination transfers of a descriptor by opcode: those of a COPY or a FREEZE. -/
def descMoves (op w : Nat) : List Move :=
  if op = 0x60 then copyMoves (parseDma w) else if op = 0x62 ∧ snKind w = 0 then freezeMoves w else []

/-- The transfers of a channel's active set: those of its running cue, or of firmware's descriptor. -/
def activeMoves (s : State) (d : Die) (n : Fin 128) : List Move :=
  let c := chan s d n
  match (unit s (chanUnit d n)).running with
  | some r => if (descMoves r.opcode.toNat c.actDesc.toNat).isEmpty then [] else r.moves
  | none => if c.firmware && decide (c.st = .active ∨ c.st = .halted) then descMoves 0x60 c.actDesc.toNat else []

/-- The transfers of a channel's shadow set: those of its pending cue, or of the descriptor that firmware loaded. -/
def shadowMoves (s : State) (d : Die) (n : Fin 128) : List Move :=
  let c := chan s d n
  match (unit s (chanUnit d n)).pending with
  | some p => descMoves (cOp p.raw) c.shdDesc.toNat
  | none => if c.shdFull then descMoves 0x60 c.shdDesc.toNat else []

/-- The NAND bytes that a dropped STREAM of tier 2 was to program: of the active one its parts, of the shadow's those that come next. -/
def droppedParts (s : State) (d : Die) (n : Fin 128) : List (Nat × Nat) :=
  let c := chan s d n
  let v := unit s (chanUnit d n)
  let on (op w : Nat) : Bool := op = 0x62 && snKind w = 1 && snTier w = 2
  (match v.running with
   | some r => if on r.opcode.toNat c.actDesc.toNat && !r.halted then rangesOf r.writes else []
   | none => []) ++
  (match v.pending, streamImage s 2 with
   | some p, some i => if on (cOp p.raw) c.shdDesc.toNat then nextParts i 2 (snLength c.shdDesc.toNat) else []
   | _, _ => [])

/-- They are undefined. -/
def freeNand (s : State) (l : List (Nat × Nat)) : State :=
  l.foldl (fun t x =>
    let f := drawBytes x.2 t
    nandPut f.2 (x.1, f.1)) s

/-- DISABLE = 1 (sp. 10 R308): both sets are dropped, their destination bytes and ACT_BYTES undefined; a dropped cue never
completes; what the channel has raised at the arbiters is withdrawn. FAIL fields stay. -/
def dropChannel (s : State) (d : Die) (n : Fin 128) : State :=
  let u := chanUnit d n
  let v := unit s u
  let s0 := freeNand (v.running.toList.foldl (fun t r => if r.halted then t else streamBack t d n r) s) (droppedParts s d n)
  let s1 := freeMoves s0 (activeMoves s d n ++ shadowMoves s d n)
  let f := drawBytes 4 s1
  let c := chan f.2 d n
  let s2 := setChan f.2 d n { c with st := .disabled, disable := true, actCue := 0xFFFFFF, actDesc := 0, shdDesc := 0, shdFull := false,
                                     firmware := false, queued := false, actBytes := BitVec.ofNat 32 (ofLE f.1) }
  let s3 := withdrawChannel (forgetSends s2 d n) d n
  let s4 := setUnit s3 u (noUnit 0)
  if v.running.isSome || v.pending.isSome then { s4 with step := { s4.step with dropped := true } } else s4

/-- DISABLE = 1. A bus error that a transfer meets in the same cycle is latched and recorded; the disable applies (sp. 10 R321). -/
def execDisable (die : Die) (at_ : Disabling) (s : State) : Result :=
  let n := at_.chan
  match at_.err.bind (chanFault s die n) with
  | none => .next (dropChannel s die n)
  | some e => .next (dropChannel (latchError s die n ((unit s (chanUnit die n)).running.elim noCue (·.cue)) e) die n)

/-- DISABLE = 0 (sp. 10 R308): back to IDLE, the FAIL fields cleared. -/
def execDmaEnable (die : Die) (n : Fin 128) (s : State) : Result :=
  let c := chan s die n
  if c.disable then .next (setChan s die n (chanRecycle c)) else .next s

/-- Firmware disables and re-enables a channel (sp. 10 R310). -/
def recycleOne (s : State) (d : Die) (n : Fin 128) : State :=
  let t := dropChannel s d n
  setChan t d n (chanRecycle (chan t d n))

/-- The channel that a key names holds a cue that will not complete, or is HALTED. -/
def leftOver (c : Channel) : Bool := !((c.firmware && decide (c.st ≠ .halted)) || c.st = .idle || c.st = .disabled)

/-- At the step's end firmware disables and re-enables the channels of abandoned cues and the HALTED ones (sp. 02 R493, sp. 10 R310). -/
def recycleChannels (s : State) : State :=
  (s.dma.filter (fun e => leftOver e.2)).foldl (fun t e => recycleOne t (Fin.ofNat 4 (e.1 / 128)) (Fin.ofNat 128 e.1)) s

/-- The channels that a sheet names, by key (sp. 10 R306). -/
def namedChannels (st : CueStore) : List Nat :=
  ((allCues st).filter (fun c => cUnit c.2.2 = 7)).map (fun c => 128 * c.1 + cInst c.2.2)

/-- The channel is named by the armed or running sheet: firmware keeps off it (sp. 10 R306). -/
def channelNamed (s : State) (d : Die) (n : Fin 128) : Bool :=
  stepBusy s && (namedChannels (sheet s)).contains (chanKey d n)

/-- GO (sp. 10 R304, R306): the descriptor in SHD_DESC starts, on a channel that is IDLE and that no armed or running sheet
names. With no stream free it waits for one (sp. 09 R275). -/
def execGo (die : Die) (n : Fin 128) (s : State) : Result :=
  let c := chan s die n
  if c.st = .idle ∧ !channelNamed s die n then
    let wait := !placeFor s die.val (goOps die c.shdDesc.toNat)
    .next (setChan (if wait then countWait s die (decide (4096 ≤ streamsHeld s die.val)) else s) die n
      { c with st := .active, firmware := true, queued := wait, actDesc := c.shdDesc, shdDesc := 0, shdFull := false, actBytes := 0,
               actCue := 0xFFFFFF })
  else .next s

/-- W1C of IRQ_PENDING (sp. 10 R305, R321): an end-of-count event in the same cycle leaves it 1. -/
def execIrqPendingClear (die : Die) (n : Fin 128) (event : Bool) (s : State) : Result :=
  .next (setChan s die n { chan s die n with irqPending := event && (chan s die n).irqPending })

/-- A write of a field without behaviour (sp. 10 Tables 10-4, 10-5): firmware loads SHD_DESC and sets IRQ_EN only on channels that no
armed or running sheet names (R306); IRQ_TARGET is written on any. -/
def execRegisterWrite (die : Die) (n : Fin 128) (reg : ChanReg) (s : State) : Result :=
  let c := chan s die n
  match reg with
  | .shdDesc v => if channelNamed s die n then .next s else .next (setChan s die n { c with shdDesc := v, shdFull := true })
  | .irqEn v => if channelNamed s die n && v then .next s else .next (setChan s die n { c with irqEn := v })
  | .irqTarget v => .next (setChan s die n { c with irqTarget := v })

/-- The interrupt line of a channel to its prompter (sp. 10 R305). -/
def irqLine (c : Channel) : Bool := c.irqEn && c.irqPending

/-- STATE of a channel's CSR (sp. 10 Table 10-5). -/
def chanStateCode (c : Channel) (shadow : Bool) : Nat :=
  match c.st with
  | .idle => 0
  | .active => if shadow then 2 else 1
  | .halted => if shadow then 4 else 3
  | .disabled => 5

/-- The CSR of a channel (sp. 10 Table 10-5). -/
def csr (s : State) (d : Die) (n : Fin 128) : Nat :=
  let c := chan s d n
  c.actCue.toNat * 2 ^ 32 + chanStateCode c ((unit s (chanUnit d n)).pending.isSome || c.shdFull) * 2 ^ 29 + c.failCause.toNat * 2 ^ 25 +
  b01 c.failDir * 2 ^ 24 + b01 c.irqPending * 2 ^ 23 + b01 c.irqEn * 2 ^ 22 + c.irqTarget.toNat * 2 ^ 20 + b01 c.disable * 2 ^ 19

/-- DMA_STATE_READ (sp. 13 Table 13-12, sp. 10 R303). -/
def dmaStateBody (f : Frame) (s : State) : State × Ans :=
  let p := f.payload
  if p.length ≠ 2 then no s stBadLength
  else if 4 ≤ byteAt p 0 ∨ 128 ≤ byteAt p 1 then no s stBadParam
  else
    let d : Die := Fin.ofNat 4 (byteAt p 0)
    let n : Fin 128 := Fin.ofNat 128 (byteAt p 1)
    let c := chan s d n
    ok s (toLE 8 (csr s d n) ++ toLE 8 c.failAddr.toNat ++ toLE 4 c.actBytes.toNat ++ zeros 4 ++ toLE 64 c.actDesc.toNat ++
      toLE 64 c.shdDesc.toNat)

def execDmaStateRead (f : Frame) (s : State) : Result := .next (runCommand s f (.dmaStateRead f) (cmdEarly 0x92) (fun s _ => dmaStateBody f s))

end Sys2Proof.Machine
end

