-- ==== Sys2Proof/Machine/Session.lean ====
section
/-! DEFINITION. The control ports' links, and the session and configuration families 0x0 and 0x1 (sp. 13 R365-R378, Table 13-6). -/

namespace Sys2Proof.Machine

/-- The KCP bit of a port in PORT_ENABLE (sp. 15 Table 15-6). -/
def kcpEnabled (s : State) (k : Kcp) : Bool := bit s.guard.portEnable.toNat (kcpNo k)

/-- A link comes up with fresh credits (sp. 13 R371); the first takes control when no port carries it (R366); START_REPORT in
STARTING or READY (sp. 16 R466). -/
def execKcpLinkUp (port : Kcp) (s : State) : Result :=
  if (kcp s port).up || !diesOn s || !s.pwr.released || !kcpEnabled s port then .next s else
  let s1 := setKcp s port { kcp s port with up := true, cred0 := ⟨0, 0, 0⟩, cred1 := ⟨0, 0, 0⟩, cred2 := ⟨0, 0, 0⟩, queue0 := [] }
  let s2 := if s1.ctl.carrier.isNone then takeControl s1 port 0 else s1
  .next (startReport s2)

/-- No frame of a message is left to leave: an alarm must leave on the port that carries control, a fold record on any (sp. 14 R400,
R402). `other` is the queue that remains. -/
def lostMsg (a : PlaceAlarms) (other : List Queued0) (id : Nat) (alarm : ErrRec) (sent : Bool) : Bool :=
  !other.any (fun x => x.msg = id) && (if alarm.folded then !sent else a.latch.any (fun e => e.id = id && !e.left))

/-- The messages of a place whose frames a lost queue held, oldest first, the one that the place is sending aside. -/
def lostOf (a : PlaceAlarms) (p : Nat) (lost other : List Queued0) : List AlarmMsg :=
  (lost.filter (fun q => decide (q.place.val = p) && !a.sending.any (fun m => m.id = q.msg) &&
    lostMsg a other q.msg q.alarm q.sent)).map (fun q => { newMessage q.msg q.alarm with seq := q.seq, sent := q.sent })

/-- The message that a place was sending when port `k` went down, as it waits again: when the other gatherer has still to take it, when
none has, or when its only frame is lost. -/
def sendAgain (k : Kcp) (a : PlaceAlarms) (lost other : List Queued0) (m : AlarmMsg) : Option AlarmMsg :=
  let need := match k with
    | .a => m.needB
    | .b => m.needA
  let isLost := lost.any (fun q => q.msg = m.id) && lostMsg a other m.id m.alarm m.sent
  if !m.taken || isLost then some { m with needA := true, needB := true }
  else if need then some m else none

/-- The messages of a place after a port has gone down: what was lost and what is not taken waits again, oldest first (sp. 14 R402). -/
def requeuePlace (k : Kcp) (lost other : List Queued0) (s : State) (p : Nat) : State :=
  let a := Sparse.get noAlarms s.alarms.places p
  let back := a.sending.toList.filterMap (sendAgain k a lost other)
  setPlaceAlarms s p { a with sending := if back.isEmpty then a.sending else none,
                              waiting := lostOf a p lost other ++ back ++ a.waiting }

/-- A port's link is down: it holds no frames, and its gatherer takes and holds no messages (sp. 13 Table 13-2, sp. 14 R402). -/
def linkDown (s : State) (port : Kcp) : State :=
  let p := kcp s port
  let s1 := setKcp s port { p with up := false, queue0 := [] }
  (List.range 6).foldl (requeuePlace port p.queue0 (kcp s1 (otherKcp port)).queue0) s1

def execControlPortLost (s : State) : Result :=
  match s.ctl.carrier with
  | none => .next s
  | some k =>
    if (kcp s (otherKcp k)).up then .next (takeControl (linkDown s k) (otherKcp k) 2) else .next s

def execKcpLinkDown (port : Kcp) (s : State) : Result :=
  if !(kcp s port).up then .next s
  else if s.ctl.carrier = some port then
    if (kcp s (otherKcp port)).up then .next s
    else .next (loseControl (linkDown s port) 2)
  else .next (linkDown s port)

/-- A bad frame: counted; its credit returns (sp. 13 R370 steps 1 and 3). -/
def badFrame (s : State) (port : Kcp) (c : BitVec 2) : State :=
  let s1 := creditUse s port c
  setKcp s1 port { kcp s1 port with bad := stopAt top32 ((kcp s1 port).bad + 1) }

/-- Received units that make no good frame (sp. 13 R370): step 1 (their marking, LENGTH, CRC), then the credit, then DIR and the reserved
fields. The uncorrectable codewords of them are counted (sp. 14 R398). -/
def execBadFrame (port : Kcp) (raw : List Byte) (found : UnitsFound) (s : State) : Result :=
  if !(kcp s port).up then .next s else
  let s1 := setKcp s port { kcp s port with fec := stopAt top32 ((kcp s port).fec + found.fec) }
  let cls := BitVec.ofNat 2 (bits (leAt raw 0 32) 247 246)
  if !found.marks || !frameSound raw then .next (badFrame s1 port cls)
  else if !creditHeld (kcp s1 port) cls then .next (creditOverrun s1 port cls)
  else if !headerSound raw then .next (badFrame s1 port cls) else .next s1

/-- The port owes credits: buffers freed and not yet reported (sp. 13 R372). -/
def owesCredits (k : KcpSt) : Bool :=
  k.cred0.freed ≠ k.cred0.reported || k.cred1.freed ≠ k.cred1.reported || k.cred2.freed ≠ k.cred2.reported

def execLinkCredit (port : Kcp) (s : State) : Result :=
  if (kcp s port).up && owesCredits (kcp s port) then
    .next (emit s port { opcode := 0x0F, cls := 3, more := false, report := true, status := 0, refSeq := 0, payload := [] } 0)
  else .next s

def execUnknownOpcode (opcode : Byte) (f : Frame) (s : State) : Result :=
  if !(kcp s f.port).up then .next s
  else if !creditHeld (kcp s f.port) f.cls then .next (creditOverrun s f.port f.cls)
  else
    let s1 := creditUse s f.port f.cls
    if f.cls = 2 then .next (stray s1 f.port opcode) else .next (refuse s1 opcode f.seq stUnknownOpcode)

/-! ## Session and identity -/

/-- The version of the test program that set a compute die's fuses, one for all its arrays (sp. 04 Table 4-4, sp. 15 Table 15-11). -/
def testProg (d : Nat) : Nat := (Config.fuseMap (768 * d + 9)).toNat * 256 + (Config.fuseMap (768 * d + 10)).toNat

/-- The identity record of die `d`, CD0-CD3, IOD0, IOD1 (sp. 15 Table 15-11): KIND and RSV are fixed, LOT is ASCII, WAFER 1-25, TEST_PROG of a
compute die that of its fuse map; the rest is as fused (log 7). -/
def dieIdentityRecord (d : Nat) : List Byte :=
  let raw (i : Nat) : Nat := (Config.dieIdentity (16 * d + i)).toNat
  [0, BitVec.ofNat 8 d] ++ toLE 2 (if d < 4 then testProg d else raw 2 + 256 * raw 3) ++
  [BitVec.ofNat 8 (raw 4), BitVec.ofNat 8 (raw 5), BitVec.ofNat 8 (raw 6), BitVec.ofNat 8 (raw 7), BitVec.ofNat 8 (1 + raw 8 % 25)] ++
  (List.range 7).map (fun i => BitVec.ofNat 8 (raw (9 + i) % 128))

/-- The six die identity records (sp. 15 R449). -/
def dieIdentityBytes : List Byte := ((List.range 6).map dieIdentityRecord).flatten
/-- The package serial, first character first. -/
def serialBytes (s : State) : List Byte := toBE 12 s.guard.serial.toNat
/-- "BV4-M768-LC". -/
def orderingNumber : List Byte := [0x42, 0x56, 0x34, 0x2D, 0x4D, 0x37, 0x36, 0x38, 0x2D, 0x4C, 0x43]
/-- "B0". -/
def moduleRevision : List Byte := [0x42, 0x30]

/-- The IDENTITY reply (sp. 13 Table 13-6). -/
def identityReply (s : State) : List Byte :=
  orderingNumber ++ moduleRevision ++ toBE 3 s.guard.fwVersion.toNat ++ serialBytes s ++
  [s.cfg.deviceId.getD 0, BitVec.ofNat 8 (b01 s.cfg.deviceId.isSome), BitVec.ofNat 8 s.guard.lifecycle.code,
   BitVec.ofNat 8 (match s.ctl.carrier with
                   | some .b => 1
                   | _ => 0)] ++ dieIdentityBytes

/-- IDENTITY and ATTEST are taken at every stage and need no session. -/
def cmdAlways (opcode : Byte) : CmdInfo :=
  { opcode := opcode, cls := 1, needSession := false, standby := opcode == 0x00, stages := [1, 2, 3, 4, 5, 7] }

/-- A body that takes no payload. -/
def noPayload (f : Frame) (s : State) (r : State → State × Ans) : State × Ans :=
  if f.payload.length ≠ 0 then no s stBadLength else r s

def execIdentity (f : Frame) (s : State) : Result :=
  .next (runCommand s f (.identity f) (cmdAlways 0x00) (fun s _ => noPayload f s (fun s => ok s (identityReply s))))

/-- A held frame of a cancelled transfer (sp. 13 R378, R392): data is stray, a read ends with no byte sent, a close finds no
transfer (log 48). -/
def cancelHeld (s : State) : Instr → State
  | .writeData f => stray (freeCredit s f) f.port 0x31
  | .read f => finish s (owedOf f 0x33) stOk (zeros 12 ++ toLE 4 (crc32c []))
  | .writeClose f => finish s (owedOf f 0x32) stTransferUnknown []
  | _ => s

/-- The held frame belongs to a tensor transfer: not a chunk of a tier-3 image (sp. 14 R416). -/
def ofTransfer : Instr → Bool
  | .writeData f => leAt f.payload 0 4 ≠ tier3Id.toNat
  | .read _ | .writeClose _ => true
  | _ => false

/-- Alarm frames still to leave take their SEQ in the session in which they leave (sp. 13 R375). -/
def freshSeqs (s : State) : State :=
  let c := s.ctl
  let fresh (k : KcpSt) : KcpSt := { k with queue0 := k.queue0.map (fun q => { q with seq := none }) }
  let msg (m : AlarmMsg) : AlarmMsg := { m with seq := none }
  { s with
    ctl := { c with a := fresh c.a, b := fresh c.b },
    alarms := { s.alarms with places := s.alarms.places.map (fun e =>
      (e.1, { e.2 with waiting := e.2.waiting.map msg, sending := e.2.sending.map msg })) } }

/-- SESSION_OPEN (sp. 13 R378). -/
def sessionOpenBody (f : Frame) (s : State) : State × Ans :=
  if f.payload.length ≠ 1 then no s stBadLength else
  let n := s.ses.last + 1
  let s0 := freshSeqs ((s.fwHeld.filter ofTransfer).foldl cancelHeld { s with fwHeld := s.fwHeld.filter (fun i => !ofTransfer i) })
  let s1 := { s0 with ses := { Session.reset with current := some n, last := n, node := f.payload.getD 0 0 }, xfers := [] }
  let s2 := takeControl s1 f.port 1
  ok s2 (toLE 4 n.toNat ++ [BitVec.ofNat 8 (kcpNo f.port)])

def execSessionOpen (f : Frame) (s : State) : Result :=
  .next (runCommand s f (.sessionOpen f) { opcode := 0x01, cls := 1, needSession := false, standby := true, stages := [4, 5, 7] }
    (fun s _ => sessionOpenBody f s))

def execSessionClose (f : Frame) (s : State) : Result :=
  .next (runCommand s f (.sessionClose f) (cmdEarly 0x02) (fun s o => noPayload f s (fun s =>
    let s1 := finish s o stOk []
    ({ s1 with ses := { s1.ses with current := none, stored := [] } }, .later))))

def execControlTake (f : Frame) (s : State) : Result :=
  .next (runCommand s f (.controlTake f) { opcode := 0x03, cls := 0, needSession := true, standby := true, stages := [4, 5, 7] }
    (fun s _ => noPayload f s (fun s => ok (takeControl s f.port 1) [])))

def execBeatReacquire (f : Frame) (s : State) : Result :=
  .next (runCommand s f (.beatReacquire f) (cmdEarly 0x04) (fun s _ => noPayload f s (fun s =>
    if stepBusy s ∧ s.beat.lock ≠ .lost then no s stBusy
    else
      let s1 := setLock s .unlocked
      ok s1 [BitVec.ofNat 8 s1.beat.lock.code])))

/-- OPERATOR_KEY or MAKER_KEY: the SHA-256 of the key's point, zero when none (sp. 15 Table 15-1). -/
def keyHash (pub : List Byte) : List Byte := if pub.isEmpty then zeros 32 else sha256Bytes pub

/-- The SHA-256 of the 72 KiB coefficient table image (sp. 08 R224). -/
def tableDigest : List Byte := sha256Bytes ((List.range 73728).map Config.tableImage)

/-- Bytes 0-279 of the attestation report (sp. 15 Table 15-12). -/
def attestBody (s : State) (nonce : List Byte) : List Byte :=
  let g := s.guard
  [0x01, 0x00, BitVec.ofNat 8 g.lifecycle.code, s.cfg.deviceId.getD 0] ++ serialBytes s ++ dieIdentityBytes ++
  (match g.running with
   | some k => toBE 3 g.fwVersion.toNat ++ [BitVec.ofNat 8 (b01 k)]
   | none => [0, 0, 0, 0xFF]) ++
  toLE 2 g.svRunning.toNat ++ toLE 2 g.fwMinSv.toNat ++ [BitVec.ofNat 8 (b01 g.agree)] ++ zeros 7 ++
  toBE 32 g.fwDigest.toNat ++ keyHash g.operatorPub ++ toLE 8 g.counterOp.toNat ++ toLE 8 g.counterMk.toNat ++ tableDigest ++
  nonce ++ toLE 8 (if beatRuns s then s.beat.count.toNat else 0)

/-- ATTEST (sp. 15 R451): signed by the device key, with a nonce from the guard's entropy; without a key the present lifecycle
state holds none, so LIFECYCLE (log 24). -/
def attestReply (f : Frame) (s : State) : State × Ans :=
  if f.payload.length ≠ 32 then no s stBadLength else
  match s.guard.deviceKey with
  | none => no s stLifecycle
  | some d =>
    let b := attestBody s f.payload
    let sig := ecdsaSign d (scalarOf (Config.entropy s.free)) (sha256 b)
    ok { s with free := s.free + 1 } (b ++ sig ++ toLE 2 s.guard.deviceCert.length ++ s.guard.deviceCert)

def execAttest (f : Frame) (s : State) : Result :=
  .next (runCommand s f (.attest f) (cmdAlways 0x05) (fun s _ => attestReply f s))

/-! ## Configuration and topology -/

/-- Either store holds a verified sheet. -/
def anyVerified (s : State) : Bool := s.store0.st = .verified || s.store1.st = .verified

def execDeviceIdSet (f : Frame) (s : State) : Result :=
  .next (runCommand s f (.deviceIdSet f) (cmdEarly 0x10) (fun s _ =>
    if f.payload.length ≠ 1 then no s stBadLength
    else if stepBusy s then no s stBusy
    else if anyVerified s then no s stStoreBusy
    else
      let id := f.payload.getD 0 0
      let s1 := { s with cfg := { s.cfg with deviceId := some id } }
      ok (allPorts.foldl (fun t p => setPort t p { port t p with me := id }) s1) []))

/-- The 16-byte entry in payload bytes 16-31. -/
def entryOf (p : List Byte) : BitVec 128 := BitVec.ofNat 128 (leAt p 16 16)

/-- An entry as its register takes it: bits outside `keep` are reserved, ignored, and read zero (sp. 00 R12, R13). -/
def taken128 (e : BitVec 128) (keep : BitVec 128) : BitVec 128 := e &&& keep

/-- The fields of a neighbour entry: all but [115:112] and [15:0] (sp. 11 Table 11-2). -/
def neighbourFields : BitVec 128 := 0xFFF0FFFFFFFFFFFFFFFFFFFFFFFF0000

/-- Those of a state region entry that a write gives: SWAPPED and [76:0] are not among them (sp. 08 Table 8-14). -/
def regionFields : BitVec 128 := 0xFFFFFFFFFFFFC0000000000000000000

/-- Those of a wing entry (sp. 09 Table 9-7). -/
def wingFields : BitVec 128 := 0xFFFFFFFF000000000000000000000000

/-- NEIGHBOUR_WRITE (sp. 11 R325, sp. 09 R272). -/
def neighbourWriteBody (f : Frame) (s : State) : State × Ans :=
  let p := f.payload
  let e := entryOf p
  if p.length ≠ 32 then no s stBadLength
  else if h : byteAt p 0 < 6 then
    if !zeroAt p 1 15 ∨ 6 ≤ peerPort e then no s stBadParam
    else if stepBusy s ∨ (peerEnable e ∧ s.cfg.deviceId.isNone) then no s stBusy
    else
      let k : PortNo := ⟨byteAt p 0, h⟩
      ok (portAgain (setPort s k { port s k with entry := taken128 e neighbourFields, rxSerial := 0 }) k) []
  else no s stBadParam

def execNeighbourWrite (f : Frame) (s : State) : Result :=
  .next (runCommand s f (.neighbourWrite f) (cmdEarly 0x11) (fun s _ => neighbourWriteBody f s))

def execNeighbourRead (f : Frame) (s : State) : Result :=
  .next (runCommand s f (.neighbourRead f) (cmdEarly 0x12) (fun s _ =>
    if f.payload.length ≠ 1 then no s stBadLength
    else if h : byteAt f.payload 0 < 6 then
      let q := port s ⟨byteAt f.payload 0, h⟩
      ok s (toLE 16 q.entry.toNat ++ [BitVec.ofNat 8 q.st.code] ++ zeros 3 ++ toLE 4 q.latency ++ toBE 12 q.rxSerial.toNat)
    else no s stBadParam))

/-- No entry. -/
def noEntry (_ : Nat) : BitVec 128 := 0
/-- A state region entry. -/
def region (s : State) (i : Nat) : BitVec 128 := Sparse.get noEntry s.cfg.regions i
/-- A wing entry. -/
def wing (s : State) (d : Nat) : BitVec 128 := Sparse.get noEntry s.cfg.wings d
/-- PARTNER of a state region entry. -/
def ePartner (e : BitVec 128) : Nat := bits e.toNat 111 96
/-- LENGTH of a state region entry. -/
def rLength (e : BitVec 128) : Nat := bits e.toNat 95 80
/-- VALID. -/
def rValid (e : BitVec 128) : Bool := entryBit e 79
/-- PAIRED. -/
def rPaired (e : BitVec 128) : Bool := entryBit e 78
/-- SWAPPED. -/
def rSwapped (e : BitVec 128) : Bool := entryBit e 77

/-- Two half-open ranges overlap; an empty one overlaps nothing. -/
def overlaps (a n b m : Nat) : Bool := decide (0 < n ∧ 0 < m ∧ a < b + m ∧ b < a + n)

/-- The ranges of 16 MiB units of a valid entry: its region and, in a pair, the partner. -/
def regionRanges (e : BitVec 128) : List (Nat × Nat) :=
  if rValid e then (eBase e, rLength e) :: (if rPaired e then [(ePartner e, rLength e)] else []) else []

/-- All ranges of the state region table. -/
def allRegionRanges (s : State) : List (Nat × Nat) := ((List.range 64).map (fun i => regionRanges (region s i))).flatten

/-- The valid entries of the state region table. -/
def validRegions (s : State) : Sparse (BitVec 128) := s.cfg.regions.filter (fun e => rValid e.2)

/-- The entry overlaps a wing (sp. 09 R268). -/
def hitsWing (s : State) (e : BitVec 128) : Bool :=
  (regionRanges e).any (fun r => [0, 1, 2, 3].any (fun d => overlaps r.1 r.2 (eBase (wing s d)) (wLength (wing s d))))

/-- The fields of a state region entry are in range (sp. 08 Table 8-14). -/
def regionFieldsOk (e : BitVec 128) : Bool :=
  eBase e ≤ 49151 && rLength e ≤ 49152 && ePartner e ≤ 49151 && (!rValid e || 1 ≤ rLength e) &&
  (rPaired e || ePartner e = 0)

/-- STATE_REGION_WRITE (sp. 08 R242, sp. 09 R268): SWAPPED is cleared. -/
def stateRegionWriteBody (f : Frame) (s : State) : State × Ans :=
  let p := f.payload
  let e := taken128 (entryOf p) regionFields
  if p.length ≠ 32 then no s stBadLength
  else if 64 ≤ byteAt p 0 ∨ !zeroAt p 1 15 ∨ !regionFieldsOk e then no s stBadParam
  else if stepBusy s then no s stBusy
  else if hitsWing s e then no s stBadParam
  else ok { s with cfg := { s.cfg with regions := Sparse.set noEntry s.cfg.regions (byteAt p 0) e } } []

def execStateRegionWrite (f : Frame) (s : State) : Result :=
  .next (runCommand s f (.stateRegionWrite f) (cmdEarly 0x13) (fun s _ => stateRegionWriteBody f s))

def execStateRegionRead (f : Frame) (s : State) : Result :=
  .next (runCommand s f (.stateRegionRead f) (cmdEarly 0x14) (fun s _ =>
    if f.payload.length ≠ 1 then no s stBadLength
    else if 64 ≤ byteAt f.payload 0 then no s stBadParam
    else ok s (toLE 16 (region s (byteAt f.payload 0)).toNat)))

/-- The wing lies in the die's open HBM (sp. 09 R268, Tables 9-6, 9-7). -/
def wingInside (d : Nat) (e : BitVec 128) : Bool :=
  wLength e = 0 || (12288 * d ≤ eBase e && eBase e + wLength e ≤ (if d = 3 then 48896 else 12288 * (d + 1)))

/-- WING_WRITE (sp. 09 R268). -/
def wingWriteBody (f : Frame) (s : State) : State × Ans :=
  let p := f.payload
  let e := taken128 (entryOf p) wingFields
  if p.length ≠ 32 then no s stBadLength
  else if 4 ≤ byteAt p 0 ∨ !zeroAt p 1 15 ∨ 12288 < wLength e then no s stBadParam
  else if stepBusy s then no s stBusy
  else if !wingInside (byteAt p 0) e ∨ (allRegionRanges s).any (fun r => overlaps r.1 r.2 (eBase e) (wLength e)) then
    no s stBadParam
  else ok { s with cfg := { s.cfg with wings := Sparse.set noEntry s.cfg.wings (byteAt p 0) e } } []

def execWingWrite (f : Frame) (s : State) : Result :=
  .next (runCommand s f (.wingWrite f) (cmdEarly 0x15) (fun s _ => wingWriteBody f s))

def execWingRead (f : Frame) (s : State) : Result :=
  .next (runCommand s f (.wingRead f) (cmdEarly 0x16) (fun s _ =>
    if f.payload.length ≠ 1 then no s stBadLength
    else if 4 ≤ byteAt f.payload 0 then no s stBadParam
    else ok s (toLE 16 (wing s (byteAt f.payload 0)).toNat)))

def execPanelThreshWrite (f : Frame) (s : State) : Result :=
  .next (runCommand s f (.panelThreshWrite f) (cmdEarly 0x17) (fun s _ =>
    if f.payload.length ≠ 4 then no s stBadLength
    else if 16 < leAt f.payload 0 4 % 32 then no s stBadParam
    else if stepBusy s then no s stBusy
    else ok { s with cfg := { s.cfg with panelThresh := BitVec.ofNat 32 (leAt f.payload 0 4 % 32) } } []))

def execPanelThreshRead (f : Frame) (s : State) : Result :=
  .next (runCommand s f (.panelThreshRead f) (cmdEarly 0x18) (fun s _ => noPayload f s (fun s => ok s (toLE 4 s.cfg.panelThresh.toNat))))

/-- BEAT_DELAY_WRITE (sp. 13 Table 13-6). -/
def beatDelayWriteBody (f : Frame) (s : State) : State × Ans :=
  let p := f.payload
  let d := signed 32 (leAt p 4 4)
  if p.length ≠ 8 then no s stBadLength
  else if 2 ≤ byteAt p 0 ∨ !zeroAt p 1 3 ∨ d < -65536 ∨ 65535 < d then no s stBadParam
  else if s.beat.lock ≠ .unlocked ∧ s.beat.lock ≠ .lost then no s stBusy
  else if byteAt p 0 = 0 then ok { s with beat := { s.beat with delayA := d } } []
  else ok { s with beat := { s.beat with delayB := d } } []

def execBeatDelayWrite (f : Frame) (s : State) : Result :=
  .next (runCommand s f (.beatDelayWrite f) (cmdEarly 0x19) (fun s _ => beatDelayWriteBody f s))

def execBeatDelayRead (f : Frame) (s : State) : Result :=
  .next (runCommand s f (.beatDelayRead f) (cmdEarly 0x1A) (fun s _ =>
    if f.payload.length ≠ 1 then no s stBadLength
    else if 2 ≤ byteAt f.payload 0 then no s stBadParam
    else ok s (zeros 4 ++ toLE 4 (unsigned 32 (if byteAt f.payload 0 = 0 then s.beat.delayA else s.beat.delayB)))))

/-- ENVIRONMENT (sp. 13 Table 13-6, sp. 15 R444): COOLANT above 40 degrees or below 2.0 L/min. -/
def environmentBody (f : Frame) (s : State) : State × Ans :=
  let p := f.payload
  if p.length ≠ 16 then no s stBadLength
  else if !zeroAt p 6 2 then no s stBadParam
  else
    let inlet := leAt p 0 2
    let flow := leAt p 2 2
    let c := { s.cfg with inlet := BitVec.ofNat 16 inlet, flow := BitVec.ofNat 16 flow, ambient := BitVec.ofNat 16 (leAt p 4 2),
                          wall := BitVec.ofNat 64 (leAt p 8 8), wallAt := s.ref }
    let s1 := { s with cfg := c }
    if 4000 < signed 16 inlet ∨ flow < 2000 then
      ok (guardRaise s1 (gev s1 0x4C (unsigned 64 (signed 16 inlet)) flow .first)) []
    else ok s1 []

def execEnvironment (f : Frame) (s : State) : Result :=
  .next (runCommand s f (.environment f) (cmdEarly 0x1B) (fun s _ => environmentBody f s))

end Sys2Proof.Machine
end

