-- ==== Sys2Proof/Machine/Ending.lean ====
section
/-! DEFINITION. The step's start and its end (sp. 02 R44, R62-R65, R493; sp. 15 R440), with the channels of abandoned cues recycled (sp. 10
R310). -/

namespace Sys2Proof.Machine

/-- The halves of the paired state regions that the plan does not address, undefined: after a restore under CURTAIN_COMMIT (sp. 14 R422, sp.
08 R244), and after a step that did not commit (R246). -/
def freeHalves (s : State) : State :=
  storeFree s (((validRegions s).filter (fun e => rPaired e.2)).map (fun e => (ePartner e.2 * 2 ^ 24, rLength e.2 * 2 ^ 24)))

/-- The state regions as the plan addresses them, undefined: after a step that did not commit under IN_PLACE (sp. 08 R246). -/
def freeStates (s : State) : State :=
  storeFree s ((validRegions s).map (fun e => (eBase e.2 * 2 ^ 24, rLength e.2 * 2 ^ 24)))

/-- What a step that ends leaves in the state regions (sp. 08 Table 8-15). -/
def leaveState (inPlace : Bool) (state : Byte) (s : State) : State :=
  if state = 1 then s else if inPlace then freeStates s else freeHalves s

/-- The step ends: firmware recycles the channels of abandoned cues, and the end does what it does (sp. 02 R493, sp. 10 R310). -/
def closeStep (s : State) (state cause : Byte) : State :=
  leaveState (sheet s).inPlace state (endStep (recycleChannels s) state cause)

/-- A step whose start beat falls in the brownout hold ends SUSPECT at that beat without firing a cue (sp. 15 R440): its cause and
ORIGIN are those of whichever came first, a replay mark or the hold's BROWNOUT_ENTER (sp. 02 R64). -/
def startInHold (s : State) : State :=
  let b : Origin := { kind := 0x40, place := guardPlace s, cue := BitVec.ofNat 24 noCue, time := s.guard.holdAt }
  match s.step.originS with
  | some o =>
    if o.time < s.guard.holdAt then closeStep s 2 0x11 else closeStep { s with step := { s.step with originS := some b } } 2 0x10
  | none => closeStep { s with step := { s.step with originS := some b } } 2 0x10

def execStepStart (s : State) : Result :=
  if s.step.phase = .starting ∧ beatRuns s ∧ beatNow s = s.step.startBeat ∧ !s.step.stopped then
    if inHold s then .next (startInHold s)
    else
      let t := { s.step with phase := .running, relBeat := 0, next := [], lastDone := 0, curtains := [], curtainAt := 0 }
      .next (decideFreeze { s with step := t })
  else .next s

/-! ## The end -/

def execStepCommit (s : State) : Result :=
  let t := atEnd s
  if commitDue t then .next (closeStep t 1 0) else .next s

def execStepEnd (s : State) : Result :=
  let t := atEnd s
  match endDue t with
  | none => .next s
  | some (st, c) => .next (closeStep t st c)

end Sys2Proof.Machine
end

