-- ==== Sys2Proof/Machine/Tenants.lean ====
section
/-! DEFINITION. Tenants, their fences and scrubs (sp. 07 R187-R190, sp. 09 R287-R293, sp. 15 R454, R455), and the commands of family
0x5. -/

namespace Sys2Proof.Machine

/-- One tenant table entry. -/
def tenant (s : State) (t : Nat) : Tenant := Sparse.get noTenant s.tenants t

/-- One entry, changed. -/
def setTenant (s : State) (t : Nat) (e : Tenant) : State := { s with tenants := Sparse.set noTenant s.tenants t e }

/-! ## Open -/

/-- The region records of TENANT_OPEN (sp. 07 Table 7-3). -/
def regionRecords (p : List Byte) (n : Nat) : List Nat := (List.range n).map (fun i => leAt p (16 + 16 * i) 16)

/-- BASE and LENGTH of a record. -/
def recordRange (w : Nat) : Nat × Nat := (bits w 127 72, bits w 71 32)

/-- A region lies in open HBM or in one die's scratch window, in 256-B units (sp. 07 R188, sp. 09 R267). -/
def regionInside (x : Nat × Nat) : Bool :=
  decide (x.1 % 256 = 0 ∧ x.2 % 256 = 0 ∧ x.2 ≠ 0) &&
  (decide (x.1 + x.2 ≤ fwBase) || [0, 1, 2, 3].any (fun d => inScratch d x.1 x.2))

/-- No two ranges of a list overlap. -/
def disjoint : List (Nat × Nat) → Bool
  | [] => true
  | x :: r => !r.any (fun y => overlaps x.1 x.2 y.1 y.2) && disjoint r

/-- The paddock regions of every OPEN or FENCED tenant but `t`. -/
def heldRegions (s : State) (t : Nat) : List (Nat × Nat) :=
  ((s.tenants.filter (fun e => e.1 ≠ t && decide (e.2.st ≠ .closed))).map (fun e => e.2.regions)).flatten

/-- The paddock meets R188. -/
def paddockOk (s : State) (t : Nat) (l : List (Nat × Nat)) : Bool :=
  l.all regionInside && disjoint l && l.all (fun x => !(heldRegions s t).any (fun y => overlaps x.1 x.2 y.1 y.2))

/-- TENANT_OPEN (sp. 07 R189, sp. 15 R452): only in FIELD. A tenant that the running step names is not open for it (log 102). -/
def tenantOpenBody (f : Frame) (s : State) : State × Ans :=
  let p := f.payload
  let t := leAt p 0 2
  let n := byteAt p 4
  let recs := regionRecords p n
  let l := recs.map recordRange
  let e := tenant s t
  if p.length < 16 ∨ (n ≤ 16 ∧ p.length ≠ 16 + 16 * n) then no s stBadLength
  else if 16 < n ∨ 16384 ≤ t ∨ 1024 ≤ leAt p 2 2 ∨ !zeroAt p 5 3 ∨ !zeroAt p 15 1 ∨ recs.any (fun w => bits w 31 0 ≠ 0) then
    no s stBadParam
  else if s.guard.lifecycle ≠ .field then no s stLifecycle
  else if e.st ≠ .closed then no s stTenantState
  else if !paddockOk s t l then no s stPaddockBad
  else
    let g := e.generation + 1
    ok (setTenant s t { e with st := .open_, reopened := e.active, place := BitVec.ofNat 10 (leAt p 2 2), generation := g,
                               stateAddr := BitVec.ofNat 56 (leAt p 8 7), regions := l, rstate := l.map (fun _ => 0),
                               zeroed := l.map (fun _ => 0), hits := 0 }) (toLE 4 g.toNat)

def execTenantOpen (f : Frame) (s : State) : Result := .next (runCommand s f (.tenantOpen f) (cmd 0x50) (fun s _ => tenantOpenBody f s))

/-! ## Fences and scrubs -/

/-- The regions of a tenant as fence entries. -/
def fencesOf (t : Nat) (e : Tenant) : List Fence :=
  (numbered e.regions).map (fun x =>
    { tenant := t, region := x.1, base := x.2.1, len := x.2.2, scrubbing := [], scrubbed := [] })

/-- Fences begin while cues run and transfers are received (sp. 09 R287, sp. 11 R348): from now on their transactions meet these fences,
so what they read of them, some before and some after, is undefined, and so is what comes of it. -/
def fenceRuns (s : State) (l : List Fence) : State :=
  let rs := l.map (fun f => (f.base, f.len))
  let recv (p : Nat) (x : RxXfer) : RxXfer :=
    { x with fenced := x.fenced ++ l.filter (fun f => (rxRanges s p x).any (meets (f.base, f.len))) }
  { s with
    stage := { s.stage with
      units := s.stage.units.map (fun e => (e.1, { e.2 with running := e.2.running.map (fenceHit l), tail := e.2.tail.map (fenceHit l) })),
      windows := s.stage.windows.map (fun w => { w with raced := w.raced || anyMeets w.reads rs }) },
    ports := s.ports.map (fun e => (e.1, { e.2 with rx := e.2.rx.map (recv e.1) })) }

/-- The DME cues of the sheet, and the templates of its windows, each with its die. -/
def dmeCues (st : CueStore) : List (Nat × BitVec 256) :=
  ((allCues st).map (fun c => ((c.2.2 :: templatesOf st c.2.2).filter (fun w => decide (cUnit w = 1 ∨ cUnit w = 2))).map (fun w =>
    (c.1, w)))).flatten

/-- The metadata that fences of a kill take from cues of the step, as it stands (sp. 12 R362): each with its address. -/
def metaTaken (s : State) (l : List Fence) : List (Nat × List Byte) :=
  if !stepBusy s then [] else
  (dmeCues (sheet s)).filterMap (fun x =>
    let d := parseDme (cOp x.2) ((sheet s).desc (cDesc x.2) 320)
    let a := scratchOf x.1 + d.metaOff
    let n := metaSize d.m d.k
    if d.panel = 0 ∨ (takenBy l [(a, n)]).isEmpty ∨ (plannedMeta s a).isSome then none
    else some (a, (List.range n).map (fun i => storedByte s (a + i))))

/-- A kill's cycle f: one that is told of in a cycle in which a cue has started takes effect in the next (DESIGN CHOICE, log 106; sp. 06
R173). -/
def killCycle (s : State) : Nat :=
  if s.stage.units.any (fun e => (e.2.running.toList ++ e.2.tail).any (fun r => decide (r.startedAt = s.now))) then s.now + 1 else s.now

/-- The tenant becomes FENCED in this cycle f (sp. 09 R287, R289, sp. 15 R455): each region takes a free entry or waits;
SCRUB_PENDING is set and programmed. -/
def fenceTenant (s : State) (t : Nat) : State :=
  let e := tenant s t
  let l := fencesOf t e
  let room := 4096 - s.mem.fences.length
  let m := { s with stage := { s.stage with planned := s.stage.planned ++ metaTaken s l } }
  let s0 := fenceRuns m (l.take room)
  let s1 := { s0 with mem := { s0.mem with fences := s0.mem.fences ++ l.take room, waiting := s0.mem.waiting ++ l.drop room },
                      guard := { s0.guard with scrubPending := true } }
  norWrite (setTenant s1 t { e with st := .fenced, closedAt := if e.reopened then e.closedAt else killCycle s, rstate := (numbered e.regions).map (fun x => if x.1 < room then 1 else 2),
                                    zeroed := e.regions.map (fun _ => 0) }) [.fences, .scrubPending]

/-- A waiting region takes an entry (sp. 09 R289). -/
def markFenced (s : State) (f : Fence) : State :=
  let e := tenant s f.tenant
  setTenant s f.tenant { e with rstate := e.rstate.set f.region 1 }

/-- Waiting regions take the free entries, in kill order. -/
def admitWaiting (s : State) : State :=
  let room := 4096 - s.mem.fences.length
  let l := s.mem.waiting.take room
  let s1 := fenceRuns s l
  l.foldl markFenced { s1 with mem := { s1.mem with fences := s1.mem.fences ++ l, waiting := s1.mem.waiting.drop room } }

/-- SCRUB_DONE's payload (sp. 13 Table 13-11). -/
def scrubDonePayload (t : Nat) (e : Tenant) : List Byte :=
  toLE 2 t ++ zeros 2 ++ toLE 4 e.generation.toNat ++ (e.zeroed.map (toLE 8)).flatten

/-- Every region is scrubbed (sp. 09 R291, sp. 15 R454, R455): the entries free, the tenant CLOSED, SCRUB_DONE and SCRUB_COMPLETE,
SCRUB_PENDING cleared when no tenant is FENCED. -/
def scrubComplete (s : State) (t : Nat) : State :=
  let e := tenant s t
  let s1 := setTenant { s with mem := { s.mem with fences := s.mem.fences.filter (fun f => f.tenant ≠ t) } } t { e with st := .closed }
  let s2 := admitWaiting s1
  let pend := s2.tenants.any (fun x => decide (x.2.st = .fenced))
  let s3 := norWrite { s2 with guard := { s2.guard with scrubPending := pend } } [.fences, .scrubPending]
  let s4 := sendReport s3 0x55 1 (scrubDonePayload t e)
  guardRaise s4 (gev s4 0x4B t e.zeroed.sum .never)

/-- The part of a range that a die's scrub engine zeroes: its own scratch and its own HBM region (sp. 09 R290). -/
def diePart (d : Nat) (x : Nat × Nat) : Option (Nat × Nat) :=
  if scratchBase ≤ x.1 then (if dieOf x.1 = d then some x else none)
  else
    let lo := max x.1 (d * 0x3000000000)
    let hi := min (x.1 + x.2) ((d + 1) * 0x3000000000)
    if lo < hi then some (lo, hi - lo) else none

/-- The dies that hold parts of a fenced region. -/
def fenceDies (f : Fence) : List Nat := [0, 1, 2, 3].filter (fun d => (diePart d (f.base, f.len)).isSome)

/-- A bank that a range touches is down or on its way (sp. 09 R292): RETAIN, GATED or rising. -/
def rangeBlocked (s : State) (x : Nat × Nat) : Bool :=
  match bankOf x.1 with
  | none => false
  | some k => (List.range (x.2 / 0x400000 + 2)).any (fun i =>
      decide (scratchBase + (k + i) * 0x400000 < x.1 + x.2) && decide ((bank s (k + i)).state ≠ .on ∧ (bank s (k + i)).state ≠ .off))

/-- No access admitted before a fence is under way in a range (sp. 09 R291, R294): no write of a row of it is queued, and the last read of
its banks has delivered. -/
def rangeQuiet (s : State) (x : Nat × Nat) : Bool :=
  match bankOf x.1 with
  | none => true
  | some k => (List.range (x.2 / 0x400000 + 2)).all (fun i =>
      decide (x.1 + x.2 ≤ scratchBase + (k + i) * 0x400000) ||
      (let q := queueAt (Sparse.get noQueue s.mem.queues (k + i)) s.now
       q.entries.all (fun e => !meets x (scratchBase + (k + i) * 0x400000 + 256 * e.row, 256)) &&
       q.lastRead.all (fun g => decide (g + 6 ≤ s.now))))

/-- The next region that a die's scrub engine takes (sp. 09 R291): the first fenced with a part of the die's not yet scrubbed, when the
engine is idle, no bank holds it back and every access admitted before the fence is complete. -/
def nextScrub (s : State) (d : Die) : Option Fence :=
  let mine := s.mem.fences.filter (fun f => (diePart d.val (f.base, f.len)).isSome && !f.scrubbed.contains d.val)
  if mine.any (fun f => f.scrubbing.contains d.val) then none else
  match mine with
  | [] => none
  | f :: _ =>
    let x := (diePart d.val (f.base, f.len)).getD (0, 0)
    if rangeBlocked s x || !rangeQuiet s x then none else some f

/-- The fence list with one entry changed. -/
def setFence (l : List Fence) (f v : Fence) : List Fence := l.map (fun x => if x.tenant = f.tenant ∧ x.region = f.region then v else x)

def execScrubRegionStart (die : Die) (s : State) : Result :=
  match nextScrub s die with
  | none => .next s
  | some f => .next { s with mem := { s.mem with fences := setFence s.mem.fences f { f with scrubbing := die.val :: f.scrubbing } } }

/-- Zeros with correct codes in a range of final addresses: the only writes that a fence admits (sp. 09 R290). -/
def zeroRange (s : State) (a n : Nat) : State :=
  { s with mem := { s.mem with bytes := Sparse.clear s.mem.bytes a n,
                               upsets := s.mem.upsets.filter (fun u => !(a ≤ u.addr && u.addr < a + n)) } }

/-- A range of issued addresses is zeroed: where a pair is SWAPPED each byte goes to its final address (sp. 08 R244, sp. 09 R287). -/
def zeroIssued (s : State) (a n : Nat) : State :=
  if s.cfg.regions.any (fun e => entryBit e.2 77) then
    (pieces a n).foldl (fun t p => zeroRange t (swapAddr t p.1) p.2) s
  else zeroRange s a n

/-- A die's part of a region is fully zeroed (sp. 09 R290, R291); with the last part the region is scrubbed, with the last region the
tenant. -/
def regionDone (s : State) (d : Nat) (f : Fence) (x : Nat × Nat) : State :=
  let f' := { f with scrubbing := f.scrubbing.filter (· ≠ d), scrubbed := d :: f.scrubbed }
  let s1 := zeroIssued { s with mem := { s.mem with fences := setFence s.mem.fences f f' } } x.1 x.2
  let e := tenant s1 f.tenant
  let all := (fenceDies f).all f'.scrubbed.contains
  let e' := { e with rstate := if all then e.rstate.set f.region 3 else e.rstate,
                     zeroed := e.zeroed.set f.region (e.zeroed.getD f.region 0 + x.2) }
  let s2 := setTenant s1 f.tenant e'
  if e'.rstate.all (· = 3) then scrubComplete s2 f.tenant else s2

/-- A bank that goes down while its region is being scrubbed holds the scrub back (sp. 09 R292). -/
def execScrubRegionDone (die : Die) (s : State) : Result :=
  match s.mem.fences.find? (fun f => f.scrubbing.contains die.val) with
  | none => .next s
  | some f =>
    match diePart die.val (f.base, f.len) with
    | none => .next s
    | some x => if rangeBlocked s x then .next s else .next (regionDone s die.val f x)

/-! ## Close, kill, status -/

/-- A close or kill that is accepted: the fence, the reply, the TENANT_KILL record of a kill; a tenant with no region is scrubbed at
once (sp. 15 R454). -/
def closeTenant (s : State) (o : Owed) (t : Nat) (kill : Bool) : State × Ans :=
  let s1 := fenceTenant s t
  let e := tenant s1 t
  let n := (e.rstate.filter (· = 1)).length
  let w := (e.rstate.filter (· = 2)).length
  let s2 := finish s1 o stOk [BitVec.ofNat 8 n, BitVec.ofNat 8 w]
  let s3 := if kill then guardRaise s2 (gev s2 0x4A (t + e.generation.toNat * 2 ^ 14) (n + 2 ^ 8 * w) .never) else s2
  (if e.regions.isEmpty then scrubComplete s3 t else s3, .later)

/-- The 2-byte tenant ID of a payload that holds nothing else. -/
def tenantArg (f : Frame) (s : State) (k : Nat → State × Ans) : State × Ans :=
  if f.payload.length ≠ 2 then no s stBadLength
  else if 16384 ≤ leAt f.payload 0 2 then no s stBadParam
  else k (leAt f.payload 0 2)

def execTenantClose (f : Frame) (s : State) : Result :=
  .next (runCommand s f (.tenantClose f) (cmd 0x51) (fun s o => tenantArg f s (fun t =>
    if (tenant s t).st ≠ .open_ ∨ (tenant s t).active then no s stTenantState else closeTenant s o t false)))

def execTenantKill (f : Frame) (s : State) : Result :=
  .next (runCommand s f (.tenantKill f) { cmd 0x52 with cls := 0 } (fun s o => tenantArg f s (fun t =>
    if (tenant s t).st ≠ .open_ then no s stTenantState else closeTenant s o t true)))

/-- The codes of STATE (sp. 07 Table 7-2). -/
def TenantState.code : TenantState → Nat
  | .closed => 0
  | .open_ => 1
  | .fenced => 2

/-- The 32-byte entry of Table 7-2. -/
def tenantEntry (e : Tenant) : List Byte :=
  toLE 32 (e.st.code * 2 ^ 254 + b01 e.active * 2 ^ 253 + e.place.toNat * 2 ^ 243 + e.regions.length * 2 ^ 238 +
    e.generation.toNat * 2 ^ 206 + e.stateAddr.toNat * 2 ^ 150)

/-- TENANT_STATUS's reply (sp. 13 Table 13-11). -/
def tenantStatusReply (e : Tenant) : List Byte :=
  tenantEntry e ++ (e.regions.map (fun x => toLE 16 (x.1 * 2 ^ 72 + x.2 * 2 ^ 32))).flatten ++ e.rstate.map (BitVec.ofNat 8) ++
  toLE 4 (stopAt top32 e.hits)

def execTenantStatus (f : Frame) (s : State) : Result :=
  .next (runCommand s f (.tenantStatus f) (cmd 0x53) (fun s _ => tenantArg f s (fun t => ok s (tenantStatusReply (tenant s t)))))

def execScrubStatus (f : Frame) (s : State) : Result :=
  .next (runCommand s f (.scrubStatus f) (cmd 0x54) (fun s _ => tenantArg f s (fun t =>
    ok s ([BitVec.ofNat 8 (b01 (decide ((tenant s t).st ≠ .fenced)))] ++ zeros 7 ++ ((tenant s t).zeroed.map (toLE 8)).flatten))))

/-! ## The maintenance scrub (sp. 09 R293) -/

/-- A range of open HBM or of scratch, in 256-B units (sp. 09 R293). -/
def scrubInside (x : Nat × Nat) : Bool :=
  decide (x.1 % 256 = 0 ∧ x.2 % 256 = 0 ∧ x.2 ≠ 0) &&
  decide (x.1 + x.2 ≤ fwBase ∨ (scratchBase ≤ x.1 ∧ x.1 + x.2 ≤ scratchBase + 4 * 0x10000000))

/-- REGION_SCRUB (sp. 13 Table 13-12). -/
def regionScrubBody (f : Frame) (s : State) (o : Owed) : State × Ans :=
  let p := f.payload
  let a := leAt p 0 7
  let n := leAt p 8 5
  if p.length ≠ 13 then no s stBadLength
  else if !zeroAt p 7 1 ∨ a % 256 ≠ 0 ∨ n % 256 ≠ 0 ∨ n = 0 then no s stBadParam
  else if stepBusy s then no s stBusy
  else if !scrubInside (a, n) ∨ (heldRegions s 16384).any (fun x => overlaps a n x.1 x.2) then no s stAddrRefused
  else ({ s with mem := { s.mem with scrubs := s.mem.scrubs ++ [{ base := a, len := n, owed := o }] } }, .accepted)

def execRegionScrub (f : Frame) (s : State) : Result := .next (runCommand s f (.regionScrub f) (cmd 0x93) (fun s o => regionScrubBody f s o))

/-- The oldest maintenance scrub ends: its range is zero and its final reply goes out (sp. 09 R293). A bank that is not ON holds it back
(R292). -/
def execRegionScrubDone (s : State) : Result :=
  match s.mem.scrubs with
  | [] => .next s
  | x :: r =>
    if rangeBlocked s (x.base, x.len) then .next s else
    let s1 := zeroIssued (otherWrites { s with mem := { s.mem with scrubs := r } } none [(x.base, x.len)]) x.base x.len
    .next (finish s1 x.owed stOk [])

end Sys2Proof.Machine
end

