-- ==== Sys2Proof/Machine/Peer.lean ====
section
/-! DEFINITION. The peer ports: states and identity (sp. 11 R325-R328), flits, retry and credits (R329-R335), transfers received
(R338-R342, R347), tallies, relays and notices (R340, R344, R345; sp. 02 R38). -/

namespace Sys2Proof.Machine

/-! ## Port states -/

def execPortTrainingDone (port : PortNo) (s : State) : Result :=
  if (Machine.port s port).st = .training then
    .next (portMove (setPort s port { Machine.port s port with measured := false, tokensOut := [], lastToken := none }) port .verify 0)
  else .next s

def execTrainingTimeout (port : PortNo) (s : State) : Result :=
  if (Machine.port s port).st = .training then .next (portFail s port) else .next s

/-- An IDENT's body from byte 16 (sp. 11 Table 11-5, R327, R328). -/
def identBody (s : State) (p : PortNo) (token : BitVec 16) : List Byte :=
  let q := port s p
  [s.cfg.deviceId.getD 0, BitVec.ofNat 8 p.val] ++ serialBytes s ++ [BitVec.ofNat 8 (peerId q.entry)] ++
  (match q.lastToken with
   | none => [0] ++ toLE 2 token.toNat ++ zeros 6
   | some (e, at_) => [1] ++ toLE 2 token.toNat ++ toLE 2 e.toNat ++ toLE 4 (stopAt top32 (s.ref - at_)))

/-- An IDENT is due in VERIFY or MISMATCH (sp. 11 R328): it takes the next token. Cycles of a link are reference cycles: ports run at full rate
in a brownout hold, and the beat relay that uses the latency counts reference cycles (R348, sp. 00 R11). -/
def execIdentSend (port : PortNo) (s : State) : Result :=
  let q := Machine.port s port
  if q.st = .verify ∨ q.st = .mismatch then
    let t := q.token
    .next (setPort s port (sendBare { q with token := t + 1, tokensOut := q.tokensOut ++ [(t, s.ref)] } 9 (identBody s port t)))
  else .next s

/-- The round trip that an IDENT measures: from the echoed IDENT's sending to this arrival, less the hold (sp. 11 R328). -/
def roundTrip (q : Port) (now : Nat) (b : IdentBody) : Option Nat :=
  if b.echoValid then (q.tokensOut.find? (fun x => x.1 = b.echo)).map (fun x => now - x.2 - b.hold.toNat) else none

/-- The received identity agrees with the map entry and with what the far end expects (sp. 11 R327). -/
def identAgrees (s : State) (p : PortNo) (b : IdentBody) : Bool :=
  let e := (port s p).entry
  decide (b.deviceId.toNat = peerId e ∧ b.farPort.toNat = peerPort e) &&
  (decide (peerSerial e = 0) || decide (b.serial.toNat = peerSerial e)) && decide (b.expects.toNat = ownId s)

/-- Flits cross the port: in VERIFY, MISMATCH and UP (sp. 11 Table 11-3). -/
def flitsCross (s : State) (p : PortNo) : Bool :=
  match (port s p).st with
  | .verify | .mismatch | .up => true
  | _ => false

/-- Corrected FEC symbols count for their lane, and for the health monitor (sp. 11 R324, sp. 14 Table 14-4). -/
def countCorrected (s : State) (p : PortNo) (l : Corrected) : State :=
  if !flitsCross s p then s else
  l.foldl (fun t x =>
    let q := port t p
    let t1 := setPort t p { q with corrected := Sparse.bump top64 q.corrected x.1.val x.2 }
    let c := t1.health.cur
    { t1 with health := { t1.health with cur := { c with fec := Sparse.bump top64 c.fec (8 * p.val + x.1.val) x.2 } } }) s

/-- An IDENT arrives (sp. 11 R327, R328): the serial and the token are kept; in VERIFY the first round trip gives the latency, and the
port goes UP or to MISMATCH. -/
def execIdent (port : PortNo) (body : IdentBody) (r : State) : Result :=
  let s := countCorrected r port body.fec
  let q := Machine.port s port
  if q.st ≠ .verify ∧ q.st ≠ .mismatch then .next s else
  let q1 := { q with rxSerial := body.serial, lastToken := some (body.token, s.ref) }
  if q.st = .mismatch then .next (setPort s port q1) else
  let q2 := match roundTrip q s.ref body with
    | none => q1
    | some t => if q.measured then q1 else { q1 with latency := t / 2, measured := true }
  let s1 := setPort s port q2
  if identAgrees s port body then .next (portMove (setPort s1 port (freshLink q2)) port .up 0)
  else .next (portMove s1 port .mismatch (peerId q.entry + body.deviceId.toNat * 2 ^ 8 + peerPort q.entry * 2 ^ 16 +
    body.farPort.toNat % 8 * 2 ^ 19))

/-- No IDENT within 100 us of VERIFY (sp. 11 Table 11-3). -/
def execIdentTimeout (port : PortNo) (s : State) : Result :=
  if (Machine.port s port).st = .verify then .next (portFail s port) else .next s

/-- 1 ms after DOWN the port trains again (sp. 11 Table 11-3). -/
def execPortRetrain (port : PortNo) (s : State) : Result :=
  if (Machine.port s port).st = .down then .next (portAgain s port) else .next s

/-- A lane of an UP port loses lock (sp. 11 Table 11-3). -/
def execLaneLockLost (port : PortNo) (s : State) : Result :=
  if (Machine.port s port).st = .up then .next (portFail s port) else .next s

/-! ## Retry -/

/-- Retry exhaustion (sp. 11 R333): LINK_RETRY with the counts, and the port goes DOWN. -/
def exhaust (s : State) (p : PortNo) : State :=
  let q := port s p
  let s1 := setPort s p { q with exhausted := stopAt top32 (q.exhausted + 1) }
  portFail (raise s1 (ev 0x10 (portPlace p) 17 p.val q.retries q.naks.length .never)) p

/-- A LINK flit, with a NAK or without (sp. 11 R332, Table 11-5). -/
def sendLink (q : Port) (nak : Option (BitVec 16 × BitVec 16)) : Port :=
  match nak with
  | none => sendBare q 7 (zeros 5)
  | some (a, b) => sendBare q 7 (toLE 2 a.toNat ++ toLE 2 b.toNat ++ [1])

/-- A codeword of a lane was uncorrectable (sp. 11 R324, sp. 14 Table 14-4). -/
def countUncorrectable (s : State) (p : PortNo) : Option (Fin 8) → State
  | none => s
  | some l =>
    if !flitsCross s p then s else
    let q := port s p
    let s1 := setPort s p { q with uncorrectable := Sparse.bump top32 q.uncorrectable l.val 1 }
    { s1 with health := { s1.health with cur := { s1.health.cur with unc := s1.health.cur.unc + 1 } } }

/-- The last bad number that a NAK names: at most 20 after the first (sp. 11 R332). -/
def nakLast (first last : BitVec 16) : BitVec 16 := first + BitVec.ofNat 16 (min 20 (last - first).toNat)

/-- The receiver finds bad flits `first` to `last` (sp. 11 R329, R332): spoiled by an uncorrectable codeword of a lane, or a flit as it
arrived, unless that is a good one: a NAK, once the port is UP and flits are numbered; more than 1,000 of them in 1 ms (1,000,000 reference
cycles) exhaust the port (R333). -/
def execBadFlit (port : PortNo) (first last : BitVec 16) (found : BadFound) (s : State) : Result :=
  let s1 := countUncorrectable s port found.lane
  if (Machine.port s port).st ≠ .up ∨ (found.lane.isNone ∧ flitSound found.heads found.raw) then .next s1 else
  let q := Machine.port s1 port
  let naks := q.naks.filter (fun t => decide (s.ref < t + 1000000)) ++ [s.ref]
  let s2 := setPort s1 port (sendLink { q with naks := naks } (some (first, nakLast first last)))
  if 1000 < naks.length then .next (exhaust s2 port) else .next s2

/-- Flits of the retry buffer are sent again (sp. 11 R332), ahead of every other flit. -/
def resend (q : Port) (sel : BitVec 16 → Bool) : Port :=
  let l := q.retry.filter (fun k => sel k.flit.seq)
  { q with out := q.out ++ l.map (·.flit),
           retry := q.retry.map (fun k => if sel k.flit.seq then { k with resends := k.resends + 1 } else k),
           retries := stopAt top32 (q.retries + 1) }

/-- After a resend: a flit sent again 16 times exhausts the port (sp. 11 R333). -/
def checkResends (s : State) (p : PortNo) : State :=
  if (port s p).retry.any (fun k => decide (16 ≤ k.resends)) then exhaust s p else s

/-- No ACK progress for 2 us: everything from the oldest flit on is sent again (sp. 11 R332). -/
def execRetryTimeout (port : PortNo) (s : State) : Result :=
  let q := Machine.port s port
  if q.st = .up ∧ !q.retry.isEmpty then .next (checkResends (setPort s port (resend q (fun _ => true))) port) else .next s

/-! ## Receiving a flit -/

/-- A TALLY_ONLY cue completes: an ACK covers its flit (sp. 11 R340). Once firing has stopped the cue is abandoned (sp. 02 R493). -/
def tallyAcked (s : State) (owner : Nat) : State :=
  if owner = 0 then s else
  let d : Die := Fin.ofNat 4 ((owner - 1) / 128)
  let n : Fin 128 := Fin.ofNat 128 (owner - 1)
  match (unit s (chanUnit d n)).running with
  | some r =>
    if r.opcode = 0x61 ∧ !r.halted ∧ r.send.todo = 0 ∧ !stopNow s then dmaDone s d n r (dmaRecord 0 0 0 0 0) 0 s.now else s
  | none => s

/-- The kept flits that an ACK covers: those numbered below it (sp. 11 R330, R332). -/
def covered (ack : BitVec 16) (k : Kept) : Bool :=
  let n := (ack - k.flit.seq).toNat
  decide (1 ≤ n ∧ n < 32768)

/-- The credits that a control flit returns (sp. 11 R335). -/
def creditsBack (q : Port) (h : FlitHdr) : Sparse Nat :=
  let add (m : Sparse Nat) (c v : Nat) : Sparse Nat := Sparse.set linkCap m c (min (linkCap c) (Sparse.get linkCap m c + v))
  add (add (add (add q.credits 0 h.cred0.toNat) 1 h.cred1.toNat) 2 h.cred2.toNat) 3 h.cred3.toNat

/-- RELAY flits that wait for a credit carry the beat and cycle in which they leave; in UNLOCKED, ACQUIRING and LOST none is sent (sp. 11
R344). -/
def freshRelays (s : State) (q : Port) : Port :=
  { q with waitq := (q.waitq.filter (fun f => f.kind ≠ 6 || beatRuns s)).map (fun f =>
      if f.kind = 6 then { f with body := relayBody s } else f) }

/-- The ACK of a control flit frees the retry buffer and completes what waited for it; its credits return, and flits that waited for them
leave after those that `again` selects to be sent again (sp. 11 R332, R335). -/
def takeHeader (s : State) (h : FlitHdr) (again : Option (BitVec 16 → Bool)) : State :=
  let q := freshRelays s (port s h.port)
  let gone := q.retry.filter (covered h.ack)
  let q1 := { q with retry := q.retry.filter (fun k => !covered h.ack k), credits := creditsBack q h }
  let q2 := match again with
    | some sel => resend q1 sel
    | none => q1
  gone.foldl (fun t k => tallyAcked t k.flit.owner) (setPort s h.port (drainPort q2))

/-- A receive buffer is free again: its credit returns in the next control flit (sp. 11 R335). -/
def freeBuffer (q : Port) (c : Nat) : Port := { q with rxFreed := Sparse.bump (linkCap c) q.rxFreed c 1 }

/-- The transfer that a data flit belongs to. -/
def curRx (q : Port) : Option RxXfer :=
  match q.curXfer with
  | none => none
  | some (a, x) => q.rx.find? (fun r => r.sender = a && r.xfer = x && !r.ended)

/-- A received transfer, changed. -/
def setRx (q : Port) (v : RxXfer) : Port :=
  { q with rx := q.rx.map (fun r => if r.sender = v.sender && r.xfer = v.xfer && !r.ended then v else r) }

/-- A transfer opens, and meets whatever else may write or add into its bytes in the same span (sp. 11 R348). -/
def joinRx (s : State) (p : PortNo) (x : RxXfer) : State × RxXfer :=
  let l := rxRanges s p.val x
  (otherWrites s none l, { x with clash := sharedAll l (openWrites s none) })

/-- The die whose stream a received transfer takes: that of its destination (sp. 09 R273). -/
def headDie (b : HeadBody) : Die := Fin.ofNat 4 (dieOf (bits b.dst.toNat 55 0))

/-- A HEAD is delivered (sp. 11 R338): its transfer takes a stream of the destination's die, or waits for one (sp. 09 R275). -/
def takeHead (s : State) (h : FlitHdr) (b : HeadBody) : State :=
  let wait := decide (4096 ≤ streamsHeld s (headDie b).val)
  let s0 := if wait then countWait s (headDie b) true else s
  let j := joinRx s0 h.port { sender := h.sender, xfer := h.xfer, head := b, data := [], ended := false, crcBad := false, clash := [],
                              fenced := [], queued := wait }
  let q := freeBuffer (port j.1 h.port) b.cls.toNat
  setPort j.1 h.port { q with curXfer := some (h.sender, h.xfer), rx := q.rx ++ [j.2] }

/-- The class of the open transfer (sender, number), or 2. -/
def rxClass (q : Port) (a : Byte) (x : BitVec 16) : Nat :=
  match q.rx.find? (fun r => r.sender = a && r.xfer = x) with
  | some r => r.head.cls.toNat
  | none => 2

/-- A RESUME is delivered (sp. 11 R331). -/
def takeResume (s : State) (h : FlitHdr) : State :=
  let q := port s h.port
  setPort s h.port { freeBuffer q (rxClass q h.sender h.xfer) with curXfer := some (h.sender, h.xfer) }

/-- A data flit is delivered to the transfer named last (sp. 11 R331). -/
def takeData (s : State) (p : PortNo) (payload : List Byte) : State :=
  let q := port s p
  match curRx q with
  | none => setPort s p (freeBuffer q 2)
  | some r => setPort s p (setRx (freeBuffer q r.head.cls.toNat) { r with data := r.data ++ payload })

/-- An END is delivered (sp. 11 R342): the CRC over the payload is checked; a mismatch is a LINK_CRC error. -/
def takeEnd (s : State) (h : FlitHdr) (bytes : BitVec 64) (crc : BitVec 32) : State :=
  let q := port s h.port
  match q.rx.find? (fun r => r.sender = h.sender && r.xfer = h.xfer && !r.ended) with
  | none => setPort s h.port (freeBuffer q 2)
  | some r =>
    let d := r.data.take bytes.toNat
    let bad := decide (crc32c d ≠ crc.toNat ∨ d.length ≠ bytes.toNat)
    let s1 := setPort s h.port (setRx (freeBuffer q r.head.cls.toNat) { r with data := d, ended := true, crcBad := bad })
    if bad then raise s1 (ev 0x11 (portPlace h.port) 17 h.port.val h.xfer.toNat h.sender.toNat .first) else s1

/-- The entries of a TALLY flit act as they are delivered; a LINK flit carries the ACK (sp. 11 R340). -/
def takeTally (s : State) (h : FlitHdr) (es : List TallyEntry) : State :=
  let s1 := es.foldl (fun t e => if e.tally = 0 ∧ e.inc = 0 then t else applyTally t e.tally.toNat e.inc.toNat) s
  setPort s1 h.port (freeBuffer (port s1 h.port) 1)

/-- A NOTICE is recorded and changes nothing else (sp. 11 R345, sp. 14 Table 14-2): the port as the instance, the code, the step number.
The sender's device ID, which the table gives no place, is named in DETAIL0 above the code (log 92). -/
def takeNotice (s : State) (h : FlitHdr) (code : Byte) (stepNo : BitVec 32) : State :=
  let s1 := setPort s h.port (freeBuffer (port s h.port) 0)
  raise s1 (ev 0x12 (portPlace h.port) 17 h.port.val (code.toNat + 2 ^ 8 * h.sender.toNat) stepNo.toNat .never)

/-- The skew of a relayed beat, in reference cycles: the far end's position now less the local one, beat numbers modulo 2^48 (sp. 02 R32, R38,
sp. 11 R328). -/
def relaySkew (s : State) (p : PortNo) (beat : BitVec 48) (tx : BitVec 12) : Int :=
  (beat - s.beat.count).toInt * 4096 + ((tx.toNat + (port s p).latency : Nat) : Int) - (s.cycle.toNat : Int)

/-- BEAT_SKEW, naming the port (sp. 02 R38). -/
def beatSkew (s : State) (p : PortNo) (d : Int) : State := raise s (ev 0x02 (portPlace p) 21 p.val p.val (unsigned 64 d) .every)

/-- The counter holds a beat number: in every state but UNLOCKED, in LOST the frozen one (sp. 02 R33, Table 2-2). -/
def beatCounts (s : State) : Bool := s.beat.lock ≠ .unlocked

/-- A RELAY is delivered (sp. 02 R38): another beat number raises BEAT_SKEW at once, a skew beyond 48 cycles in the fourth
consecutive beat; after that the run starts afresh, so a lasting skew raises it every fourth beat (DESIGN CHOICE, log 78). In UNLOCKED there is no
local beat to compare with (log 78). -/
def takeRelay (s : State) (h : FlitHdr) (beat : BitVec 48) (tx : BitVec 12) : State :=
  let s1 := setPort s h.port (freeBuffer (port s h.port) 0)
  if !beatCounts s then s1 else
  let q := port s1 h.port
  let d := relaySkew s h.port beat tx
  if 2048 < d.natAbs then beatSkew s1 h.port d
  else if d.natAbs ≤ 48 then setPort s1 h.port { q with skewRun := 0 }
  else
    let n := if q.skewRun ≠ 0 ∧ beat = q.skewBeat + 1 then q.skewRun + 1 else 1
    if n < 4 then setPort s1 h.port { q with skewRun := n, skewBeat := beat }
    else beatSkew (setPort s1 h.port { q with skewRun := 0 }) h.port d

/-- The STATUS of a DONE for a transfer of the restore that this device sends (sp. 14 R422). -/
def restoreStatus (s : State) (h : FlitHdr) (b : DoneBody) : State :=
  match s.restore with
  | none => s
  | some r =>
    if h.port.val = uPort s.cfg.understudy ∧ r.sends.contains h.xfer then
      { s with restore := some { r with worst := max r.worst b.status.toNat } }
    else s

/-- A DONE is delivered (sp. 11 R340). -/
def takeDone (s : State) (h : FlitHdr) (b : DoneBody) : State :=
  let q := freeBuffer (port s h.port) 1
  match q.tx.find? (fun x => x.xfer = h.xfer) with
  | none => setPort s h.port q
  | some x => sendDone (restoreStatus (setPort s h.port { q with tx := q.tx.filter (fun y => y.xfer ≠ h.xfer) }) h b) x.die x.chan b

/-- One flit delivered in sequence (sp. 11 R331). -/
def deliverFlit (s : State) (p : PortNo) : Instr → State
  | .relay h beat tx => takeRelay (takeHeader s { h with port := p } none) { h with port := p } beat tx
  | .head h b => takeHead (takeHeader s { h with port := p } none) { h with port := p } b
  | .resumeFlit h => takeResume (takeHeader s { h with port := p } none) { h with port := p }
  | .dataFlit _ _ data => takeData s p data.bytes
  | .endFlit h bytes crc => takeEnd (takeHeader s { h with port := p } none) { h with port := p } bytes crc
  | .done h b => takeDone (takeHeader s { h with port := p } none) { h with port := p } b
  | .tally h es => takeTally (takeHeader s { h with port := p } none) { h with port := p } es
  | .notice h code n _ => takeNotice (takeHeader s { h with port := p } none) { h with port := p } code n
  | _ => s

/-- The sequence number of a flit. -/
def flitSeq : Instr → BitVec 16
  | .relay h _ _ => h.seq
  | .head h _ => h.seq
  | .resumeFlit h => h.seq
  | .dataFlit _ q _ => q
  | .endFlit h _ _ => h.seq
  | .done h _ => h.seq
  | .tally h _ => h.seq
  | .notice h _ _ _ => h.seq
  | _ => 0

/-- What the lanes corrected for a flit. -/
def fecOf : Instr → Corrected
  | .relay h _ _ => h.fec
  | .head h _ => h.fec
  | .resumeFlit h => h.fec
  | .dataFlit _ _ data => data.fec
  | .endFlit h _ _ => h.fec
  | .done h _ => h.fec
  | .tally h _ => h.fec
  | .notice h _ _ _ => h.fec
  | _ => []

/-- A TALLY flit, whose delivery sends a LINK (sp. 11 R340). -/
def isTally : Instr → Bool
  | .tally _ _ => true
  | _ => false

/-- The flit is delivered, and the next number expected. A LINK carries the ACK after a TALLY and when 256 flits have none (sp. 11
R332, R340). -/
def acceptFlit (s : State) (p : PortNo) (i : Instr) : State :=
  let q := port s p
  let s1 := deliverFlit (setPort s p { q with rxNext := q.rxNext + 1 }) p i
  let q1 := port s1 p
  if q1.st = .up ∧ (isTally i ∨ 256 ≤ (q1.rxNext - q1.ackSent).toNat) then setPort s1 p (sendLink q1 none) else s1

/-- The held flits that have become next in sequence are delivered (sp. 11 R332); `fuel` bounds their number. -/
def drainHeld : Nat → State → PortNo → State
  | 0, s, _ => s
  | f + 1, s, p =>
    let q := port s p
    match q.reorder.find? (fun i => flitSeq i = q.rxNext) with
    | none => s
    | some i =>
      drainHeld f (acceptFlit (setPort s p { q with reorder := q.reorder.filter (fun x => flitSeq x ≠ q.rxNext) }) p i) p

/-- A flit with a SEQ arrives (sp. 11 R330-R333): the next one is delivered with those held behind it; one ahead is held, a full
buffer exhausting the port; one already delivered is dropped. -/
def receiveFlit (r : State) (p : PortNo) (i : Instr) : State :=
  let s := countCorrected r p (fecOf i)
  let q := port s p
  let ahead := (flitSeq i - q.rxNext).toNat
  if q.st ≠ .up then s
  else if ahead = 0 then drainHeld 1024 (acceptFlit s p i) p
  else if 32768 ≤ ahead ∨ q.reorder.any (fun x => flitSeq x = flitSeq i) then s
  else if 1024 ≤ q.reorder.length then exhaust s p
  else setPort s p { q with reorder := q.reorder ++ [i] }

def execRelay (h : FlitHdr) (beat : BitVec 48) (txCycle : BitVec 12) (s : State) : Result :=
  .next (receiveFlit s h.port (.relay h beat txCycle))
def execHead (h : FlitHdr) (body : HeadBody) (s : State) : Result := .next (receiveFlit s h.port (.head h body))
def execResumeFlit (h : FlitHdr) (s : State) : Result := .next (receiveFlit s h.port (.resumeFlit h))
def execDataFlit (port : PortNo) (seq : BitVec 16) (data : DataIn) (s : State) : Result :=
  .next (receiveFlit s port (.dataFlit port seq data))
def execEndFlit (h : FlitHdr) (bytes : BitVec 64) (crc : BitVec 32) (s : State) : Result :=
  .next (receiveFlit s h.port (.endFlit h bytes crc))
def execDone (h : FlitHdr) (body : DoneBody) (s : State) : Result := .next (receiveFlit s h.port (.done h body))
def execTally (h : FlitHdr) (entries : List TallyEntry) (s : State) : Result := .next (receiveFlit s h.port (.tally h entries))
def execNotice (h : FlitHdr) (code : Byte) (stepNo : BitVec 32) (cause : Byte) (s : State) : Result :=
  .next (receiveFlit s h.port (.notice h code stepNo cause))

/-- A LINK flit arrives (sp. 11 R332): its header counts, and a NAK has the named flits sent again, ahead of every other. -/
def execLink (h : FlitHdr) (nak : Option (BitVec 16 × BitVec 16)) (r : State) : Result :=
  let s := countCorrected r h.port h.fec
  if (port r h.port).st ≠ .up then .next s else
  match nak with
  | none => .next (takeHeader s h none)
  | some (a, b) => .next (checkResends (takeHeader s h (some (fun q => decide ((q - a).toNat ≤ (b - a).toNat)))) h.port)

/-! ## A received transfer becomes visible (sp. 11 R339-R342, R347) -/

/-- A range touches the window. -/
def touchesWindow (s : State) (a n : Nat) : Bool :=
  let w := windowRange s
  overlaps a n w.1 w.2

/-- The receiver admits a restore of its own image (sp. 11 R347, sp. 14 R422). -/
def admitRestore (s : State) (p : PortNo) (x : RxXfer) : Bool :=
  (match s.restore with
   | some r => decide (r.tier = 1 ∧ r.id.toNat / 2 ^ 56 = ownId s)
   | none => false) && decide (x.sender.toNat = peerId (port s p).entry) && decide ((port s p).st = .up)

/-- A tile's row in transit packing: its scale byte, if any, and its codes (sp. 03 R89). -/
def tileRow (e c : Nat) (t : CTile) (i : Nat) : List Byte :=
  (if t.scales.isEmpty then [] else [BitVec.ofNat 8 (t.scales.getD i 0)]) ++ packCodes e ((t.codes.drop (i * c)).take c)

/-- The tiles of a payload in directory order, each with its bytes' length; a rejected tile is absent or NaN and named in the last
part (sp. 05 R145). -/
def payloadTiles (e : Nat) (scaled : Bool) (rows k : Nat) : List (Nat × Nat × Nat) → List Byte → List (CTile × Nat × Bool)
  | [], _ => []
  | (_, rt, kt) :: g, p =>
    let r := min 32 (rows - 32 * rt)
    let c := min 32 (k - 32 * kt)
    let n := 8 + bits (leAt p 0 8) 44 32
    let w := n + (8 - n % 8) % 8
    (match decodeTile e scaled r c p with
     | some t => (t, w, false)
     | none => (badCTile e scaled r c, w, true)) :: payloadTiles e scaled rows k g (p.drop w)

/-- What a received transfer writes: address and bytes of each range, in order; and its rejected tiles (sp. 11 R339, sp. 05 Table
5-7). -/
def rxWrites (x : RxXfer) : List (Nat × List Byte) × List Nat :=
  let h := x.head
  let rows := h.rows.toNat
  let n := h.rowBytes.toNat
  let k := h.codecK.toNat
  let e := fElem h.format.toNat
  let scaled := decide (fScale h.format.toNat = 1)
  if h.codec = 0 then ((List.range rows).map (fun r => (headRow h r, slice x.data (r * n) n)), [])
  else
    let grid := numbered (tileGrid rows k)
    let ts := payloadTiles e scaled rows k grid x.data
    if h.codec = 2 ∨ h.codec = 4 then
      let offs := (ts.foldl (fun a t => (a.1 ++ [a.2], a.2 + t.2.1)) (([] : List Nat), 0)).1
      ([(bits h.dst.toNat 55 0, directoryHeader (headStream h) rows k x.data.length ++ (offs.map (toLE 4)).flatten),
        (headStream h, x.data)], [])
    else
      let nb := ceilDiv k 32
      ((List.range rows).map (fun r =>
        (headRow h r, ((List.range nb).map (fun kt =>
          match ts[r / 32 * nb + kt]? with
          | some t => tileRow e (min 32 (k - 32 * kt)) t.1 (r % 32)
          | none => [])).flatten)),
       ((numbered ts).filter (fun t => t.2.2.2)).map (·.1))

/-- The bytes that an OP writes: the payload, or the FP32 or INT32 sum with the bytes already there; and the clamps (sp. 11 R339). -/
def combine (s : State) (op : Nat) (a : Nat) (p : List Byte) : List Byte × Nat :=
  if op = 0 then (p, 0) else
  (List.range (p.length / 4)).foldl (fun acc i =>
    let r := leAt p (4 * i) 4
    let d := loadLE s (a + 4 * i) 4
    if op = 1 then (acc.1 ++ toLE 4 (fadd r d), acc.2)
    else
      let c := clamp32 (signed 32 r + signed 32 d)
      (acc.1 ++ toLE 4 (unsigned 32 c.1), acc.2 + c.2)) (([] : List Byte), 0)

/-- The fault of a 256-B piece of a received transfer (sp. 11 R341). -/
def pieceFault (s : State) (snap : Bool) (a n : Nat) : Option Nat :=
  match localFault a n true with
  | some c => some c
  | none => if !snap && touchesWindow s a n then some 3 else if bankFault s a n then some 1 else none

/-- A range cut at 256-B boundaries, with its bytes. -/
def cutWrite (x : Nat × List Byte) : List (Nat × List Byte) :=
  (pieces x.1 x.2.length).map (fun q => (q.1, slice x.2 (q.1 - x.1) q.2))

/-- The result of writing a received transfer: the state, bytes written, fence hits, clamps, and the failing address and cause. -/
structure Landing where
  st : State
  bytes : Nat
  hits : Nat
  clamps : Nat
  fail : Option (Nat × Nat)

/-- One piece lands; after a failure nothing does, and its bytes are undefined where they exist. -/
def landPiece (who : Who) (snap : Bool) (op : Nat) (l : Landing) (x : Nat × List Byte) : Landing :=
  let undefd (t : State) : State := if decodes x.1 x.2.length true then storeFree t [(x.1, x.2.length)] else t
  match l.fail with
  | some _ => { l with st := undefd l.st }
  | none =>
    match pieceFault l.st snap x.1 x.2.length with
    | some c => { l with st := undefd l.st, fail := some (x.1, c) }
    | none =>
      let s1 := if op = 0 then l.st else touchRead who l.st x.1 x.2.length
      let r := combine l.st op x.1 x.2
      { st := writeMem who s1 x.1 r.1, bytes := l.bytes + x.2.length, hits := l.hits + hitsOf l.st x.1 x.2.length,
        clamps := l.clamps + r.2, fail := none }

/-- A whole transfer lands; what another party wrote or added into meanwhile is undefined (sp. 11 R348). Fences that began meanwhile hold
for it, however they have fared since; which of its pieces came after them, and count as hits, no rule fixes (log 109). -/
def landAll (s : State) (p : PortNo) (x : RxXfer) : Landing :=
  let ps := ((rxWrites x).1.map cutWrite).flatten
  let more := x.fenced.filter (fun f => !s.mem.fences.contains f)
  let l := ps.foldl (landPiece (whoPort p) x.head.snap x.head.op.toNat)
    { st := { s with mem := { s.mem with fences := s.mem.fences ++ more } }, bytes := 0, hits := 0, clamps := 0, fail := none }
  let t := storeFree { l.st with mem := { l.st.mem with fences := s.mem.fences } } x.clash
  if x.fenced.isEmpty then { l with st := t } else
  let new := min l.hits (takenBy x.fenced (rangesOf ps)).length
  let k := drawUpTo new (blurHits s t x.fenced [])
  { l with st := k.2, hits := l.hits - new + k.1 }

/-- The DONE of a transfer (sp. 11 Table 11-5). -/
def doneFlit (s : State) (x : RxXfer) (status cause addr bytes hits : Nat) : OutFlit :=
  flit 4 1 x.xfer ([BitVec.ofNat 8 status, BitVec.ofNat 8 cause] ++ zeros 2 ++ toLE 8 (if status = 3 then globalOf s addr else 0) ++
    [BitVec.ofNat 8 (b01 (decide (status = 3)))] ++ zeros 3 ++ toLE 8 bytes ++ toLE 4 (stopAt top32 hits))

/-- A transfer that the receiver refuses or cannot write whole: the bus error is recorded, and DONE carries STATUS 3; no signal is applied
(sp. 11 R341, R348; log 92). -/
def refuseRx (s : State) (p : PortNo) (x : RxXfer) (cause addr bytes hits : Nat) : State :=
  let s1 := raise s (ev 0x0E (portPlace p) 17 p.val (globalOf s addr) (cause + 16) .every)
  setPort s1 p (sendFlits (port s1 p) [doneFlit s1 x 3 cause addr bytes hits])

/-- A transfer's bytes go into the image being restored (sp. 11 R347, sp. 14 R422). -/
def restorePut (s : State) (off : Nat) (p : List Byte) : State :=
  match s.restore with
  | none => s
  | some r => { s with restore := some { r with bytes := Sparse.put zeroByte r.bytes off p } }

/-- Parity detections on the receiver's path (sp. 11 R342), with the step's replay mark. -/
def rxParity (s : State) (p : PortNo) (l : List Detect) : State :=
  if l.isEmpty then s else busParity s (portPlace p) 17 p.val noCue l

/-- A transfer that has ended becomes visible (sp. 11 R339-R342): its bytes, its remote signal, its DONE. -/
def visibleRx (r : State) (p : PortNo) (x : RxXfer) (parity : List Detect) : State :=
  let h := x.head
  let s := rxParity r p parity
  let status (t : State) : Nat := b01 (x.crcBad || !parity.isEmpty || decide (detections t ≠ detections s))
  if h.snap && !admitSnapshot s p.val x then
    if admitRestore s p x then
      let s1 := (rxWrites x).1.foldl (fun t w => restorePut t w.1 w.2) s
      setPort s1 p (sendFlits (port s1 p) [doneFlit s1 x (status s1) 0 0 x.data.length 0])
    else refuseRx s p x 3 (bits h.dst.toNat 55 0) 0 0
  else
    let l := landAll s p x
    let bad := (rxWrites x).2
    let s1 := setPort l.st p { port l.st p with clamps := stopAt top32 ((port l.st p).clamps + l.clamps) }
    let s2 := raiseAll s1 (bad.map (fun i => ev 0x09 (portPlace p) 17 p.val 1 i .first))
    match l.fail with
    | some (a, c) => refuseRx s2 p x c a l.bytes l.hits
    | none =>
      let s3 := if h.sigEn then applyTally s2 h.tally.toNat h.inc.toNat else s2
      setPort s3 p (sendFlits (port s3 p) [doneFlit s3 x (status s3) 0 0 l.bytes l.hits])

/-- What a transfer wrote where a parity detection fell is undefined: its 256-byte pieces by their number from 1 (sp. 09 R256). -/
def blurRx (x : RxXfer) (ks : List Nat) (s : State) : RxXfer × State :=
  if ks.isEmpty then (x, s) else
  let f := drawBytes x.data.length s
  ({ x with data := (numbered (x.data.zip f.1)).map (fun b => if ks.contains (b.1 / 256 + 1) then b.2.2 else b.2.1) }, f.2)

/-- The wait of a received transfer for its stream is traced (sp. 14 Table 14-3), with a free number of cycles (log 76). -/
def traceRxWait (p : PortNo) (x : RxXfer) (s : State) : State :=
  if !x.queued then s else
  let f := drawBytes 4 s
  traceOn f.2 3 (dieplace (headDie x.head)) 17 p.val noCue (bits x.head.dst.toNat 55 0) (ofLE f.1)

/-- A transfer that has ended becomes visible (sp. 11 R340-R342). -/
def execTransferVisible (port : PortNo) (landed : Landed) (s : State) : Result :=
  let q := Machine.port s port
  let xfer := landed.xfer
  match q.rx.find? (fun r => r.xfer = xfer && r.ended) with
  | none => .next s
  | some x =>
    if x.queued && !placeFor s (headDie x.head).val 0 then .next s else
    let s1 := traceRxWait port x <| setPort s port { q with rx := q.rx.filter (fun r => !(r.sender = x.sender && r.xfer = xfer && r.ended)) }
    let b := blurRx x (landed.parity.map (·.part)) s1
    .next (visibleRx b.2 port b.1 landed.parity)

end Sys2Proof.Machine
end

