-- ==== Sys2Proof/Machine/Sheets.lean ====
section
/-! DEFINITION. Cue sheets: their checks at load (sp. 02 R39-R43, R492) and the commands that load them (sp. 13 Table 13-7, R381). -/

namespace Sys2Proof.Machine

/-! ## One cue (sp. 02 R41-R43) -/

/-- The opcode is one that the unit kind takes (sp. 02 R43, sp. 04 R104, sp. 06 R159, sp. 08 R218, R231, sp. 09 R277, sp. 10 R296). -/
def opcodeOk (w : BitVec 256) : Bool :=
  let o := cOp w
  match cUnit w with
  | 0 => decide (1 ≤ o ∧ o ≤ 7)
  | 1 => decide (o = 0x10 ∨ o = 0x13)
  | 2 => decide (o = 0x10 ∨ o = 0x11 ∨ o = 0x12)
  | 3 => decide (0x30 ≤ o ∧ o ≤ 0x3B)
  | 4 => decide (0x40 ≤ o ∧ o ≤ 0x42)
  | 5 => decide (0x20 ≤ o ∧ o ≤ 0x27)
  | 6 => decide (0x50 ≤ o ∧ o ≤ 0x54)
  | 7 => decide (0x60 ≤ o ∧ o ≤ 0x62)
  | _ => false

/-- A cue's own fields on a die's list (sp. 02 R41, R42, R43; R40 item 2). -/
def cueOwnOk (d : Nat) (w : BitVec 256) : Bool :=
  (cWaitEn w || (cWaitTally w = 0 && cWaitValue w = 0)) &&
  (if cSigOn w = 0 then cSigTally w = 0 && cSigInc w = 0 else decide (cSigOn w ≤ 2 ∧ 1 ≤ cSigInc w)) &&
  cDie w = d && bits w.toNat 69 0 = 0 && opcodeOk w

/-- The last instance of a unit kind (sp. 02 Table 2-5). -/
def instMax (k : Nat) : Nat := [0, 15, 31, 3, 0, 7, 0, 127].getD k 0

/-- The bytes of a cue's descriptor (sp. 02 R43, R52; sp. 04 R105, sp. 06 R160, sp. 08 R219, R232, sp. 09 R278, sp. 10 R297). -/
def cueDescLen (w : BitVec 256) : Nat :=
  match cUnit w with
  | 0 => if cOp w = 1 then 32 else 8
  | 1 => 320
  | 2 => 320
  | 4 => 320
  | 7 => 64
  | _ => 256

/-- The unit exists and the descriptor lies within DESC_UNITS (sp. 02 R40 item 6); a tally index of 14 bits is always in range. -/
def cueBoundsOk (st : CueStore) (w : BitVec 256) : Bool :=
  decide (cInst w ≤ instMax (cUnit w) ∧ 64 * cDesc w + cueDescLen w ≤ 64 * st.descUnits)

/-! ## DMA descriptors (sp. 10 R299, sp. 11 R337, sp. 14 R412) -/

/-- RANK, LOCK and DONE_OFF, common to the three (sp. 10 Table 10-2). -/
def dmaCommonOk (die w : Nat) : Bool :=
  let lock := bits w 253 248
  let off := bits w 247 220
  decide (1 ≤ bits w 255 254) && decide (lock = 0 ∨ (2 ≤ lock ∧ lock ≤ 32)) && off % 32 = 0 && inScratch die (scratchOf die + off) 32

/-- The bounding range of `rows` rows, first and past its last byte. -/
def rowSpan (base : Nat) (stride : Int) (rows bytes : Nat) : Int × Int :=
  let far := ((rows : Int) - 1) * stride
  ((base : Int) + min 0 far, (base : Int) + max 0 far + bytes)

/-- ROW_BYTES and ROWS are in range and no two destination rows overlap (sp. 10 R299). -/
def rowsOk (d : Dma) : Bool :=
  decide (1 ≤ d.rowBytes ∧ 1 ≤ d.rows) && decide (d.rows = 1 ∨ d.rowBytes ≤ d.dstStride.natAbs)

/-- COPY (sp. 10 R299). -/
def copyOk (s : State) (die w : Nat) : Bool :=
  let d := parseDma w
  let a := rowSpan d.src d.srcStride d.rows d.rowBytes
  let b := rowSpan d.dst d.dstStride d.rows d.rowBytes
  dmaCommonOk die w && bits w 219 0 = 0 && bits d.src 63 56 = ownId s && bits d.dst 63 56 = ownId s && rowsOk d &&
  decide (a.2 ≤ b.1 ∨ b.2 ≤ a.1)

/-- FORMAT and CODEC_K of a PEER_SEND (sp. 11 R337). -/
def sendFormatOk (d : Dma) (w : Nat) : Bool :=
  let f := sendFormat w
  let k := sendK w
  fmtRead f true && decide (fScale f ≠ 2) &&
  (if fScale f = 1 then fPack f && k % 32 = 0 && d.rowBytes = k / 32 * (if fElem f = 4 then 17 else 33)
   else if sendCodec w = 0 then k = 0 else d.rowBytes = packedBytes (fElem f) k)

/-- OP of a PEER_SEND (sp. 11 R337). -/
def sendOpOk (d : Dma) (w : Nat) : Bool :=
  let op := bits w 212 211
  let f := sendFormat w
  decide (op ≤ 2) && (op = 0 || (decide (sendCodec w ≤ 1) && fElem f = (if op = 1 then 0 else 5) && fScale f = 0 &&
    d.rowBytes % 4 = 0 && d.dst % 4 = 0 && d.dstStride % 4 = 0))

/-- PEER_SEND (sp. 11 R336, R337). -/
def sendOk (s : State) (die w : Nat) : Bool :=
  let d := parseDma w
  let rsig := bit w 209
  let inc := bits w 194 187
  dmaCommonOk die w && bits w 150 0 = 0 && rowsOk d && decide (bits w 219 217 ≤ 5 ∧ sendCodec w ≤ 4) &&
  (if rsig then decide (1 ≤ inc) else inc = 0 && bits w 208 195 = 0) &&
  (if sendTallyOnly w then rsig && d.rows = 1 && d.rowBytes = 1 && d.src = 0 else bits d.src 63 56 = ownId s) &&
  decide (bits d.dst 63 56 ≠ ownId s) && sendFormatOk d w && sendOpOk d w

/-- SNAPSHOT (sp. 14 R412, Table 14-5). -/
def snapshotOk (s : State) (die w : Nat) : Bool :=
  let src := bits w 511 448
  let dst := bits w 447 384
  let n := snLength w
  let tier := snTier w
  let port := bits w 322 320
  dmaCommonOk die w && bits w 319 256 = 0 && bits w 219 0 = 0 && decide (1 ≤ n) && n % 256 = 0 &&
  (match snKind w with
   | 0 => tier = 0 && port = 0 && decide (1 ≤ bits w 335 327 ∧ bits w 335 327 ≤ 256) && bits src 63 56 = ownId s &&
          bits dst 63 56 = ownId s
   | 1 => src = 0 && snSection w = 0 && bits w 335 327 = 0 && decide (1 ≤ tier) &&
          (if tier = 1 then decide (port ≤ 5 ∧ bits dst 63 56 ≠ ownId s) else port = 0 && dst = 0)
   | _ => false)

/-- A DMA descriptor. -/
def dmaOk (s : State) (die op w : Nat) : Bool :=
  match op with
  | 0x60 => copyOk s die w
  | 0x61 => sendOk s die w
  | _ => snapshotOk s die w

/-! ## Windows (sp. 07 R192, R195, R201, R207) -/

/-- The positions of the set bits of an `n`-bit field. -/
def setPositions (n v : Nat) : List Nat := (List.range n).filter (fun i => bit v i)

/-- The units in UNITS of a WINDOW_OPEN descriptor (sp. 02 Table 2-8), as (UNIT, INST). -/
def windowUnits (d : Nat) : List (Nat × Nat) :=
  (setPositions 16 (bits d 63 48)).map (fun i => (1, i)) ++ (setPositions 32 (bits d 47 16)).map (fun i => (2, i)) ++
  (setPositions 4 (bits d 15 12)).map (fun i => (3, i)) ++ (setPositions 1 (bits d 3 3)).map (fun i => (4, i)) ++
  (setPositions 8 (bits d 11 4)).map (fun i => (5, i)) ++ (setPositions 1 (bits d 2 2)).map (fun i => (6, i))

/-- Two of the ranges share a byte. -/
def overlapping : List (Nat × Nat) → Bool
  | [] => false
  | x :: r => r.any (meets x) || overlapping r

/-- The block of TENANT_BIND (sp. 07 R195). -/
def bindOk (die blk result : Nat) : Bool :=
  let rows := bits blk 511 492
  let o := scratchOf die
  decide (1 ≤ rows) && bits blk 489 462 % 4 = 0 && bits blk 461 434 % 32 = 0 && bits blk 433 0 = 0 &&
  allInScratch die [(result, 8 * rows), (o + bits blk 489 462, 4 * ceilDiv rows (granuleOf blk)), (o + bits blk 461 434, 32)]

/-- The arrays of a ROUTE_ALLOC block: choices, weights, tags, the outputs of sp. 07 Table 7-10, the record. -/
def routeArrays (die blk result : Nat) : List (Nat × Nat) :=
  let t := bits blk 511 492
  let k := bits blk 482 479
  let slots := bits blk 453 445 * bits blk 478 463
  let rets := bits blk 424 405 * k
  let o := scratchOf die
  [(result, t * k * (if bit blk 403 then 4 else 2)), (o + bits blk 399 372, 4 * t * k), (o + bits blk 371 344, 8 * t),
   (o + bits blk 343 316, 4 * slots), (o + bits blk 315 288, 8 * slots), (o + bits blk 287 260, 4 * rets),
   (o + bits blk 259 232, 4 * rets), (o + bits blk 231 204, 4 * rets), (o + bits blk 203 176, 4 * bits blk 491 483),
   (o + bits blk 175 148, 32)]

/-- The block of ROUTE_ALLOC (sp. 07 R201). -/
def routeOk (die blk result : Nat) : Bool :=
  let t := bits blk 511 492
  let e := bits blk 491 483
  let k := bits blk 482 479
  let ec := bits blk 453 445
  let hc := bits blk 424 405
  decide (1 ≤ t ∧ 1 ≤ e ∧ e ≤ 256 ∧ 1 ≤ k ∧ k ≤ 8 ∧ 1 ≤ bits blk 478 463 ∧ 1 ≤ ec ∧ ec ≤ 256 ∧ 1 ≤ hc) &&
  decide (k ≤ e ∧ bits blk 462 454 + ec ≤ e ∧ bits blk 444 425 + hc ≤ t) && bits blk 402 400 = 0 && bits blk 147 0 = 0 &&
  [bits blk 399 372, bits blk 343 316, bits blk 287 260, bits blk 259 232, bits blk 231 204, bits blk 203 176].all (· % 4 = 0) &&
  bits blk 371 344 % 8 = 0 && bits blk 315 288 % 8 = 0 && bits blk 175 148 % 32 = 0 &&
  allInScratch die (routeArrays die blk result) && !overlapping (routeArrays die blk result)

/-- One template of an EXPERT_LIST (sp. 07 R207, R208), the `n`-th of its expert. -/
def templateOk (st : CueStore) (die blk : Nat) (units : List (Nat × Nat)) (n : Nat) (w : BitVec 256) : Bool :=
  let u := cueUnit w 0
  let p := st.desc (cDesc w) (descSize u)
  cueOwnOk die w && cPos w = 0 && cSlack w = 0 && cueBoundsOk st w && units.contains (cUnit w, cInst w) && checkDesc u (cOp w) p &&
  (!bit blk (457 + n) || cUnit w ≠ 5 || !(parseGme (cOp w) p).affine ||
    ((parseGme (cOp w) p).n1 = 1 && (parseGme (cOp w) p).n2 = 1))

/-- The block of EXPERT_LIST with its templates (sp. 07 R192, R207). -/
def listOk (st : CueStore) (die blk result : Nat) (w : BitVec 256) (units : List (Nat × Nat)) : Bool :=
  let ec := bits blk 502 494
  let tpl := bits blk 477 473
  decide (1 ≤ ec ∧ ec ≤ 256 ∧ 1 ≤ tpl ∧ tpl ≤ 16 ∧ 1 ≤ bits blk 493 478) && bits blk 456 0 = 0 &&
  decide (64 * (cDesc w + 2) + 32 * (ec * tpl) ≤ 64 * st.descUnits) && result % 4 = 0 &&
  allInScratch die [(result + 4 * bits blk 511 503, 4 * ec)] &&
  (numbered (templatesOf st w)).all (fun x => templateOk st die blk units (x.1 % tpl) x.2)

/-- A WINDOW_OPEN descriptor with its block (sp. 02 R52, sp. 07 R192). -/
def windowOk (st : CueStore) (die : Nat) (w : BitVec 256) : Bool :=
  let d := ofLE (st.desc (cDesc w) 32)
  let blk := ofLE (st.desc (cDesc w + 1) 64)
  let b := wdBuilder d
  decide (1 ≤ b ∧ b ≤ 3) && bits d 199 196 = 0xF && bits d 195 128 = 0 && bits d 71 64 = 0 && bits d 1 0 = 0 &&
  decide (1 ≤ wdLen d ∧ wdBuild d ≤ wdLen d) && decide (cDesc w + 2 ≤ st.descUnits) &&
  (match b with
   | 1 => (windowUnits d).isEmpty && bindOk die blk (wdResult d)
   | 2 => (windowUnits d).isEmpty && routeOk die blk (wdResult d)
   | _ => listOk st die blk (wdResult d) w (windowUnits d)) &&
  decide (buildCost b blk ≤ wdBuild d)

/-- The descriptor of a control cue (sp. 02 R43, Tables 2-6, 2-9, 2-10; sp. 09 Table 9-5). -/
def controlOk (st : CueStore) (die : Nat) (w : BitVec 256) : Bool :=
  let d := ofLE (st.desc (cDesc w) 8)
  match cOp w with
  | 1 => windowOk st die w
  | 2 => bits d 63 24 = 0
  | 3 => bits d 31 24 = 0
  | 4 => bits d 63 46 = 0
  | 5 => bits d 63 7 = 0
  | 6 => bits d 63 6 = 0
  | _ => true

/-- A cue's descriptor with any block and templates (sp. 02 R40 item 2). -/
def cueDescOk (s : State) (st : CueStore) (die : Nat) (w : BitVec 256) : Bool :=
  match cUnit w with
  | 0 => controlOk st die w
  | 7 => dmaOk s die (cOp w) (ofLE (st.desc (cDesc w) 64))
  | _ => checkDesc (cueUnit w 0) (cOp w) (st.desc (cDesc w) (cueDescLen w))

/-! ## The order of the checks (sp. 02 R492) -/

/-- A rejection: die, cue index, item of sp. 02 R40. -/
structure Rejection where
  die : Nat
  cue : Nat
  item : Nat
  deriving DecidableEq, Repr

/-- A header failure (sp. 02 R492). -/
def headerFault (item : Nat) : Rejection := { die := 0, cue := 0xFFFFFFFF, item := item }

/-- The digest of a sheet (sp. 02 R39). -/
def CueStore.digest (st : CueStore) : BitVec 256 := BitVec.ofNat 256 (sha256 (st.read 32 (st.size - 32)))

/-- The header: size, hash, other fields. -/
def headerCheck (st : CueStore) : Option Rejection :=
  let h := st.header
  if st.size ≠ 64 + 32 * st.before 4 + 64 * st.descUnits then some (headerFault 2)
  else if st.hash ≠ st.digest ∨ st.hash ≠ st.expected then some (headerFault 1)
  else if bits h 511 496 ≠ 3 ∨ 1 < bits h 495 494 ∨ bits h 493 480 ≠ 0 ∨ bits h 319 256 ≠ 0 then some (headerFault 2)
  else none

/-- The cues of a die's list before index `i`. -/
def earlier (st : CueStore) (d i : Nat) : List (BitVec 256) := (List.range i).map (st.cue d)

/-- One cue in its order of checks: own fields, bounds, descriptor, order, position and beat counts. The item it fails, if any. -/
def cueCheck (s : State) (st : CueStore) (d i : Nat) (w : BitVec 256) : Option Nat :=
  if !cueOwnOk d w then some 2
  else if !cueBoundsOk st w then some 6
  else if !cueDescOk s st d w then some 2
  else if i ≠ 0 ∧ cPos w < cPos (st.cue d (i - 1)) then some 3
  else if 8 ≤ ((earlier st d i).filter (fun x => cPos x = cPos w)).length then some 4
  else if 1024 ≤ ((earlier st d i).filter (fun x => cBeat x = cBeat w)).length then some 5
  else none

/-- Every cue, in die and index order. -/
def cuesCheck (s : State) (st : CueStore) : Option Rejection :=
  (allCues st).findSome? (fun c => (cueCheck s st c.1 c.2.1 c.2.2).map (fun k => { die := c.1, cue := c.2.1, item := k }))

/-- A CURTAIN cue. -/
def isCurtain (w : BitVec 256) : Bool := cUnit w = 0 && cOp w = 2

/-- DRAIN of a list's last cue. -/
def lastDrain (st : CueStore) (d : Nat) : Nat := bits (ofLE (st.desc (cDesc (lastCue st d)) 8)) 23 0

/-- A list meets item 7: its one curtain is its last cue, at the position and with the DRAIN of the first list. -/
def curtainOk (st : CueStore) (d : Nat) : Bool :=
  decide (0 < st.count d) && (List.range (st.count d)).all (fun i => isCurtain (st.cue d i) == decide (i + 1 = st.count d)) &&
  cPos (lastCue st d) = cPos (lastCue st 0) && lastDrain st d = lastDrain st 0

/-- Item 7. A list without a cue is named by index 0 (log 50). -/
def curtainCheck (st : CueStore) : Option Rejection :=
  ([0, 1, 2, 3].find? (fun d => !curtainOk st d)).map (fun d => { die := d, cue := st.count d - 1, item := 7 })

/-- A WINDOW_OPEN cue of a list: its index, planned span (sp. 02 R58) and units. -/
structure Planning where
  cue : Nat
  lo : Nat
  hi : Nat
  units : List (Nat × Nat)
  deriving DecidableEq, Repr

/-- The cues of one list with their indexes. -/
def listCues (st : CueStore) (d : Nat) : List (Nat × BitVec 256) := (List.range (st.count d)).map (fun i => (i, st.cue d i))

/-- The windows of a list. -/
def plannedWindows (st : CueStore) (d : Nat) : List Planning :=
  ((listCues st d).filter (fun c => isWindow c.2)).map (fun c =>
    let w := ofLE (st.desc (cDesc c.2) 32)
    { cue := c.1, lo := cPos c.2, hi := cPos c.2 + cSlack c.2 + wdLen w, units := windowUnits w })

/-- The LEND cues of a list: index, cue word, MASK and SPAN. -/
def plannedLends (st : CueStore) (d : Nat) : List (Nat × BitVec 256 × Nat × Nat) :=
  ((listCues st d).filter (fun c => cUnit c.2 = 0 && cOp c.2 = 3)).map (fun c =>
    let x := ofLE (st.desc (cDesc c.2) 8)
    (c.1, c.2, bits x 63 32, bits x 23 0))

/-- The smallest of some indexes. -/
def leastOf : List Nat → Option Nat
  | [] => none
  | x :: r => some (r.foldl min x)

/-- The spacing that R263 asks after a bank cue. -/
def bankSpacing (w : BitVec 256) : Nat := if cOp w = 5 then 68 else 16452

/-- Bank cues too close to the one before them on their bank (sp. 09 R263). -/
def bankClashes (st : CueStore) (d : Nat) : List Nat :=
  let l := (listCues st d).filter (fun c => cUnit c.2 = 0 && decide (cOp c.2 = 5 ∨ cOp c.2 = 6))
  (l.filter (fun c =>
    match (l.filter (fun x => decide (x.1 < c.1) && unitKey (targetOf st x.2) = unitKey (targetOf st c.2))).getLast? with
    | some x => decide (cPos c.2 < cPos x.2 + cSlack x.2 + bankSpacing x.2)
    | none => false)).map (·.1)

/-- Item 8 on a list: the later cue of each clash (sp. 02 R40, R492). -/
def claimClashes (st : CueStore) (d : Nat) : List Nat :=
  let ws := plannedWindows st d
  let cs := listCues st d
  (ws.map (fun w => (cs.filter (fun c => w.units.contains (cUnit c.2, cInst c.2) && decide (w.lo ≤ cPos c.2 ∧ cPos c.2 < w.hi))).map
    (fun c => max w.cue c.1))).flatten ++
  (ws.map (fun w => (ws.filter (fun x => decide (w.cue < x.cue) && w.units.any x.units.contains &&
    decide (x.lo < w.hi ∧ w.lo < x.hi))).map (·.cue))).flatten ++ bankClashes st d

/-- The array is lent for certain over [lo, hi) by one LEND of the list (sp. 02 R40). -/
def lentOver (st : CueStore) (d n lo hi : Nat) : Bool :=
  (plannedLends st d).any (fun l => bit l.2.2.1 n && decide (cPos l.2.1 + cSlack l.2.1 ≤ lo ∧ hi ≤ cPos l.2.1 + l.2.2.2))

/-- The planned span of a LEND and a window overlap, and the window's list holds a backward cue of an array that the LEND lends: its
templates are cues (sp. 01 R20, sp. 07 R207). -/
def lendMeetsWindow (st : CueStore) (d : Nat) (l : Nat × BitVec 256 × Nat × Nat) (w : Planning) : Bool :=
  decide (cPos l.2.1 < w.hi ∧ w.lo < cPos l.2.1 + cSlack l.2.1 + l.2.2.2) &&
  (templatesOf st (st.cue d w.cue)).any (fun t => cUnit t = 2 && decide (cOp t ≠ 0x10) && bit l.2.2.1 (cInst t))

/-- Item 9 on a list, by positions only (sp. 02 R40, sp. 01 R20): a backward cue, of the list or of a window's, in the planned span of a
LEND of its array; a forward cue on an array not lent for certain; a window over an array not lent throughout. -/
def lendClashes (st : CueStore) (d : Nat) : List Nat :=
  let ba := (listCues st d).filter (fun c => cUnit c.2 = 2)
  let ls := plannedLends st d
  let ws := plannedWindows st d
  (ls.map (fun l => (ba.filter (fun c => decide (cOp c.2 ≠ 0x10) && bit l.2.2.1 (cInst c.2) &&
    decide (cPos l.2.1 ≤ cPos c.2 ∧ cPos c.2 < cPos l.2.1 + cSlack l.2.1 + l.2.2.2))).map (fun c => max l.1 c.1))).flatten ++
  (ls.map (fun l => (ws.filter (lendMeetsWindow st d l)).map (fun w => max l.1 w.cue))).flatten ++
  (ba.filter (fun c => cOp c.2 = 0x10 && !lentOver st d (cInst c.2) (cPos c.2) (cPos c.2 + 1))).map (·.1) ++
  (ws.filter (fun w => w.units.any (fun u => u.1 = 2 && !lentOver st d u.2 w.lo w.hi))).map (·.cue)

/-- The first list, in die order, with a clash of an item, and the least cue that its clashes name (DESIGN CHOICE, log 77: sp. 02 R492
says which cue of a pair is named, not which pair). -/
def clashCheck (f : Nat → List Nat) (item : Nat) : Option Rejection :=
  [0, 1, 2, 3].findSome? (fun d => (leastOf (f d)).map (fun i => { die := d, cue := i, item := item }))

/-- The FREEZE cues carry every SECTION from 0 to SECTIONS - 1 exactly once, all with one SECTIONS value (sp. 14 R412). -/
def sectionsOk (st : CueStore) : Bool :=
  match freezeDescs st with
  | [] => true
  | w :: r =>
    let n := bits w 335 327
    r.all (fun x => bits x 335 327 = n) &&
    ((w :: r).map snSection).mergeSort (fun a b => decide (a ≤ b)) = List.range n

/-- The section-set check names the first FREEZE cue (sp. 02 R492). -/
def sectionCheck (st : CueStore) : Option Rejection :=
  if sectionsOk st then none
  else ((allCues st).find? (fun c => isFreeze st c.2.2)).map (fun c => { die := c.1, cue := c.2.1, item := 2 })

/-- The first failure of a sheet, in the order of sp. 02 R492; none: it verifies. -/
def sheetCheck (s : State) (st : CueStore) : Option Rejection :=
  (headerCheck st).or ((cuesCheck s st).or ((curtainCheck st).or
    ((if st.stepBeats = cBeat (lastCue st 0) + 1 then none else some (headerFault 2)).or
      ((clashCheck (claimClashes st) 8).or ((clashCheck (lendClashes st) 9).or (sectionCheck st))))))

/-! ## The commands -/

/-- The store that byte 0 of a payload names. -/
def storeNo (p : List Byte) : Fin 2 := if byteAt p 0 = 1 then 1 else 0

/-- Byte 0 names a store. -/
def storeNamed (p : List Byte) : Bool := decide (byteAt p 0 ≤ 1)

/-- A verification of a store that is cleared or loaded afresh ends with it, with BUSY: what was to be verified is loaded no longer (DESIGN
CHOICE, log 50). -/
def dropVerify (s : State) (k : Fin 2) : State :=
  match (storeAt s k).verify with
  | none => s
  | some o => finish s o stBusy []

/-- SHEET_BEGIN (sp. 13 Table 13-7). -/
def sheetBeginBody (f : Frame) (s : State) : State × Ans :=
  let p := f.payload
  let n := leAt p 8 8
  if p.length ≠ 48 then no s stBadLength
  else if !storeNamed p ∨ !zeroAt p 1 7 ∨ n % 32 ≠ 0 ∨ n < 64 ∨ 2 ^ 30 < n then no s stBadParam
  else if s.cfg.deviceId.isNone then no s stBusy
  else
    let st := storeAt s (storeNo p)
    if st.st = .verified ∨ st.st = .inUse then no s stStoreBusy
    else ok (setStore (dropVerify s (storeNo p)) (storeNo p) { st := .loading, size := n, expected := BitVec.ofNat 256 (ofBE (slice p 16 32)), bytes := [],
                                                                 chunks := [], dups := 0, verify := none }) []

def execSheetBegin (f : Frame) (s : State) : Result := .next (runCommand s f (.sheetBegin f) (cmd 0x20) (fun s _ => sheetBeginBody f s))

/-- The bytes of a chunk. -/
def sheetChunk : Nat := 8128

/-- SHEET_DATA (sp. 13 Table 13-7, R382): a chunk of a loading store, written where its offset places it; one that arrives twice is
written twice and counted. -/
def sheetDataBody (f : Frame) (s : State) : Option State :=
  let p := f.payload
  let st := storeAt s (storeNo p)
  let o := leAt p 8 8
  let d := p.drop 16
  if p.length < 17 ∨ !storeNamed p ∨ !zeroAt p 1 7 ∨ st.st ≠ .loading ∨ o % sheetChunk ≠ 0 ∨ st.size ≤ o ∨
      d.length ≠ min sheetChunk (st.size - o) then none
  else
    let again := st.chunks.contains o
    some (setStore s (storeNo p) { st with bytes := Sparse.put zeroByte st.bytes o d,
                                           chunks := if again then st.chunks else o :: st.chunks, dups := st.dups + b01 again })

/-- SHEET_DATA: class 2, on either port. -/
def sheetDataInfo : CmdInfo := { opcode := 0x21, cls := 2, needSession := true, standby := true, stages := [] }

def execSheetData (f : Frame) (s : State) : Result := .next (runData s f sheetDataInfo (inTurn f (.sheetData f) (sheetDataBody f)))

/-- The chunk offsets of a store that have not arrived. -/
def sheetMissing (st : CueStore) : List Nat :=
  ((List.range (ceilDiv st.size sheetChunk)).map (· * sheetChunk)).filter (fun o => !st.chunks.contains o)

/-- SHEET_VERIFY (sp. 13 Table 13-7): INCOMPLETE at once; otherwise accepted. A store that holds a verified sheet is STORE_BUSY, one
that is not loading, or whose verification runs, BUSY (log 50). -/
def sheetVerifyBody (f : Frame) (s : State) (o : Owed) : State × Ans :=
  let p := f.payload
  let st := storeAt s (storeNo p)
  let m := sheetMissing st
  if p.length ≠ 1 then no s stBadLength
  else if !storeNamed p then no s stBadParam
  else if st.st = .verified ∨ st.st = .inUse then no s stStoreBusy
  else if st.st ≠ .loading ∨ st.verify.isSome then no s stBusy
  else if !m.isEmpty then (s, .final stIncomplete (toLE 4 m.length ++ zeros 4 ++ toLE 8 (m.headD 0)))
  else (setStore s (storeNo p) { st with verify := some o }, .accepted)

def execSheetVerify (f : Frame) (s : State) : Result := .next (runCommand s f (.sheetVerify f) (cmd 0x22) (sheetVerifyBody f))

/-- The verification ends: the store becomes VERIFIED or REJECTED, and the final reply says which (sp. 13 Table 13-7). -/
def verifyDone (s : State) (k : Fin 2) (st : CueStore) (o : Owed) : State :=
  match sheetCheck s st with
  | none => finish (setStore s k { st with st := .verified, verify := none }) o stOk []
  | some r =>
    finish (setStore s k { st with st := .rejected, verify := none }) o stSheetRejected
      (toLE 4 r.die ++ toLE 4 r.cue ++ toLE 1 r.item)

def execSheetVerifyDone (store : Fin 2) (s : State) : Result :=
  let st := storeAt s store
  match st.verify with
  | none => .next s
  | some o => .next (verifyDone s store st o)

/-- The codes of sp. 13 Table 13-7. -/
def StoreState.code : StoreState → Nat
  | .empty => 0
  | .loading => 1
  | .verified => 2
  | .rejected => 3
  | .inUse => 4

/-- The 48 bytes of a store in the SHEET_STATUS reply. -/
def storeStatus (st : CueStore) : List Byte := toLE 8 st.st.code ++ toLE 8 st.size ++ toBE 32 st.expected.toNat

/-- SHEET_STATUS (sp. 13 Table 13-7). -/
def sheetStatusBody (f : Frame) (s : State) : State × Ans :=
  if f.payload.length ≠ 0 then no s stBadLength else ok s (storeStatus s.store0 ++ storeStatus s.store1)

def execSheetStatus (f : Frame) (s : State) : Result := .next (runCommand s f (.sheetStatus f) (cmd 0x23) (fun s _ => sheetStatusBody f s))

/-- SHEET_CLEAR (sp. 13 Table 13-7). -/
def sheetClearBody (f : Frame) (s : State) : State × Ans :=
  let p := f.payload
  let st := storeAt s (storeNo p)
  if p.length ≠ 1 then no s stBadLength
  else if !storeNamed p then no s stBadParam
  else if st.st = .inUse then no s stStoreBusy
  else ok (setStore (dropVerify s (storeNo p)) (storeNo p) CueStore.reset) []

def execSheetClear (f : Frame) (s : State) : Result := .next (runCommand s f (.sheetClear f) (cmd 0x24) (fun s _ => sheetClearBody f s))

end Sys2Proof.Machine
end

