-- ==== Sys2Proof/Machine/Transfer.lean ====
section
/-! DEFINITION. Tensor writes and reads (sp. 13 Table 13-7, R382) and the firmware's DMA channels that carry them (sp. 10 R306,
R307). -/

namespace Sys2Proof.Machine

/-! ## A firmware channel -/

/-- The channel with a key. -/
def chanAt (s : State) (k : Nat) : Channel := Sparse.get noChannel s.dma k

/-- The channels in the order in which firmware takes them for a range on die `home`: by number, that die first (sp. 10 R307; log
46). -/
def chanOrder (home : Nat) : List Nat :=
  ((List.range 128).map (fun n => (home :: [0, 1, 2, 3].filter (· ≠ home)).map (fun d => 128 * d + n))).flatten

/-- The channels that VERIFIED sheets name. -/
def verifiedNames (s : State) : List Nat :=
  (if s.store0.st = .verified then namedChannels s.store0 else []) ++ (if s.store1.st = .verified then namedChannels s.store1 else [])

/-- The free channel that firmware takes: IDLE, not named by the sheet IN_USE, better not by a VERIFIED one (sp. 10 R307). -/
def fwChannel (s : State) (home : Nat) : Option Nat :=
  let used := if stepBusy s then namedChannels (sheet s) else []
  let ver := verifiedNames s
  let free := (chanOrder home).filter (fun k => decide ((chanAt s k).st = .idle) && !used.contains k)
  match free.find? (fun k => !ver.contains k) with
  | some k => some k
  | none => free.head?

/-- The die of a channel key. -/
def chanDie (k : Nat) : Die := Fin.ofNat 4 (k / 128)
/-- Its number. -/
def chanNum (k : Nat) : Fin 128 := Fin.ofNat 128 k

/-- Where firmware's own transfers on a channel leave their completion records: DONE_OFF of its descriptors, which no rule gives
(log 47). -/
def fwRecAt (k : Nat) : Nat := scratchOf (k / 128) + 32 * (Config.fwDone k % 2 ^ 23)

/-- A transfer of firmware meets a bus error (sp. 10 R309, R310): latched and recorded, the record with STATUS 3; the channel stays
HALTED until the step's end, or is disabled and enabled again at once when no step is armed or running. -/
def fwHalt (s : State) (k : Nat) (e : BusError) (bytes transfers hits : Nat) : State :=
  let d := chanDie k
  let n := chanNum k
  let s1 := haltChannel s d n noCue (fwRecAt k) e bytes transfers hits
  if stepBusy s1 then s1 else recycleOne s1 d n

/-- What a transfer of firmware has moved: bytes, 256-byte transfers, those of them that a fence touched, and whether a detection was
met. -/
structure FwCount where
  bytes : Nat
  transfers : Nat
  hits : Nat
  det : Bool

/-- A transfer of firmware ends on its channel: its record and the end-of-count event (sp. 10 R301, R302, R306). The descriptor that
firmware used stands in no rule, so its register is free (log 47). -/
def fwEnd (s : State) (k : Nat) (c : FwCount) : State :=
  let d := chanDie k
  let n := chanNum k
  if bankFault s (fwRecAt k) 32 then fwHalt s k ⟨1, true, globalOf s (fwRecAt k)⟩ c.bytes c.transfers c.hits
  else
    let f := drawBytes 64 s
    let s1 := writeMem (whoUnit (chanUnit d n) noCue) f.2 (fwRecAt k) (dmaRecord c.bytes c.transfers c.hits (b01 c.det) 0)
    let s2 := endOfCount s1 d n c.bytes
    setChan s2 d n { chan s2 d n with actDesc := BitVec.ofNat 512 (ofLE f.1) }

/-- The transfers of a local range before the first that fails its decode or meets a bank that is not ON, and that one's bus error (sp. 10
R309, sp. 09 R267, R270). -/
def untilFault (s : State) (a n : Nat) (write : Bool) : List (Nat × Nat) × Option BusError :=
  let err (p : Nat × Nat) : Option BusError :=
    match localFault p.1 p.2 write with
    | some c => some ⟨c, write, globalOf s p.1⟩
    | none => if bankFault s p.1 p.2 then some ⟨1, write, globalOf s p.1⟩ else none
  let l := pieces a n
  let good := l.takeWhile (fun p => (err p).isNone)
  (good, (l[good.length]?).bind err)

/-- The transfer ends, or halts on its bus error. -/
def fwClose (s : State) (k : Nat) (good : List (Nat × Nat)) (fail : Option BusError) (hits : Nat) (det : Bool) : State :=
  let n := (good.map (·.2)).sum
  match fail with
  | none => fwEnd s k ⟨n, good.length, hits, det⟩
  | some e => fwHalt s k e n good.length hits

/-- What running cues and building windows read. -/
def cueReads (s : State) : List (Nat × Nat) :=
  (s.stage.units.map (fun e => ((e.2.running.toList ++ e.2.tail).map (·.reads)).flatten)).flatten ++ (s.stage.windows.map (·.reads)).flatten

/-- Firmware writes bytes through channel `k`. Those that meet what a cue reads or writes in the same span are undefined (sp. 13 R382,
sp. 00 R6), and so are the failing and all later ones after a bus error (sp. 10 R309). -/
def fwWrite (s : State) (k a : Nat) (p : List Byte) : State :=
  let who := whoUnit (chanUnit (chanDie k) (chanNum k)) noCue
  let g := untilFault s a p.length true
  let n := (g.1.map (·.2)).sum
  let h := (g.1.filter (pieceFenced s)).length
  let s0 := otherWrites s none [(a, p.length)]
  let s1 := writeMem who s0 a (p.take n)
  let s2 := storeFree s1 (sharedAll [(a, n)] (cueWrites s none ++ cueReads s) ++
    (if g.2.isSome then (pieces (a + n) (p.length - n)).filter (fun q => decodes q.1 q.2 true) else []))
  fwClose s2 k g.1 g.2 h (decide (detections s1 ≠ detections s0))

/-- Bytes from address `a`, undefined where ranges of a list meet them. -/
def blurBytes (a : Nat) (p : List Byte) (l : List (Nat × Nat)) (s : State) : List Byte × State :=
  if l.isEmpty then (p, s) else
  let f := drawBytes p.length s
  ((numbered (p.zip f.1)).map (fun x => if l.any (meets (a + x.1, 1)) then x.2.2 else x.2.1), f.2)

/-- Firmware reads `n` bytes through channel `k`; those that a cue writes in the same span, and those that a bus error cuts off, are
undefined (free values). -/
def fwRead (s : State) (k a n : Nat) : List Byte × State :=
  let who := whoUnit (chanUnit (chanDie k) (chanNum k)) noCue
  let g := untilFault s a n false
  let m := (g.1.map (·.2)).sum
  let h := (g.1.filter (pieceFenced s)).length
  let b := blurBytes a (load s a m) (sharedAll [(a, m)] (cueWrites s none)) s
  let s1 := touchRead who b.2 a m
  let s2 := fwClose s1 k g.1 g.2 h (decide (detections s1 ≠ detections s))
  let f := drawBytes (n - m) s2
  if g.2.isSome then (b.1 ++ f.1, f.2) else (b.1, s2)

/-! ## Tensor transfers -/

/-- The range lies in open HBM or in one die's scratch window (sp. 13 R382). -/
def tensorRange (a n : Nat) : Bool := decide (a + n ≤ fwBase) || [0, 1, 2, 3].any (fun d => inScratch d a n)

/-- The ID of the transfer in a payload. -/
def xferId (p : List Byte) : BitVec 32 := BitVec.ofNat 32 (leAt p 0 4)

/-- The IDs of the reads that wait for a channel. -/
def heldReads : List Instr → List (BitVec 32)
  | [] => []
  | .read f :: r => xferId f.payload :: heldReads r
  | _ :: r => heldReads r

/-- The ID is in use, or 64 transfers are open (sp. 13 R382, sp. 14 R416). -/
def xferLimit (s : State) (id : BitVec 32) : Bool :=
  id = tier3Id || s.xfers.any (fun x => x.id = id) || (heldReads s.fwHeld).contains id ||
  decide (64 ≤ s.xfers.length + (heldReads s.fwHeld).length)

/-- The open transfer with an ID. -/
def xferOf (s : State) (id : BitVec 32) : Option Xfer := s.xfers.find? (fun x => x.id = id)

/-- A transfer, changed. -/
def setXfer (s : State) (x : Xfer) : State := { s with xfers := s.xfers.map (fun y => if y.id = x.id then x else y) }

/-- WRITE_OPEN (sp. 13 Table 13-7). -/
def writeOpenBody (f : Frame) (s : State) : State × Ans :=
  let p := f.payload
  let a := leAt p 8 7
  let n := leAt p 16 5
  if p.length ≠ 21 then no s stBadLength
  else if !zeroAt p 4 4 ∨ !zeroAt p 15 1 ∨ n = 0 then no s stBadParam
  else if !tensorRange a n then no s stAddrRefused
  else if xferLimit s (xferId p) then no s stTransferLimit
  else ok { s with xfers := s.xfers ++ [{ id := xferId p, base := a, len := n, chunks := [], dups := 0, hits := 0, written := 0 }] } []

def execWriteOpen (f : Frame) (s : State) : Result := .next (runCommand s f (.writeOpen f) (cmd 0x30) (fun s _ => writeOpenBody f s))

/-- The chunk fits its transfer (sp. 13 Table 13-7). -/
def chunkFits (x : Xfer) (p : List Byte) : Bool :=
  let off := leAt p 8 8
  decide (17 ≤ p.length ∧ off % 8128 = 0 ∧ off < x.len ∧ p.length - 16 = min 8128 (x.len - off)) && zeroAt p 4 4

/-- A chunk of an open transfer is written through channel `k` (sp. 13 R382): a second copy is written too and counted. -/
def chunkWrite (s : State) (k : Nat) (x : Xfer) (p : List Byte) : State :=
  let off := leAt p 8 8
  let data := p.drop 16
  let h := hitsOf s (x.base + off) data.length
  let dup := x.chunks.contains off
  let s1 := fwWrite s k (x.base + off) data
  setXfer s1 { x with chunks := if dup then x.chunks else x.chunks ++ [off], dups := x.dups + b01 dup, hits := x.hits + h,
                      written := if dup then x.written else x.written + data.length }

/-- A chunk of a tier-3 restore, at its image offset (sp. 14 R422). -/
def restoreChunk (s : State) (p : List Byte) : Option State :=
  match s.restore with
  | none => none
  | some r =>
    if r.tier = 3 ∧ 17 ≤ p.length ∧ p.length ≤ 8144 ∧ zeroAt p 4 4 then
      some { s with restore := some { r with bytes := Sparse.put zeroByte r.bytes (leAt p 8 8) (p.drop 16) } }
    else none

/-- WRITE_DATA (sp. 13 Table 13-7): written at once through a free channel, else held in arrival order. -/
def writeDataBody (f : Frame) (s : State) : Option State :=
  let p := f.payload
  if xferId p = tier3Id then inTurn f (.writeData f) (fun t => restoreChunk t p) s
  else
  match xferOf s (xferId p) with
  | none => none
  | some x =>
    if !chunkFits x p then none else
    match (if s.fwHeld.isEmpty then fwChannel s (dieOf x.base) else none) with
    | some k => some (chunkWrite s k x p)
    | none => some (holdData s f (.writeData f))

def execWriteData (f : Frame) (s : State) : Result :=
  .next (runData s f { cmd 0x31 with cls := 2, standby := true } (writeDataBody f))

/-- The offsets of a transfer's chunks. -/
def chunkOffsets (len : Nat) : List Nat := (List.range (ceilDiv len 8128)).map (fun i => 8128 * i)

/-- INCOMPLETE's payload: missing chunks and the first missing offset (sp. 13 Table 13-7). -/
def missingPayload (miss : List Nat) : List Byte := toLE 4 miss.length ++ zeros 4 ++ toLE 8 (miss.headD 0)

/-- The final reply of a WRITE_CLOSE whose data has all been taken. -/
def closeReply (s : State) (id : BitVec 32) : State × Byte × List Byte :=
  match xferOf s id with
  | none => (s, stTransferUnknown, [])
  | some x =>
    let miss := (chunkOffsets x.len).filter (fun o => !x.chunks.contains o)
    if !miss.isEmpty then (s, stIncomplete, missingPayload miss)
    else ({ s with xfers := s.xfers.filter (fun y => y.id ≠ id) }, stOk,
          toLE 8 x.written ++ toLE 4 x.chunks.length ++ toLE 4 x.dups ++ toLE 4 (stopAt top32 x.hits))

/-- A frame of data for the transfer waits. -/
def heldData (id : BitVec 32) : List Instr → Bool
  | [] => false
  | .writeData f :: r => xferId f.payload = id || heldData id r
  | _ :: r => heldData id r

/-- WRITE_CLOSE: its reply waits for the data that waits (sp. 10 R307). -/
def writeCloseBody (f : Frame) (s : State) : State × Ans :=
  let p := f.payload
  if p.length ≠ 4 then no s stBadLength
  else if heldData (xferId p) s.fwHeld then ({ s with fwHeld := s.fwHeld ++ [.writeClose f] }, .later)
  else
    let r := closeReply s (xferId p)
    (r.1, .final r.2.1 r.2.2)

def execWriteClose (f : Frame) (s : State) : Result := .next (runCommand s f (.writeClose f) (cmd 0x32) (fun s _ => writeCloseBody f s))

/-- A READ through channel `k`: its READ_DATA frames, and the payload of its final reply (sp. 13 Table 13-7). -/
def doRead (s : State) (k : Nat) (p : List Byte) : State × List Byte :=
  let a := leAt p 8 7
  let n := leAt p 16 5
  let h := hitsOf s a n
  let r := fwRead s k a n
  (readData (decide (byteAt p 4 = 1)) r.1.length false (xferId p) 0 r.1 r.2,
   toLE 8 n ++ toLE 4 (stopAt top32 h) ++ toLE 4 (crc32c r.1))

/-- READ (sp. 13 Table 13-7, R382): at once through a free channel, else held. -/
def readBody (f : Frame) (s : State) : State × Ans :=
  let p := f.payload
  let a := leAt p 8 7
  let n := leAt p 16 5
  if p.length ≠ 21 then no s stBadLength
  else if 2 ≤ byteAt p 4 ∨ !zeroAt p 5 3 ∨ !zeroAt p 15 1 ∨ n = 0 then no s stBadParam
  else if !tensorRange a n then no s stAddrRefused
  else if xferLimit s (xferId p) then no s stTransferLimit
  else
    match (if s.fwHeld.isEmpty then fwChannel s (dieOf a) else none) with
    | some k =>
      let r := doRead s k p
      ok r.1 r.2
    | none => ({ s with fwHeld := s.fwHeld ++ [.read f] }, .later)

def execRead (f : Frame) (s : State) : Result := .next (runCommand s f (.read f) (cmd 0x33) (fun s _ => readBody f s))

/-- The waiting reads of an ID. -/
def readsOf (id : BitVec 32) : List Instr → List Frame
  | [] => []
  | .read f :: r => if xferId f.payload = id then f :: readsOf id r else readsOf id r
  | _ :: r => readsOf id r

/-- The held frames without the reads of an ID. -/
def dropReads (id : BitVec 32) : List Instr → List Instr
  | [] => []
  | .read f :: r => if xferId f.payload = id then dropReads id r else .read f :: dropReads id r
  | x :: r => x :: dropReads id r

/-- The held frames without the data of a transfer. -/
def dropData (id : BitVec 32) : List Instr → List Instr
  | [] => []
  | .writeData f :: r => if xferId f.payload = id then dropData id r else .writeData f :: dropData id r
  | x :: r => x :: dropData id r

/-- The data of a transfer that waits. -/
def dataOf (id : BitVec 32) : List Instr → List Frame
  | [] => []
  | .writeData f :: r => if xferId f.payload = id then f :: dataOf id r else dataOf id r
  | _ :: r => dataOf id r

/-- CANCEL (sp. 13 Table 13-7): written bytes stay, data that waits is dropped; a read that has sent nothing ends with no byte (log 48). -/
def cancelBody (f : Frame) (s : State) : State × Ans :=
  let p := f.payload
  if p.length ≠ 4 then no s stBadLength
  else
    let id := xferId p
    let rs := readsOf id s.fwHeld
    let t0 := (dataOf id s.fwHeld).foldl freeCredit s
    if (xferOf s id).isNone ∧ rs.isEmpty then no s stTransferUnknown
    else
      let s1 := { t0 with xfers := s.xfers.filter (fun y => y.id ≠ id), fwHeld := dropData id (dropReads id s.fwHeld) }
      ok (rs.foldl (fun t g => finish t (owedOf g 0x33) stOk (zeros 12 ++ toLE 4 (crc32c []))) s1) []

def execCancel (f : Frame) (s : State) : Result := .next (runCommand s f (.cancel f) (cmd 0x35) (fun s _ => cancelBody f s))

end Sys2Proof.Machine
end

