-- ==== Sys2Proof/Machine/Control.lean ====
section
/-! DEFINITION. The step-control family: ARM, START_AT_BEAT, HOLD, RESUME, STEP_ABORT, STEP_STATUS (sp. 13 Tables 13-8 to 13-10,
R383-R387). -/

namespace Sys2Proof.Machine

/-! ## ARM -/

/-- The number of the store whose VERIFIED sheet carries the HASH. -/
def storeWith (s : State) (h : BitVec 256) : Option (Fin 2) :=
  if s.store0.st = .verified ∧ s.store0.expected = h then some 0
  else if s.store1.st = .verified ∧ s.store1.expected = h then some 1 else none

/-- The tenant IDs of an ARM payload. -/
def armTenants (p : List Byte) (n : Nat) : List Nat := (List.range n).map (fun i => leAt p (96 + 2 * i) 2)

/-- The position of the first tenant that breaks R190: repeated, not OPEN, or at the PLACE of an earlier one. -/
def tenantsBad (s : State) (l : List Nat) : Option Nat :=
  ((numbered l).find? (fun x =>
    let before := l.take x.1
    before.contains x.2 || decide ((tenant s x.2).st ≠ .open_) ||
      before.any (fun y => decide ((tenant s y).place = (tenant s x.2).place)))).map (·.1)

/-- The first entry that breaks R243 under a commit mode; local HBM is there open HBM, 48,896 units (sp. 09 R267). -/
def regionsBad (s : State) (inPlace : Bool) : Option Nat :=
  let l := validRegions s
  (l.find? (fun e =>
    rPaired e.2 == inPlace || (regionRanges e.2).any (fun r => decide (48896 < r.1 + r.2)) || overlapping (regionRanges e.2) ||
      l.any (fun x => decide (x.1 < e.1) && anyMeets (regionRanges x.2) (regionRanges e.2)))).map (·.1)

/-- The first channel that the sheet names and that is not IDLE or has IRQ_EN = 1 (sp. 10 R306), as die x 128 + number. -/
def channelsBad (s : State) (st : CueStore) : Option Nat :=
  let l := namedChannels st
  (List.range 512).find? (fun k => l.contains k && (decide ((chanAt s k).st ≠ .idle) || (chanAt s k).irqEn))

/-- The PEER_SEND descriptors of a sheet. -/
def sendDescs (st : CueStore) : List Nat :=
  ((allCues st).filter (fun c => cUnit c.2.2 = 7 && cOp c.2.2 = 0x61)).map (fun c => ofLE (st.desc (cDesc c.2.2) 64))

/-- The first port of a PEER_SEND that is not UP or whose PEER_ID is not the descriptor's device (sp. 11 R337). -/
def portsBad (s : State) (st : CueStore) : Option Nat :=
  let l := sendDescs st
  (allPorts.find? (fun p => l.any (fun w => sendPort w = p &&
    (decide ((port s p).st ≠ .up) || decide (bits (parseDma w).dst 63 56 ≠ peerId (port s p).entry))))).map (·.val)

/-- The cue is an MM_BWD_WEIGHT with K above 256 or TAG_EN = 0 (sp. 07 R199). -/
def weightBad (st : CueStore) (w : BitVec 256) : Bool :=
  cUnit w = 2 && cOp w = 0x12 &&
    (let d := parseDme 0x12 (st.desc (cDesc w) 320)
     decide (256 < d.k) || !d.tagEn)

/-- The first MM_BWD_WEIGHT cue that R199 refuses, as die x 2^24 + cue index; a template (sp. 07 R207) goes by the cue of its window. -/
def weightsBad (st : CueStore) : Option Nat :=
  ((allCues st).find? (fun c => weightBad st c.2.2 || (templatesOf st c.2.2).any (weightBad st))).map
    (fun c => c.1 * 2 ^ 24 + c.2.1)

/-- The arm checks of sp. 13 Table 13-9, in its order: detail and index of the first that fails. -/
def armDetail (s : State) (st : CueStore) (tids : List Nat) : Option (Nat × Nat) :=
  ((tenantsBad s tids).map (fun i => (1, i))).or
    (((regionsBad s st.inPlace).map (fun i => (2, i))).or
      (((channelsBad s st).map (fun i => (3, i))).or
        (((portsBad s st).map (fun i => (4, i))).or
          (if 1 < tids.length then (weightsBad st).map (fun i => (5, i)) else none))))

/-- ACTIVE is set for the tenants listed (sp. 07 R190). -/
def setActive (m : Sparse Tenant) (l : List Nat) : Sparse Tenant :=
  l.foldl (fun a i => Sparse.set noTenant a i { Sparse.get noTenant a i with active := true, reopened := false }) m

/-- An accepted ARM (sp. 13 R383): tallies and their copies 0 (sp. 02 R48, R51), predictor slots cleared (sp. 05 R152), ACTIVE, the
store IN_USE, and what the journal will hold. -/
def armed (s : State) (k : Fin 2) (p : List Byte) (tids : List Nat) : State :=
  let s1 := setStore s k { storeAt s k with st := .inUse }
  { s1 with
    stage := { s1.stage with tallies := [], copies := [], before := [], added := [], sets := [], planned := [], preds := [] },
    tenants := setActive s1.tenants tids,
    step := { s1.step with phase := .armed, store := k, hash := (storeAt s k).expected, manifest := BitVec.ofNat 256 (ofBE (slice p 32 32)),
                           number := BitVec.ofNat 64 (leAt p 64 8), seed := BitVec.ofNat 64 (leAt p 72 8), tenants := tids,
                           dropped := false } }

/-- The lifecycle lets the ARM pass (sp. 15 R452): FIELD; PROVISIONED only without tenants. -/
def armAllowed (s : State) (n : Nat) : Bool := s.guard.lifecycle = .field || (s.guard.lifecycle = .provisioned && n = 0)

/-- ARM (sp. 13 Table 13-8); the order of its refusals is DEDUCED (log 51). -/
def armBody (f : Frame) (s : State) : State × Ans :=
  let p := f.payload
  let n := leAt p 80 2
  let tids := armTenants p n
  if p.length ≠ 96 + 2 * n then no s stBadLength
  else if 1024 < n ∨ !zeroAt p 82 14 then no s stBadParam
  else if tids.any (fun i => decide (16383 < i)) then no s stBadParam
  else if stepBusy s then no s stBusy
  else if !armAllowed s n then no s stLifecycle
  else
    match storeWith s (BitVec.ofNat 256 (ofBE (slice p 0 32))) with
    | none => no s stHashUnknown
    | some k =>
      if s.step.dirty then no s stStateDirty
      else
        match armDetail s (storeAt s k) tids with
        | some (d, i) => (s, .final stArmRefused (toLE 4 d ++ toLE 4 i))
        | none => ok (armed s k p tids) []

def execArm (f : Frame) (s : State) : Result := .next (runCommand s f (.arm f) (cmd 0x40) (fun s _ => armBody f s))

/-! ## START_AT_BEAT -/

/-- The latest earlier journal entry of the same step number (sp. 14 R420). -/
def earlierEntry (s : State) : Option JournalEntry := s.journal.entries.reverse.find? (fun e => e.step = s.step.number)

/-- The entry of a step that starts at beat `b` (sp. 14 Table 14-10). -/
def startEntry (s : State) (b : Nat) : JournalEntry :=
  let t := s.step
  { step := t.number, startBeat := BitVec.ofNat 48 b, endState := 0, cause := 0, commit := (sheet s).inPlace,
    replay := (earlierEntry s).isSome,
    matched := (match earlierEntry s with
                | none => false
                | some e => decide (e.hash = t.hash ∧ e.manifest = t.manifest ∧ e.seed = t.seed ∧ e.tenants = t.tenants)),
    froze := 0, hash := t.hash, manifest := t.manifest, seed := t.seed, endBeat := 0, tenants := t.tenants }

/-- An accepted START_AT_BEAT (sp. 13 R384): STARTING, everything that counts per step at its beginning, the journal entry. -/
def started (s : State) (b : Nat) : State :=
  let s1 := journalPut s (startEntry s b)
  { s1 with step := { s1.step with
      phase := .starting, startBeat := BitVec.ofNat 48 b, relBeat := 0, next := [], stopped := false, stopAt := 0, cause := 0,
      failed := false, suspect := false, replay := false, originF := none, originS := none, lateCues := 0, idleCycles := 0,
      hold := none, holdAt := 0, resume := none, curtains := [], curtainAt := 0, lastDone := 0, firstSeen := [], freezes := false,
      slotsNamed := [], dropped := false } }

/-- B breaks a spacing: 8 beats after the arrival (sp. 13 R384), 2 after the previous step-end record (sp. 02 R65). Beat numbers are
compared as plain numbers: what a spacing means across the wrap of the 48-bit count the manual leaves open (DESIGN CHOICE, log 95). -/
def startTooEarly (s : State) (b : Nat) : Bool :=
  decide (b < (beatNow s).toNat + 8) ||
  (match s.step.prevEnd with
   | some e => decide (b < e.toNat + 2)
   | none => false)

/-- START_AT_BEAT (sp. 13 R384); BUSY while firmware secures on its own (sp. 14 Table 14-12). -/
def startBody (f : Frame) (s : State) : State × Ans :=
  let b := leAt f.payload 0 6
  if f.payload.length ≠ 6 then no s stBadLength
  else if s.step.phase ≠ .armed then no s stNoStep
  else if !beatRuns s then no s stNotLocked
  else if startTooEarly s b then no s stBeatTooEarly
  else if s.secure.firmware then no s stBusy
  else ok (started s b) []

def execStartAtBeat (f : Frame) (s : State) : Result := .next (runCommand s f (.startAtBeat f) (cmd 0x41) (fun s _ => startBody f s))

/-! ## HOLD and RESUME -/

/-- The planned spans of a sheet's windows and lends (sp. 02 R58). -/
def plannedSpans (st : CueStore) : List (Nat × Nat) :=
  ([0, 1, 2, 3].map (fun d =>
    (plannedWindows st d).map (fun w => (w.lo, w.hi)) ++
    (plannedLends st d).map (fun l => (cPos l.2.1, cPos l.2.1 + cSlack l.2.1 + l.2.2.2)))).flatten

/-- The step-relative cycle of the boundary at beat `g` (sp. 02 R58): from the start beat, or from the present beat, whose earlier
holds the counter has left out. Beat numbers are plain numbers here (DESIGN CHOICE, log 95). -/
def boundaryAt (s : State) (g : Nat) : Nat :=
  4096 * (if s.step.phase = .starting then g - s.step.startBeat.toNat else s.step.relBeat + (g - (beatNow s).toNat))

/-- The boundary at `g` lies in a planned span. -/
def holdUnsafe (s : State) (g : Nat) : Bool :=
  (plannedSpans (sheet s)).any (fun x => decide (x.1 ≤ boundaryAt s g ∧ boundaryAt s g < x.2))

/-- HOLD (sp. 13 R387, sp. 02 R58); `at least 4 beats` is judged on plain numbers (DESIGN CHOICE, log 95). -/
def holdBody (f : Frame) (s : State) (o : Owed) : State × Ans :=
  let g := leAt f.payload 0 6
  if f.payload.length ≠ 6 then no s stBadLength
  else if !stepStarted s then no s stNoStep
  else if s.step.hold.isSome ∨ s.step.phase = .held then no s stHoldPending
  else if g < (beatNow s).toNat + 4 ∨ (s.step.phase = .starting ∧ g < s.step.startBeat.toNat) then no s stBeatTooEarly
  else if holdUnsafe s g then no s stHoldUnsafe
  else ({ s with step := { s.step with hold := some (BitVec.ofNat 48 g, o) } }, .accepted)

def execHold (f : Frame) (s : State) : Result := .next (runCommand s f (.hold f) (cmd 0x42) (holdBody f))

/-- RESUME (sp. 13 R387, sp. 02 R60); `at least 4 beats` is judged on plain numbers (DESIGN CHOICE, log 95). -/
def resumeBody (f : Frame) (s : State) : State × Ans :=
  let g := leAt f.payload 0 6
  if f.payload.length ≠ 6 then no s stBadLength
  else if s.step.phase ≠ .held then no s stNoStep
  else if g < (beatNow s).toNat + 4 then no s stBeatTooEarly
  else ok { s with step := { s.step with resume := some (BitVec.ofNat 48 g) } } []

def execResume (f : Frame) (s : State) : Result := .next (runCommand s f (.resume f) (cmd 0x43) (fun s _ => resumeBody f s))

/-! ## STEP_ABORT and STEP_STATUS -/

/-- The arm is withdrawn (sp. 13 Table 13-10): IDLE, no ACTIVE bit, the store no longer in use. -/
def withdrawArm (s : State) : State :=
  let s1 := setStore s s.step.store { storeAt s s.step.store with st := .verified }
  recycleChannels { s1 with step := { s1.step with phase := .idle }, tenants := clearActive s1.tenants }

/-- STEP_ABORT (sp. 13 R386, Table 13-8). -/
def abortBody (f : Frame) (s : State) : State × Ans :=
  if f.payload.length ≠ 0 then no s stBadLength
  else
    match s.step.phase with
    | .idle => no s stNoStep
    | .armed => ok (withdrawArm s) [0]
    | p => ok (stopFiring s 5 true s.now) (toLE 1 p.code)

/-- STEP_ABORT comes in class 0. -/
def abortInfo : CmdInfo := { cmd 0x44 with cls := 0 }

def execStepAbort (f : Frame) (s : State) : Result := .next (runCommand s f (.stepAbort f) abortInfo (fun s _ => abortBody f s))

/-- The step-relative beat that STEP_STATUS reports: 0 when no step runs. -/
def relBeatNow (s : State) : Nat :=
  match s.step.phase with
  | .running | .held => s.step.relBeat
  | _ => 0

/-- STEP_STATUS (sp. 13 Table 13-8). -/
def statusBody (f : Frame) (s : State) : State × Ans :=
  if f.payload.length ≠ 0 then no s stBadLength
  else ok s (toLE 1 s.step.phase.code ++ toLE 1 s.beat.lock.code ++ zeros 6 ++ toLE 8 s.step.number.toNat ++ toLE 4 (relBeatNow s) ++
    toBE 32 s.step.hash.toNat)

def execStepStatus (f : Frame) (s : State) : Result := .next (runCommand s f (.stepStatus f) (cmd 0x45) (fun s _ => statusBody f s))

end Sys2Proof.Machine
end

