-- ==== Sys2Proof/Machine/Guard.lean ====
section
/-! DEFINITION. GUARD_READ, the signed guard commands, the firmware slots, DEVICE_RESET and the fused reads (sp. 13 R388, R389,
Table 13-12; sp. 15 R431-R453). -/

namespace Sys2Proof.Machine

/-- GUARD_STATUS (sp. 15 Table 15-2). -/
def guardStatus (s : State) : Nat :=
  let g := s.guard
  g.lifecycle.code * 2 ^ 61 + b01 g.agree * 2 ^ 60 + b01 g.bootSlot * 2 ^ 59 + b01 g.slot1Valid * 2 ^ 58 + b01 g.slot0Valid * 2 ^ 57 +
  b01 (inHold s) * 2 ^ 56 + g.holdCause.code * 2 ^ 54 + b01 g.scrubPending * 2 ^ 53 + b01 g.zeroising * 2 ^ 52 +
  g.svRunning.toNat * 2 ^ 36 + g.fwMinSv.toNat * 2 ^ 20

/-- A guard register as GUARD_READ returns it (sp. 15 Table 15-1). -/
def guardRegister (s : State) (i : Nat) : Option (List Byte) :=
  let g := s.guard
  match i with
  | 0x00 => some (toLE 8 (guardStatus s))
  | 0x01 => some (toLE 4 g.supplyVcore.toNat)
  | 0x02 => some (toLE 4 g.supplyVsram.toNat)
  | 0x03 => some (toLE 4 g.supplyVlink.toNat)
  | 0x04 => some (toLE 8 g.limits.toNat)
  | 0x05 => some (toLE 8 g.portEnable.toNat)
  | 0x06 => some (keyHash g.operatorPub)
  | 0x07 => some (keyHash g.makerPub)
  | 0x08 => some (toLE 8 g.counterOp.toNat ++ toLE 8 g.counterMk.toNat)
  | 0x09 => some g.resetCause
  | 0x0A => some g.deviceCert
  | _ => none

def execGuardRead (f : Frame) (s : State) : Result :=
  .next (runCommand s f (.guardRead f) (cmdEarly 0x81) (fun s _ =>
    if f.payload.length ≠ 2 then no s stBadLength else
    match guardRegister s (leAt f.payload 0 2) with
    | some v => ok s v
    | none => no s stBadParam))

/-- The keys that may sign a body. -/
inductive Signer where
  | operator | maker | either
  deriving DecidableEq, Repr

/-- A row of sp. 15 Table 15-7: the code, its keys and states, whether a step makes it BUSY, its parameter check on the body,
and its effect. -/
structure GuardBody where
  code : Nat
  signer : Signer
  states : List Lifecycle
  stepFree : Bool
  params : State → List Byte → Bool
  effect : State → List Byte → Owed → BitVec 64 → State × Ans

/-- BODY_LENGTH. -/
def envBodyLen (p : List Byte) : Nat := leAt p 4 4
/-- COUNTER. -/
def envCounter (p : List Byte) : BitVec 64 := BitVec.ofNat 64 (leAt p 8 8)
/-- The body. -/
def envBody (p : List Byte) : List Byte := slice p 64 (envBodyLen p)
/-- KEY_KIND. -/
def envKind (p : List Byte) : Nat := byteAt p 2

/-- The installed key of a kind (sp. 13 Table 13-13); none is the empty string. -/
def keyOf (s : State) (kind : Nat) : List Byte :=
  if kind = 1 then s.guard.operatorPub else if kind = 2 then s.guard.makerPub else []
/-- The stored counter of a kind. -/
def counterOf (s : State) (kind : Nat) : BitVec 64 := if kind = 1 then s.guard.counterOp else s.guard.counterMk

/-- A body's key kind is one the table gives. -/
def signerOk (r : Signer) (kind : Nat) : Bool :=
  match r with
  | .operator => kind = 1
  | .maker => kind = 2
  | .either => kind = 1 || kind = 2

/-- The checks of sp. 13 R389 and sp. 15 R430, R436, R453 in order: the status of the first that fails, or none. -/
def envelopeFault (s : State) (p : List Byte) (b : GuardBody) : Option Byte :=
  let key := keyOf s (envKind p)
  if !s.guard.agree then some stBusy
  else if leAt p 0 2 ≠ 1 ∨ byteAt p 3 ≠ 0 ∨ !zeroAt p 28 4 then some stBadParam
  else if slice p 16 12 ≠ serialBytes s ∨ zeroAt p 16 12 then some stTargetWrong
  else if key.isEmpty ∨ slice p 32 32 ≠ keyHash key then some stKeyUnknown
  else if (envCounter p).toNat ≤ (counterOf s (envKind p)).toNat then some stCounterStale
  else if !ecdsaVerify key (sha256 (slice p 0 (64 + envBodyLen p))) (slice p (64 + envBodyLen p) 64) then some stSigBad
  else if byteAt (envBody p) 0 ≠ b.code ∨ !zeroAt (envBody p) 1 3 then some stBadParam
  else if !signerOk b.signer (envKind p) then some stKeyUnknown
  else if !b.states.contains s.guard.lifecycle then some stLifecycle
  else if !b.params s (envBody p) then some stBadParam
  else if b.stepFree && stepBusy s then some stBusy
  else if zeroStart s then some stBusy
  else none

/-- COUNTER is stored in its record before the command takes effect (sp. 13 R389). -/
def storeCounter (s : State) (kind : Nat) (c : BitVec 64) : State :=
  norWrite (if kind = 1 then { s with guard := { s.guard with counterOp := c } }
            else { s with guard := { s.guard with counterMk := c } }) [.counters]

/-- A GUARD_COMMAND (sp. 13 R388, R389): a refused envelope is recorded as GUARD_REFUSED and changes nothing else. -/
def guardBody (b : GuardBody) (f : Frame) (s : State) (o : Owed) : State × Ans :=
  let p := f.payload
  if p.length < 129 ∨ p.length ≠ 128 + envBodyLen p then no s stBadLength else
  match envelopeFault s p b with
  | some st => (raise s (gev s 0x16 st.toNat (envCounter p).toNat .never), .final st [])
  | none => b.effect (storeCounter s (envKind p) (envCounter p)) (envBody p) o (envCounter p)

/-- The frame of a GUARD_COMMAND with the body row `b`. -/
def runGuard (c : Instr) (b : GuardBody) (f : Frame) (s : State) : Result :=
  .next (runCommand s f c (cmdEarly 0x80) (fun s o => guardBody b f s o))

/-- Operator bodies of the field states. -/
def fieldStates : List Lifecycle := [.provisioned, .field]

/-- The lower value of one field of two LIMITS or SUPPLY words. -/
def lowerField (a b hi lo : Nat) : Nat := min (bits a hi lo) (bits b hi lo) * 2 ^ lo
/-- The higher value. -/
def higherField (a b hi lo : Nat) : Nat := max (bits a hi lo) (bits b hi lo) * 2 ^ lo

/-- The more protective of two values of a register (sp. 15 R430): lower cap and trips, higher thresholds, disabled lanes. -/
def protective (index : Nat) (a b : Nat) : Nat :=
  match index with
  | 4 => lowerField a b 63 52 + lowerField a b 51 44 + lowerField a b 43 36 + lowerField a b 35 28
  | 5 => a &&& b
  | _ => higherField a b 31 20 + higherField a b 19 8

/-- The value of a register the comparison covers and R430 orders: the SUPPLY registers, LIMITS, PORT_ENABLE. -/
def guardWord (g : Guard) (index : Nat) : Nat :=
  match index with
  | 1 => g.supplyVcore.toNat
  | 2 => g.supplyVsram.toNat
  | 3 => g.supplyVlink.toNat
  | 4 => g.limits.toNat
  | 5 => g.portEnable.toNat
  | _ => 0

/-- That register, written. -/
def setGuardWord (g : Guard) (index v : Nat) : Guard :=
  match index with
  | 1 => { g with supplyVcore := BitVec.ofNat 32 v }
  | 2 => { g with supplyVsram := BitVec.ofNat 32 v }
  | 3 => { g with supplyVlink := BitVec.ofNat 32 v }
  | 4 => { g with limits := BitVec.ofNat 64 v }
  | 5 => { g with portEnable := BitVec.ofNat 64 v }
  | _ => g

/-- The bits of a 64-bit register's writable fields: reserved fields read zero in both copies (sp. 15 Tables 15-3, 15-5, 15-6). -/
def guardMask (index : Nat) : Nat :=
  match index with
  | 4 => 0xFFFFFFFFF0000000
  | 5 => 0x00FFFFFFFFFFFF03
  | _ => 0xFFFFFF00

/-- A register value as the register takes it: reserved bits are ignored and read zero (sp. 00 R12, R13). -/
def takenWord (index v : Nat) : Nat := v &&& guardMask index

/-- SET_LIMITS's value (sp. 15 R434): POWER_CAP 600-1,498, THERM_WARN 50 to THERM_HOLD - 1, the other trips as they are. -/
def limitsOk (v : Nat) : Bool :=
  600 ≤ bits v 63 52 && bits v 63 52 ≤ 1498 && 50 ≤ bits v 51 44 && bits v 51 44 < bits v 43 36

def setLimitsBody : GuardBody :=
  { code := 0x01, signer := .operator, states := fieldStates, stepFree := false,
    params := fun s b => b.length = 12 && limitsOk (leAt b 4 8) && bits (leAt b 4 8) 43 28 = bits s.guard.limits.toNat 43 28,
    effect := fun s b _ _ => ok { s with guard := { s.guard with limits := BitVec.ofNat 64 (takenWord 4 (leAt b 4 8)) } } [] }

def execSetLimits (f : Frame) (s : State) : Result := runGuard (.setLimits f) setLimitsBody f s

/-- A PORT_ENABLE value that may be written: not both KCP bits zero (sp. 15 R435). -/
def portsOk (v : Nat) : Bool := bits v 1 0 ≠ 0

/-- PORT_LEAVING on a port that is UP, and the port goes to DISABLED; or a port enabled again trains (sp. 15 R435, sp. 11 R326,
R345). `was` is PORT_ENABLE before the write. -/
def portEnableOne (was : BitVec 64) (s : State) (p : PortNo) : State :=
  let before := bits was.toNat (15 + 8 * p.val) (8 + 8 * p.val) = 0xFF
  let now := lanesOn s p
  if before && !now then
    let s1 := if (port s p).st = .up then
        leaveRx (setPort s p (sendFlits (port s p) [flit 8 0 0 ([2] ++ zeros 8)])) p else s
    portMove (setPort s1 p (dropLink (port s1 p))) p .disabled 0
  else if !before && now && (port s p).st = .disabled then portEnter s p
  else s

/-- A control port that the write disables goes down; control moves to the other port with cause 3 (sp. 13 R366). -/
def kcpDisable (s : State) (k : Kcp) : State :=
  if kcpEnabled s k || !(kcp s k).up then s
  else if s.ctl.carrier = some k then
    if (kcp s (otherKcp k)).up && kcpEnabled s (otherKcp k) then takeControl (linkDown s k) (otherKcp k) 3
    else loseControl (linkDown s k) 3
  else linkDown s k

/-- PORT_ENABLE written (sp. 15 R435). -/
def writePorts (s : State) (v : BitVec 64) : State :=
  let was := s.guard.portEnable
  let s1 := { s with guard := { s.guard with portEnable := v } }
  kcpDisable (kcpDisable (allPorts.foldl (portEnableOne was) s1) .a) .b

def setPortsBody : GuardBody :=
  { code := 0x02, signer := .operator, states := fieldStates, stepFree := false,
    params := fun _ b => b.length = 12 && portsOk (leAt b 4 8),
    effect := fun s b _ _ => ok (writePorts s (BitVec.ofNat 64 (takenWord 5 (leAt b 4 8)))) [] }

def execSetPorts (f : Frame) (s : State) : Result := runGuard (.setPorts f) setPortsBody f s

/-- The bytes of a register that the other copy holds differ from this one's in these bit positions, the lowest 64 (sp. 15 Table 15-14). -/
def differBits (a b : List Byte) : Nat := (ofLE a ^^^ ofLE b) % 2 ^ 64

/-- The copies disagree about a register (sp. 15 R430): GUARD_DISAGREE, AGREE falls, and of the registers that R430 orders the more protective
value applies, PORT_ENABLE as a write of it does. `other` is the other copy's value, least significant byte first. -/
def execGuardDisagree (index : Fin 16) (other : Nat) (s : State) : Result :=
  match guardRegister s index.val with
  | none => .next s
  | some v =>
    let ordered : Bool := 1 ≤ index.val && index.val ≤ 5
    let b := if ordered then other &&& guardMask index.val else other % 256 ^ v.length
    if ofLE v = b ∨ !s.pwr.v54 then .next s
    else
      let d := differBits v (toLE v.length b)
      let s1 := { s with guard := { s.guard with agree := false } }
      let w := protective index.val (ofLE v) b
      let s2 := if index.val = 5 then writePorts s1 (BitVec.ofNat 64 w)
        else if ordered then { s1 with guard := setGuardWord s1.guard index.val w } else s1
      .next (guardRaise s2 (gev s2 0x46 index.val d .every))

def setFwMinSvBody : GuardBody :=
  { code := 0x03, signer := .operator, states := fieldStates, stepFree := false,
    params := fun s b => b.length = 6 && s.guard.fwMinSv.toNat ≤ leAt b 4 2 && leAt b 4 2 ≤ s.guard.svRunning.toNat,
    effect := fun s b _ _ => ok (norWrite { s with guard := { s.guard with fwMinSv := BitVec.ofNat 16 (leAt b 4 2) } } [.fwMinSv]) [] }

def execSetFwMinSv (f : Frame) (s : State) : Result := runGuard (.setFwMinSv f) setFwMinSvBody f s

/-- A KEY record (sp. 15 Table 15-14): the first 8 bytes of the new key's hash, in their order (sp. 00 R9). -/
def keyRecord (s : State) (which : Nat) (pub : List Byte) : State :=
  guardRaise s (gev s 0x49 which (ofLE ((sha256Bytes pub).take 8)) .every)

def rotateBody : GuardBody :=
  { code := 0x04, signer := .operator, states := fieldStates, stepFree := false,
    params := fun _ b => b.length = 69 && (pointOf (slice b 4 65)).isSome,
    effect := fun s b _ _ =>
      let pub := slice b 4 65
      ok (keyRecord (norWrite { s with guard := { s.guard with operatorPub := pub, counterOp := 0 } } [.operatorKey, .counters]) 2
        pub) (sha256Bytes pub) }

def execRotateOperatorKey (f : Frame) (s : State) : Result := runGuard (.rotateOperatorKey f) rotateBody f s

def enterFieldBody : GuardBody :=
  { code := 0x05, signer := .operator, states := [.provisioned], stepFree := true, params := fun _ b => b.length = 4,
    effect := fun s _ _ c => ok (lifecycleMove s .field c) [] }

def execEnterField (f : Frame) (s : State) : Result := runGuard (.enterField f) enterFieldBody f s

/-- Zeroisation begins (sp. 15 R453): ZEROISING is set in the record area; the body's reply comes when it is complete. -/
def zeroiseBegin (s : State) (after : Lifecycle) (o : Owed) (c : BitVec 64) : State × Ans :=
  (norWrite { s with guard := { s.guard with zeroising := true, zeroAfter := some after, zero := some { reply := some o, counter := c } } }
    [.zeroising], .later)

def scrapBody : GuardBody :=
  { code := 0x06, signer := .either, states := [.manufacture, .provisioned, .field, .makerAnalysis], stepFree := true,
    params := fun _ b => b.length = 4, effect := fun s _ o c => zeroiseBegin s .scrapped o c }

def execScrap (f : Frame) (s : State) : Result := runGuard (.scrap f) scrapBody f s

def enterMakerBody : GuardBody :=
  { code := 0x07, signer := .maker, states := fieldStates, stepFree := true, params := fun _ b => b.length = 4,
    effect := fun s _ o c => zeroiseBegin s .makerAnalysis o c }

def execEnterMakerAnalysis (f : Frame) (s : State) : Result := runGuard (.enterMakerAnalysis f) enterMakerBody f s

def makerStates : List Lifecycle := [.manufacture, .makerAnalysis]

def generateBody : GuardBody :=
  { code := 0x08, signer := .maker, states := makerStates, stepFree := false, params := fun _ b => b.length = 4,
    effect := fun s _ _ _ =>
      let d := scalarOf (Config.entropy s.free)
      let pub := publicKey d
      ok (keyRecord { s with free := s.free + 1, guard := { s.guard with deviceKey := some d } } 1 pub) pub }

def execGenerateDeviceKey (f : Frame) (s : State) : Result := runGuard (.generateDeviceKey f) generateBody f s

/-- `needle` stands somewhere in a byte string. -/
def containsBytes (needle : List Byte) : List Byte → Bool
  | [] => needle.isEmpty
  | b :: r => (b :: r).take needle.length == needle || containsBytes needle r

/-- The length of the first DER certificate of DEVICE_CERT: a SEQUENCE with a two-byte length. -/
def firstCertLen (c : List Byte) : Nat := if byteAt c 0 = 0x30 ∧ byteAt c 1 = 0x82 then 4 + byteAt c 2 * 256 + byteAt c 3 else 0

/-- The first certificate carries the device public key (sp. 15 R450, Table 15-7). -/
def certCarries (s : State) (cert : List Byte) : Bool :=
  match s.guard.deviceKey with
  | none => false
  | some d => firstCertLen cert ≤ cert.length && containsBytes (publicKey d) (cert.take (firstCertLen cert))

def completeBody : GuardBody :=
  { code := 0x09, signer := .maker, states := makerStates, stepFree := true,
    params := fun s b => 80 ≤ b.length && b.length = 80 + leAt b 72 2 && leAt b 72 2 ≤ 2048 && zeroAt b 69 3 && zeroAt b 74 6 &&
      (pointOf (slice b 4 65)).isSome && certCarries s (b.drop 80),
    effect := fun s b _ c =>
      let s1 := norWrite { s with guard := { s.guard with operatorPub := slice b 4 65, counterOp := 0, deviceCert := b.drop 80 } }
        [.operatorKey, .counters, .deviceCert]
      ok (lifecycleMove s1 .provisioned c) [] }

def execCompleteProvision (f : Frame) (s : State) : Result := runGuard (.completeProvision f) completeBody f s

/-- A value that a manufacturing write may give a register (sp. 15 R433-R435, sp. 17 R487). -/
def registerOk (index v : Nat) : Bool :=
  match index with
  | 1 | 2 | 3 => bits v 19 8 < bits v 31 20
  | 4 => limitsOk v && bits v 43 36 < 115 && bits v 35 28 < 115
  | 5 => portsOk v
  | _ => false

def setRegisterBody : GuardBody :=
  { code := 0x0A, signer := .maker, states := [.manufacture], stepFree := false,
    params := fun _ b => zeroAt b 6 2 && b.length = (if leAt b 4 2 ≤ 3 then 12 else 16) &&
      registerOk (leAt b 4 2) (leAt b 8 (if leAt b 4 2 ≤ 3 then 4 else 8)),
    effect := fun s b _ _ =>
      let i := leAt b 4 2
      let v := takenWord i (leAt b 8 (if i ≤ 3 then 4 else 8))
      if i = 5 then ok (writePorts s (BitVec.ofNat 64 v)) [] else ok { s with guard := setGuardWord s.guard i v } [] }

def execSetRegister (f : Frame) (s : State) : Result := runGuard (.setRegister f) setRegisterBody f s

/-! ## Firmware slots and maintenance reads -/

/-- Maintenance commands taken at NO_FIRMWARE as well (sp. 16 R463). -/
def cmdNoFw (opcode : Byte) (cls : BitVec 2) : CmdInfo :=
  { opcode := opcode, cls := cls, needSession := true, standby := false, stages := [2, 4, 5, 7] }

/-- The slot's valid bit, changed. -/
def setSlotValid (s : State) (k : Bool) (v : Bool) : State :=
  if k then { s with guard := { s.guard with slot1Valid := v } } else { s with guard := { s.guard with slot0Valid := v } }

/-- A chunk of an image (sp. 15 R448): the first after a reset or a commit erases the slot and clears its valid bit; one for
the running slot is stray. -/
def fwSlotDataBody (f : Frame) (s : State) : Option State :=
  let p := f.payload
  let off := leAt p 8 8
  let data := p.drop 16
  if p.length < 17 ∨ 8128 < data.length ∨ 2 ≤ byteAt p 0 ∨ !zeroAt p 1 7 ∨ off % 8128 ≠ 0 ∨ 30000000 < off + data.length then none else
  let k := decide (byteAt p 0 = 1)
  let sl := fwSlot s k
  if s.guard.running = some k ∨ sl.commit.isSome then none else
  let s1 := if sl.loading then s else setSlotValid s k false
  let base := if sl.loading then sl else { sl with bytes := [], chunks := [], loading := true }
  some (setFwSlot s1 k { base with bytes := Sparse.put erased base.bytes off data,
                                   chunks := if base.chunks.contains off then base.chunks else base.chunks ++ [off] })

def execFwSlotData (f : Frame) (s : State) : Result := 
  .next (runData s f (cmdNoFw 0x94 2) (inTurn f (.fwSlotData f) (fwSlotDataBody f)))

/-- FW_SLOT_COMMIT (sp. 15 R448). -/
def fwSlotCommitBody (f : Frame) (s : State) (o : Owed) : State × Ans :=
  let p := f.payload
  if p.length ≠ 16 then no s stBadLength
  else if 2 ≤ byteAt p 0 ∨ !zeroAt p 1 7 ∨ leAt p 8 8 = 0 ∨ 30000000 < leAt p 8 8 then no s stBadParam
  else
    let k := decide (byteAt p 0 = 1)
    if s.guard.running = some k then no s stBadParam
    else if (fwSlot s k).commit.isSome then no s stBusy
    else (setFwSlot s k { fwSlot s k with commit := some (o, leAt p 8 8), loading := false }, .accepted)

def execFwSlotCommit (f : Frame) (s : State) : Result :=
  .next (runCommand s f (.fwSlotCommit f) (cmdNoFw 0x95 1) (fun s o => fwSlotCommitBody f s o))

/-- The chunk offsets of `len` bytes in chunks of 8,128 that have not arrived, ascending. -/
def missingChunks (len : Nat) (have_ : List Nat) : List Nat :=
  ((List.range (ceilDiv len 8128)).map (fun i => i * 8128)).filter (fun o => !have_.contains o)

/-- The detail of INCOMPLETE: missing chunks, first missing offset (sp. 13 Table 13-7). -/
def incompleteDetail (l : List Nat) : List Byte := toLE 4 l.length ++ zeros 4 ++ toLE 8 (l.headD 0)

def execFwSlotCommitDone (slot : Fin 2) (s : State) : Result :=
  let k := decide (slot = 1)
  let sl := fwSlot s k
  match sl.commit with
  | none => .next s
  | some (o, len) =>
    let s1 := setFwSlot s k { sl with commit := none }
    let miss := missingChunks len sl.chunks
    if !miss.isEmpty then .next (finish s1 o stIncomplete (incompleteDetail miss))
    else
      let fault := slotFault s.guard sl
      if fault = 0 ∧ len = 112 + slotBodyLen sl then .next (finish (setSlotValid s1 k true) o stOk [])
      else if fault = 4 then .next (finish s1 o stSigBad [])
      else .next (finish s1 o stBadParam [])

/-- DEVICE_RESET (sp. 16 R470). -/
def execDeviceReset (f : Frame) (s : State) : Result :=
  .next (runCommand s f (.deviceReset f) (cmdNoFw 0x96 1) (fun s _ =>
    if f.payload.length ≠ 1 then no s stBadLength
    else if byteAt f.payload 0 ≠ 1 then no s stBadParam
    else ok { s with pwr := { s.pwr with resetDue := true } } []))

/-- The logical row or column that each of four spares replaces: 0xFF for one not in use, no two alike (sp. 04 R103); `raw` chooses. -/
def sparesOf (mask : Nat) (raw : Nat → Nat) : List Nat :=
  ((List.range 4).foldl (fun (a : List Nat × List Nat) n =>
    if bit mask n then
      let x := a.2.getD (raw n % a.2.length) 0
      (a.1 ++ [x], a.2.filter (· ≠ x))
    else (a.1 ++ [0xFF], a.2)) ([], List.range 128)).1

/-- Record `k` of the fuse map (sp. 04 R103, Table 4-4): its place is fixed, the spares and the test program are as fused (log 7). -/
def fuseRecord (k : Nat) : List Byte :=
  let raw (i : Nat) : Nat := (Config.fuseMap (16 * k + i)).toNat
  let used := raw 0
  let slot := k % 48
  let rows := sparesOf (used % 16) (fun n => raw (1 + n))
  let cols := sparesOf (used / 16) (fun n => raw (5 + n))
  toLE 16 (k / 48 * 2 ^ 126 + b01 (decide (16 ≤ slot)) * 2 ^ 125 + (if slot < 16 then slot else slot - 16) * 2 ^ 120 + used % 16 * 2 ^ 116 +
    used / 16 * 2 ^ 112 + ofLE (rows.map (BitVec.ofNat 8)) * 2 ^ 80 + ofLE (cols.map (BitVec.ofNat 8)) * 2 ^ 48 +
    testProg (k / 48) * 2 ^ 32)

/-- The fuse map: the records of CD0 to CD3, forward before backward bank, by array (sp. 04 R103). -/
def fuseMapBytes : List Byte := ((List.range 192).map fuseRecord).flatten

def execFuseMapRead (f : Frame) (s : State) : Result :=
  .next (runCommand s f (.fuseMapRead f) (cmdEarly 0x90) (fun s _ => noPayload f s (fun s => ok s fuseMapBytes)))

/-- TABLE_IMAGE_READ (sp. 13 Table 13-12, sp. 08 R224): a range outside the 72 KiB image is out of range. -/
def execTableImageRead (f : Frame) (s : State) : Result :=
  .next (runCommand s f (.tableImageRead f) (cmdEarly 0x91) (fun s _ =>
    let off := leAt f.payload 0 4
    let n := leAt f.payload 4 4
    if f.payload.length ≠ 8 then no s stBadLength
    else if 8096 < n ∨ 73728 < off + n then no s stBadParam
    else ok s (tableDigest ++ (List.range n).map (fun i => Config.tableImage (off + i)))))

end Sys2Proof.Machine
end

