-- ==== Sys2Proof/Machine/Raise.lean ====
section
/-! DEFINITION. What the requester ports raise at the arbiters: ranks, locked sequences, routes (sp. 10 R298, R311, R312, R319; sp. 01
R17). -/

namespace Sys2Proof.Machine

/-! ## Ports and what they raise -/

/-- The bridge edges, each in its two directions (sp. 01 R16, Table 1-2): the ring of compute dies, and each I/O die to its two. -/
def bridgeEdges : List (Nat × Nat) :=
  [(0, 1), (1, 0), (1, 3), (3, 1), (3, 2), (2, 3), (2, 0), (0, 2), (4, 0), (0, 4), (4, 2), (2, 4), (5, 1), (1, 5), (5, 3), (3, 5)]

/-- The ends of a bridge edge. -/
def edgeEnds (e : Fin 16) : Nat × Nat := bridgeEdges.getD e.val (0, 1)

/-- N: the requester ports of an arbiter (sp. 10 Table 10-6); a bridge edge has a fifth, port ingress, where it touches an I/O die. -/
def arbPorts : ArbId → Nat
  | .bank _ _ => 23
  | .hbm _ _ => 5
  | .bridge e _ => if 4 ≤ (edgeEnds e).1 ∨ 4 ≤ (edgeEnds e).2 then 5 else 4
  | .peer _ => 6
  | .control _ => 4

/-- The ports that may present a rank 0 request (sp. 10 Table 10-6): the prompter port, the firmware port, local and transit control,
the class 0 queue and the beat relay. -/
def mayRank0 : ArbId → Nat → Bool
  | .bank _ _, p => p = 21
  | .hbm _ _, p => p = 4
  | .bridge _ _, p => p = 2 || p = 3
  | .peer _, p => p = 0 || p = 4
  | .control _, p => p = 0

/-- The ports at which a channel's transfers of its own die, and those at which transfers of another die's channels, are raised: DMA read
and write, DMA, local data; bridge ingress, transit data. -/
def isDmaPort : ArbId → Nat → Bool
  | .bank _ _, p => p = 18 || p = 19
  | .hbm _ _, p => p = 0
  | .bridge _ _, p => p = 0
  | _, _ => false
def isFarPort : ArbId → Nat → Bool
  | .bank _ _, p => p = 20
  | .hbm _ _, p => p = 2
  | .bridge _ _, p => p = 1
  | _, _ => false

/-- The scrub ports. -/
def isScrubPort : ArbId → Nat → Bool
  | .bank _ _, p => p = 22
  | .hbm _ _, p => p = 3
  | _, _ => false

/-- RANK and LOCK of a channel's active descriptor (sp. 10 Table 10-2). -/
def chanRank (s : State) (d : Die) (n : Fin 128) : Nat := bits (chan s d n).actDesc.toNat 255 254
def chanLock (s : State) (d : Die) (n : Fin 128) : Nat := bits (chan s d n).actDesc.toNat 253 248

/-- The bytes of the frame that a request of a control port's transmitter begins: the frame of that number among those given to the
port to send. -/
def frameAt (s : State) (k : Kcp) (n : Nat) : Option OutFrame := (s.ctl.sent.filter (fun f => f.port = k))[n]?

/-- The 256-B units of a frame (sp. 13 R369): header, payload and CRC. -/
def frameUnits (f : OutFrame) : Nat := ceilDiv (36 + f.payload.length) 256

/-- The rank of a request (sp. 10 R312): a DMA transfer's is its descriptor's, a scrub request's 3, a flit's or unit's that of its
traffic class (the beat relay 0, the snapshot stream 2); every other port's is the one that firmware configures, 0 only where Table
10-6 lets it be. A descriptor of firmware's own with RANK 0 goes as rank 1, since no DMA port presents rank 0 (DESIGN CHOICE, log 87). -/
def raiseRank (s : State) (a : ArbId) (x : Raise) : Fin 4 :=
  let fixed (v : Nat) : Fin 4 := if mayRank0 a x.port then Fin.ofNat 4 v else Fin.ofNat 4 (1 + v % 3)
  match a, x.chan with
  | .peer _, _ => if x.port = 4 then 0 else if x.port = 5 then 2 else Fin.ofNat 4 x.port
  | .control _, _ => Fin.ofNat 4 x.port
  | _, some (d, n) => Fin.ofNat 4 (max 1 (chanRank s d n))
  | _, none => if isScrubPort a x.port then 3 else fixed (Config.portRank (arbKey a) x.port)

/-- The transfers of the locked sequence that a request may begin (sp. 10 R298, R319): LOCK of a DMA transfer's descriptor; every unit of
a frame, one where it is of class 0; one otherwise. -/
def raiseLock (s : State) (a : ArbId) (x : Raise) : Nat :=
  match a, x.chan with
  | .control k, _ => if x.port = 0 then 1 else min 32 ((frameAt s k x.num).elim 1 frameUnits)
  | .peer _, _ => 1
  | _, some (d, n) => max 1 (chanLock s d n)
  | _, none => 1

/-- The transfers of a channel's active descriptor, in order. -/
def chanMoves (s : State) (d : Die) (n : Fin 128) : List Move :=
  match (unit s (chanUnit d n)).running with
  | some r => r.moves
  | none => (goRun s d n).moves

/-- The dies that a channel's transfers read, and those they go to: the destination's, the I/O die of the port that a PEER_SEND or a
tier-1 STREAM names, or either I/O die, which each hold half of the NAND and one control port (sp. 01 Table 1-1; sp. 14 R416). -/
def chanEnds (s : State) (d : Die) (n : Fin 128) : List Nat :=
  let l := chanMoves s d n
  let w := (chan s d n).actDesc.toNat
  l.map (fun m => dieOf (localOf m.src)) ++
  (match (unit s (chanUnit d n)).running with
   | some r =>
     if r.opcode = 0x61 then [(portPlace (sendPort w)).val]
     else if r.opcode = 0x62 ∧ snKind w = 1 then (if snTier w = 1 then [(portPlace (snPort w)).val] else [4, 5])
     else l.map (fun m => dieOf (localOf m.dst))
   | none => l.map (fun m => dieOf (localOf m.dst)))

/-- The transfer of that number in the channel's descriptor reads or writes the address, which lies in a bank or pseudo-channel. -/
def movesAt (s : State) (d : Die) (n : Fin 128) (k a : Nat) : Bool :=
  match (chanMoves s d n)[k]? with
  | some m => (decide (localOf m.src ≤ a ∧ a < localOf m.src + m.len)) || decide (localOf m.dst ≤ a ∧ a < localOf m.dst + m.len)
  | none => false

/-- A bridge edge lies on the way of what a peer port is receiving, from its I/O die to the memory (sp. 01 R17). -/
def ingressWay (s : State) (e : Nat × Nat) (first : Bool) : Bool :=
  allPorts.any (fun p => (port s p).rx.any (fun x =>
    let w := edgesOf (portPlace p).val (dieOf (bits x.head.dst.toNat 55 0))
    (if first then w.take 1 else w.drop 1).contains e))

/-- Traffic of another die crosses the bridge edge on some route (sp. 01 Table 1-2). -/
def transitEdge (e : Nat × Nat) : Bool :=
  (List.range 6).any (fun a => (List.range 6).any (fun b => ((edgesOf a b).drop 1).contains e))

/-- A request of no channel at a bridge: local control anywhere; transit control where some route passes; transit data and port ingress
on the way of what a peer port receives (sp. 01 R17, sp. 10 Table 10-6). -/
def bridgeOk (s : State) (e : Nat × Nat) (port : Nat) : Bool :=
  if port = 1 then ingressWay s e false
  else if port = 3 then transitEdge e
  else if port = 4 then ingressWay s e true
  else decide (port = 2)

/-- The request can be raised at the arbiter: its port is one of the arbiter's; a bank's or pseudo-channel's address lies in it (sp. 09
R266). A DMA port names an ACTIVE channel of its die, ingress and transit data may name one of another die: the transfer reads or writes
that address, or crosses a bridge edge that lies on its route, in the lane of its channel's number modulo 125 (sp. 01 R17, sp. 10 Table
10-6; log 88). A control port's frame stands among those given to it, of the queue's class (R319). -/
def raiseOk (s : State) (a : ArbId) (x : Raise) : Bool :=
  decide (x.port < arbPorts a) &&
  (match a with
   | .bank d n => decide (bankOf x.addr.toNat = some (64 * d.val + n.val))
   | .hbm d n => decide (x.addr.toNat < hbmEnd ∧ dieOf x.addr.toNat = d.val ∧
       (hbmStack x.addr.toNat - 3 * d.val) * 64 + hbmChannel x.addr.toNat * 2 + hbmPseudo x.addr.toNat = n.val)
   | _ => true) &&
  (match x.chan with
   | none =>
     (match a with
      | .bridge e _ => bridgeOk s (edgeEnds e) x.port
      | .control k => (frameAt s k x.num).any (fun f => f.cls.toNat = x.port)
      | _ => !isDmaPort a x.port)
   | some (d, n) =>
     let own (at_ : Nat) : Bool := if at_ = d.val then isDmaPort a x.port else isFarPort a x.port
     decide ((chan s d n).st = .active) &&
     (match a with
      | .bank e _ => own e.val && movesAt s d n x.num x.addr.toNat
      | .hbm e _ => own e.val && movesAt s d n x.num x.addr.toNat
      | .bridge e l =>
        own (edgeEnds e).1 && decide (l.val = n.val % 125) &&
          (chanEnds s d n).any (fun t => (edgesOf t d.val ++ edgesOf d.val t).contains (edgeEnds e))
      | _ => false))

/-- The request as the arbiter holds it. -/
def requestOf (s : State) (a : ArbId) (x : Raise) : Request :=
  { port := x.port, rank := raiseRank s a x, lock := raiseLock s a x, since := (arbiter s a).slot,
    chan := x.chan.map (fun c => chanKey c.1 c.2), seq := x.num }

/-- A port holds its head request and the next one (sp. 10 R313). -/
def addRequest (l : List Request) (x : Request) : List Request :=
  if (l.filter (fun y => y.port = x.port)).length < 2 then l ++ [x] else l

/-- The bank behind an arbiter holds a full write queue: it grants no access in its next cycle (sp. 09 R251). -/
def bankBusy (s : State) : ArbId → Bool
  | .bank d n => queueFull s (64 * d.val + n.val)
  | _ => false

/-- ARBITER_SLOT: the requests raised since the slot before are seen, and the next slot is decided (sp. 10 R313); a bank that grants no
access leaves it empty. -/
def execArbiterSlot (arb : ArbId) (seen : SlotSeen) (s : State) : Result :=
  let a := arbiter s arb
  let l := ((seen.raised.filter (raiseOk s arb)).map (requestOf s arb)).foldl addRequest a.raised
  let b := { a with raised := l }
  let c := if bankBusy s arb then { b with served := none, slot := b.slot + 1 } else decideSlot b seen.still
  .next { s with arbs := Sparse.set noArbiter s.arbs (arbKey arb) c }

end Sys2Proof.Machine
end

