-- ==== Sys2Proof/Machine/Securing.lean ====
section
/-! DEFINITION. Securing, restore and the journal (sp. 14 R410-R422; sp. 11 R346, R347), and the commands of family 0x6. -/

namespace Sys2Proof.Machine

/-! ## SECURE_NOW and SECURE_FLOOR -/

/-- The sections of an image that firmware builds: one per valid state region (sp. 14 R418), with the CRC of its bytes. -/
def regionSections (s : State) : List ImgSection :=
  (numbered (validRegions s)).map (fun x =>
    let a := eBase x.2.2 * 2 ^ 24
    let n := rLength x.2.2 * 2 ^ 24
    { num := x.1, region := x.2.1, off := 0, len := n, crc := BitVec.ofNat 32 (crc32c (load s a n)), addr := a })

/-- The image of the last committed step that firmware builds for one tier (sp. 14 R411, R414, R418). -/
def firmwareImage (s : State) (t : Nat) : Image :=
  let l := regionSections s
  { id := BitVec.ofNat 64 (ownId s * 2 ^ 56 + bits s.step.lastCommitted.toNat 55 0), sections := l.length, done := l,
    commit := s.step.lastMode, hash := s.step.lastHash, tiers := [t], sent1 := 0, sent2 := 0, sent3 := 0 }

/-- The channel that firmware takes for a range on die `home`, or the one it holds already. -/
def channelFor (s : State) (held home : Nat) : Nat := (fwChannel s home).getD held

/-- Firmware reads a section on a channel of its own (sp. 10 R307); `k` is the one it holds. -/
def readSection (k : Nat) (s : State) (x : ImgSection) : State := (fwRead s (channelFor s k (dieOf x.addr)) x.addr x.len).2

/-- Firmware secures at once (sp. 14 R418), from channel `k` on: the image is built and streamed; it completes with IMAGE_COMPLETE (log
52). -/
def firmwareSecure (s : State) (k t : Nat) (o : Owed) : State :=
  let i := firmwareImage s t
  let s1 := deliverParts (i.done.foldl (readSection k) s) t (streamParts s i t (imgLen i))
  { s1 with secure := { s1.secure with st := .draining, firmware := true, image := some (setSent i t (imgLen i)),
                                       waiting := s1.secure.waiting ++ [(t, o)] } }

/-- The die from which firmware's image begins. -/
def regionsHome (s : State) : Nat := ((validRegions s).head?.map (fun e => dieOf (eBase e.2 * 2 ^ 24))).getD 0

/-- A tier becomes due, and the command waits for it. -/
def waitTier (s : State) (t : Nat) (o : Owed) : State :=
  let due := if s.secure.due.contains t then s.secure.due else s.secure.due ++ [t]
  { s with secure := { s.secure with due := due, waiting := s.secure.waiting ++ [(t, o)] } }

/-- A step is armed or running, or an image is held: firmware does not secure on its own now. -/
def secureLater (s : State) : Bool := stepBusy s || s.secure.image.isSome

/-- A SECURE_NOW that was accepted goes on (sp. 14 R418): the tier is due in the next step, or firmware secures, from channel `k` on. -/
def secureOn (s : State) (k t : Nat) (o : Owed) : State := if secureLater s then waitTier s t o else firmwareSecure s k t o

/-- SECURE_NOW (sp. 14 R418); with no channel free it waits, accepted (sp. 10 R307). -/
def secureNowBody (f : Frame) (s : State) (o : Owed) : State × Ans :=
  let t := byteAt f.payload 0
  if f.payload.length ≠ 1 then no s stBadLength
  else if t = 0 ∨ 3 < t then no s stBadParam
  else if (validRegions s).isEmpty ∨ s.step.dirty ∨ (t = 1 ∧ !secureLater s) then no s stSecureRefused
  else if secureLater s then (waitTier s t o, .accepted)
  else
    match (if s.fwHeld.isEmpty then fwChannel s (regionsHome s) else none) with
    | some k => (firmwareSecure s k t o, .accepted)
    | none => ({ s with fwHeld := s.fwHeld ++ [.secureNow f] }, .accepted)

def execSecureNow (f : Frame) (s : State) : Result := .next (runCommand s f (.secureNow f) (cmd 0x60) (secureNowBody f))

/-- SECURE_FLOOR (sp. 14 R410). -/
def secureFloorBody (f : Frame) (s : State) : State × Ans :=
  if f.payload.length ≠ 4 then no s stBadLength
  else ok { s with secure := { s.secure with floor := BitVec.ofNat 32 (leAt f.payload 0 4) } } []

def execSecureFloor (f : Frame) (s : State) : Result := .next (runCommand s f (.secureFloor f) (cmd 0x61) (fun s _ => secureFloorBody f s))

/-! ## An image completes (sp. 14 R416) -/

/-- The image becomes its tier's last completed one; a tier-1 image stands in its half of the window, a tier-2 image in its slot. -/
def lastImage (s : State) (t : Nat) (id : BitVec 64) : State :=
  if t = 1 then { s with secure := { s.secure with last1 := id, slot1 := !s.secure.slot1 } }
  else if t = 2 then
    let k := nandTarget s
    let s1 := setNandSlot s k { nandSlot s k with valid := some id }
    { s1 with nand := { s1.nand with next1 := !k }, secure := { s1.secure with last2 := id } }
  else { s with secure := { s.secure with last3 := id } }

/-- The tier is due no longer and leaves the image's set; the image is held until the set is empty (sp. 14 R411, R417). -/
def tierDone (s : State) (t : Nat) (i : Image) : State :=
  let l := i.tiers.filter (· ≠ t)
  let c := { s.secure with due := s.secure.due.filter (· ≠ t), waiting := s.secure.waiting.filter (fun w => w.1 ≠ t) }
  if l.isEmpty then { s with secure := { c with image := none, st := .idle, firmware := false } }
  else { s with secure := { c with image := some { i with tiers := l } } }

/-- A STREAM cue of the tier still carries bytes of the image. -/
def tierRuns (s : State) (t : Nat) : Bool :=
  s.dma.any (fun e => match (unit s (chanUnit (chanDie e.1) (chanNum e.1))).running with
    | some r => decide (r.opcode = 0x62 ∧ snTier e.2.actDesc.toNat = t ∧ r.send.adv ≠ 0)
    | none => false)

/-- The image is complete at a tier: every byte of it sent (sp. 14 Table 14-7). -/
def tierSent (s : State) (t : Nat) : Option Image :=
  match s.secure.image with
  | none => none
  | some i => if i.tiers.contains t ∧ imgSent i t = imgLen i ∧ s.secure.st = .draining ∧ !tierRuns s t then some i else none

/-- IMAGE_COMPLETE: the SECURE_NOW commands that wait for the tier get their replies. A NAND program that fails records an IMAGE error,
and the tier begins again (log 52). -/
def imageComplete (s : State) (t : Nat) (ok : Bool) : State :=
  match tierSent s t with
  | none => s
  | some i =>
    if ok then
      let ws := s.secure.waiting.filter (fun w => w.1 = t)
      ws.foldl (fun a w => finish a w.2 stOk (toLE 8 i.id.toNat)) (tierDone (lastImage s t i.id) t i)
    else if t = 2 then
      let s1 := imageError s i.id 5
      if s1.secure.firmware then s1 else { s1 with secure := { s1.secure with image := some (setSent i 2 0) } }
    else s

def execImageComplete (tier : Fin 4) (ok : Bool) (s : State) : Result := .next (imageComplete s tier.val ok)

/-! ## The understudy window (sp. 11 R346) -/

/-- A snapshot is being received. -/
def snapshotComing (s : State) : Bool := allPorts.any (fun p => (port s p).rx.any (fun x => x.head.snap))

/-- The entry's window overlaps a valid state region, a wing, or a paddock region of an OPEN or FENCED tenant. -/
def windowClash (s : State) (e : BitVec 128) : Bool :=
  (allRegionRanges s).any (fun r => overlaps r.1 r.2 (eBase e) (wLength e)) ||
  [0, 1, 2, 3].any (fun d => overlaps (eBase (wing s d)) (wLength (wing s d)) (eBase e) (wLength e)) ||
  s.tenants.any (fun t => decide (t.2.st ≠ .closed) &&
    t.2.regions.any (fun r => overlaps r.1 r.2 (eBase e * 2 ^ 24) (wLength e * 2 ^ 24)))

/-- The fields of an understudy entry: all but [83:0] (sp. 11 Table 11-9). -/
def understudyFields : BitVec 128 := 0xFFFFFFFFFFF000000000000000000000

/-- UNDERSTUDY_WRITE (sp. 11 R346, Table 11-9). A window of length 0 overlaps nothing. -/
def understudyWriteBody (f : Frame) (s : State) : State × Ans :=
  let p := f.payload
  let e := taken128 (entryOf p) understudyFields
  if p.length ≠ 32 then no s stBadLength
  else if !zeroAt p 0 16 ∨ 6144 < wLength e ∨ 5 < uPort e then no s stBadParam
  else if snapshotComing s ∨ (wLength e ≠ 0 ∧ (48896 < eBase e + wLength e ∨ windowClash s e)) then no s stSecureRefused
  else ok { s with cfg := { s.cfg with understudy := e } } []

def execUnderstudyWrite (f : Frame) (s : State) : Result := .next (runCommand s f (.understudyWrite f) (cmd 0x62) (fun s _ => understudyWriteBody f s))

/-- UNDERSTUDY_READ (sp. 13 Table 13-11). -/
def understudyReadBody (f : Frame) (s : State) : State × Ans :=
  if f.payload.length ≠ 0 then no s stBadLength else ok s (toLE 16 s.cfg.understudy.toNat)

def execUnderstudyRead (f : Frame) (s : State) : Result := .next (runCommand s f (.understudyRead f) (cmd 0x63) (fun s _ => understudyReadBody f s))

/-! ## The journal (sp. 14 R420, R421) -/

/-- An entry's 4,096 bytes (sp. 14 Table 14-10): the 128-byte header, the tenants, zeros; a hash in the byte order of the cue-sheet
header (sp. 02 R39). -/
def journalBytes (e : JournalEntry) : List Byte :=
  let w := e.step.toNat * 2 ^ 960 + e.startBeat.toNat * 2 ^ 912 + e.endState.toNat * 2 ^ 910 + e.cause.toNat * 2 ^ 902 +
    b01 e.commit * 2 ^ 901 + b01 e.replay * 2 ^ 900 + b01 e.matched * 2 ^ 899 + e.froze.toNat * 2 ^ 896 + e.tenants.length * 2 ^ 885 +
    ofLE (toBE 32 e.hash.toNat) * 2 ^ 576 + ofLE (toBE 32 e.manifest.toNat) * 2 ^ 320 + e.seed.toNat * 2 ^ 256 +
    e.endBeat.toNat * 2 ^ 208
  let t := (e.tenants.map (toLE 2)).flatten
  let body := (toLE 128 w).drop 4 ++ t ++ zeros (3968 - t.length)
  toLE 4 (crc32c body) ++ body

/-- The journal that JOURNAL_READ reads: after a reset the NAND mirror. -/
def journalSource (s : State) : List JournalEntry := if s.journal.fromMirror then s.journal.mirror else s.journal.entries

/-- JOURNAL_READ (sp. 14 R421): entries from the oldest whose STEP is at or above the one named, in journal order. -/
def journalReadBody (f : Frame) (s : State) : State × Ans :=
  let first := leAt f.payload 0 8
  if f.payload.length ≠ 12 then no s stBadLength
  else
    let l := ((journalSource s).dropWhile (fun e => decide (e.step.toNat < first))).take (leAt f.payload 8 4)
    ok s (l.map journalBytes).flatten

def execJournalRead (f : Frame) (s : State) : Result := .next (runCommand s f (.journalRead f) (cmd 0x64) (fun s _ => journalReadBody f s))

/-- The mirror with an entry programmed: a second program of the newest entry updates it; 16,384 are kept. -/
def mirrorPut (m : List JournalEntry) (e : JournalEntry) : List JournalEntry :=
  let base := match m.reverse with
    | [] => m
    | x :: r => if x.step = e.step ∧ x.startBeat = e.startBeat then r.reverse else m
  let l := base ++ [e]
  l.drop (l.length - 16384)

/-- The oldest NAND program of a journal entry ends (sp. 14 R420): a failed one records JOURNAL. -/
def execJournalMirrorDone (ok : Bool) (s : State) : Result :=
  match s.journal.toMirror with
  | [] => .next s
  | e :: r =>
    let s1 := { s with journal := { s.journal with toMirror := r } }
    if ok then .next { s1 with journal := { s1.journal with mirror := mirrorPut s1.journal.mirror e } }
    else .next (raise s1 (ev 0x19 (guardPlace s1) 22 0 e.step.toNat 1 .every))

/-! ## Restore (sp. 14 R422) -/

/-- Fields of an image header (sp. 14 Table 14-6). -/
def ihSections (w : Nat) : Nat := bits w 487 479
def ihId (w : Nat) : Nat := bits w 495 488 * 2 ^ 56 + bits w 471 416
def ihLength (w : Nat) : Nat := bits w 415 376
def ihCrc (w : Nat) : Nat := bits w 31 0

/-- The header and entries that `read` gives carry the image ID and a correct CRC. -/
def headerGood (read : Nat → Nat → List Byte) (id : Nat) : Bool :=
  let w := ofLE (read 0 64)
  bits w 511 496 = 0x0014 && ihId w = id && decide (1 ≤ ihSections w ∧ ihSections w ≤ 256) &&
  crc32c (read 4 (60 + 32 * ihSections w)) = ihCrc w

/-- The halves of this device's understudy window. -/
def windowHalves (s : State) : List Nat :=
  let w := windowRange s
  [w.1, w.1 + w.2 / 2]

/-- The half of the window whose header holds the image (sp. 14 R422). -/
def understudySlot (s : State) (id : Nat) : Option Nat := (windowHalves s).find? (fun a => headerGood (fun o n => load s (a + o) n) id)

/-- The NAND slot that holds the image. -/
def nandHolding (s : State) (id : BitVec 64) : Option NandSlot :=
  if s.nand.slot0.valid = some id then some s.nand.slot0
  else if s.nand.slot1.valid = some id then some s.nand.slot1 else none

/-- The restore is refused: SECURE_REFUSED, with an IMAGE error. -/
def refuseRestore (s : State) (id : BitVec 64) (cause : Nat) : State × Ans := (imageError s id cause, .final stSecureRefused [])

/-- A restore begins. -/
def beginRestore (s : State) (tier : Nat) (id : BitVec 64) (bytes : Sparse Byte) (sends : List (BitVec 16)) (o : Owed) : State × Ans :=
  ({ s with restore := some { tier := tier, id := id, bytes := bytes, sends := sends, worst := 0, owed := o } }, .accepted)

/-- The understudy sends the image in the half at `a` to its owner, header first, from channel `k` on (sp. 14 R422, sp. 11 R347). -/
def sendRestore (s : State) (k : Nat) (id : BitVec 64) (a : Nat) (o : Owed) : State × Ans :=
  let p : PortNo := Fin.ofNat 6 (uPort s.cfg.understudy)
  let w := ofLE (load s a 64)
  let h := 256 * ceilDiv (64 + 32 * ihSections w) 256
  let parts := [(0, h), (h, ihLength w - h)].filter (fun x => decide (x.2 ≠ 0))
  let x := (port s p).nextXfer
  let s1 := parts.foldl (fun t y =>
    let c := channelFor t k (dieOf (a + y.1))
    let r := fwRead t c (a + y.1) y.2
    sendTransfer r.2 (chanDie c) (chanNum c) p (snapHead (id.toNat / 2 ^ 56 * 2 ^ 56 + y.1) y.2) r.1 true) s
  beginRestore s1 1 id [] ((List.range parts.length).map (fun i => x + BitVec.ofNat 16 i)) o

/-- A tier-1 RESTORE at the understudy: it sends the image, from the channel that `take` gives for a die; with none it waits, accepted (sp.
10 R307). -/
def restoreFrom (s : State) (take : Nat → Option Nat) (f : Frame) (id : BitVec 64) (o : Owed) : State × Ans :=
  if id.toNat / 2 ^ 56 ≠ uSource s.cfg.understudy then refuseRestore s id 6
  else
    match understudySlot s id.toNat with
    | none => refuseRestore s id 6
    | some a =>
      if (port s (Fin.ofNat 6 (uPort s.cfg.understudy))).st ≠ .up then refuseRestore s id 4
      else
        match take (dieOf a) with
        | some k => sendRestore s k id a o
        | none => ({ s with fwHeld := s.fwHeld ++ [.restore f] }, .accepted)

/-- A RESTORE that waits for a channel. -/
def isHeldRestore : Instr → Bool
  | .restore _ => true
  | _ => false

/-- RESTORE (sp. 14 R422); a second one while one is under way is refused as well (log 53). A tier-1 image is awaited at its owner. -/
def restoreBody (f : Frame) (s : State) (o : Owed) : State × Ans :=
  let p := f.payload
  let t := byteAt p 0
  let id : BitVec 64 := BitVec.ofNat 64 (leAt p 8 8)
  if p.length ≠ 16 then no s stBadLength
  else if t = 0 ∨ 3 < t ∨ !zeroAt p 1 7 then no s stBadParam
  else if stepBusy s ∨ s.restore.isSome ∨ s.fwHeld.any isHeldRestore then no s stSecureRefused
  else if t = 3 ∨ (t = 1 ∧ id.toNat / 2 ^ 56 = ownId s) then beginRestore s t id [] [] o
  else if t = 1 then restoreFrom s (fun d => if s.fwHeld.isEmpty then fwChannel s d else none) f id o
  else
    match nandHolding s id with
    | none => refuseRestore s id 6
    | some v => beginRestore s 2 id v.bytes [] o

def execRestore (f : Frame) (s : State) : Result := .next (runCommand s f (.restore f) (cmd 0x65) (restoreBody f))

/-- The bytes that a restore has of its image. -/
def restoreRead (r : Restore) (o n : Nat) : List Byte :=
  Sparse.bytes (if r.tier = 2 then fun _ => 0xFF else zeroByte) r.bytes o n

/-- The entries of a restored image. -/
def restoreEntries (r : Restore) : List Nat :=
  (List.range (ihSections (ofLE (restoreRead r 0 64)))).map (fun i => ofLE (restoreRead r (64 + 32 * i) 32))

/-- The section of an entry. -/
def entrySection (r : Restore) (e : Nat) : List Byte := restoreRead r (bits e 159 120) (bits e 199 160)

/-- The entry names bytes of a valid state region. -/
def entryInside (s : State) (e : Nat) : Bool :=
  let g := region s (bits e 255 250)
  rValid g && decide (bits e 239 200 + bits e 199 160 ≤ rLength g * 2 ^ 24)

/-- The plan's address of an entry's section. -/
def entryAddr (s : State) (e : Nat) : Nat := eBase (region s (bits e 255 250)) * 2 ^ 24 + bits e 239 200

/-- A section is written at the plan's address (sp. 14 R422), on a channel of firmware's own, of which it holds `k`. -/
def writeSection (r : Restore) (k : Nat) (s : State) (e : Nat) : State :=
  if !entryInside s e then s
  else fwWrite s (channelFor s k (dieOf (entryAddr s e))) (entryAddr s e) (entrySection r e)

/-- What a restored image makes of the step's state: clean, and last committed at the image's STEP (sp. 14 R422) with that step's commit
mode and hash (log 53). -/
def restored (s : State) (r : Restore) : State :=
  let w := ofLE (restoreRead r 0 64)
  { s with step := { s.step with dirty := false, lastCommitted := BitVec.ofNat 64 (bits w 471 416), lastMode := bit w 478,
                                 lastHash := BitVec.ofNat 256 (ofBE (restoreRead r 15 32)) } }

/-- A restore of this device's own image ends, on channels from `k` on: the sections are written, and each must match its CRC. -/
def ownRestoreDone (s : State) (k : Nat) (r : Restore) : State :=
  let s0 := { s with restore := none }
  let refused (t : State) (c : Nat) : State := finish (imageError t r.id c) r.owed stSecureRefused []
  if !headerGood (restoreRead r) r.id.toNat ∨ !(restoreEntries r).all (entryInside s0) then refused s0 6
  else
    let s1 := freeHalves ((restoreEntries r).foldl (writeSection r k) s0)
    if (restoreEntries r).all (fun e => decide (crc32c (entrySection r e) = ihCrc e)) then finish (restored s1 r) r.owed stOk []
    else refused s1 3

/-- The NAND read of a tier-2 restore fails (sp. 14 R419): whether it does, a free value decides (log 53). -/
def nandReadFails (s : State) (r : Restore) : Bool := r.tier = 2 && (drawBytes 1 s).1.any (fun b => b.getLsbD 0)

/-- The state once the slot of a tier-2 restore has been read. -/
def nandRead (s : State) (r : Restore) : State := if r.tier = 2 then (drawBytes 1 s).2 else s

/-- The transfers of the understudy's restore have their DONE: one that the owner did not take whole refuses it (log 53). -/
def sentRestoreDone (s : State) (r : Restore) : State :=
  let s0 := { s with restore := none }
  if r.worst = 0 then finish s0 r.owed stOk [] else finish (imageError s0 r.id 3) r.owed stSecureRefused []

/-- RESTORE_COMPLETE: an own image is written as soon as a channel is free (sp. 10 R307); at the understudy, every transfer of the image has
its DONE; a port that has left UP refuses it, and a NAND read that fails. -/
def execRestoreComplete (s : State) : Result :=
  match s.restore with
  | none => .next s
  | some r =>
    if r.sends.isEmpty then
      match fwChannel s (((restoreEntries r).head?.map (fun e => dieOf (entryAddr s e))).getD 0) with
      | none => .next s
      | some k =>
        if nandReadFails s r then .next (finish (imageError { nandRead s r with restore := none } r.id 5) r.owed stSecureRefused [])
        else .next (ownRestoreDone (nandRead s r) k r)
    else
      let q := port s (Fin.ofNat 6 (uPort s.cfg.understudy))
      let s0 := { s with restore := none }
      if q.st ≠ .up then .next (finish (imageError s0 r.id 4) r.owed stSecureRefused [])
      else if q.tx.any (fun x => r.sends.contains x.xfer) then .next s
      else .next (sentRestoreDone s r)

/-! ## What waits for a channel (sp. 10 R307) -/

/-- A frame of data whose turn has come and that needs no channel: a sheet chunk, a firmware chunk, a chunk of a tier-3 image. A chunk that
nothing takes any more is stray. -/
def takeChunk (s : State) (f : Frame) (opcode : Byte) (body : State → Option State) : State :=
  let s1 := freeCredit s f
  match body s1 with
  | some t => t
  | none => stray s1 f.port opcode

/-- What a waiting frame does that needs no channel, once no frame of its port in `before` waits (sp. 13 R373). -/
def dataDone (before : List Instr) (s : State) : Instr → Option State
  | .sheetData f => if dataWaits f.port before then none else some (takeChunk s f 0x21 (sheetDataBody f))
  | .fwSlotData f => if dataWaits f.port before then none else some (takeChunk s f 0x94 (fwSlotDataBody f))
  | .writeData f =>
    if dataWaits f.port before ∨ xferId f.payload ≠ tier3Id then none
    else some (takeChunk s f 0x31 (fun t => restoreChunk t f.payload))
  | _ => none

/-- The waiting frames, of which `before` goes on waiting, in their turn: each that needs no channel goes when none of its port is before
it. -/
def dataTurns (before : List Instr) (s : State) : List Instr → State
  | [] => { s with fwHeld := before }
  | c :: r =>
    match dataDone before s c with
    | some t => dataTurns before t r
    | none => dataTurns (before ++ [c]) s r

/-- The die whose memory the waiting transfer touches. -/
def heldHome (s : State) : Instr → Nat
  | .writeData f => match xferOf s (xferId f.payload) with
    | some x => dieOf x.base
    | none => 0
  | .read f => dieOf (leAt f.payload 8 7)
  | .secureNow _ => regionsHome s
  | .restore f => dieOf ((understudySlot s (leAt f.payload 8 8)).getD 0)
  | _ => 0

/-- What waited is taken, on channel `k`: data written, a close answered, a read done, an image secured or sent. Data whose transfer has gone
is stray. -/
def takeHeld (s : State) (k : Nat) : Instr → State
  | .writeData f =>
    let s1 := freeCredit s f
    match xferOf s1 (xferId f.payload) with
    | none => stray s1 f.port 0x31
    | some x => if chunkFits x f.payload then chunkWrite s1 k x f.payload else stray s1 f.port 0x31
  | .writeClose f =>
    let r := closeReply s (xferId f.payload)
    finish r.1 (owedOf f 0x32) r.2.1 r.2.2
  | .read f =>
    let r := doRead s k f.payload
    finish r.1 (owedOf f 0x33) stOk r.2
  | .secureNow f => secureOn s k (byteAt f.payload 0) (owedOf f 0x60)
  | .restore f =>
    let o := owedOf f 0x65
    let r := restoreFrom s (fun _ => some k) f (BitVec.ofNat 64 (leAt f.payload 8 8)) o
    match r.2 with
    | .final st p => finish r.1 o st p
    | _ => r.1
  | _ => s

/-- A SECURE_NOW of tier 3 waits while no control port can carry its reports (sp. 14 R416). -/
def portless (s : State) : Instr → Bool
  | .secureNow f => byteAt f.payload 0 = 3 && s.ctl.carrier.isNone && !secureLater s
  | _ => false

/-- The oldest transfer that waits takes a channel, where one is free. -/
def takeOldest (s : State) : State :=
  match s.fwHeld with
  | [] => s
  | i :: r =>
    match (if portless s i then none else fwChannel s (heldHome s i)) with
    | none => s
    | some k => takeHeld { s with fwHeld := r } k i

/-- FIRMWARE_TRANSFER_START: the frames that no longer wait for another go as well. -/
def execFirmwareTransferStart (s : State) : Result :=
  let s1 := takeOldest (dataTurns [] s s.fwHeld)
  .next (dataTurns [] s1 s1.fwHeld)

end Sys2Proof.Machine
end

