-- ==== Sys2Proof/Machine/Telemetry.lean ====
section
/-! DEFINITION. The health and telemetry family 0x7, the alarm messages and the trace reports (sp. 14 R393-R409). -/

namespace Sys2Proof.Machine

/-- The code of a securing state, in the order of sp. 14 Table 14-8 (log 25). -/
def Securing.code : Securing → Nat
  | .idle => 0
  | .freezing => 1
  | .held => 2
  | .draining => 3

/-- HEALTH_READ (sp. 14 R408). -/
def healthReply (s : State) : List Byte :=
  let h := s.health
  [BitVec.ofNat 8 h.score, h.t1, h.t2, h.t3, h.host] ++ zeros 3 ++ h.terms.map (BitVec.ofNat 8) ++ zeros 3 ++
  toLE 4 s.secure.floor.toNat ++ toLE 8 s.secure.last1.toNat ++ toLE 8 s.secure.last2.toNat ++ toLE 8 s.secure.last3.toNat ++
  toLE 8 s.step.lastCommitted.toNat ++ [BitVec.ofNat 8 s.secure.st.code]

def execHealthRead (f : Frame) (s : State) : Result :=
  .next (runCommand s f (.healthRead f) (cmdEarly 0x71) (fun s _ => noPayload f s (fun s => ok s (healthReply s))))

/-- A count of a map. -/
def cnt (m : Sparse Nat) (k : Nat) : Nat := Sparse.get (fun _ => 0) m k

/-- The bytes of a record, or 32 zero bytes before the first event. -/
def recBytes : Option ErrRec → List Byte
  | none => zeros 32
  | some r => r.bytes

/-- One 72-byte entry of a source (sp. 14 R397). -/
def sourceBytes (o : Source) : List Byte := recBytes o.first ++ recBytes o.last ++ toLE 4 o.count ++ zeros 4

/-- The counters of one peer port, 112 bytes (sp. 14 R398 group 5). -/
def portCounters (q : Port) : List Byte :=
  ((List.range 8).map (fun l => toLE 8 (cnt q.corrected l) ++ toLE 4 (cnt q.uncorrectable l))).flatten ++
  toLE 4 q.retries ++ toLE 4 q.exhausted ++ toLE 4 q.retrains ++ toLE 4 q.clamps

/-- The counters of one control port, 16 bytes (sp. 14 R398 group 6). -/
def kcpCounters (k : KcpSt) : List Byte := toLE 4 k.bad ++ toLE 4 k.stray ++ toLE 4 k.overrun ++ toLE 4 k.fec

/-- The counter groups of sp. 14 R398; none for a group that is not listed. -/
def counterGroup (s : State) (g : Nat) : Option (List Byte) :=
  let m := s.mem.counters
  match g with
  | 0 => some ((List.range 256).map (fun k => toLE 4 (if k % 64 < 32 then cnt m.corr k else 0) ++ toLE 4 (cnt m.det k))).flatten
  | 1 => some ((List.range 12).map (fun k => toLE 4 (cnt m.hbmCorr k) ++ toLE 4 (cnt m.hbmBad k))).flatten
  | 2 => some ((List.range 6).map (fun k => toLE 4 (cnt m.bus k) ++ toLE 4 (if k < 4 then cnt m.gate k else 0))).flatten
  | 3 => some ((List.range 4).map (fun k => toLE 8 (cnt m.fenceHits k))).flatten
  | 4 => some ([1, 2, 3, 4, 5, 255].map (fun k => toLE 8 (cnt s.trace.dropped k))).flatten
  | 5 => some ((allPorts.map (fun p => portCounters (port s p))).flatten)
  | 6 => some (kcpCounters s.ctl.a ++ kcpCounters s.ctl.b)
  | 7 => some ((List.range 4).map (fun k => toLE 8 (cnt m.streamWaits k) ++ toLE 8 (cnt m.opWaits k))).flatten
  | _ =>
    if 16 ≤ g ∧ g ≤ 21 then
      some ((List.range 128).map (fun c => sourceBytes (Sparse.get noSource s.err.sources (128 * (g - 16) + c)))).flatten
    else none

def execCountersRead (f : Frame) (s : State) : Result :=
  .next (runCommand s f (.countersRead f) (cmdEarly 0x72) (fun s _ =>
    if f.payload.length ≠ 1 then no s stBadLength else
    match counterGroup s (byteAt f.payload 0) with
    | some p => ok s p
    | none => no s stBadParam))

/-- ERROR_READ (sp. 14 R397): the oldest records leave the FIFO; OVERFLOW and the coalesced count are cleared. -/
def errorReadBody (f : Frame) (s : State) : State × Ans :=
  if f.payload.length ≠ 2 then no s stBadLength else
  let n := leAt f.payload 0 2
  let out := s.err.fifo.take n
  let rest := s.err.fifo.drop n
  ok { s with err := { s.err with fifo := rest, overflow := false, coalesced := 0 } }
    (toLE 2 out.length ++ toLE 2 rest.length ++ [BitVec.ofNat 8 (b01 s.err.overflow)] ++ zeros 3 ++ toLE 4 s.err.coalesced ++
     zeros 20 ++ (out.map ErrRec.bytes).flatten)

def execErrorRead (f : Frame) (s : State) : Result :=
  .next (runCommand s f (.errorRead f) (cmdEarly 0x73) (fun s _ => errorReadBody f s))

/-- ALARM_READ (sp. 14 R403): returned entries whose frame has left are freed, the fold counts cleared. -/
def alarmReadBody (f : Frame) (s : State) : State × Ans :=
  if f.payload.length ≠ 1 then no s stBadLength
  else if 6 ≤ byteAt f.payload 0 then no s stBadParam
  else
    let p := byteAt f.payload 0
    let a := Sparse.get noAlarms s.alarms.places p
    let keep := (a.latch.filter (fun e => !e.left)).map (fun e => { e with returned := true })
    let folds' := (a.folds.map (fun e => (e.1, { e.2 with count := 0, since := 0 }))).filter (fun e => decide (e.2 ≠ noFold e.1))
    ok (setPlaceAlarms s p { a with latch := keep, folds := folds', foldsRead := 0 })
      (toLE 2 a.latch.length ++ zeros 2 ++ toLE 4 a.foldsRead ++
       ((List.range 128).map (fun k => toLE 4 (Sparse.get noFold a.folds k).count)).flatten ++
       (a.latch.map (fun e => e.alarm.bytes)).flatten)

def execAlarmRead (f : Frame) (s : State) : Result :=
  .next (runCommand s f (.alarmRead f) (cmdEarly 0x74) (fun s _ => alarmReadBody f s))

/-- HOST_FIGURES (sp. 14 R408): staged until the next boundary. -/
def hostFiguresBody (f : Frame) (s : State) : State × Ans :=
  let p := f.payload
  let t (k : Nat) : Byte := p.getD k 0
  if p.length ≠ 7 then no s stBadLength
  else if !zeroAt p 1 3 ∨ byteAt p 4 = 0 ∨ byteAt p 5 < byteAt p 4 ∨ byteAt p 6 < byteAt p 5 then no s stBadParam
  else ok { s with health := { s.health with staged := some (t 0, t 4, t 5, t 6) } } []

def execHostFigures (f : Frame) (s : State) : Result :=
  .next (runCommand s f (.hostFigures f) (cmdEarly 0x75) (fun s _ => hostFiguresBody f s))

def execTraceConfig (f : Frame) (s : State) : Result :=
  .next (runCommand s f (.traceConfig f) (cmdEarly 0x76) (fun s _ =>
    if f.payload.length ≠ 2 then no s stBadLength
    else if 2 ≤ byteAt f.payload 0 ∨ 2 ≤ byteAt f.payload 1 then no s stBadParam
    else
      let on := decide (byteAt f.payload 0 = 1)
      ok { s with trace := { s.trace with on := on, both := decide (byteAt f.payload 1 = 1),
                                          total := if on && !s.trace.on then 0 else s.trace.total } } []))

/-! ## Alarm messages (sp. 14 R402) -/

/-- The message a place is sending has been taken by every gatherer whose port is up. -/
def sendingDone (s : State) (a : PlaceAlarms) : Bool :=
  match a.sending with
  | none => true
  | some m => !((m.needA && s.ctl.a.up) || (m.needB && s.ctl.b.up))

/-- A place sends its oldest alarm or fold record to the gatherers whose ports are up. -/
def execAlarmMessageSend (place : Place) (s : State) : Result :=
  let a := Sparse.get noAlarms s.alarms.places place.val
  if sendingDone s a && (s.ctl.a.up || s.ctl.b.up) then
    match a.waiting with
    | [] => .next (setPlaceAlarms s place.val { a with sending := none })
    | m :: r =>
      let out := { m with needA := m.needA && s.ctl.a.up, needB := m.needB && s.ctl.b.up }
      .next (setPlaceAlarms s place.val { a with waiting := r, sending := some out })
  else .next s

/-- The message is still to be taken by the gatherer of a port. -/
def needs (m : AlarmMsg) : Kcp → Bool
  | .a => m.needA
  | .b => m.needB

/-- It has been taken. -/
def taken (m : AlarmMsg) : Kcp → AlarmMsg
  | .a => { m with needA := false, taken := true }
  | .b => { m with needB := false, taken := true }

/-- The next place in round-robin order whose message the gatherer has not taken. -/
def nextPlace (s : State) (k : Kcp) : Option (Nat × AlarmMsg) :=
  ((List.range 6).map (fun i => ((kcp s k).next + i) % 6)).findSome? (fun p =>
    match (Sparse.get noAlarms s.alarms.places p).sending with
    | some m => if needs m k then some (p, m) else none
    | none => none)

/-- A gatherer takes a message and queues its ALARM frame (sp. 14 R402). -/
def execAlarmMessageTake (port : Kcp) (s : State) : Result :=
  if !(kcp s port).up || 3 ≤ (kcp s port).queue0.length then .next s else
  match nextPlace s port with
  | none => .next s
  | some (p, m) =>
    let a := Sparse.get noAlarms s.alarms.places p
    let s1 := setPlaceAlarms s p { a with sending := some (taken m port) }
    .next (setKcp s1 port { kcp s1 port with
      queue0 := (kcp s1 port).queue0 ++ [{ alarm := m.alarm, msg := m.id, place := Fin.ofNat 6 p, seq := m.seq, sent := m.sent }],
      next := (p + 1) % 6 })

/-- A frame of a message has left with SEQ `q`: its other copy carries the same (sp. 13 R375). -/
def markSent (s : State) (p id : Nat) (q : Option (BitVec 32)) : State :=
  let copy (k : KcpSt) : KcpSt :=
    { k with queue0 := k.queue0.map (fun x => if x.msg = id then { x with seq := q, sent := true } else x) }
  let msg (m : AlarmMsg) : AlarmMsg := if m.id = id then { m with seq := q, sent := true } else m
  let a := Sparse.get noAlarms s.alarms.places p
  setPlaceAlarms { s with ctl := { s.ctl with a := copy s.ctl.a, b := copy s.ctl.b } } p
    { a with waiting := a.waiting.map msg, sending := a.sending.map msg }

/-- The frame of a latched alarm has left on the control port: with an ALARM_READ that has returned it, its entry is freed
(sp. 14 R400). -/
def alarmLeft (s : State) (p : Nat) (id : Nat) : State :=
  let a := Sparse.get noAlarms s.alarms.places p
  let l := (a.latch.map (fun e => if e.id = id then { e with left := true } else e)).filter (fun e => !(e.left && e.returned))
  setPlaceAlarms s p { a with latch := l }

/-- A port sends the head of its class 0 queue as an ALARM frame (sp. 14 R402, sp. 13 Table 13-12). The first copy of a frame to leave
takes the next SEQ of class 0; the other carries the same (sp. 13 R375). Without a session it is 0 and counts nothing (sp. 16 R466). -/
def sendQueued0 (s : State) (k : Kcp) : State :=
  let p := kcp s k
  match p.queue0 with
  | [] => s
  | q :: r =>
    if !p.up then s else
    let s0 := setKcp s k { p with queue0 := r }
    let f : FrameOut := { opcode := 0x70, cls := 0, more := false, report := true, status := 0, refSeq := 0, payload := q.alarm.bytes }
    let s1 := match q.seq with
      | some x => emit s0 k f x
      | none => sendOn s0 k f
    let x := q.seq.or (if s.ses.current.isSome then some s.ses.out0 else none)
    let s2 := markSent s1 q.place.val q.msg x
    if s.ctl.carrier = some k then alarmLeft s2 q.place.val q.msg else s2

/-! ## Trace reports (sp. 14 R405) -/

/-- The oldest records, as many as a frame holds (254), leave on a port, after the frames of classes 0 to 2: none of class 0 may wait there, and
those of classes 1 and 2 leave at once. -/
def traceSend (s : State) (k : Kcp) : State :=
  match s.trace.ring with
  | [] => s
  | _ =>
    if !(kcp s k).up || !(kcp s k).queue0.isEmpty then s else
    let out := s.trace.ring.take 254
    let s1 := { s with trace := { s.trace with ring := s.trace.ring.drop 254 } }
    sendOn s1 k { opcode := 0x77, cls := 3, more := false, report := true, status := 0, refSeq := 0,
                  payload := (out.map TraceRec.bytes).flatten }

def execTrace (s : State) : Result :=
  match s.ctl.carrier with
  | none => .next s
  | some k =>
    let s1 := traceSend s k
    .next (if s.trace.both then traceSend s1 (otherKcp k) else s1)

end Sys2Proof.Machine
end

