-- ==== Sys2Proof/Machine/Dispatch.lean ====
section
/-! DEFINITION. One arm per command: the meaning of each, in its family's file. -/

namespace Sys2Proof.Machine

def exec (i : Instr) (s : State) : Host.Outcome State Fault Refusal :=
  match i with
  | .inputPowerOn => Sys2Proof.Machine.execInputPowerOn s
  | .pwrEnAssert => Sys2Proof.Machine.execPwrEnAssert s
  | .pwrEnDeassert => Sys2Proof.Machine.execPwrEnDeassert s
  | .bulkChargeDone => Sys2Proof.Machine.execBulkChargeDone s
  | .railRampStep => Sys2Proof.Machine.execRailRampStep s
  | .pwrGood => Sys2Proof.Machine.execPwrGood s
  | .rampFail missed => Sys2Proof.Machine.execRampFail missed s
  | .supplyResetWaitEnd => Sys2Proof.Machine.execSupplyResetWaitEnd s
  | .inputLoss => Sys2Proof.Machine.execInputLoss s
  | .inputOvervoltage reading => Sys2Proof.Machine.execInputOvervoltage reading s
  | .hbmRailFault rail reading => Sys2Proof.Machine.execHbmRailFault rail reading s
  | .dieRelease => Sys2Proof.Machine.execDieRelease s
  | .slotCheck => Sys2Proof.Machine.execSlotCheck s
  | .firmwareRunning => Sys2Proof.Machine.execFirmwareRunning s
  | .hbmTrained failed => Sys2Proof.Machine.execHbmTrained failed s
  | .hbmInitDone => Sys2Proof.Machine.execHbmInitDone s
  | .startReady => Sys2Proof.Machine.execStartReady s
  | .zeroiseComplete => Sys2Proof.Machine.execZeroiseComplete s
  | .commandReset => Sys2Proof.Machine.execCommandReset s
  | .supplyWarn place rail reading => Sys2Proof.Machine.execSupplyWarn place rail reading s
  | .freezeSignal die => Sys2Proof.Machine.execFreezeSignal die s
  | .supplyRecovery => Sys2Proof.Machine.execSupplyRecovery s
  | .supplyHoldTimeout => Sys2Proof.Machine.execSupplyHoldTimeout s
  | .supplyReset rail reading => Sys2Proof.Machine.execSupplyReset rail reading s
  | .powerSample avg => Sys2Proof.Machine.execPowerSample avg s
  | .powerHoldExit => Sys2Proof.Machine.execPowerHoldExit s
  | .sensorRead temps => Sys2Proof.Machine.execSensorRead temps s
  | .thermalHoldExit => Sys2Proof.Machine.execThermalHoldExit s
  | .guardDisagree index other => Sys2Proof.Machine.execGuardDisagree index other s
  | .beatMark port bits off => Sys2Proof.Machine.execBeatMark port bits off s
  | .beatBoundary => Sys2Proof.Machine.execBeatBoundary s
  | .holdoverTimeout => Sys2Proof.Machine.execHoldoverTimeout s
  | .relay h beat txCycle => Sys2Proof.Machine.execRelay h beat txCycle s
  | .stepStart => Sys2Proof.Machine.execStepStart s
  | .holdTakesEffect => Sys2Proof.Machine.execHoldTakesEffect s
  | .resumeBeat => Sys2Proof.Machine.execResumeBeat s
  | .cueFire die => Sys2Proof.Machine.execCueFire die s
  | .cueLate unit => Sys2Proof.Machine.execCueLate unit s
  | .tallyLaneMessage pos => Sys2Proof.Machine.execTallyLaneMessage pos s
  | .tallySet die => Sys2Proof.Machine.execTallySet die s
  | .mark die => Sys2Proof.Machine.execMark die s
  | .lend die => Sys2Proof.Machine.execLend die s
  | .lendEnd die cue => Sys2Proof.Machine.execLendEnd die cue s
  | .tenantBind die => Sys2Proof.Machine.execTenantBind die s
  | .routeAlloc die => Sys2Proof.Machine.execRouteAlloc die s
  | .expertList die => Sys2Proof.Machine.execExpertList die s
  | .prompterIssue die unit => Sys2Proof.Machine.execPrompterIssue die unit s
  | .windowClose die cue written => Sys2Proof.Machine.execWindowClose die cue written s
  | .curtain die => Sys2Proof.Machine.execCurtain die s
  | .stepCommit => Sys2Proof.Machine.execStepCommit s
  | .curtainDrain => Sys2Proof.Machine.execCurtainDrain s
  | .stepEnd => Sys2Proof.Machine.execStepEnd s
  | .bankDown die bank => Sys2Proof.Machine.execBankDown die bank s
  | .bankDrainEnd die bank => Sys2Proof.Machine.execBankDrainEnd die bank s
  | .bankDownComplete die bank => Sys2Proof.Machine.execBankDownComplete die bank s
  | .bankUp die bank => Sys2Proof.Machine.execBankUp die bank s
  | .bankUpComplete die bank => Sys2Proof.Machine.execBankUpComplete die bank s
  | .mmFwd arr => Sys2Proof.Machine.execMmFwd arr s
  | .mmBwdData die n => Sys2Proof.Machine.execMmBwdData die n s
  | .mmBwdWeight die n => Sys2Proof.Machine.execMmBwdWeight die n s
  | .mmPredict die n => Sys2Proof.Machine.execMmPredict die n s
  | .dmeComplete arr fin => Sys2Proof.Machine.execDmeComplete arr fin s
  | .gather die n => Sys2Proof.Machine.execGather die n s
  | .scatter die n => Sys2Proof.Machine.execScatter die n s
  | .scatterAcc die n => Sys2Proof.Machine.execScatterAcc die n s
  | .segmentReduce die n => Sys2Proof.Machine.execSegmentReduce die n s
  | .merge die n => Sys2Proof.Machine.execMerge die n s
  | .prefixSum die n => Sys2Proof.Machine.execPrefixSum die n s
  | .histogram die n => Sys2Proof.Machine.execHistogram die n s
  | .topK die n => Sys2Proof.Machine.execTopK die n s
  | .gmeComplete die n fin => Sys2Proof.Machine.execGmeComplete die n fin s
  | .act die n => Sys2Proof.Machine.execAct die n s
  | .actGrad die n => Sys2Proof.Machine.execActGrad die n s
  | .actGradOut die n => Sys2Proof.Machine.execActGradOut die n s
  | .glu die n => Sys2Proof.Machine.execGlu die n s
  | .gluGrad die n => Sys2Proof.Machine.execGluGrad die n s
  | .dropout die n => Sys2Proof.Machine.execDropout die n s
  | .addN die n => Sys2Proof.Machine.execAddN die n s
  | .convert die n => Sys2Proof.Machine.execConvert die n s
  | .sumsqRow die n => Sys2Proof.Machine.execSumsqRow die n s
  | .scaleRows die n => Sys2Proof.Machine.execScaleRows die n s
  | .softmaxRow die n => Sys2Proof.Machine.execSoftmaxRow die n s
  | .clipScale die n => Sys2Proof.Machine.execClipScale die n s
  | .vectorComplete die n fin => Sys2Proof.Machine.execVectorComplete die n fin s
  | .adamw die => Sys2Proof.Machine.execAdamw die s
  | .momentum die => Sys2Proof.Machine.execMomentum die s
  | .sgd die => Sys2Proof.Machine.execSgd die s
  | .optimizerComplete die fin => Sys2Proof.Machine.execOptimizerComplete die fin s
  | .permute die => Sys2Proof.Machine.execPermute die s
  | .pack die => Sys2Proof.Machine.execPack die s
  | .unpack die => Sys2Proof.Machine.execUnpack die s
  | .encode die => Sys2Proof.Machine.execEncode die s
  | .decode die => Sys2Proof.Machine.execDecode die s
  | .layoutComplete die fin => Sys2Proof.Machine.execLayoutComplete die fin s
  | .copy die n => Sys2Proof.Machine.execCopy die n s
  | .peerSend die n => Sys2Proof.Machine.execPeerSend die n s
  | .tallyOnly die n => Sys2Proof.Machine.execTallyOnly die n s
  | .freeze die n => Sys2Proof.Machine.execFreeze die n s
  | .stream die n => Sys2Proof.Machine.execStream die n s
  | .dmaComplete die n parity => Sys2Proof.Machine.execDmaComplete die n parity s
  | .dmaBusError die n k => Sys2Proof.Machine.execDmaBusError die n k s
  | .firmwareTransferStart => Sys2Proof.Machine.execFirmwareTransferStart s
  | .disable die at_ => Sys2Proof.Machine.execDisable die at_ s
  | .dmaEnable die n => Sys2Proof.Machine.execDmaEnable die n s
  | .go die n => Sys2Proof.Machine.execGo die n s
  | .irqPendingClear die n event => Sys2Proof.Machine.execIrqPendingClear die n event s
  | .registerWrite die n reg => Sys2Proof.Machine.execRegisterWrite die n reg s
  | .arbiterSlot arb seen => Sys2Proof.Machine.execArbiterSlot arb seen s
  | .hbmRefresh stack => Sys2Proof.Machine.execHbmRefresh stack s
  | .scrubRegionStart die => Sys2Proof.Machine.execScrubRegionStart die s
  | .scrubRegionDone die => Sys2Proof.Machine.execScrubRegionDone die s
  | .regionScrubDone => Sys2Proof.Machine.execRegionScrubDone s
  | .portTrainingDone port => Sys2Proof.Machine.execPortTrainingDone port s
  | .trainingTimeout port => Sys2Proof.Machine.execTrainingTimeout port s
  | .identSend port => Sys2Proof.Machine.execIdentSend port s
  | .ident port body => Sys2Proof.Machine.execIdent port body s
  | .identTimeout port => Sys2Proof.Machine.execIdentTimeout port s
  | .portRetrain port => Sys2Proof.Machine.execPortRetrain port s
  | .laneLockLost port => Sys2Proof.Machine.execLaneLockLost port s
  | .badFlit port first last found => Sys2Proof.Machine.execBadFlit port first last found s
  | .retryTimeout port => Sys2Proof.Machine.execRetryTimeout port s
  | .link h nak => Sys2Proof.Machine.execLink h nak s
  | .head h body => Sys2Proof.Machine.execHead h body s
  | .resumeFlit h => Sys2Proof.Machine.execResumeFlit h s
  | .dataFlit port seq data => Sys2Proof.Machine.execDataFlit port seq data s
  | .endFlit h bytes crc => Sys2Proof.Machine.execEndFlit h bytes crc s
  | .transferVisible port landed => Sys2Proof.Machine.execTransferVisible port landed s
  | .done h body => Sys2Proof.Machine.execDone h body s
  | .tally h entries => Sys2Proof.Machine.execTally h entries s
  | .notice h code stepNo cause => Sys2Proof.Machine.execNotice h code stepNo cause s
  | .kcpLinkUp port => Sys2Proof.Machine.execKcpLinkUp port s
  | .controlPortLost => Sys2Proof.Machine.execControlPortLost s
  | .badFrame port raw found => Sys2Proof.Machine.execBadFrame port raw found s
  | .linkCredit port => Sys2Proof.Machine.execLinkCredit port s
  | .alarmMessageSend place => Sys2Proof.Machine.execAlarmMessageSend place s
  | .alarmMessageTake port => Sys2Proof.Machine.execAlarmMessageTake port s
  | .trace => Sys2Proof.Machine.execTrace s
  | .journalMirrorDone ok => Sys2Proof.Machine.execJournalMirrorDone ok s
  | .imageComplete tier ok => Sys2Proof.Machine.execImageComplete tier ok s
  | .restoreComplete => Sys2Proof.Machine.execRestoreComplete s
  | .sheetVerifyDone store => Sys2Proof.Machine.execSheetVerifyDone store s
  | .fwSlotCommitDone slot => Sys2Proof.Machine.execFwSlotCommitDone slot s
  | .identity f => Sys2Proof.Machine.execIdentity f s
  | .sessionOpen f => Sys2Proof.Machine.execSessionOpen f s
  | .sessionClose f => Sys2Proof.Machine.execSessionClose f s
  | .controlTake f => Sys2Proof.Machine.execControlTake f s
  | .beatReacquire f => Sys2Proof.Machine.execBeatReacquire f s
  | .attest f => Sys2Proof.Machine.execAttest f s
  | .deviceIdSet f => Sys2Proof.Machine.execDeviceIdSet f s
  | .neighbourWrite f => Sys2Proof.Machine.execNeighbourWrite f s
  | .neighbourRead f => Sys2Proof.Machine.execNeighbourRead f s
  | .stateRegionWrite f => Sys2Proof.Machine.execStateRegionWrite f s
  | .stateRegionRead f => Sys2Proof.Machine.execStateRegionRead f s
  | .wingWrite f => Sys2Proof.Machine.execWingWrite f s
  | .wingRead f => Sys2Proof.Machine.execWingRead f s
  | .panelThreshWrite f => Sys2Proof.Machine.execPanelThreshWrite f s
  | .panelThreshRead f => Sys2Proof.Machine.execPanelThreshRead f s
  | .beatDelayWrite f => Sys2Proof.Machine.execBeatDelayWrite f s
  | .beatDelayRead f => Sys2Proof.Machine.execBeatDelayRead f s
  | .environment f => Sys2Proof.Machine.execEnvironment f s
  | .sheetBegin f => Sys2Proof.Machine.execSheetBegin f s
  | .sheetData f => Sys2Proof.Machine.execSheetData f s
  | .sheetVerify f => Sys2Proof.Machine.execSheetVerify f s
  | .sheetStatus f => Sys2Proof.Machine.execSheetStatus f s
  | .sheetClear f => Sys2Proof.Machine.execSheetClear f s
  | .writeOpen f => Sys2Proof.Machine.execWriteOpen f s
  | .writeData f => Sys2Proof.Machine.execWriteData f s
  | .writeClose f => Sys2Proof.Machine.execWriteClose f s
  | .read f => Sys2Proof.Machine.execRead f s
  | .cancel f => Sys2Proof.Machine.execCancel f s
  | .arm f => Sys2Proof.Machine.execArm f s
  | .startAtBeat f => Sys2Proof.Machine.execStartAtBeat f s
  | .hold f => Sys2Proof.Machine.execHold f s
  | .resume f => Sys2Proof.Machine.execResume f s
  | .stepAbort f => Sys2Proof.Machine.execStepAbort f s
  | .stepStatus f => Sys2Proof.Machine.execStepStatus f s
  | .tenantOpen f => Sys2Proof.Machine.execTenantOpen f s
  | .tenantClose f => Sys2Proof.Machine.execTenantClose f s
  | .tenantKill f => Sys2Proof.Machine.execTenantKill f s
  | .tenantStatus f => Sys2Proof.Machine.execTenantStatus f s
  | .scrubStatus f => Sys2Proof.Machine.execScrubStatus f s
  | .secureNow f => Sys2Proof.Machine.execSecureNow f s
  | .secureFloor f => Sys2Proof.Machine.execSecureFloor f s
  | .understudyWrite f => Sys2Proof.Machine.execUnderstudyWrite f s
  | .understudyRead f => Sys2Proof.Machine.execUnderstudyRead f s
  | .journalRead f => Sys2Proof.Machine.execJournalRead f s
  | .restore f => Sys2Proof.Machine.execRestore f s
  | .healthRead f => Sys2Proof.Machine.execHealthRead f s
  | .countersRead f => Sys2Proof.Machine.execCountersRead f s
  | .errorRead f => Sys2Proof.Machine.execErrorRead f s
  | .alarmRead f => Sys2Proof.Machine.execAlarmRead f s
  | .hostFigures f => Sys2Proof.Machine.execHostFigures f s
  | .traceConfig f => Sys2Proof.Machine.execTraceConfig f s
  | .guardRead f => Sys2Proof.Machine.execGuardRead f s
  | .setLimits f => Sys2Proof.Machine.execSetLimits f s
  | .setPorts f => Sys2Proof.Machine.execSetPorts f s
  | .setFwMinSv f => Sys2Proof.Machine.execSetFwMinSv f s
  | .rotateOperatorKey f => Sys2Proof.Machine.execRotateOperatorKey f s
  | .enterField f => Sys2Proof.Machine.execEnterField f s
  | .scrap f => Sys2Proof.Machine.execScrap f s
  | .enterMakerAnalysis f => Sys2Proof.Machine.execEnterMakerAnalysis f s
  | .generateDeviceKey f => Sys2Proof.Machine.execGenerateDeviceKey f s
  | .completeProvision f => Sys2Proof.Machine.execCompleteProvision f s
  | .setRegister f => Sys2Proof.Machine.execSetRegister f s
  | .fuseMapRead f => Sys2Proof.Machine.execFuseMapRead f s
  | .tableImageRead f => Sys2Proof.Machine.execTableImageRead f s
  | .dmaStateRead f => Sys2Proof.Machine.execDmaStateRead f s
  | .regionScrub f => Sys2Proof.Machine.execRegionScrub f s
  | .fwSlotData f => Sys2Proof.Machine.execFwSlotData f s
  | .fwSlotCommit f => Sys2Proof.Machine.execFwSlotCommit f s
  | .deviceReset f => Sys2Proof.Machine.execDeviceReset f s
  | .extest => Sys2Proof.Machine.execExtest s
  | .idcode => Sys2Proof.Machine.execIdcode s
  | .samplePreload cells => Sys2Proof.Machine.execSamplePreload cells s
  | .highz => Sys2Proof.Machine.execHighz s
  | .clamp => Sys2Proof.Machine.execClamp s
  | .bypass => Sys2Proof.Machine.execBypass s
  | .testLogicReset => Sys2Proof.Machine.execTestLogicReset s
  | .kcpLinkDown port => Sys2Proof.Machine.execKcpLinkDown port s
  | .unknownOpcode opcode f => Sys2Proof.Machine.execUnknownOpcode opcode f s

end Sys2Proof.Machine
end

