-- ==== Sys2Proof/Machine/Tick.lean ====
section
/-! DEFINITION. What the block does when no command waits (log 2): one reference cycle passes, and the alarm frames due leave. -/

namespace Sys2Proof.Machine

/-- One reference cycle passes. The cycle in the beat stays at 4,095 until a beat boundary, which is a command; without input power no
clock runs. -/
def cyclePass (s : State) : State :=
  if !s.pwr.v54 then s else { refPass s 1 with cycle := if s.cycle = 4095 then 4095 else s.cycle + 1 }

/-- More than 2 cycles after a boundary, a beat mark that has not come is missing (sp. 02 R33, R34). -/
def markTimeout (s : State) : State := if s.cycle.toNat < 3 then s else judgeRest s

/-- One reference cycle: marks of the last boundary are missing when it is over for them; each port that is up sends the head of its class 0 queue
(sp. 14 R402). -/
def tick (s : State) : State := sendQueued0 (sendQueued0 (markTimeout (cyclePass s)) .a) .b

end Sys2Proof.Machine
end

