-- ==== Sys2Proof/WellFormed.lean ====
section
/-! DEFINITION. Which commands can exist: the bounds that a frame, a flit or a reading has before it reaches the block. A
command outside them stands for nothing that the manual lets happen. -/

namespace Sys2Proof

/-- LENGTH is at most 8,156, and at most 220 in class 0 (sp. 13 R368). -/
def Frame.wf (f : Frame) : Bool := f.payload.length ≤ 8156 && (f.cls ≠ 0 || f.payload.length ≤ 220)

/-- The command opcodes of sp. 13 Tables 13-6, 13-7, 13-8, 13-11 and 13-12; reports are none of them. -/
def commandOpcodes : List Byte :=
  [0x00, 0x01, 0x02, 0x03, 0x04, 0x05, 0x10, 0x11, 0x12, 0x13, 0x14, 0x15, 0x16, 0x17, 0x18, 0x19, 0x1A, 0x1B,
   0x20, 0x21, 0x22, 0x23, 0x24, 0x30, 0x31, 0x32, 0x33, 0x35, 0x40, 0x41, 0x42, 0x43, 0x44, 0x45,
   0x50, 0x51, 0x52, 0x53, 0x54, 0x60, 0x61, 0x62, 0x63, 0x64, 0x65, 0x71, 0x72, 0x73, 0x74, 0x75, 0x76,
   0x80, 0x81, 0x90, 0x91, 0x92, 0x93, 0x94, 0x95, 0x96]

/-- No two entries of the list are equal. -/
def allDistinct : List Nat → Bool
  | [] => true
  | x :: r => !r.contains x && allDistinct r

/-- The frame a control-port command carries, if it is one. -/
def Instr.frame? : Instr → Option Frame
  | .identity f | .sessionOpen f | .sessionClose f | .controlTake f | .beatReacquire f | .attest f | .deviceIdSet f
  | .neighbourWrite f | .neighbourRead f | .stateRegionWrite f | .stateRegionRead f | .wingWrite f | .wingRead f
  | .panelThreshWrite f | .panelThreshRead f | .beatDelayWrite f | .beatDelayRead f | .environment f | .sheetBegin f
  | .sheetData f | .sheetVerify f | .sheetStatus f | .sheetClear f | .writeOpen f | .writeData f | .writeClose f | .read f
  | .cancel f | .arm f | .startAtBeat f | .hold f | .resume f | .stepAbort f | .stepStatus f | .tenantOpen f | .tenantClose f
  | .tenantKill f | .tenantStatus f | .scrubStatus f | .secureNow f | .secureFloor f | .understudyWrite f
  | .understudyRead f | .journalRead f | .restore f | .healthRead f | .countersRead f | .errorRead f | .alarmRead f
  | .hostFigures f | .traceConfig f | .guardRead f | .setLimits f | .setPorts f | .setFwMinSv f | .rotateOperatorKey f
  | .enterField f | .scrap f | .enterMakerAnalysis f | .generateDeviceKey f | .completeProvision f | .setRegister f
  | .fuseMapRead f | .tableImageRead f | .dmaStateRead f | .regionScrub f | .fwSlotData f | .fwSlotCommit f
  | .deviceReset f | .unknownOpcode _ f => some f
  | _ => none

/-- A control flit's KIND and CLASS are those of its row of sp. 11 Table 11-5. -/
def FlitHdr.is (h : FlitHdr) (kind : Nat) (classes : List (BitVec 2)) : Bool := h.kind.toNat = kind && classes.contains h.cls

/-- The bounds of a command's operands that its types do not already give. -/
def Instr.wf (i : Instr) : Bool :=
  (match i.frame? with
   | some f => f.wf
   | none => true) &&
  (match i with
   | .unknownOpcode op _ => !commandOpcodes.contains op
   | .dataFlit _ _ data => data.bytes.length = 256
   | .badFlit _ first last _ => decide ((last - first).toNat ≤ 20)
   | .head h _ => h.is 1 [2, 3]
   | .resumeFlit h => h.is 2 [2, 3]
   | .endFlit h _ _ => h.is 3 [2, 3]
   | .done h _ => h.is 4 [1]
   | .tally h entries => h.is 5 [1] && 1 ≤ entries.length && entries.length ≤ 29
   | .relay h _ _ => h.is 6 [0]
   | .link h _ => h.is 7 [0] && h.seq = 0
   | .notice h _ _ _ => h.is 8 [0]
   | .arbiterSlot _ seen => allDistinct (seen.raised.map (·.port))
   | .sensorRead temps => temps.length ≤ 6
   | _ => true)

end Sys2Proof
end

