-- ==== Sys2Proof/Safety.lean ====
section
/-! DEFINITION. The terms in which claims are made: when a command frame is accepted and what acceptance alone does, when a pending cue
may start now, what stays as it was. -/

namespace Sys2Proof.Machine

/-! ## Command frames -/

/-- The frame of a command with a reply, with what the tables give the command. -/
def commandOf : Instr → Option (Frame × CmdInfo)
  | .identity f => some (f, cmdAlways 0x00)
  | .sessionOpen f => some (f, { opcode := 0x01, cls := 1, needSession := false, standby := true, stages := [4, 5, 7] })
  | .sessionClose f => some (f, cmdEarly 0x02)
  | .controlTake f => some (f, { opcode := 0x03, cls := 0, needSession := true, standby := true, stages := [4, 5, 7] })
  | .beatReacquire f => some (f, cmdEarly 0x04)
  | .attest f => some (f, cmdAlways 0x05)
  | .deviceIdSet f => some (f, cmdEarly 0x10)
  | .neighbourWrite f => some (f, cmdEarly 0x11)
  | .neighbourRead f => some (f, cmdEarly 0x12)
  | .stateRegionWrite f => some (f, cmdEarly 0x13)
  | .stateRegionRead f => some (f, cmdEarly 0x14)
  | .wingWrite f => some (f, cmdEarly 0x15)
  | .wingRead f => some (f, cmdEarly 0x16)
  | .panelThreshWrite f => some (f, cmdEarly 0x17)
  | .panelThreshRead f => some (f, cmdEarly 0x18)
  | .beatDelayWrite f => some (f, cmdEarly 0x19)
  | .beatDelayRead f => some (f, cmdEarly 0x1A)
  | .environment f => some (f, cmdEarly 0x1B)
  | .sheetBegin f => some (f, cmd 0x20)
  | .sheetVerify f => some (f, cmd 0x22)
  | .sheetStatus f => some (f, cmd 0x23)
  | .sheetClear f => some (f, cmd 0x24)
  | .writeOpen f => some (f, cmd 0x30)
  | .writeClose f => some (f, cmd 0x32)
  | .read f => some (f, cmd 0x33)
  | .cancel f => some (f, cmd 0x35)
  | .arm f => some (f, cmd 0x40)
  | .startAtBeat f => some (f, cmd 0x41)
  | .hold f => some (f, cmd 0x42)
  | .resume f => some (f, cmd 0x43)
  | .stepAbort f => some (f, abortInfo)
  | .stepStatus f => some (f, cmd 0x45)
  | .tenantOpen f => some (f, cmd 0x50)
  | .tenantClose f => some (f, cmd 0x51)
  | .tenantKill f => some (f, { cmd 0x52 with cls := 0 })
  | .tenantStatus f => some (f, cmd 0x53)
  | .scrubStatus f => some (f, cmd 0x54)
  | .secureNow f => some (f, cmd 0x60)
  | .secureFloor f => some (f, cmd 0x61)
  | .understudyWrite f => some (f, cmd 0x62)
  | .understudyRead f => some (f, cmd 0x63)
  | .journalRead f => some (f, cmd 0x64)
  | .restore f => some (f, cmd 0x65)
  | .healthRead f => some (f, cmdEarly 0x71)
  | .countersRead f => some (f, cmdEarly 0x72)
  | .errorRead f => some (f, cmdEarly 0x73)
  | .alarmRead f => some (f, cmdEarly 0x74)
  | .hostFigures f => some (f, cmdEarly 0x75)
  | .traceConfig f => some (f, cmdEarly 0x76)
  | .guardRead f => some (f, cmdEarly 0x81)
  | .setLimits f | .setPorts f | .setFwMinSv f | .rotateOperatorKey f | .enterField f | .scrap f | .enterMakerAnalysis f
  | .generateDeviceKey f | .completeProvision f | .setRegister f => some (f, cmdEarly 0x80)
  | .fuseMapRead f => some (f, cmdEarly 0x90)
  | .tableImageRead f => some (f, cmdEarly 0x91)
  | .dmaStateRead f => some (f, cmdEarly 0x92)
  | .regionScrub f => some (f, cmd 0x93)
  | .fwSlotCommit f => some (f, cmdNoFw 0x95 1)
  | .deviceReset f => some (f, cmdNoFw 0x96 1)
  | _ => none

/-- The device is READY and its session is the frame's; nothing refuses the frame before the command's own checks: its link is up,
a credit is held, its class is the command's, the port takes the command, its SEQ is the expected one, no class 1 command is owed its
final reply where the frame is of class 1, the lifecycle is not SCRAPPED, no zeroisation runs (sp. 13 Table 13-4 steps 2 to 8, R373; sp. 16
R462). -/
def accepts (s : State) (f : Frame) (i : CmdInfo) : Bool :=
  (kcp s f.port).up && creditHeld (kcp s f.port) f.cls && decide (f.cls = i.cls) && (!isStandby s f.port || i.standby) &&
  decide (s.ses.current = some f.session) && decide (f.seq = s.ses.exp f.cls) && decide (s.pwr.stage = 6) &&
  decide (s.guard.lifecycle ≠ .scrapped) && s.guard.zero.isNone && s.taking.isNone &&
  (decide (f.cls ≠ 1) || (!class1Open s && s.waiting1.isEmpty))

/-- The same for a class 2 data frame, whose SEQ is not checked (sp. 13 R370). -/
def acceptsData (s : State) (f : Frame) (i : CmdInfo) : Bool :=
  (kcp s f.port).up && creditHeld (kcp s f.port) f.cls && decide (f.cls = 2) && (!isStandby s f.port || i.standby) &&
  decide (s.ses.current = some f.session) && decide (s.pwr.stage = 6) &&
  decide (s.guard.lifecycle ≠ .scrapped) && s.guard.zero.isNone

/-- What acceptance alone does: the frame's credit is used and returned, the expectation of its class advances. -/
def afterAccept (s : State) (f : Frame) : State :=
  let s1 := creditUse s f.port f.cls
  { s1 with ses := s1.ses.advance f.cls }

/-- The reply that an accepted frame is owed. -/
def owedBy (s : State) (f : Frame) (opcode : Byte) : Owed :=
  { opcode := opcode, cls := f.cls, seq := f.seq, session := s.ses.current }

/-- The command ends with status OK and a payload. -/
def replies (s : State) (f : Frame) (opcode : Byte) (payload : List Byte) (t : State) : State :=
  finish t (owedBy s f opcode) stOk payload

/-- The command ends with an ACCEPTED reply; its final reply comes later (sp. 13 R377). -/
def acceptedReply (f : Frame) (opcode : Byte) (t : State) : State :=
  sendFrame t { opcode := opcode, cls := 1, more := false, report := false, status := stAccepted, refSeq := f.seq, payload := [] }

/-! ## Cues -/

/-- The pending cue `p` of unit `u`, of opcode `op`, starts at cycle `c` (sp. 02 R45). `readyAt` has moved the clock on to the start and let the
signals under way arrive. There the cue is pending; `c` is the first cycle at which it has fired, its wait holds, its unit is free, its prior
cues are done and a lend that it needs has begun; the slack is not used up; and at `c` the step runs, the beat runs and the die is not frozen. -/
abbrev startsAt (s : State) (u : UnitId) (op : Nat) (p : Pending) (c : Nat) : Prop :=
  pendingOf (readyAt s u) u = some p ∧ startCycle (readyAt s u) u p = some c ∧ canStart (readyAt s u) (unitDie u) c = true ∧
  cOp p.raw = op ∧ c ≤ p.firedAt + cSlack p.raw ∧ c ≤ (readyAt s u).now

/-- The state in which the cue `p` has left the pending place of its unit at cycle `c`: its start is traced and its start signal has acted. -/
def leftAt (s : State) (u : UnitId) (p : Pending) (c : Nat) : State := leavePending (readyAt s u) u p c

/-- The descriptor of a pending cue. -/
def descOf (s : State) (u : UnitId) (p : Pending) : List Byte := (sheet s).desc (cDesc p.raw) (descSize u)

/-- A unit but for when the wait of its pending cue was met and for which of its bytes another's writes meet or a fence takes. -/
def plainUnit (v : UnitSt) : UnitSt :=
  let plain (r : Running) : Running := { r with raced := [], clash := [], fenced := [] }
  { v with running := v.running.map plain, tail := v.tail.map plain, pending := v.pending.map (fun p => { p with metAt := none }) }

/-- The unit runs what it ran and its pending cue is the same. -/
abbrev unitKept (s t : State) (v : UnitId) : Prop := plainUnit (unit t v) = plainUnit (unit s v)

/-- The events counted of a kind at a place (sp. 14 R393). -/
def countOf (s : State) (kind : Byte) (p : Place) : Nat := (Sparse.get noSource s.err.sources (sourceKey kind p.val)).count

/-- One event more of a kind at a place, counted up to the largest value (sp. 14 R393). -/
def oneMore (s t : State) (kind : Byte) (p : Place) : Prop := countOf t kind p = stopAt top32 (countOf s kind p + 1)

/-- The compute cues: the unit that a start row names, and its opcode (sp. 04 R104, sp. 06 R159, sp. 08 R218, R231, sp. 09 R277). -/
def computeRow : Instr → Option (UnitId × Nat)
  | .mmFwd arr => some (.array arr, 0x10)
  | .mmBwdData d n => some (.array ⟨d, true, n⟩, 0x11)
  | .mmBwdWeight d n => some (.array ⟨d, true, n⟩, 0x12)
  | .mmPredict d n => some (.array ⟨d, false, ⟨n.val, by omega⟩⟩, 0x13)
  | .gather d n => some (.gme d n, 0x20)
  | .scatter d n => some (.gme d n, 0x21)
  | .scatterAcc d n => some (.gme d n, 0x22)
  | .segmentReduce d n => some (.gme d n, 0x23)
  | .merge d n => some (.gme d n, 0x24)
  | .prefixSum d n => some (.gme d n, 0x25)
  | .histogram d n => some (.gme d n, 0x26)
  | .topK d n => some (.gme d n, 0x27)
  | .act d n => some (.vector d n, 0x30)
  | .actGrad d n => some (.vector d n, 0x31)
  | .actGradOut d n => some (.vector d n, 0x32)
  | .glu d n => some (.vector d n, 0x33)
  | .gluGrad d n => some (.vector d n, 0x34)
  | .dropout d n => some (.vector d n, 0x35)
  | .addN d n => some (.vector d n, 0x36)
  | .convert d n => some (.vector d n, 0x37)
  | .sumsqRow d n => some (.vector d n, 0x38)
  | .scaleRows d n => some (.vector d n, 0x39)
  | .softmaxRow d n => some (.vector d n, 0x3A)
  | .clipScale d n => some (.vector d n, 0x3B)
  | .adamw d => some (.optimizer d, 0x40)
  | .momentum d => some (.optimizer d, 0x41)
  | .sgd d => some (.optimizer d, 0x42)
  | .permute d => some (.layout d, 0x50)
  | .pack d => some (.layout d, 0x51)
  | .unpack d => some (.layout d, 0x52)
  | .encode d => some (.layout d, 0x53)
  | .decode d => some (.layout d, 0x54)
  | _ => none

/-- The completions of the compute units: the unit, and what its end met. -/
def completeRow : Instr → Option (UnitId × Finish)
  | .dmeComplete arr fin => some (.array arr, fin)
  | .gmeComplete d n fin => some (.gme d n, fin)
  | .vectorComplete d n fin => some (.vector d n, fin)
  | .optimizerComplete d fin => some (.optimizer d, fin)
  | .layoutComplete d fin => some (.layout d, fin)
  | _ => none

/-! ## Peer flits -/

/-- The flit `i` is the next in sequence on an UP port, and no flit held ahead of it follows at once (sp. 11 R331, R332). -/
abbrev nextInSequence (s : State) (p : PortNo) (i : Instr) : Prop :=
  (port s p).st = .up ∧ flitSeq i = (port s p).rxNext ∧
  (port s p).reorder.all (fun x => decide (flitSeq x ≠ (port s p).rxNext + 1)) = true

/-- The state when the next flit of port `p` has been taken and its header has acted: what the lanes corrected is counted, and a flit with a SEQ moves
the number expected (sp. 11 R324, R330, R335). -/
def headerTaken (s : State) (h : FlitHdr) : State :=
  let c := countCorrected s h.port h.fec
  takeHeader (setPort c h.port { port c h.port with rxNext := (port c h.port).rxNext + 1 }) h none

/-! ## What stays -/

/-- The registers of the guard partition that no program, peer or cue may change (sp. 15 R428, R430): lifecycle, limits, port
enables, thresholds, keys, counters, the minimum security version, the certificate. -/
def guardKept (g : Guard) :
    Lifecycle × BitVec 64 × BitVec 64 × BitVec 32 × BitVec 32 × BitVec 32 × List Byte × List Byte × BitVec 96 × BitVec 64 × BitVec 64 × BitVec 16 ×
      Option Nat × List Byte :=
  (g.lifecycle, g.limits, g.portEnable, g.supplyVcore, g.supplyVsram, g.supplyVlink, g.operatorPub, g.makerPub, g.serial, g.counterOp,
    g.counterMk, g.fwMinSv, g.deviceKey, g.deviceCert)

/-- The commands that may change the guard registers of `guardKept`: the signed guard commands, the power-up that loads the kept
records, the end of a zeroisation and a disagreement of the two copies. -/
def guardWriter : Instr → Bool
  | .setLimits _ | .setPorts _ | .setFwMinSv _ | .rotateOperatorKey _ | .enterField _ | .scrap _ | .enterMakerAnalysis _
  | .generateDeviceKey _ | .completeProvision _ | .setRegister _ | .inputPowerOn | .zeroiseComplete | .guardDisagree _ _ => true
  | _ => false

/-- The bytes at addresses whose 8-byte words no write of `ws` reaches are as before (sp. 09 R252: a word is the unit of a code). -/
def onlyWrites (s t : State) (ws : List (Nat × List Byte)) : Prop :=
  ∀ a, (∀ w ∈ ws, ∀ i < w.2.length, swapAddr s (w.1 + i) / 8 ≠ a / 8) →
    Sparse.get zeroByte t.mem.bytes a = Sparse.get zeroByte s.mem.bytes a

/-- No byte of memory, fence, bank, write queue or other counter has changed: only the counts of streams and operations waited for may (sp. 09 R275). -/
def memKept (s t : State) : Prop :=
  t.mem = { s.mem with counters := { s.mem.counters with streamWaits := t.mem.counters.streamWaits, opWaits := t.mem.counters.opWaits } }

/-- What a step that ends without a commit leaves undefined (sp. 08 Table 8-15, R246): under IN_PLACE the state regions, else the next halves of the
paired ones. -/
def leftUndefined (s : State) : List (Nat × List Byte) :=
  if (sheet s).inPlace then (validRegions s).map (fun e => (eBase e.2 * 2 ^ 24, zeros (rLength e.2 * 2 ^ 24)))
  else ((validRegions s).filter (fun e => rPaired e.2)).map (fun e => (ePartner e.2 * 2 ^ 24, zeros (rLength e.2 * 2 ^ 24)))

/-- Nothing outside the step and its work has changed: power, guard, session, ports, configuration, beat, stores. -/
def outsideKept (s t : State) : Prop :=
  t.pwr = s.pwr ∧ t.guard = s.guard ∧ t.nor = s.nor ∧ t.ses = s.ses ∧ t.ctl = s.ctl ∧ t.cfg = s.cfg ∧ t.beat = s.beat ∧
  t.store0 = s.store0 ∧ t.store1 = s.store1 ∧ t.pending = s.pending

end Sys2Proof.Machine
end

