-- ==== Sys2Proof/Certificates/Slice0/Obligations.lean ====
section
/-! DEFINITION. The statements for the provers: one definition each, named by what it states. -/

open Sys2Proof Sys2Proof.Machine

/-! ## The machine as a whole -/

/-- A step takes the command at the front of the queue and runs it with the rest of the queue. -/
def Obligations.StepRunsTheFrontCommand : Prop :=
  ∀ (c : Instr) (s : State), step { s with pending := c :: s.pending } = exec c s

/-- With no command waiting and input power present, one reference cycle passes (the model's choice, log 2): the reference clock moves, the clock
of the units with it (at half its rate in a brownout hold), the cycle in the beat stays at its last until a boundary, memory stays, and, but where the
third cycle of the beat judges a mark that has not come, everything but the control ports, the session's frame counters and the alarms that leave is as
it was. A class 1 command that waited for the final reply of the one before it is run first, once that reply has left (log 93). -/
def Obligations.IdleStepIsOneCycle : Prop :=
  ∀ s : State, s.pending = [] →
    (nextWaiting s = none → s.pwr.v54 = true →
      ∃ t, step s = .next t ∧ t.ref = s.ref + 1 ∧ t.cycle = (if s.cycle = 4095 then 4095 else s.cycle + 1) ∧ t.mem = s.mem ∧ t.pending = [] ∧
        (inHold s = false → t.now = s.now + 1) ∧
        (inHold s = true → 2 * t.now + b01 t.half = 2 * s.now + b01 s.half + 1) ∧
        ((s.cycle.toNat < 2 ∨ (s.beat.awaitA = false ∧ s.beat.awaitB = false)) →
          t = { s with now := t.now, ref := t.ref, half := t.half, cycle := t.cycle, ctl := t.ctl, ses := t.ses, alarms := t.alarms }) ∧
        (2 ≤ s.cycle.toNat → t.beat.awaitA = false ∧ t.beat.awaitB = false)) ∧
    (∀ c o r, s.waiting1 = (c, o) :: r → class1Open s = false → step s = exec c { s with waiting1 := r, taking := some o })

/-- What the tables of registers and of what a reset leaves give: the beat UNLOCKED, no session and no step, both
stores EMPTY, the trips, thresholds and port enables at their reset values, every unit and channel idle, every bank ON, tallies 0,
memory zero and in canonical form, no error recorded. That the module is OFF (log 4) and that no command waits (log 2) are the model's choice. -/
def Obligations.ResetHoldsTheTableValues : Prop :=
  State.reset.pwr.state = .off ∧ State.reset.beat.lock = .unlocked ∧ State.reset.ses.current = none ∧ State.reset.ses.last = 0 ∧
  State.reset.step.phase = .idle ∧ State.reset.store0.st = .empty ∧ State.reset.store1.st = .empty ∧
  powerCap State.reset = 1498 ∧ thermWarn State.reset = 90 ∧ thermHold State.reset = 100 ∧ thermShut State.reset = 110 ∧
  (∀ p, lanesOn State.reset p = true) ∧ (∀ k, kcpEnabled State.reset k = true) ∧
  State.reset.cfg.panelThresh = 10 ∧ State.reset.cfg.deviceId = none ∧
  State.reset.health.t1 = 48 ∧ State.reset.health.t2 = 96 ∧ State.reset.health.t3 = 160 ∧ State.reset.secure.st = .idle ∧
  (∀ u, (unit State.reset u).running = none ∧ (unit State.reset u).pending = none) ∧
  (∀ d n, (chan State.reset d n).st = .idle ∧ (chan State.reset d n).actCue = 0xFFFFFF ∧
    (chan State.reset d n).irqTarget = BitVec.ofNat 2 (chanKey d n)) ∧
  (∀ k, (bank State.reset k).state = .on) ∧ (∀ i, tallyOf State.reset i = 0) ∧ (∀ p, (port State.reset p).st = .disabled) ∧
  (∀ a, readByte State.reset a = 0) ∧ State.reset.err.fifo = [] ∧ State.reset.trace.on = false ∧ State.reset.pending = [] ∧ State.reset.mem.wf = true

/-- Every step keeps the memory's canonical form: listed addresses strictly rise, and no listed byte is zero. -/
def Obligations.EveryStepKeepsMemoryCanonical : Prop :=
  ∀ s t : State, s.mem.wf = true → step s = .next t → t.mem.wf = true

/-- No cue, unit, channel, peer flit, control-port command, beat or supply event changes the lifecycle, the trips, the port enables, the
supply thresholds, a key, the serial, a replay counter, the minimum security version or the certificate: only the commands of `guardWriter`. -/
def Obligations.GuardRegistersChangeOnlyBySignedCommands : Prop :=
  ∀ (c : Instr) (s t : State), guardWriter c = false → exec c s = .next t → guardKept t.guard = guardKept s.guard

/-- The last committed step moves only by a STEP_COMMIT of a step whose curtain is up, whose work is done in time and which carries no cause of a stop, SUSPECT
or replay, to that step's number, or by a restore; a reset clears it. -/
def Obligations.OnlyCommitsAndRestoresMoveTheCommittedStep : Prop :=
  ∀ (c : Instr) (s t : State), c ≠ .restoreComplete → exec c s = .next t →
    t.step.lastCommitted = s.step.lastCommitted ∨ (t.step.lastCommitted = 0 ∧ t.step.phase = .idle) ∨
    (c = .stepCommit ∧ t.step.lastCommitted = s.step.number ∧ s.step.phase = .running ∧ s.step.stopped = false ∧ s.step.cause = 0 ∧
      s.step.replay = false ∧ curtainUp (atEnd s) = true ∧ workDone (atEnd s) = true ∧ inTime (atEnd s) = true)

/-! ## Control-port frames -/

/-- Nothing arrives on a link that is down. A frame for which the sender holds no credit is counted and recorded as CREDIT_OVERRUN (kind
0x14), gets no reply and frees no buffer. An opcode that no table lists is refused with UNKNOWN_OPCODE; in class 2 it is a stray data frame, counted and
recorded. -/
def Obligations.AFrameNeedsALinkAndACredit : Prop :=
  (∀ (c : Instr) (f : Frame) (s : State), c.frame? = some f → s.taking = none → (kcp s f.port).up = false → exec c s = .next s) ∧
  (∀ (c : Instr) (f : Frame) (s : State), c.frame? = some f → s.taking = none → (kcp s f.port).up = true →
      creditHeld (kcp s f.port) f.cls = false →
      ∃ t, exec c s = .next t ∧ (kcp t f.port).overrun = stopAt top32 ((kcp s f.port).overrun + 1) ∧ t.ctl.sent = s.ctl.sent ∧
        (kcp t f.port).cred f.cls = (kcp s f.port).cred f.cls ∧ t.ses = s.ses ∧
        oneMore s t 0x14 (kcpPlace f.port)) ∧
  (∀ (opcode : Byte) (f : Frame) (s : State), (kcp s f.port).up = true → creditHeld (kcp s f.port) f.cls = true →
      (f.cls ≠ 2 → exec (.unknownOpcode opcode f) s = .next (refuse (creditUse s f.port f.cls) opcode f.seq stUnknownOpcode)) ∧
      (f.cls = 2 → ∃ t, exec (.unknownOpcode opcode f) s = .next t ∧
        (kcp t f.port).stray = stopAt top32 ((kcp s f.port).stray + 1) ∧ t.ctl.sent = s.ctl.sent ∧ t.ses = s.ses ∧
        oneMore s t 0x15 (kcpPlace f.port)))


/-- The checks before the command's own, in their order: WRONG_CLASS (a class 2 frame is stray), NOT_CONTROL on the port it came on,
NO_SESSION, SEQ_ERROR; a duplicate gets the stored reply again, or nothing while the original runs. Then a class 1 command waits while another is
owed its final reply; else BAD_LENGTH or BAD_PARAM of its own, BUSY where the stage does not take the command, LIFECYCLE in SCRAPPED, BUSY while a
zeroisation runs. That such a refusal advances the expectation and is a stored final reply (log 27), the BUSY while a zeroisation runs (log 28) and
how a class 1 command waits (log 93) are the model's reading. No other refused frame changes more than the ports and the session's
frame counters; a GUARD_COMMAND whose envelope is malformed is recorded too. -/
def Obligations.ChecksRefuseInOrder : Prop :=
  (∀ (c : Instr) (f : Frame) (i : CmdInfo) (s : State), commandOf c = some (f, i) → s.taking = none → (kcp s f.port).up = true →
      creditHeld (kcp s f.port) f.cls = true →
      (f.cls ≠ i.cls → f.cls = 2 → exec c s = .next (stray (creditUse s f.port f.cls) f.port i.opcode)) ∧
      (f.cls ≠ i.cls → f.cls ≠ 2 → exec c s = .next (refuse (creditUse s f.port f.cls) i.opcode f.seq stWrongClass)) ∧
      (f.cls = i.cls → isStandby s f.port = true → i.standby = false →
        exec c s = .next (refuseOn (creditUse s f.port f.cls) f.port i.opcode f.seq stNotControl)) ∧
      (f.cls = i.cls → isStandby s f.port = false → s.ses.current ≠ some f.session → i.needSession = true → s.pwr.stage ≠ 2 →
        exec c s = .next (refuse (creditUse s f.port f.cls) i.opcode f.seq stNoSession)) ∧
      (f.cls = i.cls → isStandby s f.port = false → s.ses.current = some f.session → i.opcode ≠ 0x01 → s.pwr.stage ≠ 2 →
        seqCheck (s.ses.exp f.cls) f.seq = .wrong → exec c s = .next (refuse (creditUse s f.port f.cls) i.opcode f.seq stSeqError)) ∧
      (f.cls = i.cls → isStandby s f.port = false → s.ses.current = some f.session → i.opcode ≠ 0x01 → s.pwr.stage ≠ 2 →
        seqCheck (s.ses.exp f.cls) f.seq = .duplicate → exec c s = .next (duplicate (creditUse s f.port f.cls) f.cls f.seq))) ∧
  (∀ (c : Instr) (f : Frame) (i : CmdInfo) (s : State), commandOf c = some (f, i) → i.opcode ≠ 0x01 → s.taking = none →
      (kcp s f.port).up = true → creditHeld (kcp s f.port) f.cls = true → f.cls = i.cls → isStandby s f.port = false →
      s.ses.current = some f.session → f.seq = s.ses.exp f.cls → s.pwr.stage ≠ 2 →
      (f.cls = 1 → (class1Open s = true ∨ s.waiting1 ≠ []) →
        exec c s = .next (let a := holdCredit (afterAccept s f) f; { a with waiting1 := s.waiting1 ++ [(c, owedBy s f i.opcode)] })) ∧
      (∀ a o, a = afterAccept s f → o = owedBy s f i.opcode → (f.cls ≠ 1 ∨ (class1Open s = false ∧ s.waiting1 = [])) →
        (stageRefuses s i = true →
          exec c s = .next (finish a o stBusy []) ∨
          ∃ st, (st = stBadLength ∨ st = stBadParam) ∧ (exec c s = .next (finish a o st []) ∨
            (i.opcode = 0x80 ∧ exec c s = .next (finish (raise a (gev a 0x16 st.toNat (envCounter f.payload).toNat .never)) o st [])))) ∧
        (stageRefuses s i = false → s.guard.lifecycle = .scrapped → i.opcode ≠ 0x00 → i.opcode ≠ 0x05 → i.opcode ≠ 0x80 →
          exec c s = .next (finish a o stLifecycle []) ∨
          ∃ st, (st = stBadLength ∨ st = stBadParam) ∧ exec c s = .next (finish a o st [])) ∧
        (stageRefuses s i = false → s.guard.lifecycle ≠ .scrapped → zeroStart s = true → i.opcode ≠ 0x00 → i.opcode ≠ 0x05 →
          i.opcode ≠ 0x80 →
          exec c s = .next (finish a o stBusy []) ∨
          ∃ st, (st = stBadLength ∨ st = stBadParam) ∧ exec c s = .next (finish a o st []))))


/-- A final reply whose payload fits one frame is one frame on the port that carries control: class 1, no MORE, not a report, its
status, REF_SEQ the command's SEQ; it is kept for a duplicate of its session; nothing but the ports and the session changes. -/
def Obligations.FinalReplyIsOneFrame : Prop :=
  ∀ (s : State) (o : Owed) (status : Byte) (p : List Byte) (k : Kcp), s.ctl.carrier = some k → p.length ≤ 8156 →
    ∃ x, (finish s o status p).ctl.sent = s.ctl.sent ++ [x] ∧ x.port = k ∧ x.opcode = o.opcode ∧ x.cls = 1 ∧ x.more = false ∧
      x.report = false ∧ x.status = status ∧ x.refSeq = o.seq ∧ x.payload = p ∧
      (o.session.isSome → o.session = s.ses.current →
        { cls := o.cls, seq := o.seq, opcode := o.opcode, status := status, frames := [p] } ∈ (finish s o status p).ses.stored) ∧
      { finish s o status p with ctl := s.ctl, ses := s.ses } = s


/-! ## Session, identity and configuration -/

/-- IDENTITY and ATTEST answer with status OK and change nothing but the port, the session's counters and the entropy drawn: IDENTITY's
128 bytes hold the ordering number, the revision, the firmware version, the serial, the device ID and whether it is set, the
lifecycle, the control port and the six die identities; ATTEST's the report of sp. 15 Table 15-12, a signature over its bytes 0-279 and
the certificate. Without a device key ATTEST ends with LIFECYCLE (the model's choice, log 24). -/
def Obligations.IdentityAndAttestAnswer : Prop :=
  ∀ (f : Frame) (s : State),
    (accepts s f (cmdAlways 0x00) = true → f.payload = [] →
      ∃ p, exec (.identity f) s = .next (replies s f 0x00 p (afterAccept s f)) ∧ p.length = 128 ∧ p.take 11 = orderingNumber ∧
        slice p 11 2 = moduleRevision ∧ slice p 13 3 = toBE 3 s.guard.fwVersion.toNat ∧ slice p 16 12 = serialBytes s ∧
        slice p 28 4 = [s.cfg.deviceId.getD 0, BitVec.ofNat 8 (b01 s.cfg.deviceId.isSome),
          BitVec.ofNat 8 s.guard.lifecycle.code, (if s.ctl.carrier = some .b then 1 else 0)] ∧ p.drop 32 = dieIdentityBytes) ∧
    (∀ d, accepts s f (cmdAlways 0x05) = true → f.payload.length = 32 → s.guard.deviceKey = some d →
      ∃ sig, sig = ecdsaSign d (scalarOf (Config.entropy s.free)) (sha256 (attestBody s f.payload)) ∧
        exec (.attest f) s = .next (replies s f 0x05
          (attestBody s f.payload ++ sig ++ toLE 2 s.guard.deviceCert.length ++ s.guard.deviceCert)
          { afterAccept s f with free := s.free + 1 })) ∧
    (accepts s f (cmdAlways 0x05) = true → f.payload.length = 32 → s.guard.deviceKey = none →
      exec (.attest f) s = .next (finish (afterAccept s f) (owedBy s f 0x05) stLifecycle []))

/-- SESSION_OPEN is accepted at any time, without a session and whatever its SEQ: the session gets the next number, its expectations
are 0, open tensor transfers are discarded, no frame of a transfer waits any longer, the port it came on carries control, and the reply holds the
number and the port. -/
def Obligations.SessionOpenStartsASession : Prop :=
  ∀ (f : Frame) (s : State), s.taking = none → (kcp s f.port).up = true → creditHeld (kcp s f.port) f.cls = true → f.cls = 1 →
    s.pwr.stage = 6 → s.guard.lifecycle ≠ .scrapped → s.guard.zero = none → f.payload.length = 1 →
    ∃ t x, exec (.sessionOpen f) s = .next t ∧ t.ses.current = some (s.ses.last + 1) ∧ t.ses.last = s.ses.last + 1 ∧
      some t.ses.node = f.payload.head? ∧ t.ses.exp0 = 0 ∧ t.ses.exp1 = 0 ∧ t.xfers = [] ∧ t.ctl.carrier = some f.port ∧
      t.fwHeld = s.fwHeld.filter (fun i => !ofTransfer i) ∧ t.mem = s.mem ∧ t.cfg = s.cfg ∧ t.guard = s.guard ∧
      t.ctl.sent.getLast? = some x ∧ x.port = f.port ∧ x.opcode = 0x01 ∧ x.status = stOk ∧ x.session = s.ses.last + 1 ∧
      x.refSeq = f.seq ∧ x.payload = toLE 4 (s.ses.last + 1).toNat ++ [BitVec.ofNat 8 (kcpNo f.port)]

/-- SESSION_CLOSE ends the session after its reply, which is a frame of the session (the model's reading, log 27); CONTROL_TAKE moves control to the port it came on,
recorded as CONTROL_MOVED (kind 0x13) when the other port had it; BEAT_REACQUIRE makes the beat UNLOCKED. -/
def Obligations.SessionCommandsTakeEffect : Prop :=
  ∀ (f : Frame) (s : State),
    (∀ k, s.ctl.carrier = some k → accepts s f (cmdEarly 0x02) = true → f.payload = [] →
      ∃ t x, exec (.sessionClose f) s = .next t ∧ t.ses.current = none ∧ t.ses.last = s.ses.last ∧
        t.ctl.sent = s.ctl.sent ++ [x] ∧ x.port = k ∧ x.session = f.session ∧ x.status = stOk ∧ t.xfers = s.xfers ∧
        t.step = s.step) ∧
    (accepts s f { opcode := 0x03, cls := 0, needSession := true, standby := true, stages := [4, 5, 7] } = true → f.payload = [] →
      ∃ t, exec (.controlTake f) s = .next t ∧ t.ctl.carrier = some f.port ∧ t.mem = s.mem ∧ t.ses.current = s.ses.current ∧
        (s.ctl.carrier = some (otherKcp f.port) →
          oneMore s t 0x13 (kcpPlace f.port)) ∧
        (s.ctl.carrier = some f.port → t.err = s.err ∧ t.beat = s.beat)) ∧
    (accepts s f (cmdEarly 0x04) = true → f.payload = [] → (stepBusy s = false ∨ s.beat.lock = .lost) →
      ∃ t, exec (.beatReacquire f) s = .next t ∧ t.beat.lock = .unlocked ∧ t.mem = s.mem ∧ t.step.phase = s.step.phase) ∧
    (accepts s f (cmdEarly 0x04) = true → f.payload = [] → stepBusy s = true → s.beat.lock ≠ .lost →
      exec (.beatReacquire f) s = .next (finish (afterAccept s f) (owedBy s f 0x04) stBusy []))

/-- The configuration writes change the register, entry or delay that they name. DEVICE_ID_SET tells the ports their own ID; NEIGHBOUR_WRITE sends its
port to TRAINING, or to DISABLED, with the record of the move (kind 0x0F); an ENVIRONMENT out of range is recorded (kind 0x4C). The others change nothing but
the port and the session beside what they name. A state region is written with SWAPPED clear. That a reserved bit of a register or an entry is ignored and
stored as 0 (log 36) and that the wall clock is kept with the cycle it was told in (log 89) are the model's choice. -/
def Obligations.ConfigurationWritesTakeEffect : Prop :=
  ∀ (f : Frame) (s : State),
    (∀ v, accepts s f (cmdEarly 0x10) = true → f.payload = [v] → stepBusy s = false → anyVerified s = false →
      ∃ t, exec (.deviceIdSet f) s = .next (replies s f 0x10 [] t) ∧ (∀ q, port t q = { port s q with me := v }) ∧
        t = { afterAccept s f with cfg := { s.cfg with deviceId := some v }, ports := t.ports }) ∧
    (∀ k : PortNo, accepts s f (cmdEarly 0x11) = true → f.payload.length = 32 → byteAt f.payload 0 = k.val →
      zeroAt f.payload 1 15 = true → peerPort (entryOf f.payload) < 6 → stepBusy s = false →
      (peerEnable (entryOf f.payload) = true → s.cfg.deviceId.isSome) →
      ∃ t st, exec (.neighbourWrite f) s = .next (replies s f 0x11 [] t) ∧
        st = (if peerEnable (entryOf f.payload) && lanesOn s k then PortState.training else .disabled) ∧ (port t k).st = st ∧
        (port t k).entry = taken128 (entryOf f.payload) neighbourFields ∧ (port t k).rxSerial = 0 ∧ (∀ j, j ≠ k → port t j = port s j) ∧
        t.cfg = s.cfg ∧ t.guard = s.guard ∧ t.beat = s.beat ∧ ((port s k).st ≠ st → oneMore s t 0x0F (portPlace k)) ∧
        ((port s k).rx = [] → t.mem = s.mem ∧ t.stage = s.stage ∧ ((port s k).st = st → t.err = s.err))) ∧
    (∀ v, v = taken128 (entryOf f.payload) regionFields → accepts s f (cmdEarly 0x13) = true → f.payload.length = 32 →
      byteAt f.payload 0 < 64 → zeroAt f.payload 1 15 = true → regionFieldsOk v = true → stepBusy s = false → hitsWing s v = false →
      exec (.stateRegionWrite f) s = .next (replies s f 0x13 []
          (let a := afterAccept s f; { a with cfg := { a.cfg with regions := Sparse.set noEntry a.cfg.regions (byteAt f.payload 0) v } })) ∧
        rSwapped v = false ∧ ∀ b < 128, 78 ≤ b → bit v.toNat b = bit (entryOf f.payload).toNat b) ∧
    (∀ v, v = taken128 (entryOf f.payload) wingFields → accepts s f (cmdEarly 0x15) = true → f.payload.length = 32 →
      byteAt f.payload 0 < 4 → zeroAt f.payload 1 15 = true → wLength v ≤ 12288 → stepBusy s = false →
      wingInside (byteAt f.payload 0) v = true →
      (allRegionRanges s).any (fun r => overlaps r.1 r.2 (eBase v) (wLength v)) = false →
      exec (.wingWrite f) s = .next (replies s f 0x15 []
        (let a := afterAccept s f; { a with cfg := { a.cfg with wings := Sparse.set noEntry a.cfg.wings (byteAt f.payload 0) v } })) ∧
        eBase v = eBase (entryOf f.payload) ∧ wLength v = wLength (entryOf f.payload)) ∧
    (accepts s f (cmdEarly 0x17) = true → f.payload.length = 4 → leAt f.payload 0 4 % 32 ≤ 16 → stepBusy s = false →
      exec (.panelThreshWrite f) s = .next (replies s f 0x17 []
        (let a := afterAccept s f; { a with cfg := { a.cfg with panelThresh := BitVec.ofNat 32 (leAt f.payload 0 4 % 32) } }))) ∧
    (accepts s f (cmdEarly 0x19) = true → f.payload.length = 8 → byteAt f.payload 0 < 2 → zeroAt f.payload 1 3 = true →
      -65536 ≤ signed 32 (leAt f.payload 4 4) → signed 32 (leAt f.payload 4 4) ≤ 65535 →
      (s.beat.lock = .unlocked ∨ s.beat.lock = .lost) →
      exec (.beatDelayWrite f) s = .next (replies s f 0x19 []
        (let a := afterAccept s f
         if byteAt f.payload 0 = 0 then { a with beat := { a.beat with delayA := signed 32 (leAt f.payload 4 4) } }
         else { a with beat := { a.beat with delayB := signed 32 (leAt f.payload 4 4) } }))) ∧
    (accepts s f (cmdEarly 0x1B) = true → f.payload.length = 16 → zeroAt f.payload 6 2 = true →
      ∃ t c, exec (.environment f) s = .next (replies s f 0x1B [] t) ∧
        c = { s.cfg with inlet := BitVec.ofNat 16 (leAt f.payload 0 2), flow := BitVec.ofNat 16 (leAt f.payload 2 2),
                         ambient := BitVec.ofNat 16 (leAt f.payload 4 2), wall := BitVec.ofNat 64 (leAt f.payload 8 8), wallAt := s.ref } ∧
        t = { afterAccept s f with cfg := c, err := t.err, alarms := t.alarms, step := t.step, health := t.health } ∧
        (signed 16 (leAt f.payload 0 2) ≤ 4000 → 2000 ≤ leAt f.payload 2 2 → t = { afterAccept s f with cfg := c }) ∧
        ((4000 < signed 16 (leAt f.payload 0 2) ∨ leAt f.payload 2 2 < 2000) → oneMore s t 0x4C (guardPlace s)))

/-- The configuration reads answer with the register or entry named, as little-endian bytes, and change nothing but the port and the
session. -/
def Obligations.ConfigurationReadsAnswer : Prop :=
  ∀ (f : Frame) (s : State),
    (∀ k : PortNo, accepts s f (cmdEarly 0x12) = true → f.payload = [BitVec.ofNat 8 k.val] →
      exec (.neighbourRead f) s = .next (replies s f 0x12 (toLE 16 (port s k).entry.toNat ++ [BitVec.ofNat 8 (port s k).st.code] ++
        zeros 3 ++ toLE 4 (port s k).latency ++ toBE 12 (port s k).rxSerial.toNat) (afterAccept s f))) ∧
    (∀ i : Fin 64, accepts s f (cmdEarly 0x14) = true → f.payload = [BitVec.ofNat 8 i.val] →
      exec (.stateRegionRead f) s = .next (replies s f 0x14 (toLE 16 (region s i.val).toNat) (afterAccept s f))) ∧
    (∀ d : Fin 4, accepts s f (cmdEarly 0x16) = true → f.payload = [BitVec.ofNat 8 d.val] →
      exec (.wingRead f) s = .next (replies s f 0x16 (toLE 16 (wing s d.val).toNat) (afterAccept s f))) ∧
    (accepts s f (cmdEarly 0x18) = true → f.payload = [] →
      exec (.panelThreshRead f) s = .next (replies s f 0x18 (toLE 4 s.cfg.panelThresh.toNat) (afterAccept s f))) ∧
    (∀ b, accepts s f (cmdEarly 0x1A) = true → f.payload = [b] → b < 2 →
      exec (.beatDelayRead f) s = .next (replies s f 0x1A
        (zeros 4 ++ toLE 4 (unsigned 32 (if b = 0 then s.beat.delayA else s.beat.delayB))) (afterAccept s f)))

/-- A control port's link: it comes up with fresh credits and takes control where no port has it, recorded as CONTROL_MOVED (kind 0x13) where the other
port had it last (the model's reading, log 23); down it holds no frame; the loss of the port that carries control moves control to the other, with the CONTROL_MOVED record; a frame
that arrives unmarked or whose CRC fails is counted and returns its credit; LINK_CREDIT leaves when credits are owed and reports them. -/
def Obligations.ControlLinksComeAndGo : Prop :=
  ∀ (k : Kcp) (s : State),
    ((kcp s k).up = false → diesOn s = true → s.pwr.released = true → kcpEnabled s k = true →
      ∃ t, exec (.kcpLinkUp k) s = .next t ∧ (kcp t k).up = true ∧ (∀ c, (kcp t k).cred c = ⟨0, 0, 0⟩) ∧
        t.ctl.carrier = some (s.ctl.carrier.getD k) ∧ t.mem = s.mem ∧
        ((s.ctl.carrier.isSome ∨ s.ctl.lost = none) →
          ∃ x, t.ctl.sent = s.ctl.sent ++ [x] ∧ x.opcode = 0x07 ∧ x.cls = 1 ∧ x.report = true ∧ x.port = s.ctl.carrier.getD k) ∧
        (∀ w, s.ctl.carrier = none → s.ctl.lost = some (otherKcp k, w) →
          oneMore s t 0x13 (kcpPlace k) ∧
          ∃ y x, t.ctl.sent = s.ctl.sent ++ [y, x] ∧ y.opcode = 0x06 ∧ x.opcode = 0x07 ∧ y.port = k ∧ x.port = k)) ∧
    ((kcp s k).up = true → s.ctl.carrier ≠ some k →
      ∃ t, exec (.kcpLinkDown k) s = .next t ∧ (kcp t k).up = false ∧ (kcp t k).queue0 = [] ∧ t.ctl.carrier = s.ctl.carrier ∧
        kcp t (otherKcp k) = kcp s (otherKcp k) ∧ t.mem = s.mem) ∧
    ((kcp s k).up = true → s.ctl.carrier = some k → (kcp s (otherKcp k)).up = false →
      ∃ t, exec (.kcpLinkDown k) s = .next t ∧ (kcp t k).up = false ∧ (kcp t k).queue0 = [] ∧ t.ctl.carrier = none ∧ t.mem = s.mem) ∧
    (s.ctl.carrier = some k → (kcp s (otherKcp k)).up = true →
      ∃ t, exec .controlPortLost s = .next t ∧ t.ctl.carrier = some (otherKcp k) ∧ (kcp t k).up = false ∧
        oneMore s t 0x13 (kcpPlace (otherKcp k)) ∧ t.mem = s.mem) ∧
    (∀ raw marks fec c, c = BitVec.ofNat 2 (bits (leAt raw 0 32) 247 246) → (kcp s k).up = true →
      (marks = false ∨ frameSound raw = false) →
      ∃ t, exec (.badFrame k raw ⟨marks, fec⟩) s = .next t ∧ (kcp t k).bad = stopAt top32 ((kcp s k).bad + 1) ∧
        (kcp t k).fec = stopAt top32 ((kcp s k).fec + fec) ∧
        (c ≠ 3 → ((kcp t k).cred c).freed = ((kcp s k).cred c).freed + 1) ∧ t.ctl.sent = s.ctl.sent ∧ t.ses = s.ses ∧ t.err = s.err) ∧
    ((kcp s k).up = true → owesCredits (kcp s k) = true →
      ∃ t x, exec (.linkCredit k) s = .next t ∧ t.ctl.sent = s.ctl.sent ++ [x] ∧ x.port = k ∧ x.opcode = 0x0F ∧ x.cls = 3 ∧
        x.seq = 0 ∧ x.payload = [] ∧ x.cred0 = BitVec.ofNat 8 (kcp s k).cred0.freed ∧ x.cred1 = BitVec.ofNat 8 (kcp s k).cred1.freed ∧
        x.cred2 = BitVec.ofNat 8 (kcp s k).cred2.freed ∧ owesCredits (kcp t k) = false ∧ t.ses = s.ses)

/-! ## Memory -/

/-- A byte written at an issued address that is not fenced, not refused by its bank and not in tally space reads back, and no other 8-byte
word changes. A read of a fenced region, or one that its bank refuses (any state but ON), returns zero, and a write there writes nothing, whoever
makes it. -/
def Obligations.AWrittenByteReadsBack : Prop :=
  (∀ (s : State) (a : Nat) (v : Byte), fencedAt s a = false → a < tallyBase → gatedAt s (swapAddr s a) = false →
      readByte (writeByte s a v) a = v ∧
      ∀ b, b / 8 ≠ swapAddr s a / 8 → Sparse.get zeroByte (writeByte s a v).mem.bytes b = Sparse.get zeroByte s.mem.bytes b) ∧
  (∀ (s : State) (a : Nat), fencedAt s a = true → readByte s a = 0 ∧ ∀ v, (writeByte s a v).mem = s.mem) ∧
  (∀ (s : State) (a k : Nat), a < tallyBase → bankOf (swapAddr s a) = some k → (bank s k).state ≠ .on →
      readByte s a = 0 ∧ ∀ v, (writeByte s a v).mem = s.mem)


/-- Writes reach no 8-byte word but those of their own bytes, at the addresses that they are swapped to. -/
def Obligations.WritesStayInTheirWords : Prop :=
  ∀ (w : Who) (s : State) (ws : List (Nat × List Byte)), onlyWrites s (writeAll w s ws) ws

/-! ## Error sources -/

/-- Every event of a kind at a place is counted, the count stopping at its largest value; FIRST stays the first event's record and LAST
is this one's, but that of the events of one cycle the lowest instance is FIRST and the highest LAST; an event with room and a free recorder enters the FIFO
with the next number, another is coalesced. An event that the recorder takes before one of the same cycle and place that it already holds takes its place:
the model's way to keep the order of one cycle's events (log 75). -/
def Obligations.EventsAreRecordedByTheirSource : Prop :=
  ∀ (s : State) (e : Event) (r : ErrRec) (o n : Source),
    r = eventRec s e (raises s e) (replayKind e.kind && stepStarted s) → o = Sparse.get noSource s.err.sources (sourceKey e.kind e.place.val) →
    n = Sparse.get noSource (raise s e).err.sources (sourceKey e.kind e.place.val) →
    oneMore s (raise s e) e.kind e.place ∧
    (r.kind = e.kind ∧ r.cycle = s.cycle ∧ r.beat = beatNow s ∧ r.inst = BitVec.ofNat 8 e.inst ∧ r.cue = BitVec.ofNat 24 e.cue ∧
      r.d0 = BitVec.ofNat 64 e.d0 ∧ r.d1 = BitVec.ofNat 64 e.d1) ∧
    (o.first = none → n.first = some r) ∧ (o.last = none → n.last = some r) ∧
    (∀ x, o.first = some x → n.first = some (if sameCycle x r = true ∧ r.inst < x.inst then r else x)) ∧
    (∀ x, o.last = some x → n.last = some (if sameCycle x r = true ∧ r.inst < x.inst then x else r)) ∧
    (∀ k, k ≠ sourceKey e.kind e.place.val → Sparse.get noSource (raise s e).err.sources k = Sparse.get noSource s.err.sources k) ∧
    (alarmOnly e.kind = true → (raise s e).err.fifo = s.err.fifo ∧ (raise s e).err.recno = s.err.recno) ∧
    (alarmOnly e.kind = false → s.err.fifo.any (betterOffer r) = false →
      (Sparse.get (fun _ => 0) s.err.busyUntil e.place.val ≤ s.now → s.err.fifo.length < 1024 →
        (raise s e).err.fifo = s.err.fifo ++ [{ r with recno := s.err.recno }] ∧ (raise s e).err.recno = s.err.recno + 1) ∧
      ((s.now < Sparse.get (fun _ => 0) s.err.busyUntil e.place.val ∨ 1024 ≤ s.err.fifo.length) →
        (raise s e).err.fifo = s.err.fifo ∧ (raise s e).err.overflow = true ∧
        (raise s e).err.coalesced = stopAt top32 (s.err.coalesced + 1))) ∧
    (alarmOnly e.kind = false → s.err.fifo.any (betterOffer r) = true →
      (raise s e).err.fifo.length = s.err.fifo.length ∧ (raise s e).err.recno = s.err.recno ∧
      (∀ x ∈ s.err.fifo, betterOffer r x = false → x ∈ (raise s e).err.fifo) ∧
      (∀ x ∈ s.err.fifo, betterOffer r x = true → { r with recno := x.recno } ∈ (raise s e).err.fifo) ∧
      (raise s e).err.overflow = true ∧ (raise s e).err.coalesced = stopAt top32 (s.err.coalesced + 1))

/-- ERROR_READ returns records oldest first and removes them from the FIFO, at most as many as it asks for, and clears OVERFLOW and the coalesced count,
after returning them. COUNTERS_READ of group 16 + p returns the sources of place p. -/
def Obligations.ErrorReadReturnsAndRemovesRecords : Prop :=
  ∀ (f : Frame) (s : State),
    (∀ b v, accepts s f (cmdEarly 0x72) = true → f.payload = [b] → counterGroup s b.toNat = some v →
      exec (.countersRead f) s = .next (replies s f 0x72 v (afterAccept s f)) ∧
      ∀ p < 6, b.toNat = 16 + p → v = ((List.range 128).map (fun k =>
        sourceBytes (Sparse.get noSource s.err.sources (128 * p + k)))).flatten) ∧
    (∀ n, accepts s f (cmdEarly 0x73) = true → f.payload.length = 2 → n = leAt f.payload 0 2 →
      exec (.errorRead f) s = .next (replies s f 0x73
        (toLE 2 (min n s.err.fifo.length) ++ toLE 2 (s.err.fifo.length - n) ++ [BitVec.ofNat 8 (b01 s.err.overflow)] ++ zeros 3 ++
          toLE 4 s.err.coalesced ++ zeros 20 ++ ((s.err.fifo.take n).map ErrRec.bytes).flatten)
        (let a := afterAccept s f; { a with err := { a.err with fifo := s.err.fifo.drop n, overflow := false, coalesced := 0 } })))

/-! ## Tallies and cues -/

/-- An increment that would pass the largest value leaves the tally there, with a TALLY_SATURATE record (kind 0x05) at its home die;
another adds; no other tally changes. The oldest message of a pair of dies arrives 40 cycles for each edge of its route
after it was sent: a copy takes its value, an increment reaches its tally. -/
def Obligations.TalliesSaturateAndLanesDeliver : Prop :=
  (∀ (s : State) (i n : Nat),
      tallyOf (applyTally s i n) i = BitVec.ofNat 32 (min 0xFFFFFFFF ((tallyOf s i).toNat + n)) ∧
      (0xFFFFFFFF < (tallyOf s i).toNat + n → oneMore s (applyTally s i n) 0x05 (dieplace (homeDie i)) ∧
        (applyTally s i n).step.phase = s.step.phase ∧ (applyTally s i n).step.stopped = s.step.stopped) ∧
      ((tallyOf s i).toNat + n ≤ 0xFFFFFFFF → (applyTally s i n).err = s.err) ∧
      ∀ j, j ≠ i → tallyOf (applyTally s i n) j = tallyOf s j) ∧
  (∀ (s : State) (pos : Nat) (m : LaneMsg), s.stage.lane[pos]? = some m →
      ((s.stage.lane.take pos).any (fun x => x.origin = m.origin && x.dest = m.dest) = true →
        exec (.tallyLaneMessage pos) s = .next s) ∧
      ((s.stage.lane.take pos).any (fun x => x.origin = m.origin && x.dest = m.dest) = false →
        reaches s (m.sentAt + 40 * hops m.origin.val m.dest.val) = true → (m.queued = true → placeFor s m.origin.val 0 = true) →
        (m.copy = true →
          ∃ t, exec (.tallyLaneMessage pos) s = .next t ∧ Sparse.get noTally t.stage.copies (copyKey m.dest m.tally) = m.value ∧
            t.stage.lane = s.stage.lane.eraseIdx pos ∧ t.stage.tallies = s.stage.tallies ∧ t.mem = s.mem ∧ outsideKept s t) ∧
        (m.copy = false →
          ∃ t, exec (.tallyLaneMessage pos) s = .next t ∧
            tallyOf t m.tally = BitVec.ofNat 32 (min 0xFFFFFFFF ((tallyOf s m.tally).toNat + m.value.toNat)) ∧
            t.stage.copies = s.stage.copies ∧ t.mem = s.mem ∧ outsideKept s t)) ∧
      ((reaches s (m.sentAt + 40 * hops m.origin.val m.dest.val) = false ∨ (m.queued = true ∧ placeFor s m.origin.val 0 = false)) →
        exec (.tallyLaneMessage pos) s = .next s))

/-- A stage manager fires its next cue in list order at its position: the cue takes the pending place of its unit, or, where that is
taken, is late at once; a late cue is recorded (kind 0x03), counted and stops firing. A pending cue that cannot start by its firing plus SLACK is late too. That the
command moves the clock to the cue's cycle is the model's choice (log 1). -/
def Obligations.CuesFireInOrderOrAreLate : Prop :=
  (∀ (d : Die) (s s1 : State) (k f : Nat) (w : BitVec 256) (u : UnitId), k = Sparse.get (fun _ => 0) s.step.next d.val →
      w = (sheet s).cue d.val k → u = targetOf (sheet s) w → f = positionAt s (cCycle w) → canStart s d f = true →
      s.guard.holdPower = false → s.guard.holdThermal = false → k < (sheet s).count d.val → cBeat w = s.step.relBeat → s1 = settle (clockTo s f) →
      ((unit s u).pending = none →
        ∃ t m, exec (.cueFire d) s = .next t ∧ t.now = s1.now ∧
          (unit t u).pending = some { cue := k, raw := w, firedAt := f, metAt := m } ∧ (unit t u).running = (unit s u).running ∧
          ((cWaitEn w = true → cWaitValue w ≤ seenValue s1 d (cWaitTally w)) → m.isSome) ∧
          (s1.stage.changedAt < f → m.isSome → cWaitEn w = true → cWaitValue w ≤ seenValue s1 d (cWaitTally w)) ∧
          Sparse.get (fun _ => 0) t.step.next d.val = k + 1 ∧ (∀ v, v ≠ u → unitKept s t v) ∧
          t.stage.tallies = s1.stage.tallies ∧ memKept s t ∧ t.err = s1.err ∧ outsideKept s t) ∧
      ((unit s u).pending.isSome →
        ∃ t, exec (.cueFire d) s = .next t ∧ oneMore s t 0x03 (dieplace (unitDie u)) ∧ t.step.stopped = true ∧
          t.step.lateCues = s.step.lateCues + 1 ∧ Sparse.get (fun _ => 0) t.step.next d.val = k + 1 ∧ memKept s t ∧ outsideKept s t)) ∧
  (∀ (s s1 : State) (u : UnitId) (p q : Pending) (e : Nat), (unit s u).pending = some p → e = p.firedAt + cSlack p.raw →
      reaches s e = true → s1 = settle (clockTo s e) → canStart s1 (unitDie u) e = true → (unit s1 u).pending = some q →
      (∀ c, startCycle s1 u q = some c → e < c) →
      ∃ t, exec (.cueLate u) s = .next t ∧ (unit t u).pending = none ∧ oneMore s t 0x03 (dieplace (unitDie u)) ∧
        t.step.lateCues = s.step.lateCues + 1 ∧ t.step.stopped = true ∧ (s.step.cause = 0 → t.step.cause = 1 ∧ t.step.failed = true) ∧
        (s.step.cause ≠ 0 → t.step.cause = s.step.cause ∧ t.step.failed = s.step.failed) ∧ memKept s t ∧ outsideKept s t)

/-- In UNLOCKED, ACQUIRING and LOST no cue fires and no START_AT_BEAT is accepted; in HOLDOVER cues fire as in LOCKED. -/
def Obligations.NoCueFiresUnlessTheBeatRuns : Prop :=
  ∀ s : State,
    ((s.beat.lock = .unlocked ∨ s.beat.lock = .acquiring ∨ s.beat.lock = .lost) → ∀ d, exec (.cueFire d) s = .next s) ∧
    (∀ f : Frame, (s.beat.lock = .unlocked ∨ s.beat.lock = .acquiring ∨ s.beat.lock = .lost) → accepts s f (cmd 0x41) = true →
      f.payload.length = 6 → s.step.phase = .armed →
      exec (.startAtBeat f) s = .next (finish (afterAccept s f) (owedBy s f 0x41) stNotLocked [])) ∧
    (∀ d c, s.beat.lock = .holdover → canStart s d c = canStart { s with beat := { s.beat with lock := .locked } } d c)


/-- The control cues leave their pending place at their start and act 4 cycles later, once the clock is there: TALLY_SET stores its value (with what the
tally took in that cycle), and of two of one cycle that of the higher cue index stays, MARK is traced, LEND and CURTAIN are noted with their start cycle.
The end of a lend's span ends it. That a TALLY_SET of another die's tally sets it at home, in the same cycle, is the model's choice (log 67). -/
def Obligations.ControlCuesAct : Prop :=
  ∀ (s r s1 : State) (d : Die) (p : Pending) (c : Nat), r = readyAt s (.control d) →
    s1 = settle (clockTo (leftAt s (.control d) p c) (c + 4)) →
    (∀ x i, startsAt s (.control d) 4 p c → reaches r (c + 4) = true → x = ofLE ((sheet r).desc (cDesc p.raw) 8) → i = bits x 45 32 →
      (∀ n, doneSignal p.raw ≠ some (i, n)) →
      ∃ t, exec (.tallySet d) s = .next t ∧ (unit t (.control d)).pending = none ∧ memKept s t ∧ outsideKept s t ∧
        tallyOf t i = (if s1.stage.changedAt = c + 4 ∧ s1.stage.sets.any (fun x => x.1 = i && decide (p.cue < x.2.1)) = true then tallyOf s1 i
          else BitVec.ofNat 32 (min 0xFFFFFFFF (bits x 31 0 +
            (if s1.stage.changedAt = c + 4 then Sparse.get (fun _ => 0) s1.stage.added i else 0))))) ∧
    (∀ x, startsAt s (.control d) 7 p c → reaches r (c + 4) = true → x = ofLE ((sheet r).desc (cDesc p.raw) 8) →
      ∃ t, exec (.mark d) s = .next t ∧ (unit t (.control d)).pending = none ∧ memKept s t ∧ outsideKept s t ∧
        (s.trace.on = true → ∃ r ∈ t.trace.ring, r.kind = 1 ∧ r.addr = BitVec.ofNat 64 x ∧ r.cue = BitVec.ofNat 24 p.cue)) ∧
    (∀ x, startsAt s (.control d) 3 p c → reaches r (c + 4) = true → x = ofLE ((sheet r).desc (cDesc p.raw) 8) →
      ∃ t, exec (.lend d) s = .next t ∧ (unit t (.control d)).pending = none ∧ memKept s t ∧ outsideKept s t ∧
        t.stage.lends = s.stage.lends ++
          [{ die := d, cue := p.cue, mask := BitVec.ofNat 32 (bits x 63 32), span := bits x 23 0, startedAt := c }]) ∧
    (startsAt s (.control d) 2 p c → reaches r (c + 4) = true →
      ∃ t, exec (.curtain d) s = .next t ∧ (unit t (.control d)).pending = none ∧ d ∈ t.step.curtains ∧
        (d ∉ s.step.curtains → t.step.curtainAt = max s.step.curtainAt c ∧ t.step.curtains = d :: s.step.curtains) ∧
        (d ∈ s.step.curtains → t.step.curtainAt = s.step.curtainAt ∧ t.step.curtains = s.step.curtains) ∧ memKept s t ∧
        outsideKept s t) ∧
    (∀ op, startsAt s (.control d) op p c → reaches r (c + 4) = false →
      exec (.tallySet d) s = .next s ∧ exec (.mark d) s = .next s ∧ exec (.lend d) s = .next s ∧ exec (.curtain d) s = .next s) ∧
    (∀ cue l, s.stage.lends.find? (fun l => l.die = d && l.cue = cue) = some l →
      (reaches s (l.startedAt + l.span) = true →
        ∃ t, exec (.lendEnd d cue) s = .next t ∧ (∀ x ∈ t.stage.lends, x ∈ s.stage.lends ∧ ¬(x.die = d ∧ x.cue = cue)) ∧
          (∀ x ∈ s.stage.lends, ¬(x.die = d ∧ x.cue = cue) → x ∈ t.stage.lends) ∧ l.startedAt + l.span ≤ t.now ∧ t.mem = s.mem ∧
          t.step = s.step ∧ outsideKept s t) ∧
      (reaches s (l.startedAt + l.span) = false → exec (.lendEnd d cue) s = .next s))


/-! ## Compute units -/

/-- A compute cue whose conditions hold starts on its row: the unit runs it, with its opcode, descriptor, firing cycle and completion signal; the
pending place is free; every other unit runs what it ran; and, but for a unit that halts at once, no byte of memory has changed. -/
def Obligations.ComputeCuesStart : Prop :=
  ∀ (c : Instr) (u : UnitId) (op : Nat) (s : State) (p : Pending) (at_ : Nat) (w : Work), computeRow c = some (u, op) →
    startsAt s u op p at_ → w = workOf (asOf (readyAt s u) at_) u op p.cue (descOf (readyAt s u) u p) false →
    ∃ t r, exec c s = .next t ∧ (unit t u).running = some r ∧ (unit t u).pending = none ∧ r.cue = p.cue ∧
      r.opcode = BitVec.ofNat 8 op ∧ r.firedAt = p.firedAt ∧ r.startedAt = at_ ∧ r.signal = doneSignal p.raw ∧ r.window = none ∧
      r.desc = descOf (readyAt s u) u p ∧ r.cycles = w.cycles ∧ r.halted = w.halted ∧ r.recAt = w.recAt ∧
      (w.halted = false → r.writes = w.writes ∧ t.mem.bytes = s.mem.bytes) ∧
      (w.halted = true → onlyWrites s t (w.writes ++ w.span.map (fun x => (x.1, zeros x.2)) ++ [(w.recAt, w.record), (w.recAt, zeros 32)])) ∧
      (∀ v, v ≠ u → unitKept s t v) ∧ outsideKept s t

/-- A completion at its cycle makes the oldest cue's writes and record visible and nothing else of memory, acts its signal, notes the completion, and
the unit is free; before that cycle, and on an idle unit, nothing happens; a halted cue completes nothing. Bytes that another agent's accesses or a
detection met are the free ones that `landed` and `damaged` draw; a stream of which a kill takes an index may halt instead, with its record and GME_HALT
(kind 0x0B), at a place that is free (log 105). -/
def Obligations.ComputeCuesComplete : Prop :=
  ∀ (c : Instr) (u : UnitId) (fin : Finish) (s : State), completeRow c = some (u, fin) →
    (∀ r n e s0 g y h x, oldest (unit s u) = some r → r.halted = false → n = completionAt u r fin.stalls → reaches s n = true →
      streamRuns s u r = true → stallsFit u (unit s u) n = true → e = (if r.queued then max n s.now else n) →
      s0 = traceWait (settle (clockTo s e)) u r → g = fenceHalt r s0 →
      (g.1 = none → y = damaged u r fin.parity g.2 →
        h = layoutHits y.2 u y.1 (if fin.parity.isEmpty then y.1.record else withStatus y.1.record (statusAt u) 1) →
        x = landed h.2 u { y.1 with record := h.1 } (match u with
                                                     | .array _ => []
                                                     | _ => fin.parity.map (·.part)) →
        (r.raced = [] → r.fenced = [] → fin.parity = [] → x.1 = r.writes ++ [(r.recAt, h.1)]) ∧
        ∃ t q, exec c s = .next t ∧ onlyWrites s t (x.1 ++ r.clash.map (fun y => (y.1, zeros y.2))) ∧
          (r.fenced = [] → t.mem.bytes =
            (storeFree (writeWith (whoUnit u r.cue) x.2 x.1 (parityEvents u r.cue fin.parity)) r.clash).mem.bytes) ∧
          (r.signal = none → t.stage.tallies = s0.stage.tallies) ∧
          (∀ i m, r.signal = some (i, m) → homeDie i = unitDie u →
            tallyOf t i = BitVec.ofNat 32 (min 0xFFFFFFFF ((tallyOf s0 i).toNat + m))) ∧
          (∀ i m, r.signal = some (i, m) → homeDie i ≠ unitDie u → t.stage.lane = s0.stage.lane ++
            [{ origin := unitDie u, dest := homeDie i, tally := i, value := BitVec.ofNat 32 m, copy := false, sentAt := e, queued := q }]) ∧
          plainUnit (unit t u) = plainUnit (finished u (unit s u) e) ∧ (∀ v, v ≠ u → unitKept s t v) ∧
          t.step.lastDone = max s.step.lastDone e ∧ outsideKept s t) ∧
      (∀ z, g.1 = some z →
        ∃ t, exec c s = .next t ∧
          (unit t u).running = some { r with halted := true, writes := [], due := [], reads := [], dest := [] } ∧
          oneMore s0 t 0x0B (dieplace (unitDie u)) ∧ onlyWrites s t (r.writes ++ [(r.recAt, zeros 32)]) ∧
          t.stage.tallies = s0.stage.tallies ∧ (∀ v, v ≠ u → unitKept s t v) ∧ t.step.lastDone = s.step.lastDone ∧ outsideKept s t)) ∧
    (∀ r n, oldest (unit s u) = some r → r.halted = false → n = completionAt u r fin.stalls →
      (reaches s n = false ∨ streamRuns s u r = false ∨ stallsFit u (unit s u) n = false) → exec c s = .next s) ∧
    (∀ r, oldest (unit s u) = some r → r.halted = true → exec c s = .next (raiseAll s (parityEvents u r.cue fin.parity))) ∧
    (oldest (unit s u) = none → exec c s = .next s)

/-! ## The step -/

/-- The start beat makes a STARTING step RUNNING at step-relative beat 0 with nothing fired; in a brownout hold the step ends SUSPECT
at once and its report says so, and of memory only the state regions that such an end leaves undefined change. -/
def Obligations.TheStepStartsAtItsBeat : Prop :=
  ∀ s : State, s.step.phase = .starting → beatRuns s = true → beatNow s = s.step.startBeat → s.step.stopped = false →
    (inHold s = false →
      ∃ t, exec .stepStart s = .next t ∧ t.step.phase = .running ∧ t.step.relBeat = 0 ∧ t.step.next = [] ∧ t.step.curtains = [] ∧
        t.mem = s.mem ∧ t.ctl = s.ctl ∧ t.stage = s.stage ∧
        (s.secure.due = [] → t.secure = s.secure) ∧ (s.secure.image.isSome → t.secure = s.secure)) ∧
    (inHold s = true →
      ∃ t, exec .stepStart s = .next t ∧ t.step.phase = .idle ∧
        (s.dma.filter (fun e => leftOver e.2) = [] → onlyWrites s t (leftUndefined s)) ∧ t.stage.units = [] ∧
        ∀ k, s.ctl.carrier = some k → ∃ x ∈ t.ctl.sent, x.opcode = 0x46 ∧ x.report = true ∧
          x.payload.take 9 = toLE 8 s.step.number.toNat ++ [2])

/-- ARM, START_AT_BEAT, HOLD, RESUME, STEP_ABORT and STEP_STATUS, accepted and not refused, do what sp. 13 Table 13-8 says of each and
answer as it says. -/
def Obligations.StepControlCommandsTakeEffect : Prop :=
  ∀ (f : Frame) (s : State),
    (∀ k, accepts s f (cmd 0x40) = true → leAt f.payload 80 2 ≤ 1024 → zeroAt f.payload 82 14 = true →
      f.payload.length = 96 + 2 * leAt f.payload 80 2 →
      (armTenants f.payload (leAt f.payload 80 2)).any (fun i => decide (16383 < i)) = false → stepBusy s = false →
      armAllowed s (leAt f.payload 80 2) = true → storeWith s (BitVec.ofNat 256 (ofBE (slice f.payload 0 32))) = some k →
      s.step.dirty = false → armDetail s (storeAt s k) (armTenants f.payload (leAt f.payload 80 2)) = none →
      ∃ t, exec (.arm f) s = .next (replies s f 0x40 [] t) ∧ t.step.phase = .armed ∧ t.step.store = k ∧ (storeAt t k).st = .inUse ∧
        t.step.hash = (storeAt s k).expected ∧ t.step.number = BitVec.ofNat 64 (leAt f.payload 64 8) ∧
        t.step.seed = BitVec.ofNat 64 (leAt f.payload 72 8) ∧ (∀ i, tallyOf t i = 0) ∧ t.stage.preds = [] ∧ t.stage.copies = [] ∧
        t.mem = s.mem ∧ (∀ i ∈ armTenants f.payload (leAt f.payload 80 2), (tenant t i).active = true)) ∧
    (accepts s f (cmd 0x41) = true → f.payload.length = 6 → s.step.phase = .armed → beatRuns s = true →
      startTooEarly s (leAt f.payload 0 6) = false → s.secure.firmware = false →
      ∃ t, exec (.startAtBeat f) s = .next (replies s f 0x41 [] t) ∧ t.step.phase = .starting ∧ t.step.startBeat = BitVec.ofNat 48 (leAt f.payload 0 6) ∧
        t.step.lateCues = 0 ∧ t.step.cause = 0 ∧ t.step.suspect = false ∧ t.step.number = s.step.number ∧ t.mem = s.mem ∧
        t.stage = s.stage) ∧
    (accepts s f (cmd 0x42) = true → f.payload.length = 6 → stepStarted s = true → s.step.hold = none → s.step.phase ≠ .held →
      (beatNow s).toNat + 4 ≤ leAt f.payload 0 6 → (s.step.phase = .starting → s.step.startBeat.toNat ≤ leAt f.payload 0 6) →
      holdUnsafe s (leAt f.payload 0 6) = false →
      exec (.hold f) s = .next (acceptedReply f 0x42 (let a := afterAccept s f
        { a with step := { a.step with hold := some (BitVec.ofNat 48 (leAt f.payload 0 6), owedBy s f 0x42) } }))) ∧
    (accepts s f (cmd 0x43) = true → f.payload.length = 6 → s.step.phase = .held → (beatNow s).toNat + 4 ≤ leAt f.payload 0 6 →
      exec (.resume f) s = .next (replies s f 0x43 [] (let a := afterAccept s f
        { a with step := { a.step with resume := some (BitVec.ofNat 48 (leAt f.payload 0 6)) } }))) ∧
    (accepts s f abortInfo = true → f.payload = [] → s.step.phase = .armed →
      ∃ t, exec (.stepAbort f) s = .next (replies s f 0x44 [0] t) ∧ t.step.phase = .idle ∧ (storeAt t s.step.store).st = .verified ∧
        (s.dma.filter (fun e => leftOver e.2) = [] → t.mem = s.mem) ∧ t.step.number = s.step.number ∧ ∀ i, (tenant t i).active = false) ∧
    (accepts s f abortInfo = true → f.payload = [] → stepStarted s = true →
      ∃ t, exec (.stepAbort f) s = .next (replies s f 0x44 (toLE 1 s.step.phase.code) t) ∧ t.step.stopped = true ∧ t.step.phase = s.step.phase ∧ t.mem = s.mem ∧
        (s.step.cause = 0 → t.step.cause = 5 ∧ t.step.failed = true) ∧ (s.step.cause ≠ 0 → t.step.cause = s.step.cause)) ∧
    (accepts s f (cmd 0x45) = true → f.payload = [] →
      exec (.stepStatus f) s = .next (replies s f 0x45 (toLE 1 s.step.phase.code ++ toLE 1 s.beat.lock.code ++ zeros 6 ++
        toLE 8 s.step.number.toNat ++ toLE 4 (relBeatNow s) ++ toBE 32 s.step.hash.toNat) (afterAccept s f)))

/-- A hold takes effect from cycle 0 of its beat, with its final reply; where the curtains of all four dies fall by then it ends with NO_STEP instead, as it
does where they are all up already (the model's reading, log 41).
While it stands the step-relative beat does not advance and no cue is late; cycle 0 of its resume beat runs the step again, and the pending cues keep
the slack that they had. -/
def Obligations.AHoldStopsTheCounterUntilItsResume : Prop :=
  ∀ s : State,
    (∀ g o b n, s.step.hold = some (g, o) → holdEdge s = some b → n = (beatNow s - g).toNat → s.step.phase = .running →
      s.step.stopped = false →
      (curtainUp s = false → curtainsMeet s n = false →
        exec .holdTakesEffect s = .next (finish
          { s with step := { s.step with phase := .held, hold := none, holdAt := b, relBeat := s.step.relBeat - n } } o
          stOk (toLE 6 g.toNat))) ∧
      ((curtainUp s = true ∨ curtainsMeet s n = true) →
        exec .holdTakesEffect s = .next (finish { s with step := { s.step with hold := none } } o stNoStep []))) ∧
    (∀ r, s.step.resume = some r → s.step.phase = .held → beatNow s = r → s.cycle = 0 → beatRuns s = true → s.step.stopped = false →
      inHold s = false →
      ∃ t, exec .resumeBeat s = .next t ∧ t.step.phase = .running ∧ t.step.resume = none ∧ t.step.relBeat = s.step.relBeat ∧
        t.mem = s.mem ∧ outsideKept s t ∧ ∀ u, (unit t u).running = (unit s u).running ∧
          (unit t u).pending = (unit s u).pending.map (fun p =>
            { p with firedAt := p.firedAt + (s.now - s.step.holdAt), metAt := p.metAt.map (max s.now) })) ∧
    (s.step.phase = .held → ∀ u, exec (.cueLate u) s = .next s) ∧
    (s.step.phase = .held → s.pwr.v54 = true → ∃ t, exec .beatBoundary s = .next t ∧ t.step.relBeat = s.step.relBeat)

/-- A step whose curtain is up and whose work has all completed in time commits: IDLE, its number the last committed, its sheet VERIFIED,
SWAPPED toggled in every valid region of a swap commit, no byte of memory moved but by the channels that the step's end recycles; the step-end
report says COMMITTED. A step that has stopped and
whose work is drained ends FAILED or SUSPECT as its cause says, without a commit: no region is toggled, the last committed step stays, an
in-place step leaves the state dirty; what it leaves undefined of the state regions is free. The end of the drain with work left stops firing with cause 3. -/
def Obligations.StepsEndAsTheirWorkEnded : Prop :=
  (∀ s : State, commitDue (atEnd s) = true →
      ∃ t, exec .stepCommit s = .next t ∧ t.step.phase = .idle ∧ t.step.lastCommitted = s.step.number ∧
        (storeAt t s.step.store).st = .verified ∧ t.step.dirty = s.step.dirty ∧ t.stage.units = [] ∧ t.stage.windows = [] ∧
        t.cfg.regions = (if (sheet s).inPlace then s.cfg.regions else toggleRegions s.cfg.regions) ∧
        t.mem = (recycleChannels (atEnd s)).mem ∧ (s.dma.filter (fun e => leftOver e.2) = [] → t.mem = s.mem) ∧
        (∀ i, (tenant t i).active = false) ∧ t.stage.tallies = s.stage.tallies ∧
        (∀ k, s.ctl.carrier = some k → ∃ x ∈ t.ctl.sent, x.opcode = 0x46 ∧ x.report = true ∧
          x.payload.take 10 = toLE 8 s.step.number.toNat ++ [1, 0])) ∧
  (∀ s : State,
      (∀ st c, endDue (atEnd s) = some (st, c) →
        ∃ t, exec .stepEnd s = .next t ∧ t.step.phase = .idle ∧ t.step.lastCommitted = s.step.lastCommitted ∧
          (storeAt t s.step.store).st = .verified ∧ t.cfg.regions = s.cfg.regions ∧ onlyWrites (recycleChannels (atEnd s)) t (leftUndefined s) ∧
          t.stage.units = [] ∧ t.step.dirty = (s.step.dirty || (sheet s).inPlace) ∧ (st = 2 ∨ st = 3) ∧
          (∀ k, s.ctl.carrier = some k → ∃ x ∈ t.ctl.sent, x.opcode = 0x46 ∧ x.report = true ∧
            x.payload.take 10 = toLE 8 s.step.number.toNat ++ [st, c])) ∧
      (s.step.phase = .running → curtainUp s = true → s.step.stopped = false →
        reaches s (s.step.curtainAt + drainOf s) = true → (workDone s = false ∨ inTime s = false) →
        ∃ t, exec .curtainDrain s = .next t ∧ t.step.stopped = true ∧ (s.step.cause = 0 → t.step.cause = 3 ∧ t.step.failed = true) ∧
          (s.step.cause ≠ 0 → t.step.cause = s.step.cause) ∧ t.mem = s.mem ∧ outsideKept s t))


/-! ## Scratch banks -/

/-- BANK_DOWN gates an ON bank 4 cycles after its start and BANK_UP raises one that is not; the drain's end and the completion take it on: to RETAIN
with its bytes, or to OFF with every byte zero (the model zeroes at OFF); up again it is ON. On the other states the cue completes without effect. -/
def Obligations.BanksGoDownAndUp : Prop :=
  ∀ (d : Die) (n : Fin 64) (s : State),
    (∀ p c x, startsAt s (.bank d n) 5 p c → x = ofLE ((sheet (readyAt s (.bank d n))).desc (cDesc p.raw) 8) →
      reaches (readyAt s (.bank d n)) (c + 4) = true → (bank s (bankKey d n)).state = .on →
      ∃ t, exec (.bankDown d n) s = .next t ∧ (bank t (bankKey d n)).state = .gated ∧ (bank t (bankKey d n)).draining = true ∧
        (bank t (bankKey d n)).target = some (if bit x 6 then .off else .retain) ∧ (bank t (bankKey d n)).since = c + 4 ∧
        (unit t (.bank d n)).pending = none ∧ t.mem.bytes = s.mem.bytes ∧ outsideKept s t) ∧
    (∀ p c, startsAt s (.bank d n) 5 p c → reaches (readyAt s (.bank d n)) (c + 4) = true → (bank s (bankKey d n)).state ≠ .on →
      (unit s (.bank d n)).running = none →
      ∃ t, exec (.bankDown d n) s = .next t ∧ memKept s t ∧ (unit t (.bank d n)).running = none ∧
        (unit t (.bank d n)).pending = none ∧ t.step.lastDone = max s.step.lastDone (c + 4) ∧ outsideKept s t) ∧
    (∀ k, k = bankKey d n → (bank s k).state = .gated → (bank s k).draining = true →
      reaches s (drainEnd s k (bank s k).since) = true →
      ∃ t, exec (.bankDrainEnd d n) s = .next t ∧ (bank t k).draining = false ∧ (bank t k).state = .gated ∧ t.mem.bytes = s.mem.bytes ∧
        t.step = s.step ∧ outsideKept s t) ∧
    (∀ k, k = bankKey d n → (bank s k).state = .gated → (bank s k).draining = false → reaches s ((bank s k).since + 32) = true →
      ∃ t, exec (.bankDownComplete d n) s = .next t ∧ (bank t k).state = (bank s k).target.getD .retain ∧
        ((bank s k).target ≠ some .off → t.mem.bytes = s.mem.bytes) ∧
        (∀ a, bankOf a = some k → (bank s k).target = some .off → Sparse.get zeroByte t.mem.bytes a = 0) ∧
        (∀ a, bankOf a ≠ some k → Sparse.get zeroByte t.mem.bytes a = Sparse.get zeroByte s.mem.bytes a) ∧ outsideKept s t) ∧
    (∀ p c, startsAt s (.bank d n) 6 p c → reaches (readyAt s (.bank d n)) (c + 4) = true → (bank s (bankKey d n)).state ≠ .on →
      ∃ t, exec (.bankUp d n) s = .next t ∧ (bank t (bankKey d n)).state = .rising ∧ (unit t (.bank d n)).pending = none ∧
        t.mem.bytes = s.mem.bytes ∧ outsideKept s t) ∧
    (∀ p c, startsAt s (.bank d n) 6 p c → reaches (readyAt s (.bank d n)) (c + 4) = true → (bank s (bankKey d n)).state = .on →
      (unit s (.bank d n)).running = none →
      ∃ t, exec (.bankUp d n) s = .next t ∧ memKept s t ∧ (unit t (.bank d n)).running = none ∧ outsideKept s t) ∧
    (∀ op p c, startsAt s (.bank d n) op p c → reaches (readyAt s (.bank d n)) (c + 4) = false →
      exec (.bankDown d n) s = .next s ∧ exec (.bankUp d n) s = .next s) ∧
    (∀ k, k = bankKey d n → (bank s k).state = .rising →
      reaches s ((bank s k).since + (if (bank s k).draining then 16447 else 63)) = true →
      ∃ t, exec (.bankUpComplete d n) s = .next t ∧ (bank t k).state = .on ∧ t.mem.bytes = s.mem.bytes ∧ outsideKept s t)

/-! ## DMA channels -/

/-- A DMA cue whose conditions hold starts on an IDLE channel, once the clock has its first action: its descriptor moves to the active set, the channel is
ACTIVE for the cue, the pending place is free; no byte of memory has moved yet. A COPY and a FREEZE of a step that freezes plan their transfers; a PEER_SEND
and a TALLY_ONLY hand theirs to an UP port, or wait for a stream while none is free; where the port is not UP the channel halts with cause 5. A STREAM
with no image to act on does nothing. -/
def Obligations.DmaCuesStart : Prop :=
  ∀ (d : Die) (n : Fin 128) (s a s1 : State) (p : Pending) (c w : Nat), a = readyAt s (.channel d n) →
    s1 = settle (clockTo (leftAt s (.channel d n) p c) (c + 4)) →
    w = leAt ((sheet a).desc (cDesc p.raw) 64) 0 64 → (chan s d n).st = .idle → reaches a (c + 4) = true →
    (startsAt s (.channel d n) 0x60 p c →
      ∃ t r, exec (.copy d n) s = .next t ∧ (unit t (.channel d n)).running = some r ∧ (unit t (.channel d n)).pending = none ∧
        r.cue = p.cue ∧ r.opcode = 0x60 ∧ r.startedAt = c ∧ r.moves = copyMoves (parseDma w) ∧ r.halted = false ∧
        r.signal = doneSignal p.raw ∧ (chan t d n).st = .active ∧ (chan t d n).actCue = BitVec.ofNat 24 p.cue ∧
        (chan t d n).actDesc = BitVec.ofNat 512 w ∧ (∀ v, v ≠ .channel d n → unitKept s t v) ∧ t.mem.bytes = s.mem.bytes ∧
        outsideKept s t) ∧
    (startsAt s (.channel d n) 0x61 p c → sendTallyOnly w = false → (port s (sendPort w)).st = .up →
      ∃ t r l, exec (.peerSend d n) s = .next t ∧ (unit t (.channel d n)).running = some r ∧ r.cue = p.cue ∧ r.opcode = 0x61 ∧
        r.startedAt = c ∧ (unit t (.channel d n)).pending = none ∧ (chan t d n).actDesc = BitVec.ofNat 512 w ∧ (chan t d n).st = .active ∧
        l = sendMoves s1 w ∧ (∀ q, q ≠ sendPort w → { port t q with rx := [] } = { port s q with rx := [] }) ∧
        (streamsHeld s1 d.val < 4096 → opsHeld s1 d.val + opsOf d.val (dmaRun d c p 0x61 w l (moveSources l) []) ≤ 16384 → r.queued = false) ∧
        (r.queued = false → r.port = some (sendPort w, (port s (sendPort w)).nextXfer) ∧ r.send.todo = 1 ∧
          (port t (sendPort w)).nextXfer = (port s (sendPort w)).nextXfer + 1 ∧
          (∃ x ∈ (port t (sendPort w)).tx, x.xfer = (port s (sendPort w)).nextXfer ∧ x.die = d ∧ x.chan = n)) ∧
        (r.queued = true → r.port = none ∧ { port t (sendPort w) with rx := [] } = { port s (sendPort w) with rx := [] }) ∧
        t.mem.bytes = s.mem.bytes ∧ outsideKept s t) ∧
    (startsAt s (.channel d n) 0x61 p c → sendTallyOnly w = true → (port s (sendPort w)).st = .up →
      ∃ t r q, exec (.tallyOnly d n) s = .next t ∧ (unit t (.channel d n)).running = some r ∧ r.cue = p.cue ∧ r.opcode = 0x61 ∧
        r.startedAt = c ∧ (unit t (.channel d n)).pending = none ∧ (chan t d n).actDesc = BitVec.ofNat 512 w ∧
        (chan t d n).st = .active ∧ { q with rx := [] } = { port s (sendPort w) with rx := [] } ∧
        (streamsHeld s1 d.val < 4096 → opsHeld s1 d.val + opsOf d.val (dmaRun d c p 0x61 w [] [] []) ≤ 16384 → r.queued = false) ∧
        (r.queued = false → r.port = some (sendPort w, 0) ∧
          port t (sendPort w) = sendFlits q [{ flit 5 1 0 (tallyBody w) with owner := 1 + chanKey d n }]) ∧
        (r.queued = true → r.port = none ∧ port t (sendPort w) = q) ∧ t.mem.bytes = s.mem.bytes ∧ outsideKept s t) ∧
    (startsAt s (.channel d n) 0x61 p c → (port s (sendPort w)).st ≠ .up →
      ∃ t, (sendTallyOnly w = false → exec (.peerSend d n) s = .next t) ∧ (sendTallyOnly w = true → exec (.tallyOnly d n) s = .next t) ∧
        (chan t d n).st = .halted ∧ (chan t d n).failCause = 5 ∧ (chan t d n).failDir = true ∧ oneMore s t 0x0E (dieplace d) ∧
        outsideKept s t) ∧
    (startsAt s (.channel d n) 0x62 p c → snKind w = 0 →
      ∃ t r, exec (.freeze d n) s = .next t ∧ (unit t (.channel d n)).running = some r ∧ r.cue = p.cue ∧ r.opcode = 0x62 ∧
        r.startedAt = c ∧ (unit t (.channel d n)).pending = none ∧ (chan t d n).actDesc = BitVec.ofNat 512 w ∧
        r.moves = (if s.step.freezes then freezeMoves w else []) ∧ (chan t d n).st = .active ∧ t.mem.bytes = s.mem.bytes ∧
        ((s.step.freezes = false ∨ (sectionRegion s (localOf (bits w 511 448)) (snLength w)).isSome) → t.secure = s.secure) ∧
        outsideKept s t) ∧
    (startsAt s (.channel d n) 0x62 p c → snKind w = 1 →
      ∃ t r, exec (.stream d n) s = .next t ∧ (unit t (.channel d n)).running = some r ∧ r.cue = p.cue ∧ r.opcode = 0x62 ∧
        r.startedAt = c ∧ (unit t (.channel d n)).pending = none ∧ (chan t d n).actDesc = BitVec.ofNat 512 w ∧
        (chan t d n).st = .active ∧ t.mem.bytes = s.mem.bytes ∧ t.nand = s.nand ∧
        (streamImage s (snTier w) = none → r.queued = false) ∧
        ((r.queued = true ∨ streamImage s (snTier w) = none) → r.writes = [] ∧ r.port = none ∧ t.secure = s.secure) ∧ outsideKept s t)

/-- A COPY whose stream runs and whose transfers meet no bus error completes: its channel is IDLE with IRQ_PENDING set, its unit free, its
bytes in their places and its record, nothing else of memory changed; halted, too early or with a transfer in error it completes nothing. A bus error
at a transfer, when no earlier one could fail its decode, halts the channel: HALTED, the FAIL fields, DMA_BUS_ERROR (kind 0x0E); the cue stays,
halted. -/
def Obligations.CopiesCompleteOrHalt : Prop :=
  (∀ (d : Die) (n : Fin 128) (par : List Detect) (s s0 : State) (r : Running) (m : Moved), (unit s (.channel d n)).running = some r →
      s0 = settle (clockTo s (dmaReady r)) → m = moveAll (traceWait s0 (.channel d n) r) d n r par →
      (r.halted = false → r.port = none → r.opcode = 0x60 → reaches s (dmaReady r) = true → streamRuns s (.channel d n) r = true →
        r.moves.findSome? (moveFault s0) = none → bankFault m.st r.recAt 32 = false →
        ∃ t, exec (.dmaComplete d n par) s = .next t ∧ (chan t d n).st = .idle ∧ (chan t d n).irqPending = true ∧
          (chan t d n).actBytes = BitVec.ofNat 32 (stopAt top32 (moveBytes r.moves)) ∧ (chan t d n).actCue = 0xFFFFFF ∧
          t.mem.bytes = (storeFree (writeMem (whoUnit (.channel d n) r.cue) m.st r.recAt
            (dmaRecord (moveBytes r.moves) r.moves.length m.hits (b01 m.det) 0)) r.clash).mem.bytes ∧
          onlyWrites s t ((moveDests r.moves ++ [(r.recAt, 32)] ++ r.clash).map (fun (x : Nat × Nat) => (x.1, zeros x.2))) ∧
          t.step.lastDone = max s.step.lastDone s0.now ∧
          plainUnit (unit t (.channel d n)) = plainUnit (finished (.channel d n) (unit s (.channel d n)) s0.now) ∧ outsideKept s t) ∧
      ((r.halted = true ∨ r.port.isSome ∨ (r.queued = true ∧ r.opcode = 0x61) ∨ reaches s (dmaReady r) = false ∨
        streamRuns s (.channel d n) r = false) →
        exec (.dmaComplete d n par) s = .next s) ∧
      (r.halted = false → r.port = none → r.opcode = 0x60 → reaches s (dmaReady r) = true → streamRuns s (.channel d n) r = true →
        (r.moves.findSome? (moveFault s0)).isSome → exec (.dmaComplete d n par) s = .next s0)) ∧
  (∀ (d : Die) (n : Fin 128) (k : Nat) (s : State) (r : Running) (e : BusError), (unit s (.channel d n)).running = some r →
      chanFault s d n k = some e →
      ∃ t q, exec (.dmaBusError d n k) s = .next t ∧ (chan t d n).st = .halted ∧ (chan t d n).failCause = BitVec.ofNat 4 e.cause ∧
        (chan t d n).failDir = e.dir ∧ (chan t d n).failAddr = BitVec.ofNat 64 e.addr ∧
        ((r.opcode = 0x60 ∨ (r.opcode = 0x62 ∧ snKind (chan s d n).actDesc.toNat = 0)) → r.send.fault = none →
          (chan t d n).actBytes = BitVec.ofNat 32 (stopAt top32 (moveBytes (r.moves.take k))) ∧ (r.moves[k]?).bind (moveFault s) = some e) ∧
        (unit t (.channel d n)).running = some q ∧ q.halted = true ∧ q.cue = r.cue ∧ oneMore s t 0x0E (dieplace d) ∧
        t.pwr = s.pwr ∧ t.guard = s.guard ∧ t.cfg = s.cfg ∧ t.beat = s.beat ∧ t.stage.tallies = s.stage.tallies)


/-- The channel registers: DISABLE = 1 drops both sets and DISABLE = 0 makes the channel IDLE with its FAIL fields cleared; GO starts
SHD_DESC on an IDLE channel, or lets it wait for a stream; IRQ_PENDING clears unless an end of count comes in the same cycle; a plain field takes its value. On a channel that the
armed or running sheet names firmware's GO, load of SHD_DESC and setting of IRQ_EN do nothing. -/
def Obligations.ChannelRegistersTakeTheirWrites : Prop :=
  ∀ (d : Die) (n : Fin 128) (s : State),
    (∀ err, ∃ t, exec (.disable d ⟨n, err⟩) s = .next t ∧ (chan t d n).st = .disabled ∧ (chan t d n).disable = true ∧ (chan t d n).actDesc = 0 ∧
      (chan t d n).shdDesc = 0 ∧ (chan t d n).shdFull = false ∧ (unit t (.channel d n)).running = none ∧
      (unit t (.channel d n)).pending = none ∧ outsideKept s t ∧
      (err.bind (chanFault s d n) = none → (chan t d n).failCause = (chan s d n).failCause ∧ (chan t d n).failAddr = (chan s d n).failAddr ∧
        t.err = s.err) ∧
      (∀ e, err.bind (chanFault s d n) = some e → (chan t d n).failCause = BitVec.ofNat 4 e.cause ∧ (chan t d n).failDir = e.dir ∧
        (chan t d n).failAddr = BitVec.ofNat 64 e.addr ∧ oneMore s t 0x0E (dieplace d))) ∧
    ((chan s d n).disable = true →
      ∃ t, exec (.dmaEnable d n) s = .next t ∧ (chan t d n).st = .idle ∧ (chan t d n).disable = false ∧ (chan t d n).failCause = 0 ∧
        (chan t d n).failDir = false ∧ (chan t d n).failAddr = 0 ∧ (chan t d n).irqEn = (chan s d n).irqEn ∧
        (chan t d n).irqPending = (chan s d n).irqPending ∧ (chan t d n).actBytes = (chan s d n).actBytes ∧ t.mem = s.mem ∧
        outsideKept s t) ∧
    (∀ q, q = !placeFor s d.val (goOps d (chan s d n).shdDesc.toNat) → (chan s d n).st = .idle → channelNamed s d n = false →
      exec (.go d n) s = .next (setChan (if q then countWait s d (decide (4096 ≤ streamsHeld s d.val)) else s) d n
        { chan s d n with st := .active, firmware := true, queued := q, actDesc := (chan s d n).shdDesc, shdDesc := 0, shdFull := false,
                          actBytes := 0, actCue := 0xFFFFFF })) ∧
    ((chan s d n).st ≠ .idle → exec (.go d n) s = .next s) ∧
    (∀ e, exec (.irqPendingClear d n e) s = .next (setChan s d n { chan s d n with irqPending := e && (chan s d n).irqPending })) ∧
    (channelNamed s d n = false →
      (∀ v, exec (.registerWrite d n (.shdDesc v)) s = .next (setChan s d n { chan s d n with shdDesc := v, shdFull := true })) ∧
      (∀ v, exec (.registerWrite d n (.irqEn v)) s = .next (setChan s d n { chan s d n with irqEn := v }))) ∧
    (∀ v, exec (.registerWrite d n (.irqTarget v)) s = .next (setChan s d n { chan s d n with irqTarget := v })) ∧
    (channelNamed s d n = true →
      exec (.go d n) s = .next s ∧ (∀ v, exec (.registerWrite d n (.shdDesc v)) s = .next s) ∧
      exec (.registerWrite d n (.irqEn true)) s = .next s)

/-- A slot of an arbiter sees the head request of each port, with what has been raised since the slot before; it goes to the lock's owner while its
sequence lasts, every eighth grant otherwise to the request seen longest, the others by rank; a request that is not granted stays raised; with
nothing raised the slot is empty and ends a lock; a bank whose write queue is full grants nothing in its next slot. A refresh changes nothing. -/
def Obligations.ArbitersGrantBySlot : Prop :=
  ∀ (i : ArbId) (l : List Raise) (still : Bool) (s : State) (b : Arbiter), b =
      { arbiter s i with raised := ((l.filter (raiseOk s i)).map (requestOf s i)).foldl addRequest (arbiter s i).raised } →
    ∃ t, exec (.arbiterSlot i ⟨l, still⟩) s = .next t ∧ (arbiter t i).slot = b.slot + 1 ∧
      (∀ x ∈ (arbiter t i).raised, x ∈ b.raised) ∧
      (∀ x ∈ b.raised, (∀ y e k, slotGrant b still = some (y, e, k) → x ≠ y) → x ∈ (arbiter t i).raised) ∧
      (bankBusy s i = true → (arbiter t i).grant = b.grant ∧ (arbiter t i).left = b.left ∧ (arbiter t i).owner = b.owner ∧
        (arbiter t i).raised = b.raised ∧ (arbiter t i).served = none) ∧
      (bankBusy s i = false → slotGrant b still = none → (arbiter t i).grant = b.grant ∧ (arbiter t i).owner = none ∧ (arbiter t i).left = 0 ∧
        (arbiter t i).raised = b.raised ∧ seenAt b still = []) ∧
      (∀ (x : Request) (e : Bool), bankBusy s i = false → lockOwner b (seenAt b still) = some (x, e) → b.left ≠ 0 ∧ b.owner = some x.port ∧
        x.chan = b.lockChan ∧
        (e = false → (arbiter t i).left = b.left - 1 ∧ (arbiter t i).grant = b.grant) ∧
        (e = true → (arbiter t i).left = 0 ∧ (arbiter t i).grant = b.grant + 1)) ∧
      (∀ x e, bankBusy s i = false → slotGrant b still = some (x, e, false) → (arbiter t i).grant = b.grant + 1 ∧ (arbiter t i).last x.rank = some x.port ∧
        (arbiter t i).left = (if e = true ∨ x.lock ≤ 1 then 0 else min 32 x.lock - 1) ∧
        ((b.grant + 1) % 8 ≠ 0 → ∀ y ∈ seenAt b still, x.rank ≤ y.1.rank) ∧
        ((b.grant + 1) % 8 = 0 → ∀ y ∈ seenAt b still, sinceOf b x * 64 + x.port ≤ sinceOf b y.1 * 64 + y.1.port)) ∧
      (∀ j, arbKey j ≠ arbKey i → arbiter t j = arbiter s j) ∧ t.mem = s.mem ∧ outsideKept s t ∧
      ∀ k, exec (.hbmRefresh k) s = .next s

/-! ## Elastic windows -/

/-- A WINDOW_OPEN cue of a builder opens its window in the cycle of its start: the pending place is free, no byte of memory has changed, and the
window holds what its builder will show at the close; a tenant mix, a command that its check rejects and a list that does not fit fail the window and
stop firing when the build ends. That the mix and the overrun are recorded as the window opens is the model's reading (log 65). -/
def Obligations.WindowsOpen : Prop :=
  ∀ (d : Die) (s b : State) (p : Pending) (c x blk : Nat), x = ofLE ((sheet (readyAt s (.control d))).desc (cDesc p.raw) 32) →
    blk = ofLE ((sheet (readyAt s (.control d))).desc (cDesc p.raw + 1) 64) → startsAt s (.control d) 1 p c →
    b = (let l := leftAt s (.control d) p c; setUnit l (.control d) { unit l (.control d) with freeAt := c }) →
    (wdBuilder x = 1 →
      ∃ t ws w, exec (.tenantBind d) s = .next t ∧ t.stage.windows = ws ++ [w] ∧
        ws.map (fun y => { y with raced := false }) = s.stage.windows.map (fun y => { y with raced := false }) ∧ w.die = d ∧ w.cue = p.cue ∧
        w.openedAt = c ∧ w.builtAt = c + buildCost 1 blk ∧ w.signal = doneSignal p.raw ∧
        w.outputs = (bindBuild (asOf b c) d.val blk (wdResult x)).writes ∧
        (w.failed = true ↔ (bindBuild (asOf b c) d.val blk (wdResult x)).mix.isSome) ∧
        (w.failed = true → t.step.stopped = true ∧ oneMore s t 0x0C (dieplace d)) ∧
        (unit t (.control d)).pending = none ∧ t.mem.bytes = s.mem.bytes ∧ outsideKept s t) ∧
    (wdBuilder x = 2 →
      ∃ t ws w, exec (.routeAlloc d) s = .next t ∧ t.stage.windows = ws ++ [w] ∧
        ws.map (fun y => { y with raced := false }) = s.stage.windows.map (fun y => { y with raced := false }) ∧ w.die = d ∧ w.cue = p.cue ∧
        w.openedAt = c ∧ w.builtAt = c + buildCost 2 blk ∧ w.signal = doneSignal p.raw ∧
        w.outputs = (routeBuild (asOf b c) d.val blk (wdResult x)).writes ∧
        w.failed = false ∧ (unit t (.control d)).pending = none ∧ t.step.stopped = s.step.stopped ∧ t.mem.bytes = s.mem.bytes ∧
        outsideKept s t) ∧
    (wdBuilder x = 3 →
      ∃ t w g, exec (.expertList d) s = .next t ∧
        g = fillsOf (readAll (whoPrompter p.cue) b [(wdResult x + 4 * bits blk 511 503, 4 * bits blk 502 494)]) blk (wdResult x) ∧ t.stage.windows = s.stage.windows ++ [w] ∧ w.die = d ∧ w.cue = p.cue ∧
        w.openedAt = c ∧ w.builtAt = c + buildCost 3 blk ∧ w.signal = doneSignal p.raw ∧ w.outputs = [] ∧
        (unit t (.control d)).pending = none ∧ t.mem.bytes = s.mem.bytes ∧ outsideKept s t ∧
        (∀ l, planList blk g.1 (sheet b) (templatesOf (sheet b) p.raw) = .ok l →
          (w.failed = false ↔ pathCost b l ≤ wdLen x - wdBuild x) ∧ (w.failed = false → w.built = l.filterMap builtOf) ∧
          (w.failed = true → w.built = [] ∧ t.step.stopped = true ∧ oneMore s t 0x04 (dieplace d))) ∧
        (∀ u, planList blk g.1 (sheet b) (templatesOf (sheet b) p.raw) = .error u →
          w.failed = true ∧ t.step.stopped = true ∧ oneMore s t 0x04 (dieplace d)))

/-- A prompter issues the unit's first built command that is not issued, of the oldest window with one, in the first cycle from now on in which it is
built, its wait holds, its unit is free and lent and the consumers before it are done, if that lies in the window: the unit runs it for the window; the
command is issued once. -/
def Obligations.BuiltCommandsAreIssuedInOrder : Prop :=
  ∀ (d : Die) (u : UnitId) (s s0 : State) (w : Window) (b : Built) (ws : List Window) (m c : Nat), s0 = settle s → unitDie u = d →
    takeWindow d u s0.stage.windows = some (w, b, ws) → issueCycle s0 w d u b = some m → c = max m s0.now →
    ((reaches s0 c = true ∧ c < w.openedAt + wdLen w.desc.toNat) →
      ∃ t r, exec (.prompterIssue d u) s = .next t ∧ (unit t u).running = some r ∧ r.window = some w.cue ∧ r.cue = w.cue ∧
        r.opcode = b.opcode ∧ r.desc = b.desc ∧ r.firedAt = c ∧ r.startedAt = c ∧
        t.stage.windows.map (fun y => { y with raced := false }) = ws.map (fun y => { y with raced := false }) ∧
        (unit t u).pending.map (fun q => { q with metAt := none }) = (unit s u).pending.map (fun q => { q with metAt := none }) ∧
        (r.halted = false → t.mem.bytes = s.mem.bytes) ∧ (∀ v, v ≠ u → unitKept s t v) ∧ outsideKept s t) ∧
    ((reaches s0 c = false ∨ w.openedAt + wdLen w.desc.toNat ≤ c) → exec (.prompterIssue d u) s = .next s)

/-- In its last cycle a window with no unit busy closes: its outputs become visible and nothing else of memory, its WINDOW_OPEN completes,
the window is gone, and the cycles after its last work are idle. With a named unit busy, or a command not issued, the units stop, each with its
WINDOW_OVERRUN, and firing stops with cause 2, FAILED, unless another cause came first. That a command not issued is an overrun, that the units stop after
the last cycle, and which cycles count as idle are the model's choice (log 66). -/
def Obligations.AWindowClosesInItsLastCycle : Prop :=
  ∀ (d : Die) (cue e : Nat) (ns : List Progress) (s : State) (w : Window),
    s.stage.windows.find? (fun x => x.die = d && x.cue = cue) = some w → e = w.openedAt + wdLen w.desc.toNat - 1 →
    (reaches s e = false → exec (.windowClose d cue ns) s = .next s) ∧
    (reaches s e = true → busyUnits s w = [] →
      ∃ t o, exec (.windowClose d cue ns) s = .next t ∧ t.now = max s.now e ∧ o = windowOut (settle (clockTo s e)) w ∧
        (w.raced = false → o.1 = w.outputs) ∧ t.mem.bytes = (writeAll (whoPrompter w.cue) o.2 o.1).mem.bytes ∧
        onlyWrites s t w.outputs ∧ t.step.lastDone = max s.step.lastDone e ∧ (∀ v, unitKept s t v) ∧
        (∀ x ∈ t.stage.windows, ¬(x.die = d ∧ x.cue = cue)) ∧
        (w.failed = false → t.step.idleCycles = stopAt top64 (s.step.idleCycles + (e - w.lastDone))) ∧
        t.step.stopped = s.step.stopped ∧ outsideKept s t) ∧
    (reaches s e = true → busyUnits s w ≠ [] →
      ∃ t, exec (.windowClose d cue ns) s = .next t ∧ (∀ x ∈ t.stage.windows, ¬(x.die = d ∧ x.cue = cue)) ∧ t.step.stopped = true ∧
        (∀ u ∈ busyUnits s w, (unit t u).running = none ∧ (unit t u).tail = []) ∧
        countOf t 0x04 (dieplace d) = stopAt top32 (countOf s 0x04 (dieplace d) + (busyUnits s w).length) ∧
        (s.step.cause = 0 → t.step.cause = 2 ∧ t.step.failed = true) ∧ (s.step.cause ≠ 0 → t.step.cause = s.step.cause) ∧
        outsideKept s t)

/-! ## Tenants and scrubs -/

/-- TENANT_OPEN makes a CLOSED tenant OPEN with the next generation and its paddock; TENANT_CLOSE and TENANT_KILL of an OPEN tenant fence its regions as
far as the 4,096 entries go, the others wait (R289), and set SCRUB_PENDING; one without regions is CLOSED at once. TENANT_STATUS and SCRUB_STATUS answer
from the entry. TENANT_OPEN of a tenant that is not CLOSED, TENANT_KILL of one that is not OPEN, and TENANT_CLOSE of one that is not OPEN or is ACTIVE are
refused with TENANT_STATE. -/
def Obligations.TenantCommandsTakeEffect : Prop :=
  ∀ (f : Frame) (s : State) (i : Nat), i = leAt f.payload 0 2 →
    (accepts s f (cmd 0x50) = true → 16 ≤ f.payload.length → f.payload.length = 16 + 16 * byteAt f.payload 4 → byteAt f.payload 4 ≤ 16 →
      i < 16384 → leAt f.payload 2 2 < 1024 → zeroAt f.payload 5 3 = true → zeroAt f.payload 15 1 = true →
      (regionRecords f.payload (byteAt f.payload 4)).any (fun w => bits w 31 0 ≠ 0) = false → s.guard.lifecycle = .field →
      (tenant s i).st = .closed → paddockOk s i ((regionRecords f.payload (byteAt f.payload 4)).map recordRange) = true →
      ∃ t, exec (.tenantOpen f) s = .next t ∧ (tenant t i).st = .open_ ∧ (tenant t i).generation = (tenant s i).generation + 1 ∧
        (tenant t i).place = BitVec.ofNat 10 (leAt f.payload 2 2) ∧
        (tenant t i).regions = (regionRecords f.payload (byteAt f.payload 4)).map recordRange ∧ (tenant t i).hits = 0 ∧
        (∀ j, j ≠ i → tenant t j = tenant s j) ∧ t.mem = s.mem ∧ t.guard = s.guard) ∧
    (accepts s f (cmd 0x51) = true → f.payload.length = 2 → i < 16384 → (tenant s i).st = .open_ → (tenant s i).active = false →
      (tenant s i).regions ≠ [] →
      ∃ t, exec (.tenantClose f) s = .next t ∧ (tenant t i).st = .fenced ∧ t.guard.scrubPending = true ∧
        t.mem.fences = s.mem.fences ++ (fencesOf i (tenant s i)).take (4096 - s.mem.fences.length) ∧
        t.mem.waiting = s.mem.waiting ++ (fencesOf i (tenant s i)).drop (4096 - s.mem.fences.length) ∧ t.mem.bytes = s.mem.bytes ∧
        (∀ j, j ≠ i → tenant t j = tenant s j) ∧
        ∀ k, s.ctl.carrier = some k → ∃ y, t.ctl.sent = s.ctl.sent ++ [y] ∧ y.opcode = 0x51 ∧ y.status = stOk ∧ y.refSeq = f.seq ∧
          y.payload = [BitVec.ofNat 8 (min (4096 - s.mem.fences.length) (tenant s i).regions.length),
                       BitVec.ofNat 8 ((tenant s i).regions.length - (4096 - s.mem.fences.length))]) ∧
    (accepts s f { cmd 0x52 with cls := 0 } = true → f.payload.length = 2 → i < 16384 → (tenant s i).st = .open_ →
      (tenant s i).regions ≠ [] →
      ∃ t, exec (.tenantKill f) s = .next t ∧ (tenant t i).st = .fenced ∧ t.guard.scrubPending = true ∧
        t.mem.fences = s.mem.fences ++ (fencesOf i (tenant s i)).take (4096 - s.mem.fences.length) ∧
        t.mem.waiting = s.mem.waiting ++ (fencesOf i (tenant s i)).drop (4096 - s.mem.fences.length) ∧
        oneMore s t 0x4A (guardPlace s) ∧ t.mem.bytes = s.mem.bytes ∧ (∀ j, j ≠ i → tenant t j = tenant s j)) ∧
    (∀ c, (c = Instr.tenantClose f ∧ accepts s f (cmd 0x51) = true ∧ (tenant s i).active = false ∨
          c = Instr.tenantKill f ∧ accepts s f { cmd 0x52 with cls := 0 } = true) →
      f.payload.length = 2 → i < 16384 → (tenant s i).st = .open_ → (tenant s i).regions = [] →
      ∃ t, exec c s = .next t ∧ (tenant t i).st = .closed ∧ oneMore s t 0x4B (guardPlace s) ∧ t.mem.bytes = s.mem.bytes) ∧
    (accepts s f (cmd 0x53) = true → f.payload.length = 2 → i < 16384 →
      exec (.tenantStatus f) s = .next (replies s f 0x53 (tenantStatusReply (tenant s i)) (afterAccept s f))) ∧
    (accepts s f (cmd 0x54) = true → f.payload.length = 2 → i < 16384 →
      exec (.scrubStatus f) s = .next (replies s f 0x54 ([BitVec.ofNat 8 (b01 (decide ((tenant s i).st ≠ .fenced)))] ++ zeros 7 ++
        ((tenant s i).zeroed.map (toLE 8)).flatten) (afterAccept s f))) ∧
    (accepts s f (cmd 0x51) = true → f.payload.length = 2 → i < 16384 → ((tenant s i).st ≠ .open_ ∨ (tenant s i).active = true) →
      exec (.tenantClose f) s = .next (finish (afterAccept s f) (owedBy s f 0x51) stTenantState [])) ∧
    (accepts s f { cmd 0x52 with cls := 0 } = true → f.payload.length = 2 → i < 16384 → (tenant s i).st ≠ .open_ →
      exec (.tenantKill f) s = .next (finish (afterAccept s f) (owedBy s f 0x52) stTenantState [])) ∧
    (accepts s f (cmd 0x50) = true → f.payload.length = 16 + 16 * byteAt f.payload 4 → byteAt f.payload 4 ≤ 16 → i < 16384 →
      leAt f.payload 2 2 < 1024 → zeroAt f.payload 5 3 = true → zeroAt f.payload 15 1 = true →
      (regionRecords f.payload (byteAt f.payload 4)).any (fun w => bits w 31 0 ≠ 0) = false → s.guard.lifecycle = .field →
      (tenant s i).st ≠ .closed →
      exec (.tenantOpen f) s = .next (finish (afterAccept s f) (owedBy s f 0x50) stTenantState []))

/-- A die's scrub engine takes its next fenced region and its end leaves the die's part of it zero; the last one of a tenant closes it. A
REGION_SCRUB of a range that no step uses and no paddock holds is accepted and owed; the oldest one's end leaves its range zero and sends its
final reply. A bank that is neither ON nor OFF holds each of them back. -/
def Obligations.ScrubsZeroWhatTheyCover : Prop :=
  (∀ (d : Die) (s : State) (f : Fence),
      (nextScrub s d = some f →
        ∃ t, exec (.scrubRegionStart d) s = .next t ∧
          t.mem.fences = setFence s.mem.fences f { f with scrubbing := d.val :: f.scrubbing } ∧ t.mem.bytes = s.mem.bytes ∧
          t.tenants = s.tenants ∧ outsideKept s t) ∧
      (∀ x rs, s.mem.fences.find? (fun y => y.scrubbing.contains d.val) = some f → diePart d.val (f.base, f.len) = some x →
        rs = (if (fenceDies f).all (d.val :: f.scrubbed).contains then (tenant s f.tenant).rstate.set f.region 3
              else (tenant s f.tenant).rstate) →
        (rangeBlocked s x = true → exec (.scrubRegionDone d) s = .next s) ∧
        (rangeBlocked s x = false →
          ∃ t, exec (.scrubRegionDone d) s = .next t ∧
            (s.cfg.regions.any (fun e => entryBit e.2 77) = false →
              (∀ a, x.1 ≤ a → a < x.1 + x.2 → Sparse.get zeroByte t.mem.bytes a = 0) ∧
              ∀ a, (a < x.1 ∨ x.1 + x.2 ≤ a) → Sparse.get zeroByte t.mem.bytes a = Sparse.get zeroByte s.mem.bytes a) ∧
            (rs.all (fun v => decide (v = 3)) = false →
              (tenant t f.tenant).st = (tenant s f.tenant).st ∧ (tenant t f.tenant).rstate = rs ∧ t.guard = s.guard ∧ t.ctl = s.ctl) ∧
            (rs.all (fun v => decide (v = 3)) = true →
              (tenant t f.tenant).st = .closed ∧ (s.mem.waiting = [] → ∀ y ∈ t.mem.fences, y.tenant ≠ f.tenant))))) ∧
  (∀ (f : Frame) (s : State),
      (accepts s f (cmd 0x93) = true → f.payload.length = 13 → zeroAt f.payload 7 1 = true → leAt f.payload 0 7 % 256 = 0 →
        leAt f.payload 8 5 % 256 = 0 → leAt f.payload 8 5 ≠ 0 → stepBusy s = false →
        scrubInside (leAt f.payload 0 7, leAt f.payload 8 5) = true →
        (heldRegions s 16384).any (fun x => overlaps (leAt f.payload 0 7) (leAt f.payload 8 5) x.1 x.2) = false →
        ∃ t, exec (.regionScrub f) s = .next t ∧
          t.mem.scrubs = s.mem.scrubs ++ [{ base := leAt f.payload 0 7, len := leAt f.payload 8 5, owed := owedBy s f 0x93 }] ∧
          t.mem.bytes = s.mem.bytes ∧ t.tenants = s.tenants) ∧
      (∀ x r, s.mem.scrubs = x :: r → rangeBlocked s (x.base, x.len) = true → exec .regionScrubDone s = .next s) ∧
      (∀ x r, s.mem.scrubs = x :: r → rangeBlocked s (x.base, x.len) = false →
        ∃ t, exec .regionScrubDone s = .next t ∧ t.mem.scrubs = r ∧
          (s.cfg.regions.any (fun e => entryBit e.2 77) = false →
            (∀ a, x.base ≤ a → a < x.base + x.len → Sparse.get zeroByte t.mem.bytes a = 0) ∧
            ∀ a, (a < x.base ∨ x.base + x.len ≤ a) → Sparse.get zeroByte t.mem.bytes a = Sparse.get zeroByte s.mem.bytes a) ∧
          (∀ k, s.ctl.carrier = some k → ∃ y, t.ctl.sent = s.ctl.sent ++ [y] ∧ y.opcode = x.owed.opcode ∧ y.status = stOk ∧
            y.refSeq = x.owed.seq)))


/-! ## Sheets and tensors -/

/-- SHEET_BEGIN makes a store LOADING with the size and hash given; SHEET_DATA places its chunk and counts a second copy of it; SHEET_VERIFY of a store with every chunk is
accepted and its end makes the store VERIFIED, or REJECTED with the die, cue and item of the first failure; SHEET_STATUS answers from both
stores; SHEET_CLEAR empties one. A chunk waits behind data of its port that waits. That a BEGIN or a CLEAR ends the store's running verification with BUSY
is the model's reading (log 50). -/
def Obligations.SheetsAreLoadedAndVerified : Prop :=
  ∀ (f : Frame) (s : State) (k : Fin 2), k = storeNo f.payload →
    (accepts s f (cmd 0x20) = true → f.payload.length = 48 → storeNamed f.payload = true → zeroAt f.payload 1 7 = true →
      leAt f.payload 8 8 % 32 = 0 → 64 ≤ leAt f.payload 8 8 → leAt f.payload 8 8 ≤ 2 ^ 30 → s.cfg.deviceId.isSome →
      (storeAt s k).st ≠ .verified → (storeAt s k).st ≠ .inUse →
      exec (.sheetBegin f) s = .next (replies s f 0x20 [] (setStore (dropVerify (afterAccept s f) k) k
        { st := .loading, size := leAt f.payload 8 8, expected := BitVec.ofNat 256 (ofBE (slice f.payload 16 32)), bytes := [],
          chunks := [], dups := 0, verify := none }))) ∧
    (acceptsData s f sheetDataInfo = true → 17 ≤ f.payload.length → storeNamed f.payload = true → zeroAt f.payload 1 7 = true →
      (storeAt s k).st = .loading → leAt f.payload 8 8 % 8128 = 0 → leAt f.payload 8 8 < (storeAt s k).size →
      (f.payload.drop 16).length = min 8128 ((storeAt s k).size - leAt f.payload 8 8) → dataWaits f.port s.fwHeld = false →
      ∃ t, exec (.sheetData f) s = .next t ∧
        (storeAt t k).bytes = Sparse.put zeroByte (storeAt s k).bytes (leAt f.payload 8 8) (f.payload.drop 16) ∧
        leAt f.payload 8 8 ∈ (storeAt t k).chunks ∧
        (storeAt t k).dups = (storeAt s k).dups + b01 ((storeAt s k).chunks.contains (leAt f.payload 8 8)) ∧ (storeAt t k).st = .loading ∧ t.mem = s.mem ∧ t.ctl.sent = s.ctl.sent) ∧
    (acceptsData s f sheetDataInfo = true → dataWaits f.port s.fwHeld = true →
      ∃ t, exec (.sheetData f) s = .next t ∧ t.fwHeld = s.fwHeld ++ [.sheetData f] ∧ storeAt t k = storeAt s k ∧ t.mem = s.mem ∧
        t.ctl.sent = s.ctl.sent) ∧
    (accepts s f (cmd 0x22) = true → f.payload.length = 1 → storeNamed f.payload = true → (storeAt s k).st = .loading →
      (storeAt s k).verify = none → sheetMissing (storeAt s k) = [] →
      exec (.sheetVerify f) s = .next (acceptedReply f 0x22 (setStore (afterAccept s f) k
        { storeAt s k with verify := some (owedBy s f 0x22) }))) ∧
    (accepts s f (cmd 0x23) = true → f.payload = [] →
      exec (.sheetStatus f) s = .next (replies s f 0x23 (storeStatus s.store0 ++ storeStatus s.store1) (afterAccept s f))) ∧
    (accepts s f (cmd 0x24) = true → f.payload.length = 1 → storeNamed f.payload = true → (storeAt s k).st ≠ .inUse →
      exec (.sheetClear f) s = .next (replies s f 0x24 [] (setStore (dropVerify (afterAccept s f) k) k CueStore.reset))) ∧
    ((storeAt s k).verify = none → dropVerify s k = s) ∧
    (∀ o, (storeAt s k).verify = some o → dropVerify s k = finish s o stBusy []) ∧
    (∀ o, (storeAt s k).verify = some o →
      (sheetCheck s (storeAt s k) = none →
        exec (.sheetVerifyDone k) s = .next (finish (setStore s k { storeAt s k with st := .verified, verify := none }) o stOk [])) ∧
      (∀ r, sheetCheck s (storeAt s k) = some r →
        exec (.sheetVerifyDone k) s = .next (finish (setStore s k { storeAt s k with st := .rejected, verify := none }) o
          stSheetRejected (toLE 4 r.die ++ toLE 4 r.cue ++ toLE 1 r.item))))

/-- WRITE_OPEN opens a transfer; WRITE_DATA with a channel free writes its chunk and counts it, without one it waits; WRITE_CLOSE answers
with what was written and ends the transfer; READ with a channel free answers with its length and CRC; CANCEL ends a transfer, its written bytes
staying and its waiting chunks gone; a waiting transfer starts when a channel frees, and a chunk that waited only behind it follows. Where no access fails, no byte is written but the chunk's and those of the channel's
completion record (its place is the model's choice, log 47). -/
def Obligations.TensorTransfersMoveTheirBytes : Prop :=
  ∀ (f : Frame) (s : State) (i : BitVec 32), i = xferId f.payload →
    (accepts s f (cmd 0x30) = true → f.payload.length = 21 → zeroAt f.payload 4 4 = true → zeroAt f.payload 15 1 = true →
      leAt f.payload 16 5 ≠ 0 → tensorRange (leAt f.payload 8 7) (leAt f.payload 16 5) = true → xferLimit s i = false →
      exec (.writeOpen f) s = .next (replies s f 0x30 [] (let a := afterAccept s f
        { a with xfers := a.xfers ++
            [{ id := i, base := leAt f.payload 8 7, len := leAt f.payload 16 5, chunks := [], dups := 0, hits := 0, written := 0 }] }))) ∧
    (∀ x, acceptsData s f { cmd 0x31 with cls := 2, standby := true } = true → i ≠ tier3Id → xferOf s i = some x →
      chunkFits x f.payload = true →
      (∀ k, s.fwHeld = [] → fwChannel s (dieOf x.base) = some k →
        ∃ t y, exec (.writeData f) s = .next t ∧
          t.mem = (fwWrite (creditUse s f.port f.cls) k (x.base + leAt f.payload 8 8) (f.payload.drop 16)).mem ∧
          ((untilFault s (x.base + leAt f.payload 8 8) (f.payload.drop 16).length true).2 = none → bankFault s (fwRecAt k) 32 = false →
            onlyWrites s t [(x.base + leAt f.payload 8 8, f.payload.drop 16), (fwRecAt k, zeros 32)]) ∧
          xferOf t i = some y ∧ leAt f.payload 8 8 ∈ y.chunks ∧ y.len = x.len ∧ y.base = x.base ∧
          (leAt f.payload 8 8 ∉ x.chunks → y.written = x.written + (f.payload.length - 16) ∧ y.dups = x.dups) ∧
          (leAt f.payload 8 8 ∈ x.chunks → y.written = x.written ∧ y.dups = x.dups + 1)) ∧
      ((s.fwHeld ≠ [] ∨ fwChannel s (dieOf x.base) = none) →
        ∃ t, exec (.writeData f) s = .next t ∧ t.fwHeld = s.fwHeld ++ [.writeData f] ∧ t.mem = s.mem ∧ t.xfers = s.xfers)) ∧
    (∀ x, accepts s f (cmd 0x32) = true → f.payload.length = 4 → heldData i s.fwHeld = false → xferOf s i = some x →
      (∀ o ∈ chunkOffsets x.len, o ∈ x.chunks) →
      ∃ t, exec (.writeClose f) s = .next t ∧ xferOf t i = none ∧ t.mem = s.mem ∧
        ∀ k, s.ctl.carrier = some k → ∃ y, t.ctl.sent = s.ctl.sent ++ [y] ∧ y.status = stOk ∧
          y.payload = toLE 8 x.written ++ toLE 4 x.chunks.length ++ toLE 4 x.dups ++ toLE 4 (stopAt top32 x.hits)) ∧
    (∀ k, accepts s f (cmd 0x33) = true → f.payload.length = 21 → byteAt f.payload 4 < 2 → zeroAt f.payload 5 3 = true →
      zeroAt f.payload 15 1 = true → leAt f.payload 16 5 ≠ 0 → tensorRange (leAt f.payload 8 7) (leAt f.payload 16 5) = true →
      xferLimit s i = false → s.fwHeld = [] → fwChannel s (dieOf (leAt f.payload 8 7)) = some k →
      ∃ t, exec (.read f) s = .next t ∧ t.step.phase = s.step.phase ∧ t.cfg = s.cfg ∧
        ((untilFault s (leAt f.payload 8 7) (leAt f.payload 16 5) false).2 = none → bankFault s (fwRecAt k) 32 = false →
          onlyWrites s t [(fwRecAt k, zeros 32)]) ∧
        ∀ c, s.ctl.carrier = some c → ∃ y, t.ctl.sent.getLast? = some y ∧ y.opcode = 0x33 ∧ y.status = stOk ∧ y.refSeq = f.seq ∧
          y.payload = toLE 8 (leAt f.payload 16 5) ++ toLE 4 (stopAt top32 (hitsOf s (leAt f.payload 8 7) (leAt f.payload 16 5))) ++
            toLE 4 (crc32c (fwRead (afterAccept s f) k (leAt f.payload 8 7) (leAt f.payload 16 5)).1)) ∧
    (∀ x, accepts s f (cmd 0x35) = true → f.payload.length = 4 → xferOf s i = some x →
      ∃ t, exec (.cancel f) s = .next t ∧ xferOf t i = none ∧ t.mem = s.mem ∧ readsOf i t.fwHeld = [] ∧ dataOf i t.fwHeld = []) ∧
    (∀ g r k, s.fwHeld = .read g :: r → r.all ofTransfer = true → fwChannel s (dieOf (leAt g.payload 8 7)) = some k →
      ∃ t, exec .firmwareTransferStart s = .next t ∧ t.fwHeld = r ∧
        ((untilFault s (leAt g.payload 8 7) (leAt g.payload 16 5) false).2 = none → bankFault s (fwRecAt k) 32 = false →
          onlyWrites s t [(fwRecAt k, zeros 32)])) ∧
    (∀ g r k, s.fwHeld = .writeClose g :: r → r.all ofTransfer = true → fwChannel s 0 = some k →
      ∃ t, exec .firmwareTransferStart s = .next t ∧ t.fwHeld = r ∧ t.mem = s.mem) ∧
    (∀ g r x k, s.fwHeld = .writeData g :: r → s.fwHeld.all ofTransfer = true → xferOf s (xferId g.payload) = some x → chunkFits x g.payload = true →
      fwChannel s (dieOf x.base) = some k →
      ∃ t, exec .firmwareTransferStart s = .next t ∧ t.fwHeld = r ∧
        ((untilFault s (x.base + leAt g.payload 8 8) (g.payload.drop 16).length true).2 = none → bankFault s (fwRecAt k) 32 = false →
          onlyWrites s t [(x.base + leAt g.payload 8 8, g.payload.drop 16), (fwRecAt k, zeros 32)])) ∧
    (∀ g, s.fwHeld = [.sheetData g] →
      exec .firmwareTransferStart s = .next { takeChunk s g 0x21 (sheetDataBody g) with fwHeld := [] }) ∧
    (s.fwHeld = [] → exec .firmwareTransferStart s = .next s)

/-! ## Peer ports -/

/-- A peer port moves between its states as sp. 11 Table 11-3 says, each move recorded (kind 0x0F): trained to VERIFY, failed or lost to
DOWN with nothing in flight, again to TRAINING, or to DISABLED when its entry or a lane is; an agreeing identity takes it UP, another to MISMATCH;
an IDENT sent takes the next token. What the lanes corrected counts wherever flits cross (R324). That one agreeing IDENT is enough is the model's
choice (log 49). -/
def Obligations.PortsMoveBetweenTheirStates : Prop :=
  ∀ (p : PortNo) (s : State),
    ((port s p).st = .training →
      (∃ t, exec (.portTrainingDone p) s = .next t ∧ (port t p).st = .verify ∧ oneMore s t 0x0F (portPlace p) ∧
        (∀ q, q ≠ p → port t q = port s q) ∧ t.mem = s.mem ∧ outsideKept s t) ∧
      ∃ t, exec (.trainingTimeout p) s = .next t ∧ (port t p).st = .down ∧ oneMore s t 0x0F (portPlace p) ∧ (port t p).rx = [] ∧
        (port t p).tx = [] ∧ (∀ q, q ≠ p → port t q = port s q) ∧ outsideKept s t) ∧
    ((port s p).st = .verify →
      ∃ t, exec (.identTimeout p) s = .next t ∧ (port t p).st = .down ∧ oneMore s t 0x0F (portPlace p) ∧
        (∀ q, q ≠ p → port t q = port s q) ∧ outsideKept s t) ∧
    ((port s p).st = .up →
      ∃ t, exec (.laneLockLost p) s = .next t ∧ (port t p).st = .down ∧ (port t p).rx = [] ∧ (port t p).tx = [] ∧
        (port t p).retry = [] ∧ (port t p).waitq = [] ∧ (port t p).retrains = stopAt top32 ((port s p).retrains + 1) ∧
        oneMore s t 0x0F (portPlace p) ∧ (∀ q, q ≠ p → port t q = port s q) ∧ outsideKept s t) ∧
    ((port s p).st = .down →
      ∃ t, exec (.portRetrain p) s = .next t ∧
        (port t p).st = (if peerEnable (port s p).entry && lanesOn s p then .training else .disabled) ∧
        oneMore s t 0x0F (portPlace p) ∧ (∀ q, q ≠ p → port t q = port s q) ∧ outsideKept s t) ∧
    (((port s p).st = .verify ∨ (port s p).st = .mismatch) →
      ∃ t f, exec (.identSend p) s = .next t ∧ (port t p).token = (port s p).token + 1 ∧ (port t p).out = (port s p).out ++ [f] ∧
        f.kind = 9 ∧ f.body = identBody s p (port s p).token ∧ (port t p).st = (port s p).st ∧ t.mem = s.mem ∧ outsideKept s t) ∧
    (∀ b, (port s p).st = .verify →
      ∃ t, exec (.ident p b) s = .next t ∧ (port t p).st = (if identAgrees s p b then .up else .mismatch) ∧
        (port t p).rxSerial = b.serial ∧ oneMore s t 0x0F (portPlace p) ∧
        (port t p).corrected = (port (countCorrected s p b.fec) p).corrected ∧ (∀ q, q ≠ p → port t q = port s q) ∧ t.mem = s.mem ∧
        outsideKept s t) ∧
    (∀ b, (port s p).st = .mismatch →
      ∃ t, exec (.ident p b) s = .next t ∧ (port t p).st = .mismatch ∧ (port t p).rxSerial = b.serial ∧
        (port t p).corrected = (port (countCorrected s p b.fec) p).corrected ∧ t.mem = s.mem ∧ t.err = s.err) ∧
    (∀ b, (port s p).st ≠ .verify → (port s p).st ≠ .mismatch → exec (.ident p b) s = .next (countCorrected s p b.fec)) ∧
    (∀ l : Corrected, flitsCross s p = false → countCorrected s p l = s) ∧
    (∀ i n, flitsCross s p = true →
      (port (countCorrected s p [(i, n)]) p).corrected = Sparse.bump top64 (port s p).corrected i.val n)

/-- Bad flits on an UP port, spoiled by an uncorrectable codeword, with header bits that do not agree, or with a CRC or KIND that is not right,
are answered with a NAK that names them, at most 21, and the codeword is counted; more than 1,000 in 1 ms exhaust the port (LINK_RETRY, kind 0x10,
DOWN). No ACK progress sends every kept flit again; a flit sent again 16 times exhausts the port. A LINK frees what its ACK covers and returns its
credits; with a NAK the kept flits it names leave again, ahead of every flit that waits. -/
def Obligations.LinkRetrySendsAgain : Prop :=
  ∀ (p : PortNo) (s : State), (port s p).st = .up →
    (∀ a b (l : Option (Fin 8)) hd raw, (l.isSome ∨ flitSound hd raw = false) →
      ((port s p).naks.filter (fun t => decide (s.ref < t + 1000000))).length < 1000 →
      ∃ t f, exec (.badFlit p a b ⟨l, hd, raw⟩) s = .next t ∧ (port t p).st = .up ∧ (port t p).out = (port s p).out ++ [f] ∧ f.kind = 7 ∧
        f.body = toLE 2 a.toNat ++ toLE 2 (a + BitVec.ofNat 16 (min 20 (b - a).toNat)).toNat ++ [1] ∧ f.ack = (port s p).rxNext ∧
        (port t p).uncorrectable = (match l with
          | some i => Sparse.bump top32 (port s p).uncorrectable i.val 1
          | none => (port s p).uncorrectable) ∧ t.mem = s.mem ∧ t.err = s.err ∧ outsideKept s t) ∧
    (∀ a b (l : Option (Fin 8)) hd raw, (l.isSome ∨ flitSound hd raw = false) →
      1000 ≤ ((port s p).naks.filter (fun t => decide (s.ref < t + 1000000))).length →
      ∃ t, exec (.badFlit p a b ⟨l, hd, raw⟩) s = .next t ∧ (port t p).st = .down ∧ oneMore s t 0x10 (portPlace p) ∧ outsideKept s t) ∧
    (∀ a b hd raw, flitSound hd raw = true → exec (.badFlit p a b ⟨none, hd, raw⟩) s = .next s) ∧
    ((port s p).retry ≠ [] → (port s p).retry.all (fun k => decide (k.resends < 15)) = true →
      ∃ t, exec (.retryTimeout p) s = .next t ∧ (port t p).out = (port s p).out ++ (port s p).retry.map (·.flit) ∧
        (port t p).retry = (port s p).retry.map (fun k => { k with resends := k.resends + 1 }) ∧
        (port t p).retries = stopAt top32 ((port s p).retries + 1) ∧ (port t p).st = .up ∧
        t.mem = s.mem ∧ t.err = s.err ∧ outsideKept s t) ∧
    ((port s p).retry.any (fun k => decide (15 ≤ k.resends)) = true →
      ∃ t, exec (.retryTimeout p) s = .next t ∧ (port t p).st = .down ∧ oneMore s t 0x10 (portPlace p) ∧ outsideKept s t) ∧
    (∀ (h : FlitHdr) (c : State), h.port = p → c = countCorrected s p h.fec →
      exec (.link h none) s = .next (takeHeader c h none) ∧
      ((port s p).waitq = [] → (port (takeHeader c h none) p).retry = (port s p).retry.filter (fun k => !covered h.ack k)) ∧
      ∀ a b sel, sel = (fun q : BitVec 16 => decide ((q - a).toNat ≤ (b - a).toNat)) →
        exec (.link h (some (a, b))) s = .next (checkResends (takeHeader c h (some sel)) p) ∧
        ((port s p).waitq = [] → (port (takeHeader c h (some sel)) p).out = (port s p).out ++
          (((port s p).retry.filter (fun k => !covered h.ack k)).filter (fun k => sel k.flit.seq)).map (·.flit)))

/-- The next flit in sequence is delivered and the number expected moves: a HEAD opens a transfer and names it, a RESUME names one, data join
the transfer named, an END closes it with its CRC checked (kind 0x11 on a mismatch), a DONE ends a sent one. A flit ahead of its turn is held, one
delivered already is dropped, and a port that is not UP takes none (what its lanes corrected counts). Whether a transfer waits for its place among the
die's streams is its record's `queued` (R273). -/
def Obligations.FlitsAreDeliveredInSequence : Prop :=
  ∀ (s : State) (h : FlitHdr),
    (∀ b, nextInSequence s h.port (.head h b) →
      ∃ t, exec (.head h b) s = .next t ∧ (port t h.port).rxNext = (port s h.port).rxNext + 1 ∧
        (port t h.port).curXfer = some (h.sender, h.xfer) ∧
        ∃ l w ys, (port t h.port).rx = ys ++
            [{ sender := h.sender, xfer := h.xfer, head := b, data := [], ended := false, crcBad := false, clash := l, fenced := [],
               queued := w }] ∧
          ys.map (fun x => { x with clash := [] }) = (port s h.port).rx.map (fun x => { x with clash := [] })) ∧
    (nextInSequence s h.port (.resumeFlit h) →
      ∃ t, exec (.resumeFlit h) s = .next t ∧ (port t h.port).rxNext = (port s h.port).rxNext + 1 ∧
        (port t h.port).curXfer = some (h.sender, h.xfer) ∧ (port t h.port).rx = (port s h.port).rx) ∧
    (∀ p q d l r, nextInSequence s p (.dataFlit p q ⟨d, l⟩) → curRx (port s p) = some r →
      ∃ t, exec (.dataFlit p q ⟨d, l⟩) s = .next t ∧ (port t p).rxNext = (port s p).rxNext + 1 ∧
        curRx (port t p) = some { r with data := r.data ++ d } ∧ t.mem = s.mem ∧ outsideKept s t) ∧
    (∀ n c r, nextInSequence s h.port (.endFlit h n c) →
      (port s h.port).rx.find? (fun x => x.sender = h.sender && x.xfer = h.xfer && !x.ended) = some r →
      ∃ t x, exec (.endFlit h n c) s = .next t ∧ (port t h.port).rxNext = (port s h.port).rxNext + 1 ∧
        x ∈ (port t h.port).rx ∧ x.sender = h.sender ∧ x.xfer = h.xfer ∧ x.ended = true ∧ x.data = r.data.take n.toNat ∧
        (x.crcBad = true ↔ (crc32c (r.data.take n.toNat) ≠ c.toNat ∨ (r.data.take n.toNat).length ≠ n.toNat)) ∧
        (x.crcBad = true → oneMore (headerTaken s h) t 0x11 (portPlace h.port))) ∧
    (∀ b, nextInSequence s h.port (.done h b) →
      ∃ t, exec (.done h b) s = .next t ∧ (port t h.port).rxNext = (port s h.port).rxNext + 1 ∧
        (∀ x, (port s h.port).tx.find? (fun x => x.xfer = h.xfer) = some x → ∀ y ∈ (port t h.port).tx, y.xfer ≠ h.xfer)) ∧
    (∀ i, (port s h.port).st ≠ .up → receiveFlit s h.port i = countCorrected s h.port (fecOf i)) ∧
    (∀ i c, c = countCorrected s h.port (fecOf i) → (port s h.port).st = .up → 1 ≤ (flitSeq i - (port s h.port).rxNext).toNat →
      (flitSeq i - (port s h.port).rxNext).toNat < 32768 → (∀ x ∈ (port s h.port).reorder, flitSeq x ≠ flitSeq i) →
      (port s h.port).reorder.length < 1024 →
      receiveFlit s h.port i = setPort c h.port { port c h.port with reorder := (port s h.port).reorder ++ [i] }) ∧
    (∀ i, (port s h.port).st = .up → 32768 ≤ (flitSeq i - (port s h.port).rxNext).toNat →
      receiveFlit s h.port i = countCorrected s h.port (fecOf i))

/-- A TALLY's entries reach their tallies, a NOTICE is recorded (kind 0x12) and neither stops nor moves the step, and a RELAY of another
beat, more than 2,048 cycles away, raises BEAT_SKEW (kind 0x02), as the fourth in a row beyond 48 cycles does; one within 48 cycles clears the port's
run. A row is of consecutive beats: a beat without such a relay begins it anew. In UNLOCKED none is judged (R38). -/
def Obligations.TalliesNoticesAndRelaysAct : Prop :=
  ∀ (s : State) (h : FlitHdr),
    (∀ e, nextInSequence s h.port (.tally h [e]) →
      ∃ t, exec (.tally h [e]) s = .next t ∧ (port t h.port).rxNext = (port s h.port).rxNext + 1 ∧
        tallyOf t e.tally.toNat =
          BitVec.ofNat 32 (min 0xFFFFFFFF ((tallyOf (headerTaken s h) e.tally.toNat).toNat + e.inc.toNat))) ∧
    (∀ c n x, nextInSequence s h.port (.notice h c n x) →
      ∃ t, exec (.notice h c n x) s = .next t ∧ (port t h.port).rxNext = (port s h.port).rxNext + 1 ∧
        oneMore (headerTaken s h) t 0x12 (portPlace h.port) ∧ t.step.phase = s.step.phase ∧ t.step.stopped = s.step.stopped) ∧
    (∀ b c d n, nextInSequence s h.port (.relay h b c) → s.beat.lock ≠ .unlocked → d = (relaySkew s h.port b c).natAbs →
      n = (if (port s h.port).skewRun ≠ 0 ∧ b = (port s h.port).skewBeat + 1 then (port s h.port).skewRun + 1 else 1) →
      ∃ t, exec (.relay h b c) s = .next t ∧ (port t h.port).rxNext = (port s h.port).rxNext + 1 ∧
        (2048 < d → oneMore (headerTaken s h) t 0x02 (portPlace h.port)) ∧
        (d ≤ 48 → (port t h.port).skewRun = 0 ∧ t.err = (headerTaken s h).err) ∧
        (48 < d → d ≤ 2048 → n < 4 →
          (port t h.port).skewRun = n ∧ (port t h.port).skewBeat = b ∧ t.err = (headerTaken s h).err) ∧
        (48 < d → d ≤ 2048 → 4 ≤ n → (port t h.port).skewRun = 0 ∧ oneMore (headerTaken s h) t 0x02 (portPlace h.port))) ∧
    (∀ b c, nextInSequence s h.port (.relay h b c) → s.beat.lock = .unlocked →
      ∃ t, exec (.relay h b c) s = .next t ∧ t.err = (headerTaken s h).err)

/-- A transfer that has ended becomes visible: nothing but what it writes changes in memory, it is no longer being received, its DONE (KIND
4) goes to the port's transmitter, and, where all of it landed, its remote signal acts. A snapshot that is not admitted changes no memory. Of a piece
with a parity detection, and where another agent's writes meet the transfer's, the bytes are free ones. A transfer that waits for its place among the
die's 4,096 streams (R273, R275) lands only when one is free. -/
def Obligations.AReceivedTransferBecomesVisible : Prop :=
  ∀ (p : PortNo) (n : BitVec 16) (par : List Detect) (s s' r : State) (x y : RxXfer),
    (port s p).rx.find? (fun r => r.xfer = n && r.ended) = some x →
    s' = traceRxWait p x
      (setPort s p { port s p with rx := (port s p).rx.filter (fun r => !(r.sender = x.sender && r.xfer = n && r.ended)) }) →
    y = (blurRx x (par.map (·.part)) s').1 → r = rxParity (blurRx x (par.map (·.part)) s').2 p par →
    (x.queued = true → placeFor s (headDie x.head).val 0 = false → exec (.transferVisible p ⟨n, par⟩) s = .next s) ∧
    ((x.queued = true → placeFor s (headDie x.head).val 0 = true) →
    (par = [] → y = x) ∧
    ∃ t f, exec (.transferVisible p ⟨n, par⟩) s = .next t ∧
      onlyWrites s t ((rxWrites y).1 ++ x.clash.map (fun c => (c.1, zeros c.2))) ∧ (port t p).rx = (port s' p).rx ∧
      (port t p).st = (port s p).st ∧ (f ∈ (port t p).out ∨ f ∈ (port t p).waitq) ∧ f.kind = 4 ∧ f.cls = 1 ∧ f.xfer = n ∧
      (x.head.snap = false → t.mem.bytes = (landAll r p y).st.mem.bytes) ∧
      (x.head.snap = true → admitSnapshot s p.val x = false → t.mem.bytes = s.mem.bytes) ∧
      (x.head.snap = false → x.head.sigEn = true → (landAll r p y).fail = none →
        tallyOf t x.head.tally.toNat =
          BitVec.ofNat 32 (min 0xFFFFFFFF ((tallyOf s x.head.tally.toNat).toNat + x.head.inc.toNat))) ∧
      (x.head.snap = false → (x.head.sigEn = false ∨ (landAll r p y).fail.isSome) → t.stage.tallies = s.stage.tallies) ∧ outsideKept s t)

/-! ## Power, start-up and the brownout hold -/

/-- Power comes up in order: input power starts the guard partition; PWR_EN, with the input's capacitors charged and nothing in its way, the
ramp; the rails one by one; PWR_GOOD; the dies' release; the slot check; firmware; HBM training and initialisation; READY, which reports. -/
def Obligations.StartUpGoesStageByStage : Prop :=
  ∀ s : State,
    (s.pwr.v54 = false →
      ∃ t, exec .inputPowerOn s = .next t ∧ t.pwr.state = .guard ∧ t.pwr.v54 = true ∧ t.pwr.startKind = 1 ∧
        t.guard.limits = limitsReset ∧ t.guard.portEnable = portEnableReset ∧ inHold t = false ∧ t.guard.agree = true ∧
        (s.nor.badA = [] → s.nor.badB = [] → s.nor.laterB = [] → t.guard.lifecycle = s.nor.recA.lifecycle ∧
          t.guard.counterOp = s.nor.recA.counterOp ∧ t.guard.fwMinSv = s.nor.recA.fwMinSv) ∧
        (NorField.lifecycle ∈ s.nor.badA → NorField.lifecycle ∈ s.nor.badB → t.guard.lifecycle = .scrapped) ∧
        t.nor = s.nor ∧ t.mem = s.mem) ∧
    (s.pwr.state = .guard → s.pwr.v54 = true → s.pwr.shutLatched = false → s.pwr.supplyWait = false → s.pwr.bulkCharged = true →
      tapHolds s = false →
      ∃ t, exec .pwrEnAssert s = .next t ∧ t.pwr.state = .ramp ∧ t.pwr.railsUp = 1 ∧ t.guard = s.guard ∧ t.mem = s.mem) ∧
    (s.pwr.state = .guard → s.pwr.v54 = true → s.pwr.pwrEn = true → s.pwr.shutLatched = false → s.pwr.supplyWait = false →
      tapHolds s = false →
      ∃ t, exec .bulkChargeDone s = .next t ∧ t.pwr.state = .ramp ∧ t.pwr.railsUp = 1 ∧ t.guard = s.guard ∧ t.mem = s.mem) ∧
    (s.pwr.state = .ramp → s.pwr.railsUp < 4 →
      exec .railRampStep s = .next { s with pwr := { s.pwr with railsUp := s.pwr.railsUp + 1 } }) ∧
    (s.pwr.state = .ramp → s.pwr.railsUp = 4 →
      ∃ t, exec .pwrGood s = .next t ∧ t.pwr.state = .starting ∧ t.pwr.stage = 1 ∧ t.pwr.pwrGood = true ∧ t.pwr.goodAt = s.ref ∧
        t.mem = s.mem ∧ t.guard = s.guard) ∧
    (s.pwr.state = .starting → s.pwr.stage = 1 → s.pwr.released = false →
      ∃ t, exec .dieRelease s = .next t ∧ t.pwr.released = true ∧ t.mem.banks = [] ∧
        (∀ a, scratchBase ≤ a → a < scratchBase + 4 * 2 ^ 28 → Sparse.get zeroByte t.mem.bytes a = 0) ∧
        (∀ a, a < scratchBase → Sparse.get zeroByte t.mem.bytes a = Sparse.get zeroByte s.mem.bytes a)) ∧
    (s.pwr.state = .starting → s.pwr.stage = 1 → s.pwr.released = true → s.pwr.slotsChecked = false →
      ∃ t, exec .slotCheck s = .next t ∧ t.guard.slot0Valid = decide (slotFault s.guard s.nor.slot0 = 0) ∧
        t.guard.slot1Valid = decide (slotFault s.guard s.nor.slot1 = 0) ∧ t.mem = s.mem ∧
        (s.guard.zeroising = true → t.pwr.stage = 3 ∧ t.guard.zero.isSome) ∧
        (s.guard.zeroising = false → (t.guard.slot0Valid || t.guard.slot1Valid) = true → t.pwr.stage = 1) ∧
        (s.guard.zeroising = false → (t.guard.slot0Valid || t.guard.slot1Valid) = false → t.pwr.stage = 2 ∧ t.pwr.state = .ready)) ∧
    (s.pwr.state = .starting → (s.pwr.stage = 1 ∨ s.pwr.stage = 3) → s.pwr.slotsChecked = true → anySlot s = true →
      s.guard.zeroising = false →
      ∃ t, exec .firmwareRunning s = .next t ∧ t.pwr.stage = 4 ∧ t.guard.running = some s.guard.bootSlot ∧ t.guard.held = [] ∧
        t.mem = s.mem) ∧
    (∀ b, s.pwr.state = .starting → s.pwr.stage = 4 →
      ∃ t, exec (.hbmTrained b) s = .next t ∧ t.pwr.stage = (if b = 0 then 5 else 7) ∧ t.pwr.failedStacks = b ∧
        t.pwr.state = .starting ∧ t.mem = s.mem ∧ t.guard = s.guard) ∧
    (s.pwr.state = .starting → s.pwr.stage = 5 → s.pwr.hbmInit = false →
      ∃ t, exec .hbmInitDone s = .next t ∧ t.pwr.hbmInit = true ∧ t.tenants = [] ∧ t.mem.fences = [] ∧
        (∀ a, a < hbmEnd → Sparse.get zeroByte t.mem.bytes a = 0) ∧
        ∀ a, hbmEnd ≤ a → Sparse.get zeroByte t.mem.bytes a = Sparse.get zeroByte s.mem.bytes a) ∧
    (s.pwr.state = .starting → s.pwr.stage = 5 → s.pwr.hbmInit = true →
      ∃ t, exec .startReady s = .next t ∧ t.pwr.state = .ready ∧ t.pwr.stage = 6 ∧ t.guard.scrubPending = false ∧
        t.journal.entries = s.journal.mirror ∧ t.mem = s.mem ∧
        ∀ k, s.ctl.carrier = some k → ∃ x, t.ctl.sent = s.ctl.sent ++ [x] ∧ x.opcode = 0x07 ∧ x.report = true ∧
          x.payload.take 2 = [s.pwr.startKind, 6])

/-- Power goes: PWR_EN deasserted leaves GUARD and the loss of the input OFF, the dies reset, PWR_GOOD low; a supply reset (a rail under RESET,
a ramp that fails, an overvoltage, an HBM rail, a supply hold that lasts) waits in GUARD with its RESET_CAUSE kept, and its 10 ms over the ramp
begins again; an overvoltage acts wherever the guard copies run, and SHUT stays SHUT. -/
def Obligations.PowerIsRemovedAndReset : Prop :=
  ∀ s : State,
    ((s.pwr.state = .ramp ∨ s.pwr.state = .starting ∨ s.pwr.state = .ready ∨ s.pwr.state = .shut) →
      ∃ t, exec .pwrEnDeassert s = .next t ∧ t.pwr.state = .guard ∧ t.pwr.pwrEn = false ∧ t.pwr.pwrGood = false ∧ t.pwr.stage = 0 ∧
        t.pwr.startKind = 2 ∧ t.step.phase = .idle ∧ t.ses.current = none ∧ t.guard.limits = s.guard.limits ∧
        t.guard.lifecycle = s.guard.lifecycle ∧ t.nand = s.nand) ∧
    (∃ t, exec .inputLoss s = .next t ∧ t.pwr.v54 = false ∧ (s.pwr.state ≠ .off → t.pwr.state = .off ∧ t.pwr.pwrGood = false ∧
      t.step.phase = .idle ∧ t.nand = s.nand)) ∧
    (∀ x, s.pwr.state = .ramp → ∃ t, exec (.rampFail x) s = .next t ∧ t.pwr.state = .guard ∧ t.pwr.supplyWait = true ∧
      t.pwr.startKind = 3 ∧ t.guard.limits = s.guard.limits ∧
      ∃ e : ErrRec, t.guard.resetCause = e.bytes ∧ t.nor.recA.resetCause = e.bytes ∧ e.kind = 0x42 ∧
        e.d0 = BitVec.ofNat 64 (if s.pwr.railsUp < 4 then s.pwr.railsUp else 4 + 16 * x.hbm.val) ∧ e.d1 = BitVec.ofNat 64 x.reading) ∧
    (∀ x, s.pwr.state ≠ .off → ∃ t, exec (.inputOvervoltage x) s = .next t ∧
      t.pwr.state = (if s.pwr.state = .shut then .shut else .guard) ∧ t.pwr.supplyWait = true ∧ t.step.phase = .idle ∧ t.pwr.startKind = 3 ∧
      ∃ r : ErrRec, t.guard.resetCause = r.bytes ∧ t.nor.recA.resetCause = r.bytes ∧ r.kind = 0x42 ∧ r.d0 = 5 ∧ r.d1 = BitVec.ofNat 64 x) ∧
    (∀ r x, (diesOn s = true ∨ (s.pwr.state = .ramp ∧ s.pwr.railsUp = 4)) →
      ∃ t, exec (.hbmRailFault r x) s = .next t ∧ t.pwr.state = .guard ∧ t.pwr.supplyWait = true ∧
      t.step.phase = .idle ∧ t.pwr.startKind = 3 ∧ ∃ e : ErrRec, t.guard.resetCause = e.bytes ∧ t.nor.recA.resetCause = e.bytes ∧
        e.kind = 0x42 ∧ e.d0 = BitVec.ofNat 64 (4 + 16 * r.val) ∧ e.d1 = BitVec.ofNat 64 x) ∧
    (∀ r x, diesOn s = true → x < resetOf s r → ∃ t, exec (.supplyReset r x) s = .next t ∧ t.pwr.state = .guard ∧
      t.pwr.supplyWait = true ∧ t.pwr.pwrGood = false ∧ t.step.phase = .idle ∧ t.pwr.startKind = 3 ∧ inHold t = false ∧
      ∃ e : ErrRec, t.guard.resetCause = e.bytes ∧ t.nor.recA.resetCause = e.bytes ∧ e.kind = 0x42 ∧ e.d0 = BitVec.ofNat 64 (r.val + 1) ∧
        e.d1 = BitVec.ofNat 64 x) ∧
    (s.guard.holdSupply = true → s.pwr.state = .ready →
      ∃ t, exec .supplyHoldTimeout s = .next t ∧ t.pwr.state = .guard ∧ t.pwr.supplyWait = true ∧ inHold t = false ∧ t.step.phase = .idle ∧
      ∃ e : ErrRec, t.guard.resetCause = e.bytes ∧ t.nor.recA.resetCause = e.bytes ∧ e.kind = 0x42 ∧
        e.d0 = BitVec.ofNat 64 s.guard.lowRail ∧ e.d1 = BitVec.ofNat 64 s.guard.lowReading) ∧
    (s.pwr.state ≠ .ready → exec .supplyHoldTimeout s = .next s) ∧
    (s.pwr.supplyWait = true → s.pwr.state = .guard → s.pwr.v54 = true → s.pwr.pwrEn = true → s.pwr.shutLatched = false →
      s.pwr.bulkCharged = true → tapHolds s = false →
      ∃ t, exec .supplyResetWaitEnd s = .next t ∧ t.pwr.state = .ramp ∧ t.pwr.supplyWait = false ∧ t.guard = s.guard) ∧
    (s.pwr.resetDue = true → diesOn s = true →
      ∃ t, exec .commandReset s = .next t ∧ t.pwr.state = .starting ∧ t.pwr.stage = 1 ∧ t.pwr.startKind = 4 ∧ t.step.phase = .idle ∧
        t.ses.current = none ∧ t.guard.limits = s.guard.limits)

/-- A rail under WARN begins the brownout hold, recorded as BROWNOUT_ENTER (kind 0x40); it marks a running step SUSPECT and freezes its die's stage
manager; the freeze signal freezes each die; above the threshold again the cause is gone, and with no other cause the hold ends, recorded as BROWNOUT_EXIT
(kind 0x41), while the firing of a step marked SUSPECT stays stopped. -/
def Obligations.TheBrownoutHoldBeginsAndEnds : Prop :=
  ∀ s : State,
    (∀ p r x, s.pwr.state = .ready → s.pwr.stage = 6 → x < warnOf s r → s.guard.holdSupply = false →
      ∃ t, exec (.supplyWarn p r x) s = .next t ∧ t.guard.holdSupply = true ∧ oneMore s t 0x40 (guardPlace s) ∧
        t.guard.lowRail = r.val + 1 ∧ t.guard.lowReading = x ∧
        (inHold s = false → t.guard.holdCause = .supply ∧ t.guard.holdAt = s.ref) ∧
        (inHold s = true → t.guard.holdCause = s.guard.holdCause) ∧
        (inHold s = false → s.step.phase = .running → s.step.cause = 0 → t.step.suspect = true) ∧
        (∀ h : p.val < 4, (⟨p.val, h⟩ : Die) ∈ t.step.frozen) ∧ t.mem = s.mem) ∧
    (∀ p r x, s.pwr.state = .ready → x < warnOf s r → s.guard.holdSupply = true →
      ∃ t, exec (.supplyWarn p r x) s = .next t ∧ t.err = s.err ∧
        t.guard = (if s.guard.lowRail = r.val + 1 then { s.guard with lowReading := min s.guard.lowReading x } else s.guard) ∧
        (∀ h : p.val < 4, (⟨p.val, h⟩ : Die) ∈ t.step.frozen) ∧ t.mem = s.mem) ∧
    (∀ d, s.guard.holdSupply = true →
      ∃ t, exec (.freezeSignal d) s = .next t ∧ d ∈ t.step.frozen ∧ t.mem = s.mem ∧ t.guard = s.guard) ∧
    (s.guard.holdSupply = true → s.pwr.stage = 6 →
      ∃ t, exec .supplyRecovery s = .next t ∧ t.guard.holdSupply = false ∧ t.guard.holdPower = s.guard.holdPower ∧
        t.guard.holdThermal = s.guard.holdThermal ∧ t.mem = s.mem ∧
        (s.guard.holdPower = false → s.guard.holdThermal = false → inHold t = false ∧ oneMore s t 0x41 (guardPlace s) ∧
          t.step.frozen = [] ∧ (s.step.suspect = true → stepStarted s = true → t.step.stopped = true)))

/-- Each sample of the input joins the running average over 1,000 of them (log 94); an average above POWER_CAP is recorded (kind 0x44) and begins the
brownout hold, and 1 ms of averages at 50 W under it ends it; a sensor at THERM_HOLD begins it and the end of its condition ends it; each freezes every
die's stage manager and is recorded as BROWNOUT_ENTER (kind 0x40), the last one to go as BROWNOUT_EXIT (kind 0x41). Other samples and readings are kept.
A sensor at THERM_SHUT shuts the module down. -/
def Obligations.PowerAndThermalHoldsBeginAndEnd : Prop :=
  ∀ s : State,
    (∀ m l, s.pwr.v54 = true → l = (m.mv * m.ma :: s.guard.powers).take 1000 →
      (s.pwr.state = .ready → s.pwr.stage = 6 → powerCap s * 1000000000 < l.sum → s.guard.holdPower = false →
        ∃ t, exec (.powerSample m) s = .next t ∧ t.guard.holdPower = true ∧ t.guard.powers = l ∧ t.guard.powerAvg = l.sum / 1000000000 ∧
          oneMore s t 0x44 (guardPlace s) ∧ oneMore s t 0x40 (guardPlace s) ∧ (∀ d : Die, d ∈ t.step.frozen) ∧ t.mem = s.mem) ∧
      (s.pwr.state = .starting → 4 ≤ s.pwr.stage → powerCap s * 1000000000 < l.sum → s.guard.powers.sum ≤ powerCap s * 1000000000 →
        ∃ t, exec (.powerSample m) s = .next t ∧ t.guard.holdPower = s.guard.holdPower ∧ t.guard.powers = l ∧
          oneMore s t 0x44 (guardPlace s) ∧ t.step.frozen = s.step.frozen ∧ t.mem = s.mem) ∧
      ((l.sum ≤ powerCap s * 1000000000 ∨ (s.pwr.state = .ready ∧ s.guard.holdPower = true)) →
        exec (.powerSample m) s = .next { s with guard := { s.guard with
          powers := l, powerAvg := l.sum / 1000000000,
          powerLow := if l.sum + 50000000000 ≤ powerCap s * 1000000000 then s.guard.powerLow + 1 else 0 } })) ∧
    (s.guard.holdPower = true → 1000 ≤ s.guard.powerLow → s.pwr.stage = 6 →
      ∃ t, exec .powerHoldExit s = .next t ∧ t.guard.holdPower = false ∧ t.mem = s.mem ∧
        (s.guard.holdSupply = false → s.guard.holdThermal = false → inHold t = false ∧ t.step.frozen = [] ∧
          oneMore s t 0x41 (guardPlace s))) ∧
    (∀ l d x, s.pwr.v54 = true → hottest (thermShut s) 0 l = none → hottest (thermHold s) 0 l = some (d, x) → s.pwr.state = .ready →
      s.guard.holdThermal = false →
      ∃ t, exec (.sensorRead l) s = .next t ∧ t.guard.holdThermal = true ∧ t.pwr.state = .ready ∧ (∀ d : Die, d ∈ t.step.frozen) ∧
        t.mem = s.mem ∧ (s.pwr.stage = 6 → oneMore s t 0x40 (guardPlace s))) ∧
    (∀ l, s.pwr.v54 = true → hottest (thermShut s) 0 l = none →
      (hottest (thermHold s) 0 l = none ∨ s.pwr.state ≠ .ready ∨ s.guard.holdThermal = true) →
      ∃ t, exec (.sensorRead l) s = .next t ∧ t.guard.margin = marginOf (thermWarn s) l ∧ t.guard.holdThermal = s.guard.holdThermal ∧
        t.pwr = s.pwr ∧ t.mem = s.mem) ∧
    (∀ l d x, s.pwr.v54 = true → hottest (thermShut s) 0 l = some (d, x) → railsLive s = true →
      ∃ t, exec (.sensorRead l) s = .next t ∧ t.pwr.state = .shut ∧ t.pwr.shutLatched = true ∧ t.pwr.pwrGood = false ∧
        t.step.phase = .idle ∧ inHold t = false) ∧
    (s.guard.holdThermal = true → s.pwr.stage = 6 →
      ∃ t, exec .thermalHoldExit s = .next t ∧ t.guard.holdThermal = false ∧ t.mem = s.mem ∧
        (s.guard.holdSupply = false → s.guard.holdPower = false → inHold t = false ∧ t.step.frozen = [] ∧
          oneMore s t 0x41 (guardPlace s)))

/-- Where the two guard copies disagree on a register, AGREE is cleared and GUARD_DISAGREE is recorded (kind 0x46); of the registers that R430 orders
the more protective value stands, PORT_ENABLE with its effect on the ports. The end of a zeroisation clears ZEROISING and leaves no tenant, no fence, no
byte of memory, no operator key and a zero operator counter; SCRAP's blows the SCRAPPED fuse. -/
def Obligations.DisagreementAndZeroisationProtect : Prop :=
  ∀ s : State,
    (∀ (i : Fin 16) (o b : Nat) (v : List Byte), guardRegister s i.val = some v → s.pwr.v54 = true → s.pwr.stage = 6 →
      b = (if 1 ≤ i.val ∧ i.val ≤ 5 then o &&& guardMask i.val else o % 256 ^ v.length) → ofLE v ≠ b →
      ∃ t, exec (.guardDisagree i o) s = .next t ∧ oneMore s t 0x46 (guardPlace t) ∧
        t.guard = { (if 1 ≤ i.val ∧ i.val ≤ 5 then setGuardWord s.guard i.val (protective i.val (ofLE v) b) else s.guard) with agree := false } ∧
        (i.val ≠ 5 → t.mem = s.mem ∧ t.ports = s.ports ∧ t.ctl = s.ctl) ∧
        (i.val = 5 → (∀ p, lanesOn s p = true → lanesOn t p = false → (port t p).st = .disabled) ∧
          ∀ k, kcpEnabled t k = false → (kcp t k).up = false)) ∧
    (∀ z, s.guard.zero = some z →
      ∃ t, exec .zeroiseComplete s = .next t ∧ t.guard.zero = none ∧ t.guard.zeroising = false ∧ t.guard.operatorPub = [] ∧
        t.guard.counterOp = 0 ∧ t.guard.counterMk = s.guard.counterMk ∧ t.tenants = [] ∧ t.mem.fences = [] ∧ t.mem.bytes = [] ∧
        t.store0.st = .empty ∧ t.store1.st = .empty ∧ t.journal.entries = [] ∧ t.nand.slot0.valid = none ∧ t.nand.slot1.valid = none ∧
        (∀ l, s.guard.zeroAfter = some l → t.guard.lifecycle = l) ∧ t.nor.recA.zeroising = false ∧ t.nor.recB.zeroising = false ∧
        t.guard.scrapFuse = (s.guard.scrapFuse || decide (s.guard.zeroAfter = some .scrapped)))

/-- The TAP's instructions load in every power state but OFF: EXTEST captures PWR_EN in GUARD and SHUT, SAMPLE/PRELOAD samples the three
pins and takes the preloaded cells; Test-Logic-Reset selects IDCODE. EXTEST, HIGHZ and CLAMP change nothing else; the others change nothing else but that a module
that waits in GUARD for its TAP goes on to its ramp. Each scans its data register once: what comes out on TDO is `out` (log 5). In EXTEST, HIGHZ and CLAMP the
module stays in GUARD, whatever PWR_EN says. -/
def Obligations.TapInstructionsLoadAndHold : Prop :=
  (∀ s : State, s.pwr.state ≠ .off →
      (∃ t, exec .extest s = .next t ∧ { t with tap := s.tap } = s ∧ t.tap.ir = .extest ∧ t.tap.cells = s.tap.cells ∧
        (tapWorks s = true → t.tap.captured.getLsbD 0 = s.pwr.pwrEn ∧ t.tap.out = boundaryOut t.tap) ∧
        (tapWorks s = false → t.tap.out = [false])) ∧
      (∃ t, exec .idcode s = .next t ∧ t.tap.ir = .idcode ∧ t.tap.out = bitsOut 32 0x1B4C85AB ∧ t.tap.cells = s.tap.cells ∧
        { t with tap := s.tap } = { tryRamp { s with tap := { s.tap with code := 1 } } with tap := s.tap }) ∧
      (∀ c, ∃ t, exec (.samplePreload c) s = .next t ∧ t.tap.ir = .samplePreload ∧ t.tap.cells = c ∧ t.tap.captured.getLsbD 0 = s.pwr.pwrEn ∧
        t.tap.captured.getLsbD 1 = s.pwr.pwrGood ∧ t.tap.captured.getLsbD 2 = !alertAsserted s ∧
        t.tap.out = boundaryOut { t.tap with cells := s.tap.cells } ∧
        { t with tap := s.tap } = { tryRamp { s with tap := { s.tap with code := 2 } } with tap := s.tap }) ∧
      (∃ t, exec .highz s = .next t ∧ { t with tap := s.tap } = s ∧ t.tap.ir = .highz ∧ t.tap.out = [false] ∧ t.tap.cells = s.tap.cells) ∧
      (∃ t, exec .clamp s = .next t ∧ { t with tap := s.tap } = s ∧ t.tap.ir = .clamp ∧ t.tap.out = [false] ∧ t.tap.cells = s.tap.cells) ∧
      (∃ t, exec .bypass s = .next t ∧ t.tap.ir = .bypass ∧ t.tap.out = [false] ∧ t.tap.cells = s.tap.cells ∧
        { t with tap := s.tap } = { tryRamp { s with tap := { s.tap with code := 15 } } with tap := s.tap }) ∧
      exec .testLogicReset s = .next (tryRamp { s with tap := { s.tap with code := 1, atReset := true } }) ∧
      (∀ c : BitVec 4, c ≠ 0 → c ≠ 1 → c ≠ 2 → c ≠ 4 → c ≠ 5 → irOf c = .bypass) ∧
      (s.pwr.state ≠ .guard → tryRamp s = s)) ∧
  (∀ s : State,
      (s.pwr.state = .guard → tapHolds s = true →
        ∃ t, exec .pwrEnAssert s = .next t ∧ t.pwr.state = .guard ∧ t.pwr.pwrEn = true ∧ t.tap = s.tap) ∧
      (s.pwr.state = .off → exec .extest s = .next s ∧ exec .clamp s = .next s ∧ exec .highz s = .next s ∧ exec .bypass s = .next s ∧
        exec .idcode s = .next s ∧ exec .testLogicReset s = .next s ∧ ∀ c, exec (.samplePreload c) s = .next s))


/-! ## The beat -/

/-- A boundary of the local beat starts the next one at cycle 0; the counter steps in ACQUIRING, LOCKED and HOLDOVER; a missing mark takes LOCKED
to HOLDOVER, the third wrong number in a row to LOST; in ACQUIRING 64 good marks in a row lock, in HOLDOVER 16 on a port. A mark that may still come up to
2 cycles late is awaited, and one awaited at the boundary before (`judgeRest`) is missing. That 16 good marks win over a third wrong number at one
boundary is the model's choice (log 78). -/
def Obligations.TheBeatLockFollowsItsMarks : Prop :=
  ∀ s r : State, s.pwr.v54 = true → r = judgeRest s →
    (s.beat.awaitA = false → s.beat.awaitB = false → r = s) ∧
    ∃ t, exec .beatBoundary s = .next t ∧ t.cycle = 0 ∧ t.ref = s.ref + (4096 - s.cycle.toNat) ∧
      (inHold s = false → t.now = s.now + (4096 - s.cycle.toNat)) ∧ t.mem = s.mem ∧ t.pwr = s.pwr ∧ t.guard = s.guard ∧
      (∀ m ∈ t.beat.seenA, judged t.beat.delayA - 1 ≤ m.at_) ∧ (∀ m ∈ t.beat.seenB, judged t.beat.delayB - 1 ≤ m.at_) ∧
      (∀ k m, m ∈ seenOf s.beat k → judged (delayOf s.beat k) ≤ m.at_ → ∃ n ∈ seenOf t.beat k, n.at_ = m.at_ - 1 ∧ n.kind = m.kind) ∧
      ((r.beat.lock = .acquiring ∨ r.beat.lock = .locked ∨ r.beat.lock = .holdover) → t.beat.count = s.beat.count + 1) ∧
      ((r.beat.lock = .unlocked ∨ r.beat.lock = .lost) → t.beat.count = s.beat.count ∧ t.beat.lock = r.beat.lock) ∧
      (∀ k, s.beat.lock = .locked → s.ctl.carrier = some k → awaits s.beat k = true → portMark s.beat k 1 = none → t.beat.lock = .holdover) ∧
      (∀ k, r.beat.lock = .locked → r.ctl.carrier = some k → portMark r.beat k 0 = none → lateMark (delayOf r.beat k) = true →
        t.beat.lock = .locked ∧ awaits t.beat k = true ∧ t.beat.wrongRun = r.beat.wrongRun) ∧
      ((∀ k, r.ctl.carrier = some k → portMark r.beat k 0 = none → lateMark (delayOf r.beat k) = false) →
        (r.beat.lock = .locked → sourceMark r 0 = none → t.beat.lock = .holdover ∧ oneMore r t 0x01 (guardPlace r)) ∧
        (r.beat.lock = .locked → sourceMark r 0 = some .wrongNumber → 2 ≤ r.beat.wrongRun → t.beat.lock = .lost ∧
          (stepStarted r = true → r.step.cause = 0 → t.step.stopped = true ∧ t.step.cause = 4 ∧ t.step.failed = true)) ∧
        (r.beat.lock = .acquiring → sourceMark r 0 ≠ some .good → t.beat.lock = .acquiring ∧ t.beat.goodRun = 0)) ∧
      (r.beat.lock = .locked → sourceMark r 0 = some .good → t.beat.lock = .locked ∧ t.beat.wrongRun = 0) ∧
      (r.beat.lock = .acquiring → sourceMark r 0 = some .good → 63 ≤ r.beat.goodRun → t.beat.lock = .locked) ∧
      (∀ k m, r.beat.lock = .holdover → r.ctl.carrier = some k → portMark r.beat k 0 = some m → m.kind = .good → m.early = false →
        15 ≤ (match k with | .a => r.beat.holdA | .b => r.beat.holdB) → t.beat.lock = .locked ∧ t.ctl.carrier = some k) ∧
      (∀ k m, r.beat.lock = .holdover → r.ctl.carrier = some k → portMark r.beat k 0 = some m → m.kind = .wrongNumber →
        2 ≤ r.beat.wrongRun → r.beat.holdA < 15 → r.beat.holdB < 15 → t.beat.lock = .lost) ∧
      (s.step.phase = .running → inHold s = false → s.step.frozen = [] → r.beat.lock = .locked → sourceMark r 0 = some .good →
        t.step.relBeat = s.step.relBeat + 1)

/-- A mark with a correct CRC on the beat source loads the counter in UNLOCKED, at the instant that it defines, and makes the beat ACQUIRING; in
ACQUIRING, LOCKED and HOLDOVER one within 2 cycles of a boundary after compensation is kept for that boundary and judged by its number, the first of a
port (log 78), at once where the boundary has passed and awaits it; one with a bad CRC changes nothing, one out of phase no lock, no count and no
judgement. The end of a HOLDOVER of 4,096 beats is LOST. -/
def Obligations.MarksAreJudged : Prop :=
  ∀ (k : Kcp) (w : BitVec 128) (x y : Int) (n : BitVec 48) (s : State), (kcp s k).up = true → firmwareUp s = true →
    y = x - delayOf s.beat k → n = BitVec.ofNat 48 (bits w.toNat 127 80) →
    (markCrcOk w = true → s.beat.lock = .unlocked → s.ctl.carrier = some k →
      ∃ t, exec (.beatMark k w x) s = .next t ∧ t.beat.lock = .acquiring ∧ t.cycle = BitVec.ofInt 12 (delayOf s.beat k) ∧
        t.beat.count = n + BitVec.ofInt 48 (delayOf s.beat k / 4096) ∧ oneMore s t 0x01 (guardPlace s) ∧ t.mem = s.mem ∧ t.step = s.step) ∧
    (markCrcOk w = true → (s.beat.lock = .acquiring ∨ s.beat.lock = .locked ∨ s.beat.lock = .holdover) → inPhase y = true →
      (awaits s.beat k = false ∨ nearBoundary y ≠ judged (delayOf s.beat k) - 1) →
      ∃ t, exec (.beatMark k w x) s = .next t ∧ t = { s with beat := t.beat } ∧ t.beat.lock = s.beat.lock ∧
        t.beat.count = s.beat.count ∧ seenOf t.beat (otherKcp k) = seenOf s.beat (otherKcp k) ∧
        ((markAt (seenOf s.beat k) (nearBoundary y)).isSome → seenOf t.beat k = seenOf s.beat k) ∧
        (markAt (seenOf s.beat k) (nearBoundary y) = none → seenOf t.beat k = seenOf s.beat k ++
          [{ at_ := nearBoundary y, early := false,
             kind := if n = BitVec.ofInt 48 (s.beat.count.toNat + 1 + nearBoundary y) then .good else .wrongNumber }])) ∧
    (markCrcOk w = true → s.ctl.carrier = some k → inPhase y = true → awaits s.beat k = true →
      nearBoundary y = judged (delayOf s.beat k) - 1 → markAt (seenOf s.beat k) (nearBoundary y) = none →
      (s.beat.lock = .locked → n = beatAt s.beat (nearBoundary y) →
        ∃ t, exec (.beatMark k w x) s = .next t ∧ t = { s with beat := t.beat } ∧ t.beat.lock = .locked ∧ t.beat.wrongRun = 0 ∧
          awaits t.beat k = false ∧ t.beat.count = s.beat.count) ∧
      (s.beat.lock = .locked → n ≠ beatAt s.beat (nearBoundary y) → s.beat.wrongRun < 2 →
        ∃ t, exec (.beatMark k w x) s = .next t ∧ t = { s with beat := t.beat } ∧ t.beat.lock = .locked ∧
          t.beat.wrongRun = s.beat.wrongRun + 1 ∧ awaits t.beat k = false) ∧
      (s.beat.lock = .locked → n ≠ beatAt s.beat (nearBoundary y) → 2 ≤ s.beat.wrongRun →
        ∃ t, exec (.beatMark k w x) s = .next t ∧ t.beat.lock = .lost ∧ t.mem = s.mem ∧ oneMore s t 0x01 (guardPlace s)) ∧
      (s.beat.lock = .acquiring → n = beatAt s.beat (nearBoundary y) → 63 ≤ s.beat.goodRun →
        ∃ t, exec (.beatMark k w x) s = .next t ∧ t.beat.lock = .locked ∧ t.mem = s.mem ∧ oneMore s t 0x01 (guardPlace s))) ∧
    (markCrcOk w = true → s.beat.lock ≠ .unlocked → (s.beat.lock = .lost ∨ inPhase y = false) →
      ∃ t, exec (.beatMark k w x) s = .next t ∧ t = { s with beat := t.beat } ∧ t.beat.lock = s.beat.lock ∧
        t.beat.count = s.beat.count ∧ t.beat.seenA = s.beat.seenA ∧ t.beat.seenB = s.beat.seenB) ∧
    (markCrcOk w = false → exec (.beatMark k w x) s = .next s) ∧
    (s.beat.lock = .holdover → 4096 ≤ s.beat.heldBeats →
      ∃ t, exec .holdoverTimeout s = .next t ∧ t.beat.lock = .lost ∧ t.mem = s.mem ∧ oneMore s t 0x01 (guardPlace s) ∧
        (stepStarted s = true → s.step.cause = 0 → t.step.stopped = true ∧ t.step.cause = 4 ∧ t.step.failed = true))

/-! ## Health, alarms, traces and maintenance reads -/

/-- The health and telemetry commands: HEALTH_READ (its securing code is the model's reading, log 25), GUARD_READ of a listed register and the
maintenance reads answer with their values and change nothing but the port and the session; ALARM_READ keeps the entries whose frame has not left and clears the fold counts; HOST_FIGURES is staged for the next boundary;
TRACE_CONFIG sets the trace. -/
def Obligations.TelemetryCommandsAnswer : Prop :=
  ∀ (f : Frame) (s : State),
    (accepts s f (cmdEarly 0x71) = true → f.payload = [] →
      exec (.healthRead f) s = .next (replies s f 0x71 (healthReply s) (afterAccept s f))) ∧
    (∀ p : Fin 6, accepts s f (cmdEarly 0x74) = true → f.payload = [BitVec.ofNat 8 p.val] →
      ∃ v t, exec (.alarmRead f) s = .next (replies s f 0x74 v t) ∧
        v.take 8 = toLE 2 (Sparse.get noAlarms s.alarms.places p.val).latch.length ++ zeros 2 ++
          toLE 4 (Sparse.get noAlarms s.alarms.places p.val).foldsRead ∧
        (Sparse.get noAlarms t.alarms.places p.val).latch =
          ((Sparse.get noAlarms s.alarms.places p.val).latch.filter (fun e => !e.left)).map (fun e => { e with returned := true }) ∧
        (Sparse.get noAlarms t.alarms.places p.val).foldsRead = 0 ∧
        (∀ k, (Sparse.get noFold (Sparse.get noAlarms t.alarms.places p.val).folds k).count = 0) ∧ t.mem = s.mem ∧ t.err = s.err ∧
        (∀ q, q ≠ p.val → Sparse.get noAlarms t.alarms.places q = Sparse.get noAlarms s.alarms.places q)) ∧
    (∀ h t1 t2 t3 : Byte, accepts s f (cmdEarly 0x75) = true → f.payload = [h, 0, 0, 0, t1, t2, t3] → 0 < t1 → t1 ≤ t2 → t2 ≤ t3 →
      exec (.hostFigures f) s = .next (replies s f 0x75 []
        (let a := afterAccept s f; { a with health := { a.health with staged := some (h, t1, t2, t3) } }))) ∧
    (∀ on both : Bool, accepts s f (cmdEarly 0x76) = true → f.payload = [BitVec.ofNat 8 (b01 on), BitVec.ofNat 8 (b01 both)] →
      exec (.traceConfig f) s = .next (replies s f 0x76 [] (let a := afterAccept s f
        { a with trace := { a.trace with on := on, both := both, total := (if on = true ∧ s.trace.on = false then 0 else s.trace.total) } }))) ∧
    (∀ v, accepts s f (cmdEarly 0x81) = true → f.payload.length = 2 → guardRegister s (leAt f.payload 0 2) = some v →
      exec (.guardRead f) s = .next (replies s f 0x81 v (afterAccept s f))) ∧
    (accepts s f (cmdEarly 0x90) = true → f.payload = [] →
      exec (.fuseMapRead f) s = .next (replies s f 0x90 fuseMapBytes (afterAccept s f)) ∧ fuseMapBytes.length = 3072) ∧
    (accepts s f (cmdEarly 0x91) = true → f.payload.length = 8 → leAt f.payload 4 4 ≤ 8096 →
      leAt f.payload 0 4 + leAt f.payload 4 4 ≤ 73728 →
      exec (.tableImageRead f) s = .next (replies s f 0x91
        (tableDigest ++ (List.range (leAt f.payload 4 4)).map (fun i => Config.tableImage (leAt f.payload 0 4 + i))) (afterAccept s f))) ∧
    (∀ (d : Die) (n : Fin 128), accepts s f (cmdEarly 0x92) = true → f.payload = [BitVec.ofNat 8 d.val, BitVec.ofNat 8 n.val] →
      exec (.dmaStateRead f) s = .next (replies s f 0x92
        (toLE 8 (csr s d n) ++ toLE 8 (chan s d n).failAddr.toNat ++ toLE 4 (chan s d n).actBytes.toNat ++ zeros 4 ++
          toLE 64 (chan s d n).actDesc.toNat ++ toLE 64 (chan s d n).shdDesc.toNat) (afterAccept s f)))

/-- Alarms and traces leave: a place whose last message was taken sends its oldest to the gatherers whose ports are up; a gatherer with room takes the
next place's in turn and queues its frame; the oldest trace records, at most 254, leave in one class 3 report on the port that carries
control, once no ALARM frame waits there. -/
def Obligations.AlarmsAndTracesLeave : Prop :=
  ∀ s : State,
    (∀ (p : Place) m r, sendingDone s (Sparse.get noAlarms s.alarms.places p.val) = true → (s.ctl.a.up || s.ctl.b.up) = true →
      (Sparse.get noAlarms s.alarms.places p.val).waiting = m :: r →
      ∃ t, exec (.alarmMessageSend p) s = .next t ∧ (Sparse.get noAlarms t.alarms.places p.val).waiting = r ∧
        (Sparse.get noAlarms t.alarms.places p.val).sending =
          some { m with needA := m.needA && s.ctl.a.up, needB := m.needB && s.ctl.b.up } ∧
        (Sparse.get noAlarms t.alarms.places p.val).latch = (Sparse.get noAlarms s.alarms.places p.val).latch ∧
        (∀ q, q ≠ p.val → Sparse.get noAlarms t.alarms.places q = Sparse.get noAlarms s.alarms.places q) ∧
        t.err = s.err ∧ t.mem = s.mem ∧ outsideKept s t) ∧
    (∀ k p m, (kcp s k).up = true → (kcp s k).queue0.length < 3 → nextPlace s k = some (p, m) →
      ∃ t, exec (.alarmMessageTake k) s = .next t ∧ (kcp t k).queue0 = (kcp s k).queue0 ++
          [{ alarm := m.alarm, msg := m.id, place := Fin.ofNat 6 p, seq := m.seq, sent := m.sent }] ∧
        (kcp t k).next = (p + 1) % 6 ∧ kcp t (otherKcp k) = kcp s (otherKcp k) ∧
        (∃ m', (Sparse.get noAlarms t.alarms.places p).sending = some m' ∧ needs m' k = false ∧
          needs m' (otherKcp k) = needs m (otherKcp k) ∧ m'.alarm = m.alarm ∧ m'.id = m.id ∧ m'.seq = m.seq) ∧
        (∀ q, q ≠ p → Sparse.get noAlarms t.alarms.places q = Sparse.get noAlarms s.alarms.places q) ∧
        t.err = s.err ∧ t.mem = s.mem ∧ t.ctl.sent = s.ctl.sent) ∧
    (∀ k, s.ctl.carrier = some k → (kcp s k).up = true → s.trace.ring ≠ [] → s.trace.both = false →
      ((kcp s k).queue0 ≠ [] → exec .trace s = .next s) ∧
      ((kcp s k).queue0 = [] →
      ∃ t x, exec .trace s = .next t ∧ t.ctl.sent = s.ctl.sent ++ [x] ∧ x.port = k ∧ x.opcode = 0x77 ∧ x.cls = 3 ∧ x.report = true ∧
        x.payload = ((s.trace.ring.take 254).map TraceRec.bytes).flatten ∧ t.trace.ring = s.trace.ring.drop 254 ∧
        t.err = s.err ∧ t.mem = s.mem ∧ t.step = s.step))

/-! ## Signed guard commands and firmware slots -/

/-- A signed guard command whose length is right is judged by `envelopeFault`: refused, it is recorded as GUARD_REFUSED (kind 0x16), answered with that
status and leaves every guard register; passed, its counter is stored and it does what its row of sp. 15 Table 15-7 says: no other register of
`guardKept` changes; a reserved bit of a register is ignored and stays zero. The bodies that zeroise answer when the zeroisation is complete. A disagreement of the guard copies refuses each. -/
def Obligations.GuardCommandsTakeEffect : Prop :=
  ∀ (f : Frame) (s : State), accepts s f (cmdEarly 0x80) = true → 129 ≤ f.payload.length →
    f.payload.length = 128 + envBodyLen f.payload →
    (∀ c b, (c, b) ∈ [(Instr.setLimits f, setLimitsBody), (.setPorts f, setPortsBody), (.setFwMinSv f, setFwMinSvBody),
        (.rotateOperatorKey f, rotateBody), (.enterField f, enterFieldBody), (.scrap f, scrapBody), (.enterMakerAnalysis f, enterMakerBody),
        (.generateDeviceKey f, generateBody), (.completeProvision f, completeBody), (.setRegister f, setRegisterBody)] →
      (s.guard.agree = false → envelopeFault (afterAccept s f) f.payload b = some stBusy) ∧
      ∀ st, envelopeFault (afterAccept s f) f.payload b = some st →
        ∃ t, exec c s = .next (finish t (owedBy s f 0x80) st []) ∧ oneMore s t 0x16 (guardPlace s) ∧ t.guard = s.guard ∧ t.nor = s.nor ∧
          t.mem = s.mem ∧ t.ports = s.ports) ∧
    (∀ g, g = (storeCounter s (envKind f.payload) (envCounter f.payload)).guard →
      (envelopeFault (afterAccept s f) f.payload setLimitsBody = none → ∃ t, exec (.setLimits f) s = .next (replies s f 0x80 [] t) ∧
        t.guard = { g with limits := BitVec.ofNat 64 (leAt (envBody f.payload) 4 8 &&& 0xFFFFFFFFF0000000) } ∧ t.mem = s.mem ∧ t.ports = s.ports) ∧
      (envelopeFault (afterAccept s f) f.payload setPortsBody = none → ∃ t, exec (.setPorts f) s = .next (replies s f 0x80 [] t) ∧
        guardKept t.guard = guardKept
          { g with portEnable := BitVec.ofNat 64 (leAt (envBody f.payload) 4 8 &&& 0x00FFFFFFFFFFFF03) } ∧
        (∀ p, lanesOn s p = true → lanesOn t p = false → (port t p).st = .disabled) ∧
        (∀ k, kcpEnabled t k = false → (kcp t k).up = false)) ∧
      (envelopeFault (afterAccept s f) f.payload setFwMinSvBody = none → ∃ t, exec (.setFwMinSv f) s = .next (replies s f 0x80 [] t) ∧
        t.guard = { g with fwMinSv := BitVec.ofNat 16 (leAt (envBody f.payload) 4 2) } ∧
        t.nor.recA.fwMinSv = t.guard.fwMinSv ∧ t.nor.recB.fwMinSv = t.guard.fwMinSv ∧ t.mem = s.mem) ∧
      (envelopeFault (afterAccept s f) f.payload rotateBody = none →
        ∃ t, exec (.rotateOperatorKey f) s = .next (replies s f 0x80 (sha256Bytes (slice (envBody f.payload) 4 65)) t) ∧
          guardKept t.guard = guardKept { g with operatorPub := slice (envBody f.payload) 4 65, counterOp := 0 } ∧ t.mem = s.mem) ∧
      (envelopeFault (afterAccept s f) f.payload enterFieldBody = none → ∃ t, exec (.enterField f) s = .next (replies s f 0x80 [] t) ∧
        guardKept t.guard = guardKept { g with lifecycle := .field } ∧ oneMore s t 0x48 (guardPlace s) ∧ t.mem = s.mem) ∧
      (envelopeFault (afterAccept s f) f.payload scrapBody = none → ∃ t, exec (.scrap f) s = .next t ∧ t.ctl.sent = s.ctl.sent ∧
        t.guard = { g with zeroising := true, zeroAfter := some .scrapped,
                           zero := some { reply := some (owedBy s f 0x80), counter := envCounter f.payload } } ∧ t.mem = s.mem) ∧
      (envelopeFault (afterAccept s f) f.payload enterMakerBody = none → ∃ t, exec (.enterMakerAnalysis f) s = .next t ∧
        t.ctl.sent = s.ctl.sent ∧
        t.guard = { g with zeroising := true, zeroAfter := some .makerAnalysis,
                           zero := some { reply := some (owedBy s f 0x80), counter := envCounter f.payload } } ∧ t.mem = s.mem) ∧
      (envelopeFault (afterAccept s f) f.payload generateBody = none → ∃ t, exec (.generateDeviceKey f) s =
          .next (replies s f 0x80 (publicKey (scalarOf (Config.entropy s.free))) t) ∧ t.free = s.free + 1 ∧
        guardKept t.guard = guardKept { g with deviceKey := some (scalarOf (Config.entropy s.free)) } ∧ t.mem = s.mem) ∧
      (envelopeFault (afterAccept s f) f.payload completeBody = none →
        ∃ t, exec (.completeProvision f) s = .next (replies s f 0x80 [] t) ∧
          guardKept t.guard = guardKept { g with lifecycle := .provisioned, operatorPub := slice (envBody f.payload) 4 65, counterOp := 0,
                                                 deviceCert := (envBody f.payload).drop 80 } ∧
          oneMore s t 0x48 (guardPlace s) ∧ t.mem = s.mem) ∧
      (envelopeFault (afterAccept s f) f.payload setRegisterBody = none →
        ∃ t, exec (.setRegister f) s = .next (replies s f 0x80 [] t) ∧
          guardKept t.guard = guardKept (setGuardWord g (leAt (envBody f.payload) 4 2)
            (takenWord (leAt (envBody f.payload) 4 2)
              (leAt (envBody f.payload) 8 (if leAt (envBody f.payload) 4 2 ≤ 3 then 4 else 8))))))

/-- FW_SLOT_DATA places its chunk in a slot that is not the running one, the first chunk erasing it, and waits behind class 2 data of its port that
wait; FW_SLOT_COMMIT is accepted, and its end makes
the slot valid if the image is complete and good, answers INCOMPLETE with the missing chunks, or refuses; DEVICE_RESET is owed after its reply. -/
def Obligations.FirmwareSlotsAreWrittenAndCommitted : Prop :=
  ∀ (f : Frame) (s : State) (k : Bool), k = decide (byteAt f.payload 0 = 1) →
    (acceptsData s f (cmdNoFw 0x94 2) = true → 17 ≤ f.payload.length → f.payload.length ≤ 8144 → byteAt f.payload 0 < 2 →
      zeroAt f.payload 1 7 = true → leAt f.payload 8 8 % 8128 = 0 → leAt f.payload 8 8 + (f.payload.length - 16) ≤ 30000000 →
      s.guard.running ≠ some k → (fwSlot s k).commit = none → dataWaits f.port s.fwHeld = false →
      ∃ t, exec (.fwSlotData f) s = .next t ∧
        (fwSlot t k).bytes = Sparse.put erased (if (fwSlot s k).loading then (fwSlot s k).bytes else []) (leAt f.payload 8 8)
          (f.payload.drop 16) ∧
        leAt f.payload 8 8 ∈ (fwSlot t k).chunks ∧ (fwSlot t k).loading = true ∧ fwSlot t (!k) = fwSlot s (!k) ∧
        ((fwSlot s k).loading = false → (if k then t.guard.slot1Valid else t.guard.slot0Valid) = false) ∧
        guardKept t.guard = guardKept s.guard ∧ t.mem = s.mem ∧ t.ctl.sent = s.ctl.sent) ∧
    (acceptsData s f (cmdNoFw 0x94 2) = true → dataWaits f.port s.fwHeld = true →
      ∃ t, exec (.fwSlotData f) s = .next t ∧ t.fwHeld = s.fwHeld ++ [.fwSlotData f] ∧ t.nor = s.nor ∧ t.guard = s.guard ∧ t.mem = s.mem) ∧
    (accepts s f (cmdNoFw 0x95 1) = true → f.payload.length = 16 → byteAt f.payload 0 < 2 → zeroAt f.payload 1 7 = true →
      leAt f.payload 8 8 ≠ 0 → leAt f.payload 8 8 ≤ 30000000 → s.guard.running ≠ some k → (fwSlot s k).commit = none →
      exec (.fwSlotCommit f) s = .next (acceptedReply f 0x95 (setFwSlot (afterAccept s f) k
        { fwSlot s k with commit := some (owedBy s f 0x95, leAt f.payload 8 8), loading := false }))) ∧
    (∀ (n : Fin 2) o len sl, sl = fwSlot s (decide (n = 1)) → sl.commit = some (o, len) →
      (missingChunks len sl.chunks ≠ [] →
        exec (.fwSlotCommitDone n) s = .next (finish (setFwSlot s (decide (n = 1)) { sl with commit := none }) o stIncomplete
          (incompleteDetail (missingChunks len sl.chunks)))) ∧
      (missingChunks len sl.chunks = [] → slotFault s.guard sl = 0 → len = 112 + slotBodyLen sl →
        exec (.fwSlotCommitDone n) s = .next (finish (setSlotValid (setFwSlot s (decide (n = 1)) { sl with commit := none })
          (decide (n = 1)) true) o stOk [])) ∧
      (missingChunks len sl.chunks = [] → slotFault s.guard sl = 4 →
        exec (.fwSlotCommitDone n) s = .next (finish (setFwSlot s (decide (n = 1)) { sl with commit := none }) o stSigBad [])) ∧
      (missingChunks len sl.chunks = [] → slotFault s.guard sl ≠ 4 → (slotFault s.guard sl ≠ 0 ∨ len ≠ 112 + slotBodyLen sl) →
        exec (.fwSlotCommitDone n) s = .next (finish (setFwSlot s (decide (n = 1)) { sl with commit := none }) o stBadParam []))) ∧
    (accepts s f (cmdNoFw 0x96 1) = true → f.payload = [1] →
      exec (.deviceReset f) s = .next (replies s f 0x96 []
        (let a := afterAccept s f; { a with pwr := { a.pwr with resetDue := true } })))

/-! ## Securing and restore -/

/-- The family 0x6: SECURE_NOW waits for its tier while a step or an image is under way and else secures as soon as a channel is free; SECURE_FLOOR and UNDERSTUDY_WRITE set
their registers; UNDERSTUDY_READ and JOURNAL_READ answer; a completed image becomes its tier's last and is due no longer; a journal entry
programmed joins the mirror, a failed one is recorded (kind 0x19). That firmware's own image is built at the command is the model's choice (log 52). -/
def Obligations.SecuringCommandsTakeEffect : Prop :=
  ∀ (f : Frame) (s : State),
    (∀ t : Nat, accepts s f (cmd 0x60) = true → f.payload = [BitVec.ofNat 8 t] → 1 ≤ t → t ≤ 3 → (validRegions s).isEmpty = false →
      s.step.dirty = false →
      (secureLater s = true →
        ∃ u, exec (.secureNow f) s = .next (acceptedReply f 0x60 u) ∧ t ∈ u.secure.due ∧
          u.secure.waiting = s.secure.waiting ++ [(t, owedBy s f 0x60)] ∧ u.secure.image = s.secure.image ∧ u.secure.st = s.secure.st ∧
          u.mem = s.mem ∧ u.step = s.step) ∧
      (∀ k, secureLater s = false → t ≠ 1 → s.fwHeld = [] → fwChannel s (regionsHome s) = some k →
        ∃ u i, exec (.secureNow f) s = .next (acceptedReply f 0x60 u) ∧ u.secure.st = .draining ∧ u.secure.firmware = true ∧
          u.secure.image = some i ∧ i.tiers = [t] ∧ imgSent i t = imgLen i ∧
          i.id = BitVec.ofNat 64 (ownId s * 2 ^ 56 + bits s.step.lastCommitted.toNat 55 0) ∧
          u.secure.waiting = s.secure.waiting ++ [(t, owedBy s f 0x60)] ∧ u.step.phase = s.step.phase) ∧
      (secureLater s = false → t ≠ 1 → (s.fwHeld ≠ [] ∨ fwChannel s (regionsHome s) = none) →
        exec (.secureNow f) s = .next (acceptedReply f 0x60 (let a := afterAccept s f; { a with fwHeld := a.fwHeld ++ [.secureNow f] }))) ∧
      (secureLater s = false → t = 1 →
        exec (.secureNow f) s = .next (finish (afterAccept s f) (owedBy s f 0x60) stSecureRefused []))) ∧
    (accepts s f (cmd 0x61) = true → f.payload.length = 4 →
      exec (.secureFloor f) s = .next (replies s f 0x61 []
        (let a := afterAccept s f; { a with secure := { a.secure with floor := BitVec.ofNat 32 (leAt f.payload 0 4) } }))) ∧
    (∀ e, e = taken128 (entryOf f.payload) understudyFields → accepts s f (cmd 0x62) = true → f.payload.length = 32 →
      zeroAt f.payload 0 16 = true → wLength e ≤ 6144 → uPort e ≤ 5 → snapshotComing s = false →
      (wLength e = 0 ∨ (eBase e + wLength e ≤ 48896 ∧ windowClash s e = false)) →
      exec (.understudyWrite f) s = .next (replies s f 0x62 []
        (let a := afterAccept s f; { a with cfg := { a.cfg with understudy := e } }))) ∧
    (accepts s f (cmd 0x63) = true → f.payload = [] →
      exec (.understudyRead f) s = .next (replies s f 0x63 (toLE 16 s.cfg.understudy.toNat) (afterAccept s f))) ∧
    (accepts s f (cmd 0x64) = true → f.payload.length = 12 →
      exec (.journalRead f) s = .next (replies s f 0x64
        ((((journalSource s).dropWhile (fun e => decide (e.step.toNat < leAt f.payload 0 8))).take (leAt f.payload 8 4)).map
          journalBytes).flatten (afterAccept s f))) ∧
    (∀ (t : Fin 4) i, tierSent s t.val = some i →
      ∃ u, exec (.imageComplete t true) s = .next u ∧ t.val ∉ u.secure.due ∧ (∀ w ∈ u.secure.waiting, w.1 ≠ t.val) ∧
        (t = 1 → u.secure.last1 = i.id) ∧ (t = 2 → u.secure.last2 = i.id) ∧ (t = 3 → u.secure.last3 = i.id) ∧
        (i.tiers.filter (· ≠ t.val) = [] → u.secure.image = none ∧ u.secure.st = .idle) ∧
        (i.tiers.filter (· ≠ t.val) ≠ [] → u.secure.image = some { i with tiers := i.tiers.filter (· ≠ t.val) }) ∧
        u.mem = s.mem ∧ u.step = s.step ∧ u.cfg = s.cfg ∧ u.guard = s.guard) ∧
    (∀ e r, s.journal.toMirror = e :: r →
      (∃ u, exec (.journalMirrorDone true) s = .next u ∧ u.journal.toMirror = r ∧ u.journal.mirror = mirrorPut s.journal.mirror e ∧
        u.journal.entries = s.journal.entries ∧ u.err = s.err ∧ u.mem = s.mem) ∧
      ∃ u, exec (.journalMirrorDone false) s = .next u ∧ u.journal.toMirror = r ∧ u.journal.mirror = s.journal.mirror ∧
        oneMore s u 0x19 (guardPlace s) ∧ u.mem = s.mem)

/-- RESTORE: of tier 3, and of this device's own image at tier 1, it is accepted and awaits its bytes; while a step or a restore is under way it is
refused; an image not held is refused with an IMAGE error (kind 0x18). Its end, once a channel is free, writes the sections at their places and makes the
state clean at the image's step; with every bank ON no byte is written but those of the sections, of the halves that the plan does not address and of the
channels' completion records (their place is the model's choice, log 47). An image that does not match, one whose NAND read fails, and one sent to its
owner that the owner has not written whole are refused. That one restore runs at a time, when a NAND read fails, when the understudy's restore ends, and
that an image's sections are written though one of them does not match, are the model's choices (log 53). -/
def Obligations.RestoresWriteTheirImage : Prop :=
  ∀ (s : State),
    (∀ (f : Frame) (t : Nat) (id : BitVec 64) (busy : Bool), accepts s f (cmd 0x65) = true →
      f.payload = BitVec.ofNat 8 t :: zeros 7 ++ toLE 8 id.toNat → 1 ≤ t → t ≤ 3 →
      busy = (stepBusy s || s.restore.isSome || s.fwHeld.any isHeldRestore) →
      (busy = true → exec (.restore f) s = .next (finish (afterAccept s f) (owedBy s f 0x65) stSecureRefused [])) ∧
      (busy = false → (t = 3 ∨ (t = 1 ∧ id.toNat / 2 ^ 56 = ownId s)) →
        exec (.restore f) s = .next (acceptedReply f 0x65 (let a := afterAccept s f
          { a with restore := some { tier := t, id := id, bytes := [], sends := [], worst := 0, owed := owedBy s f 0x65 } }))) ∧
      (∀ v, busy = false → t = 2 → nandHolding s id = some v →
        exec (.restore f) s = .next (acceptedReply f 0x65 (let a := afterAccept s f
          { a with restore := some { tier := 2, id := id, bytes := v.bytes, sends := [], worst := 0, owed := owedBy s f 0x65 } }))) ∧
      (busy = false → ((t = 2 ∧ nandHolding s id = none) ∨
          (t = 1 ∧ id.toNat / 2 ^ 56 ≠ ownId s ∧ id.toNat / 2 ^ 56 ≠ uSource s.cfg.understudy)) →
        ∃ u, exec (.restore f) s = .next (finish u (owedBy s f 0x65) stSecureRefused []) ∧ oneMore s u 0x18 (guardPlace s) ∧
          u.restore = s.restore ∧ u.mem = s.mem)) ∧
    (∀ r home, s.restore = some r → r.sends = [] → home = ((restoreEntries r).head?.map (fun e => dieOf (entryAddr s e))).getD 0 →
      (fwChannel s home = none → exec .restoreComplete s = .next s) ∧
      ∀ k, fwChannel s home = some k →
        (nandReadFails s r = true →
          ∃ u, exec .restoreComplete s = .next (finish u r.owed stSecureRefused []) ∧ u.restore = none ∧ oneMore s u 0x18 (guardPlace s) ∧
            u.step = s.step ∧ u.mem = s.mem) ∧
        (r.tier ≠ 2 → nandReadFails s r = false) ∧
        (nandReadFails s r = false → headerGood (restoreRead r) r.id.toNat = true → (restoreEntries r).all (entryInside s) = true →
          (restoreEntries r).all (fun e => decide (crc32c (entrySection r e) = ihCrc e)) = true →
          ∃ u, exec .restoreComplete s = .next (finish u r.owed stOk []) ∧ u.restore = none ∧ u.step.dirty = false ∧
            u.step.lastCommitted = BitVec.ofNat 64 (bits (ofLE (restoreRead r 0 64)) 471 416) ∧ u.step.phase = s.step.phase ∧
            (s.mem.banks = [] → onlyWrites s u ((restoreEntries r).map (fun e => (entryAddr s e, entrySection r e)) ++
              ((validRegions s).filter (fun e => rPaired e.2)).map (fun e => (ePartner e.2 * 2 ^ 24, zeros (rLength e.2 * 2 ^ 24))) ++
              (List.range 512).map (fun c => (fwRecAt c, zeros 32)))) ∧ u.cfg = s.cfg ∧ u.guard = s.guard) ∧
        (nandReadFails s r = false → headerGood (restoreRead r) r.id.toNat = false →
          ∃ u, exec .restoreComplete s = .next (finish u r.owed stSecureRefused []) ∧ u.restore = none ∧ oneMore s u 0x18 (guardPlace s) ∧
            u.step = s.step ∧ u.mem = s.mem) ∧
        (nandReadFails s r = false → headerGood (restoreRead r) r.id.toNat = true → (restoreEntries r).all (entryInside s) = true →
          (restoreEntries r).all (fun e => decide (crc32c (entrySection r e) = ihCrc e)) = false →
          ∃ u, exec .restoreComplete s = .next (finish u r.owed stSecureRefused []) ∧ u.restore = none ∧ oneMore s u 0x18 (guardPlace s) ∧
            u.step.lastCommitted = s.step.lastCommitted ∧ u.step.dirty = s.step.dirty)) ∧
    (∀ r q, s.restore = some r → r.sends ≠ [] → q = port s (Fin.ofNat 6 (uPort s.cfg.understudy)) →
      (q.st = .up → q.tx.any (fun x => r.sends.contains x.xfer) = false → r.worst = 0 →
        exec .restoreComplete s = .next (finish { s with restore := none } r.owed stOk [])) ∧
      (q.st = .up → q.tx.any (fun x => r.sends.contains x.xfer) = false → r.worst ≠ 0 →
        ∃ u, exec .restoreComplete s = .next (finish u r.owed stSecureRefused []) ∧ u.restore = none ∧
          oneMore s u 0x18 (guardPlace s) ∧ u.mem = s.mem) ∧
      (q.st = .up → q.tx.any (fun x => r.sends.contains x.xfer) = true → exec .restoreComplete s = .next s) ∧
      (q.st ≠ .up → ∃ u, exec .restoreComplete s = .next (finish u r.owed stSecureRefused []) ∧ u.restore = none ∧
        oneMore s u 0x18 (guardPlace s) ∧ u.mem = s.mem))
end

