-- ==== Sys2Proof/Laws/Sparse.lean ====
section
/-! SUPPORT. The laws of the sparse maps: a read after a write, and the canonical form that every operation keeps. -/

namespace Sys2Proof.Machine

variable {α : Type} [DecidableEq α] (d : Nat → α)

omit [DecidableEq α] in
@[simp] theorem Sparse.get_nil (k : Nat) : Sparse.get d [] k = d k := rfl

/-- A read of the key just written gives the value written. -/
@[simp] theorem Sparse.get_set_self (m : Sparse α) (k : Nat) (v : α) : Sparse.get d (Sparse.set d m k v) k = v := by
  induction m with
  | nil => by_cases h : v = d k <;> simp [Sparse.set, Sparse.get, h]
  | cons e r ih =>
    obtain ⟨j, a⟩ := e
    simp only [Sparse.set]
    split
    · split
      · exact ih
      · simp [Sparse.get]
    · split
      · simp [Sparse.get]
      · simp [Sparse.get, *]

/-- A write leaves every other key alone. -/
theorem Sparse.get_set_other (m : Sparse α) {k j : Nat} (v : α) (h : j ≠ k) :
    Sparse.get d (Sparse.set d m k v) j = Sparse.get d m j := by
  induction m with
  | nil => by_cases hv : v = d k <;> simp [Sparse.set, Sparse.get, hv, Ne.symm h]
  | cons e r ih =>
    obtain ⟨i, a⟩ := e
    simp only [Sparse.set]
    split
    · next hi =>
      subst hi
      split
      · rw [ih]; simp [Sparse.get, Ne.symm h]
      · simp [Sparse.get, Ne.symm h]
    · split
      · simp [Sparse.get, Ne.symm h]
      · by_cases hij : i = j
        · simp [Sparse.get, hij]
        · simp [Sparse.get, hij, ih]

/-- The form from a bound holds from every lower one. -/
theorem Sparse.wfFrom_mono {m : Sparse α} {lo lo' : Nat} (h : lo' ≤ lo) (w : Sparse.wfFrom d lo m = true) :
    Sparse.wfFrom d lo' m = true := by
  cases m with
  | nil => rfl
  | cons e r =>
    simp only [Sparse.wfFrom, Bool.and_eq_true, decide_eq_true_eq] at w ⊢
    exact ⟨⟨le_trans h w.1.1, w.1.2⟩, w.2⟩

/-- A map in canonical form lists no key below its bound. -/
theorem Sparse.get_below {m : Sparse α} {lo k : Nat} (w : Sparse.wfFrom d lo m = true) (h : k < lo) : Sparse.get d m k = d k := by
  induction m generalizing lo with
  | nil => rfl
  | cons e r ih =>
    simp only [Sparse.wfFrom, Bool.and_eq_true, decide_eq_true_eq] at w
    have hne : e.1 ≠ k := by omega
    obtain ⟨j, a⟩ := e
    simp only [Sparse.get, hne, if_false]
    exact ih w.2 (by simp only at w; omega)

theorem Sparse.set_wfFrom {m : Sparse α} {lo k : Nat} (v : α) (w : Sparse.wfFrom d lo m = true) (h : lo ≤ k) :
    Sparse.wfFrom d lo (Sparse.set d m k v) = true := by
  induction m generalizing lo with
  | nil =>
    by_cases hv : v = d k
    · simp [Sparse.set, hv, Sparse.wfFrom]
    · simp [Sparse.set, hv, Sparse.wfFrom, h]
  | cons e r ih =>
    obtain ⟨j, a⟩ := e
    simp only [Sparse.wfFrom, Bool.and_eq_true, decide_eq_true_eq] at w
    obtain ⟨⟨h1, h2⟩, h3⟩ := w
    simp only [Sparse.set]
    split
    · next hj =>
      subst hj
      split
      · next hv =>
        have h3' : Sparse.wfFrom d lo r = true := Sparse.wfFrom_mono d (by omega) h3
        exact ih h3' h
      · next hv => simp [Sparse.wfFrom, h, hv, h3]
    · next hj =>
      split
      · next hc => simp [Sparse.wfFrom, h, hc.1, hc.2, h2, h3]
      · next hc =>
        by_cases hk : j < k
        · simp [Sparse.wfFrom, h1, h2, ih h3 (by omega)]
        · have hkj : k < j := by omega
          have hv : v = d k := by
            by_contra hne
            exact hc ⟨hkj, hne⟩
          have hr : Sparse.set d r k v = r := by
            clear ih
            have : ∀ (r : Sparse α) (lo : Nat), Sparse.wfFrom d lo r = true → k < lo → Sparse.set d r k v = r := by
              intro r
              induction r with
              | nil => intro _ _ _; simp [Sparse.set, hv]
              | cons e r ih =>
                intro lo w hlo
                obtain ⟨i, b⟩ := e
                simp only [Sparse.wfFrom, Bool.and_eq_true, decide_eq_true_eq] at w
                have hik : i ≠ k := by omega
                simp only [Sparse.set, hik, if_false, hv]
                simp only [ne_eq, not_true_eq_false, and_false, if_false]
                rw [hv] at ih
                rw [ih (i + 1) w.2 (by omega)]
            exact this r (j + 1) h3 (by omega)
          rw [hr]
          simp [Sparse.wfFrom, h1, h2, h3]

/-- A write keeps the canonical form. -/
theorem Sparse.set_wf {m : Sparse α} (k : Nat) (v : α) (w : Sparse.wf d m = true) : Sparse.wf d (Sparse.set d m k v) = true :=
  Sparse.set_wfFrom d v w (Nat.zero_le k)

/-- Dropping entries keeps the canonical form. -/
theorem Sparse.filter_wfFrom {m : Sparse α} {lo : Nat} (p : Nat × α → Bool) (w : Sparse.wfFrom d lo m = true) :
    Sparse.wfFrom d lo (m.filter p) = true := by
  induction m generalizing lo with
  | nil => rfl
  | cons e r ih =>
    obtain ⟨j, a⟩ := e
    simp only [Sparse.wfFrom, Bool.and_eq_true, decide_eq_true_eq] at w
    simp only [List.filter]
    split
    · simp [Sparse.wfFrom, w.1.1, w.1.2, ih w.2]
    · exact Sparse.wfFrom_mono d (by omega) (ih w.2)

/-- Clearing a range keeps the canonical form. -/
theorem Sparse.clear_wf {m : Sparse α} (base len : Nat) (w : Sparse.wf d m = true) : Sparse.wf d (Sparse.clear m base len) = true :=
  Sparse.filter_wfFrom d _ w

omit [DecidableEq α] in
/-- A key in the cleared range reads as the default. -/
theorem Sparse.get_clear_in (m : Sparse α) {base len k : Nat} (h : base ≤ k ∧ k < base + len) :
    Sparse.get d (Sparse.clear m base len) k = d k := by
  induction m with
  | nil => rfl
  | cons e r ih =>
    obtain ⟨j, a⟩ := e
    simp only [Sparse.clear, List.filter] at ih ⊢
    split
    · next hp =>
      simp only [Bool.or_eq_true, decide_eq_true_eq] at hp
      have : j ≠ k := by omega
      simp [Sparse.get, this, ih]
    · exact ih

omit [DecidableEq α] in
/-- A key outside the cleared range reads as before. -/
theorem Sparse.get_clear_out (m : Sparse α) {base len k : Nat} (h : k < base ∨ base + len ≤ k) :
    Sparse.get d (Sparse.clear m base len) k = Sparse.get d m k := by
  induction m with
  | nil => rfl
  | cons e r ih =>
    obtain ⟨j, a⟩ := e
    simp only [Sparse.clear, List.filter] at ih ⊢
    split
    · simp only [Sparse.get, ih]
    · next hp =>
      simp only [Bool.or_eq_false_iff, decide_eq_false_iff_not] at hp
      have : j ≠ k := by omega
      simp [Sparse.get, this, ih]

end Sys2Proof.Machine
end

