-- ==== Sys2Proof/Laws/State.lean ====
section
/-! SUPPORT. What each update of one part of State leaves alone, one lemma per field, and a read after it. -/

namespace Sys2Proof.Machine

/-! `setPlaceAlarms` -/
@[simp] theorem setPlaceAlarms_pending (s : State) (p : Nat) (v : PlaceAlarms) : (setPlaceAlarms s p v).pending = s.pending := (rfl)
@[simp] theorem setPlaceAlarms_now (s : State) (p : Nat) (v : PlaceAlarms) : (setPlaceAlarms s p v).now = s.now := (rfl)
@[simp] theorem setPlaceAlarms_cycle (s : State) (p : Nat) (v : PlaceAlarms) : (setPlaceAlarms s p v).cycle = s.cycle := (rfl)
@[simp] theorem setPlaceAlarms_free (s : State) (p : Nat) (v : PlaceAlarms) : (setPlaceAlarms s p v).free = s.free := (rfl)
@[simp] theorem setPlaceAlarms_pwr (s : State) (p : Nat) (v : PlaceAlarms) : (setPlaceAlarms s p v).pwr = s.pwr := (rfl)
@[simp] theorem setPlaceAlarms_tap (s : State) (p : Nat) (v : PlaceAlarms) : (setPlaceAlarms s p v).tap = s.tap := (rfl)
@[simp] theorem setPlaceAlarms_guard (s : State) (p : Nat) (v : PlaceAlarms) : (setPlaceAlarms s p v).guard = s.guard := (rfl)
@[simp] theorem setPlaceAlarms_nor (s : State) (p : Nat) (v : PlaceAlarms) : (setPlaceAlarms s p v).nor = s.nor := (rfl)
@[simp] theorem setPlaceAlarms_nand (s : State) (p : Nat) (v : PlaceAlarms) : (setPlaceAlarms s p v).nand = s.nand := (rfl)
@[simp] theorem setPlaceAlarms_beat (s : State) (p : Nat) (v : PlaceAlarms) : (setPlaceAlarms s p v).beat = s.beat := (rfl)
@[simp] theorem setPlaceAlarms_ctl (s : State) (p : Nat) (v : PlaceAlarms) : (setPlaceAlarms s p v).ctl = s.ctl := (rfl)
@[simp] theorem setPlaceAlarms_ses (s : State) (p : Nat) (v : PlaceAlarms) : (setPlaceAlarms s p v).ses = s.ses := (rfl)
@[simp] theorem setPlaceAlarms_cfg (s : State) (p : Nat) (v : PlaceAlarms) : (setPlaceAlarms s p v).cfg = s.cfg := (rfl)
@[simp] theorem setPlaceAlarms_store0 (s : State) (p : Nat) (v : PlaceAlarms) : (setPlaceAlarms s p v).store0 = s.store0 := (rfl)
@[simp] theorem setPlaceAlarms_store1 (s : State) (p : Nat) (v : PlaceAlarms) : (setPlaceAlarms s p v).store1 = s.store1 := (rfl)
@[simp] theorem setPlaceAlarms_step (s : State) (p : Nat) (v : PlaceAlarms) : (setPlaceAlarms s p v).step = s.step := (rfl)
@[simp] theorem setPlaceAlarms_stage (s : State) (p : Nat) (v : PlaceAlarms) : (setPlaceAlarms s p v).stage = s.stage := (rfl)
@[simp] theorem setPlaceAlarms_mem (s : State) (p : Nat) (v : PlaceAlarms) : (setPlaceAlarms s p v).mem = s.mem := (rfl)
@[simp] theorem setPlaceAlarms_tenants (s : State) (p : Nat) (v : PlaceAlarms) : (setPlaceAlarms s p v).tenants = s.tenants := (rfl)
@[simp] theorem setPlaceAlarms_dma (s : State) (p : Nat) (v : PlaceAlarms) : (setPlaceAlarms s p v).dma = s.dma := (rfl)
@[simp] theorem setPlaceAlarms_fwHeld (s : State) (p : Nat) (v : PlaceAlarms) : (setPlaceAlarms s p v).fwHeld = s.fwHeld := (rfl)
@[simp] theorem setPlaceAlarms_ref (s : State) (p : Nat) (v : PlaceAlarms) : (setPlaceAlarms s p v).ref = s.ref := (rfl)
@[simp] theorem setPlaceAlarms_half (s : State) (p : Nat) (v : PlaceAlarms) : (setPlaceAlarms s p v).half = s.half := (rfl)
@[simp] theorem setPlaceAlarms_waiting1 (s : State) (p : Nat) (v : PlaceAlarms) : (setPlaceAlarms s p v).waiting1 = s.waiting1 := (rfl)
@[simp] theorem setPlaceAlarms_taking (s : State) (p : Nat) (v : PlaceAlarms) : (setPlaceAlarms s p v).taking = s.taking := (rfl)
@[simp] theorem setPlaceAlarms_arbs (s : State) (p : Nat) (v : PlaceAlarms) : (setPlaceAlarms s p v).arbs = s.arbs := (rfl)
@[simp] theorem setPlaceAlarms_xfers (s : State) (p : Nat) (v : PlaceAlarms) : (setPlaceAlarms s p v).xfers = s.xfers := (rfl)
@[simp] theorem setPlaceAlarms_ports (s : State) (p : Nat) (v : PlaceAlarms) : (setPlaceAlarms s p v).ports = s.ports := (rfl)
@[simp] theorem setPlaceAlarms_err (s : State) (p : Nat) (v : PlaceAlarms) : (setPlaceAlarms s p v).err = s.err := (rfl)
@[simp] theorem setPlaceAlarms_trace (s : State) (p : Nat) (v : PlaceAlarms) : (setPlaceAlarms s p v).trace = s.trace := (rfl)
@[simp] theorem setPlaceAlarms_health (s : State) (p : Nat) (v : PlaceAlarms) : (setPlaceAlarms s p v).health = s.health := (rfl)
@[simp] theorem setPlaceAlarms_secure (s : State) (p : Nat) (v : PlaceAlarms) : (setPlaceAlarms s p v).secure = s.secure := (rfl)
@[simp] theorem setPlaceAlarms_journal (s : State) (p : Nat) (v : PlaceAlarms) : (setPlaceAlarms s p v).journal = s.journal := (rfl)
@[simp] theorem setPlaceAlarms_restore (s : State) (p : Nat) (v : PlaceAlarms) : (setPlaceAlarms s p v).restore = s.restore := (rfl)

/-! `setKcp` -/
@[simp] theorem setKcp_pending (s : State) (k : Kcp) (v : KcpSt) : (setKcp s k v).pending = s.pending := by cases k <;> rfl
@[simp] theorem setKcp_now (s : State) (k : Kcp) (v : KcpSt) : (setKcp s k v).now = s.now := by cases k <;> rfl
@[simp] theorem setKcp_cycle (s : State) (k : Kcp) (v : KcpSt) : (setKcp s k v).cycle = s.cycle := by cases k <;> rfl
@[simp] theorem setKcp_free (s : State) (k : Kcp) (v : KcpSt) : (setKcp s k v).free = s.free := by cases k <;> rfl
@[simp] theorem setKcp_pwr (s : State) (k : Kcp) (v : KcpSt) : (setKcp s k v).pwr = s.pwr := by cases k <;> rfl
@[simp] theorem setKcp_tap (s : State) (k : Kcp) (v : KcpSt) : (setKcp s k v).tap = s.tap := by cases k <;> rfl
@[simp] theorem setKcp_guard (s : State) (k : Kcp) (v : KcpSt) : (setKcp s k v).guard = s.guard := by cases k <;> rfl
@[simp] theorem setKcp_nor (s : State) (k : Kcp) (v : KcpSt) : (setKcp s k v).nor = s.nor := by cases k <;> rfl
@[simp] theorem setKcp_nand (s : State) (k : Kcp) (v : KcpSt) : (setKcp s k v).nand = s.nand := by cases k <;> rfl
@[simp] theorem setKcp_beat (s : State) (k : Kcp) (v : KcpSt) : (setKcp s k v).beat = s.beat := by cases k <;> rfl
@[simp] theorem setKcp_ses (s : State) (k : Kcp) (v : KcpSt) : (setKcp s k v).ses = s.ses := by cases k <;> rfl
@[simp] theorem setKcp_cfg (s : State) (k : Kcp) (v : KcpSt) : (setKcp s k v).cfg = s.cfg := by cases k <;> rfl
@[simp] theorem setKcp_store0 (s : State) (k : Kcp) (v : KcpSt) : (setKcp s k v).store0 = s.store0 := by cases k <;> rfl
@[simp] theorem setKcp_store1 (s : State) (k : Kcp) (v : KcpSt) : (setKcp s k v).store1 = s.store1 := by cases k <;> rfl
@[simp] theorem setKcp_step (s : State) (k : Kcp) (v : KcpSt) : (setKcp s k v).step = s.step := by cases k <;> rfl
@[simp] theorem setKcp_stage (s : State) (k : Kcp) (v : KcpSt) : (setKcp s k v).stage = s.stage := by cases k <;> rfl
@[simp] theorem setKcp_mem (s : State) (k : Kcp) (v : KcpSt) : (setKcp s k v).mem = s.mem := by cases k <;> rfl
@[simp] theorem setKcp_tenants (s : State) (k : Kcp) (v : KcpSt) : (setKcp s k v).tenants = s.tenants := by cases k <;> rfl
@[simp] theorem setKcp_dma (s : State) (k : Kcp) (v : KcpSt) : (setKcp s k v).dma = s.dma := by cases k <;> rfl
@[simp] theorem setKcp_fwHeld (s : State) (k : Kcp) (v : KcpSt) : (setKcp s k v).fwHeld = s.fwHeld := by cases k <;> rfl
@[simp] theorem setKcp_ref (s : State) (k : Kcp) (v : KcpSt) : (setKcp s k v).ref = s.ref := by cases k <;> rfl
@[simp] theorem setKcp_half (s : State) (k : Kcp) (v : KcpSt) : (setKcp s k v).half = s.half := by cases k <;> rfl
@[simp] theorem setKcp_waiting1 (s : State) (k : Kcp) (v : KcpSt) : (setKcp s k v).waiting1 = s.waiting1 := by cases k <;> rfl
@[simp] theorem setKcp_taking (s : State) (k : Kcp) (v : KcpSt) : (setKcp s k v).taking = s.taking := by cases k <;> rfl
@[simp] theorem setKcp_arbs (s : State) (k : Kcp) (v : KcpSt) : (setKcp s k v).arbs = s.arbs := by cases k <;> rfl
@[simp] theorem setKcp_xfers (s : State) (k : Kcp) (v : KcpSt) : (setKcp s k v).xfers = s.xfers := by cases k <;> rfl
@[simp] theorem setKcp_ports (s : State) (k : Kcp) (v : KcpSt) : (setKcp s k v).ports = s.ports := by cases k <;> rfl
@[simp] theorem setKcp_err (s : State) (k : Kcp) (v : KcpSt) : (setKcp s k v).err = s.err := by cases k <;> rfl
@[simp] theorem setKcp_alarms (s : State) (k : Kcp) (v : KcpSt) : (setKcp s k v).alarms = s.alarms := by cases k <;> rfl
@[simp] theorem setKcp_trace (s : State) (k : Kcp) (v : KcpSt) : (setKcp s k v).trace = s.trace := by cases k <;> rfl
@[simp] theorem setKcp_health (s : State) (k : Kcp) (v : KcpSt) : (setKcp s k v).health = s.health := by cases k <;> rfl
@[simp] theorem setKcp_secure (s : State) (k : Kcp) (v : KcpSt) : (setKcp s k v).secure = s.secure := by cases k <;> rfl
@[simp] theorem setKcp_journal (s : State) (k : Kcp) (v : KcpSt) : (setKcp s k v).journal = s.journal := by cases k <;> rfl
@[simp] theorem setKcp_restore (s : State) (k : Kcp) (v : KcpSt) : (setKcp s k v).restore = s.restore := by cases k <;> rfl

/-! `setPort` -/
@[simp] theorem setPort_pending (s : State) (p : PortNo) (v : Port) : (setPort s p v).pending = s.pending := (rfl)
@[simp] theorem setPort_now (s : State) (p : PortNo) (v : Port) : (setPort s p v).now = s.now := (rfl)
@[simp] theorem setPort_cycle (s : State) (p : PortNo) (v : Port) : (setPort s p v).cycle = s.cycle := (rfl)
@[simp] theorem setPort_free (s : State) (p : PortNo) (v : Port) : (setPort s p v).free = s.free := (rfl)
@[simp] theorem setPort_pwr (s : State) (p : PortNo) (v : Port) : (setPort s p v).pwr = s.pwr := (rfl)
@[simp] theorem setPort_tap (s : State) (p : PortNo) (v : Port) : (setPort s p v).tap = s.tap := (rfl)
@[simp] theorem setPort_guard (s : State) (p : PortNo) (v : Port) : (setPort s p v).guard = s.guard := (rfl)
@[simp] theorem setPort_nor (s : State) (p : PortNo) (v : Port) : (setPort s p v).nor = s.nor := (rfl)
@[simp] theorem setPort_nand (s : State) (p : PortNo) (v : Port) : (setPort s p v).nand = s.nand := (rfl)
@[simp] theorem setPort_beat (s : State) (p : PortNo) (v : Port) : (setPort s p v).beat = s.beat := (rfl)
@[simp] theorem setPort_ctl (s : State) (p : PortNo) (v : Port) : (setPort s p v).ctl = s.ctl := (rfl)
@[simp] theorem setPort_ses (s : State) (p : PortNo) (v : Port) : (setPort s p v).ses = s.ses := (rfl)
@[simp] theorem setPort_cfg (s : State) (p : PortNo) (v : Port) : (setPort s p v).cfg = s.cfg := (rfl)
@[simp] theorem setPort_store0 (s : State) (p : PortNo) (v : Port) : (setPort s p v).store0 = s.store0 := (rfl)
@[simp] theorem setPort_store1 (s : State) (p : PortNo) (v : Port) : (setPort s p v).store1 = s.store1 := (rfl)
@[simp] theorem setPort_step (s : State) (p : PortNo) (v : Port) : (setPort s p v).step = s.step := (rfl)
@[simp] theorem setPort_stage (s : State) (p : PortNo) (v : Port) : (setPort s p v).stage = s.stage := (rfl)
@[simp] theorem setPort_mem (s : State) (p : PortNo) (v : Port) : (setPort s p v).mem = s.mem := (rfl)
@[simp] theorem setPort_tenants (s : State) (p : PortNo) (v : Port) : (setPort s p v).tenants = s.tenants := (rfl)
@[simp] theorem setPort_dma (s : State) (p : PortNo) (v : Port) : (setPort s p v).dma = s.dma := (rfl)
@[simp] theorem setPort_fwHeld (s : State) (p : PortNo) (v : Port) : (setPort s p v).fwHeld = s.fwHeld := (rfl)
@[simp] theorem setPort_ref (s : State) (p : PortNo) (v : Port) : (setPort s p v).ref = s.ref := (rfl)
@[simp] theorem setPort_half (s : State) (p : PortNo) (v : Port) : (setPort s p v).half = s.half := (rfl)
@[simp] theorem setPort_waiting1 (s : State) (p : PortNo) (v : Port) : (setPort s p v).waiting1 = s.waiting1 := (rfl)
@[simp] theorem setPort_taking (s : State) (p : PortNo) (v : Port) : (setPort s p v).taking = s.taking := (rfl)
@[simp] theorem setPort_arbs (s : State) (p : PortNo) (v : Port) : (setPort s p v).arbs = s.arbs := (rfl)
@[simp] theorem setPort_xfers (s : State) (p : PortNo) (v : Port) : (setPort s p v).xfers = s.xfers := (rfl)
@[simp] theorem setPort_err (s : State) (p : PortNo) (v : Port) : (setPort s p v).err = s.err := (rfl)
@[simp] theorem setPort_alarms (s : State) (p : PortNo) (v : Port) : (setPort s p v).alarms = s.alarms := (rfl)
@[simp] theorem setPort_trace (s : State) (p : PortNo) (v : Port) : (setPort s p v).trace = s.trace := (rfl)
@[simp] theorem setPort_health (s : State) (p : PortNo) (v : Port) : (setPort s p v).health = s.health := (rfl)
@[simp] theorem setPort_secure (s : State) (p : PortNo) (v : Port) : (setPort s p v).secure = s.secure := (rfl)
@[simp] theorem setPort_journal (s : State) (p : PortNo) (v : Port) : (setPort s p v).journal = s.journal := (rfl)
@[simp] theorem setPort_restore (s : State) (p : PortNo) (v : Port) : (setPort s p v).restore = s.restore := (rfl)

/-! `setStore` -/
@[simp] theorem setStore_pending (s : State) (k : Fin 2) (v : CueStore) : (setStore s k v).pending = s.pending := by unfold setStore; split <;> rfl
@[simp] theorem setStore_now (s : State) (k : Fin 2) (v : CueStore) : (setStore s k v).now = s.now := by unfold setStore; split <;> rfl
@[simp] theorem setStore_cycle (s : State) (k : Fin 2) (v : CueStore) : (setStore s k v).cycle = s.cycle := by unfold setStore; split <;> rfl
@[simp] theorem setStore_free (s : State) (k : Fin 2) (v : CueStore) : (setStore s k v).free = s.free := by unfold setStore; split <;> rfl
@[simp] theorem setStore_pwr (s : State) (k : Fin 2) (v : CueStore) : (setStore s k v).pwr = s.pwr := by unfold setStore; split <;> rfl
@[simp] theorem setStore_tap (s : State) (k : Fin 2) (v : CueStore) : (setStore s k v).tap = s.tap := by unfold setStore; split <;> rfl
@[simp] theorem setStore_guard (s : State) (k : Fin 2) (v : CueStore) : (setStore s k v).guard = s.guard := by unfold setStore; split <;> rfl
@[simp] theorem setStore_nor (s : State) (k : Fin 2) (v : CueStore) : (setStore s k v).nor = s.nor := by unfold setStore; split <;> rfl
@[simp] theorem setStore_nand (s : State) (k : Fin 2) (v : CueStore) : (setStore s k v).nand = s.nand := by unfold setStore; split <;> rfl
@[simp] theorem setStore_beat (s : State) (k : Fin 2) (v : CueStore) : (setStore s k v).beat = s.beat := by unfold setStore; split <;> rfl
@[simp] theorem setStore_ctl (s : State) (k : Fin 2) (v : CueStore) : (setStore s k v).ctl = s.ctl := by unfold setStore; split <;> rfl
@[simp] theorem setStore_ses (s : State) (k : Fin 2) (v : CueStore) : (setStore s k v).ses = s.ses := by unfold setStore; split <;> rfl
@[simp] theorem setStore_cfg (s : State) (k : Fin 2) (v : CueStore) : (setStore s k v).cfg = s.cfg := by unfold setStore; split <;> rfl
@[simp] theorem setStore_step (s : State) (k : Fin 2) (v : CueStore) : (setStore s k v).step = s.step := by unfold setStore; split <;> rfl
@[simp] theorem setStore_stage (s : State) (k : Fin 2) (v : CueStore) : (setStore s k v).stage = s.stage := by unfold setStore; split <;> rfl
@[simp] theorem setStore_mem (s : State) (k : Fin 2) (v : CueStore) : (setStore s k v).mem = s.mem := by unfold setStore; split <;> rfl
@[simp] theorem setStore_tenants (s : State) (k : Fin 2) (v : CueStore) : (setStore s k v).tenants = s.tenants := by unfold setStore; split <;> rfl
@[simp] theorem setStore_dma (s : State) (k : Fin 2) (v : CueStore) : (setStore s k v).dma = s.dma := by unfold setStore; split <;> rfl
@[simp] theorem setStore_fwHeld (s : State) (k : Fin 2) (v : CueStore) : (setStore s k v).fwHeld = s.fwHeld := by unfold setStore; split <;> rfl
@[simp] theorem setStore_ref (s : State) (k : Fin 2) (v : CueStore) : (setStore s k v).ref = s.ref := by unfold setStore; split <;> rfl
@[simp] theorem setStore_half (s : State) (k : Fin 2) (v : CueStore) : (setStore s k v).half = s.half := by unfold setStore; split <;> rfl
@[simp] theorem setStore_waiting1 (s : State) (k : Fin 2) (v : CueStore) : (setStore s k v).waiting1 = s.waiting1 := by unfold setStore; split <;> rfl
@[simp] theorem setStore_taking (s : State) (k : Fin 2) (v : CueStore) : (setStore s k v).taking = s.taking := by unfold setStore; split <;> rfl
@[simp] theorem setStore_arbs (s : State) (k : Fin 2) (v : CueStore) : (setStore s k v).arbs = s.arbs := by unfold setStore; split <;> rfl
@[simp] theorem setStore_xfers (s : State) (k : Fin 2) (v : CueStore) : (setStore s k v).xfers = s.xfers := by unfold setStore; split <;> rfl
@[simp] theorem setStore_ports (s : State) (k : Fin 2) (v : CueStore) : (setStore s k v).ports = s.ports := by unfold setStore; split <;> rfl
@[simp] theorem setStore_err (s : State) (k : Fin 2) (v : CueStore) : (setStore s k v).err = s.err := by unfold setStore; split <;> rfl
@[simp] theorem setStore_alarms (s : State) (k : Fin 2) (v : CueStore) : (setStore s k v).alarms = s.alarms := by unfold setStore; split <;> rfl
@[simp] theorem setStore_trace (s : State) (k : Fin 2) (v : CueStore) : (setStore s k v).trace = s.trace := by unfold setStore; split <;> rfl
@[simp] theorem setStore_health (s : State) (k : Fin 2) (v : CueStore) : (setStore s k v).health = s.health := by unfold setStore; split <;> rfl
@[simp] theorem setStore_secure (s : State) (k : Fin 2) (v : CueStore) : (setStore s k v).secure = s.secure := by unfold setStore; split <;> rfl
@[simp] theorem setStore_journal (s : State) (k : Fin 2) (v : CueStore) : (setStore s k v).journal = s.journal := by unfold setStore; split <;> rfl
@[simp] theorem setStore_restore (s : State) (k : Fin 2) (v : CueStore) : (setStore s k v).restore = s.restore := by unfold setStore; split <;> rfl

/-! `setUnit` -/
@[simp] theorem setUnit_pending (s : State) (u : UnitId) (v : UnitSt) : (setUnit s u v).pending = s.pending := (rfl)
@[simp] theorem setUnit_now (s : State) (u : UnitId) (v : UnitSt) : (setUnit s u v).now = s.now := (rfl)
@[simp] theorem setUnit_cycle (s : State) (u : UnitId) (v : UnitSt) : (setUnit s u v).cycle = s.cycle := (rfl)
@[simp] theorem setUnit_free (s : State) (u : UnitId) (v : UnitSt) : (setUnit s u v).free = s.free := (rfl)
@[simp] theorem setUnit_pwr (s : State) (u : UnitId) (v : UnitSt) : (setUnit s u v).pwr = s.pwr := (rfl)
@[simp] theorem setUnit_tap (s : State) (u : UnitId) (v : UnitSt) : (setUnit s u v).tap = s.tap := (rfl)
@[simp] theorem setUnit_guard (s : State) (u : UnitId) (v : UnitSt) : (setUnit s u v).guard = s.guard := (rfl)
@[simp] theorem setUnit_nor (s : State) (u : UnitId) (v : UnitSt) : (setUnit s u v).nor = s.nor := (rfl)
@[simp] theorem setUnit_nand (s : State) (u : UnitId) (v : UnitSt) : (setUnit s u v).nand = s.nand := (rfl)
@[simp] theorem setUnit_beat (s : State) (u : UnitId) (v : UnitSt) : (setUnit s u v).beat = s.beat := (rfl)
@[simp] theorem setUnit_ctl (s : State) (u : UnitId) (v : UnitSt) : (setUnit s u v).ctl = s.ctl := (rfl)
@[simp] theorem setUnit_ses (s : State) (u : UnitId) (v : UnitSt) : (setUnit s u v).ses = s.ses := (rfl)
@[simp] theorem setUnit_cfg (s : State) (u : UnitId) (v : UnitSt) : (setUnit s u v).cfg = s.cfg := (rfl)
@[simp] theorem setUnit_store0 (s : State) (u : UnitId) (v : UnitSt) : (setUnit s u v).store0 = s.store0 := (rfl)
@[simp] theorem setUnit_store1 (s : State) (u : UnitId) (v : UnitSt) : (setUnit s u v).store1 = s.store1 := (rfl)
@[simp] theorem setUnit_step (s : State) (u : UnitId) (v : UnitSt) : (setUnit s u v).step = s.step := (rfl)
@[simp] theorem setUnit_mem (s : State) (u : UnitId) (v : UnitSt) : (setUnit s u v).mem = s.mem := (rfl)
@[simp] theorem setUnit_tenants (s : State) (u : UnitId) (v : UnitSt) : (setUnit s u v).tenants = s.tenants := (rfl)
@[simp] theorem setUnit_dma (s : State) (u : UnitId) (v : UnitSt) : (setUnit s u v).dma = s.dma := (rfl)
@[simp] theorem setUnit_fwHeld (s : State) (u : UnitId) (v : UnitSt) : (setUnit s u v).fwHeld = s.fwHeld := (rfl)
@[simp] theorem setUnit_ref (s : State) (u : UnitId) (v : UnitSt) : (setUnit s u v).ref = s.ref := (rfl)
@[simp] theorem setUnit_half (s : State) (u : UnitId) (v : UnitSt) : (setUnit s u v).half = s.half := (rfl)
@[simp] theorem setUnit_waiting1 (s : State) (u : UnitId) (v : UnitSt) : (setUnit s u v).waiting1 = s.waiting1 := (rfl)
@[simp] theorem setUnit_taking (s : State) (u : UnitId) (v : UnitSt) : (setUnit s u v).taking = s.taking := (rfl)
@[simp] theorem setUnit_arbs (s : State) (u : UnitId) (v : UnitSt) : (setUnit s u v).arbs = s.arbs := (rfl)
@[simp] theorem setUnit_xfers (s : State) (u : UnitId) (v : UnitSt) : (setUnit s u v).xfers = s.xfers := (rfl)
@[simp] theorem setUnit_ports (s : State) (u : UnitId) (v : UnitSt) : (setUnit s u v).ports = s.ports := (rfl)
@[simp] theorem setUnit_err (s : State) (u : UnitId) (v : UnitSt) : (setUnit s u v).err = s.err := (rfl)
@[simp] theorem setUnit_alarms (s : State) (u : UnitId) (v : UnitSt) : (setUnit s u v).alarms = s.alarms := (rfl)
@[simp] theorem setUnit_trace (s : State) (u : UnitId) (v : UnitSt) : (setUnit s u v).trace = s.trace := (rfl)
@[simp] theorem setUnit_health (s : State) (u : UnitId) (v : UnitSt) : (setUnit s u v).health = s.health := (rfl)
@[simp] theorem setUnit_secure (s : State) (u : UnitId) (v : UnitSt) : (setUnit s u v).secure = s.secure := (rfl)
@[simp] theorem setUnit_journal (s : State) (u : UnitId) (v : UnitSt) : (setUnit s u v).journal = s.journal := (rfl)
@[simp] theorem setUnit_restore (s : State) (u : UnitId) (v : UnitSt) : (setUnit s u v).restore = s.restore := (rfl)

/-! `setChan` -/
@[simp] theorem setChan_pending (s : State) (d : Die) (n : Fin 128) (v : Channel) : (setChan s d n v).pending = s.pending := (rfl)
@[simp] theorem setChan_now (s : State) (d : Die) (n : Fin 128) (v : Channel) : (setChan s d n v).now = s.now := (rfl)
@[simp] theorem setChan_cycle (s : State) (d : Die) (n : Fin 128) (v : Channel) : (setChan s d n v).cycle = s.cycle := (rfl)
@[simp] theorem setChan_free (s : State) (d : Die) (n : Fin 128) (v : Channel) : (setChan s d n v).free = s.free := (rfl)
@[simp] theorem setChan_pwr (s : State) (d : Die) (n : Fin 128) (v : Channel) : (setChan s d n v).pwr = s.pwr := (rfl)
@[simp] theorem setChan_tap (s : State) (d : Die) (n : Fin 128) (v : Channel) : (setChan s d n v).tap = s.tap := (rfl)
@[simp] theorem setChan_guard (s : State) (d : Die) (n : Fin 128) (v : Channel) : (setChan s d n v).guard = s.guard := (rfl)
@[simp] theorem setChan_nor (s : State) (d : Die) (n : Fin 128) (v : Channel) : (setChan s d n v).nor = s.nor := (rfl)
@[simp] theorem setChan_nand (s : State) (d : Die) (n : Fin 128) (v : Channel) : (setChan s d n v).nand = s.nand := (rfl)
@[simp] theorem setChan_beat (s : State) (d : Die) (n : Fin 128) (v : Channel) : (setChan s d n v).beat = s.beat := (rfl)
@[simp] theorem setChan_ctl (s : State) (d : Die) (n : Fin 128) (v : Channel) : (setChan s d n v).ctl = s.ctl := (rfl)
@[simp] theorem setChan_ses (s : State) (d : Die) (n : Fin 128) (v : Channel) : (setChan s d n v).ses = s.ses := (rfl)
@[simp] theorem setChan_cfg (s : State) (d : Die) (n : Fin 128) (v : Channel) : (setChan s d n v).cfg = s.cfg := (rfl)
@[simp] theorem setChan_store0 (s : State) (d : Die) (n : Fin 128) (v : Channel) : (setChan s d n v).store0 = s.store0 := (rfl)
@[simp] theorem setChan_store1 (s : State) (d : Die) (n : Fin 128) (v : Channel) : (setChan s d n v).store1 = s.store1 := (rfl)
@[simp] theorem setChan_step (s : State) (d : Die) (n : Fin 128) (v : Channel) : (setChan s d n v).step = s.step := (rfl)
@[simp] theorem setChan_stage (s : State) (d : Die) (n : Fin 128) (v : Channel) : (setChan s d n v).stage = s.stage := (rfl)
@[simp] theorem setChan_mem (s : State) (d : Die) (n : Fin 128) (v : Channel) : (setChan s d n v).mem = s.mem := (rfl)
@[simp] theorem setChan_tenants (s : State) (d : Die) (n : Fin 128) (v : Channel) : (setChan s d n v).tenants = s.tenants := (rfl)
@[simp] theorem setChan_fwHeld (s : State) (d : Die) (n : Fin 128) (v : Channel) : (setChan s d n v).fwHeld = s.fwHeld := (rfl)
@[simp] theorem setChan_ref (s : State) (d : Die) (n : Fin 128) (v : Channel) : (setChan s d n v).ref = s.ref := (rfl)
@[simp] theorem setChan_half (s : State) (d : Die) (n : Fin 128) (v : Channel) : (setChan s d n v).half = s.half := (rfl)
@[simp] theorem setChan_waiting1 (s : State) (d : Die) (n : Fin 128) (v : Channel) : (setChan s d n v).waiting1 = s.waiting1 := (rfl)
@[simp] theorem setChan_taking (s : State) (d : Die) (n : Fin 128) (v : Channel) : (setChan s d n v).taking = s.taking := (rfl)
@[simp] theorem setChan_arbs (s : State) (d : Die) (n : Fin 128) (v : Channel) : (setChan s d n v).arbs = s.arbs := (rfl)
@[simp] theorem setChan_xfers (s : State) (d : Die) (n : Fin 128) (v : Channel) : (setChan s d n v).xfers = s.xfers := (rfl)
@[simp] theorem setChan_ports (s : State) (d : Die) (n : Fin 128) (v : Channel) : (setChan s d n v).ports = s.ports := (rfl)
@[simp] theorem setChan_err (s : State) (d : Die) (n : Fin 128) (v : Channel) : (setChan s d n v).err = s.err := (rfl)
@[simp] theorem setChan_alarms (s : State) (d : Die) (n : Fin 128) (v : Channel) : (setChan s d n v).alarms = s.alarms := (rfl)
@[simp] theorem setChan_trace (s : State) (d : Die) (n : Fin 128) (v : Channel) : (setChan s d n v).trace = s.trace := (rfl)
@[simp] theorem setChan_health (s : State) (d : Die) (n : Fin 128) (v : Channel) : (setChan s d n v).health = s.health := (rfl)
@[simp] theorem setChan_secure (s : State) (d : Die) (n : Fin 128) (v : Channel) : (setChan s d n v).secure = s.secure := (rfl)
@[simp] theorem setChan_journal (s : State) (d : Die) (n : Fin 128) (v : Channel) : (setChan s d n v).journal = s.journal := (rfl)
@[simp] theorem setChan_restore (s : State) (d : Die) (n : Fin 128) (v : Channel) : (setChan s d n v).restore = s.restore := (rfl)

/-! `setBank` -/
@[simp] theorem setBank_pending (s : State) (k : Nat) (v : Bank) : (setBank s k v).pending = s.pending := (rfl)
@[simp] theorem setBank_now (s : State) (k : Nat) (v : Bank) : (setBank s k v).now = s.now := (rfl)
@[simp] theorem setBank_cycle (s : State) (k : Nat) (v : Bank) : (setBank s k v).cycle = s.cycle := (rfl)
@[simp] theorem setBank_free (s : State) (k : Nat) (v : Bank) : (setBank s k v).free = s.free := (rfl)
@[simp] theorem setBank_pwr (s : State) (k : Nat) (v : Bank) : (setBank s k v).pwr = s.pwr := (rfl)
@[simp] theorem setBank_tap (s : State) (k : Nat) (v : Bank) : (setBank s k v).tap = s.tap := (rfl)
@[simp] theorem setBank_guard (s : State) (k : Nat) (v : Bank) : (setBank s k v).guard = s.guard := (rfl)
@[simp] theorem setBank_nor (s : State) (k : Nat) (v : Bank) : (setBank s k v).nor = s.nor := (rfl)
@[simp] theorem setBank_nand (s : State) (k : Nat) (v : Bank) : (setBank s k v).nand = s.nand := (rfl)
@[simp] theorem setBank_beat (s : State) (k : Nat) (v : Bank) : (setBank s k v).beat = s.beat := (rfl)
@[simp] theorem setBank_ctl (s : State) (k : Nat) (v : Bank) : (setBank s k v).ctl = s.ctl := (rfl)
@[simp] theorem setBank_ses (s : State) (k : Nat) (v : Bank) : (setBank s k v).ses = s.ses := (rfl)
@[simp] theorem setBank_cfg (s : State) (k : Nat) (v : Bank) : (setBank s k v).cfg = s.cfg := (rfl)
@[simp] theorem setBank_store0 (s : State) (k : Nat) (v : Bank) : (setBank s k v).store0 = s.store0 := (rfl)
@[simp] theorem setBank_store1 (s : State) (k : Nat) (v : Bank) : (setBank s k v).store1 = s.store1 := (rfl)
@[simp] theorem setBank_step (s : State) (k : Nat) (v : Bank) : (setBank s k v).step = s.step := (rfl)
@[simp] theorem setBank_stage (s : State) (k : Nat) (v : Bank) : (setBank s k v).stage = s.stage := (rfl)
@[simp] theorem setBank_tenants (s : State) (k : Nat) (v : Bank) : (setBank s k v).tenants = s.tenants := (rfl)
@[simp] theorem setBank_dma (s : State) (k : Nat) (v : Bank) : (setBank s k v).dma = s.dma := (rfl)
@[simp] theorem setBank_fwHeld (s : State) (k : Nat) (v : Bank) : (setBank s k v).fwHeld = s.fwHeld := (rfl)
@[simp] theorem setBank_ref (s : State) (k : Nat) (v : Bank) : (setBank s k v).ref = s.ref := (rfl)
@[simp] theorem setBank_half (s : State) (k : Nat) (v : Bank) : (setBank s k v).half = s.half := (rfl)
@[simp] theorem setBank_waiting1 (s : State) (k : Nat) (v : Bank) : (setBank s k v).waiting1 = s.waiting1 := (rfl)
@[simp] theorem setBank_taking (s : State) (k : Nat) (v : Bank) : (setBank s k v).taking = s.taking := (rfl)
@[simp] theorem setBank_arbs (s : State) (k : Nat) (v : Bank) : (setBank s k v).arbs = s.arbs := (rfl)
@[simp] theorem setBank_xfers (s : State) (k : Nat) (v : Bank) : (setBank s k v).xfers = s.xfers := (rfl)
@[simp] theorem setBank_ports (s : State) (k : Nat) (v : Bank) : (setBank s k v).ports = s.ports := (rfl)
@[simp] theorem setBank_err (s : State) (k : Nat) (v : Bank) : (setBank s k v).err = s.err := (rfl)
@[simp] theorem setBank_alarms (s : State) (k : Nat) (v : Bank) : (setBank s k v).alarms = s.alarms := (rfl)
@[simp] theorem setBank_trace (s : State) (k : Nat) (v : Bank) : (setBank s k v).trace = s.trace := (rfl)
@[simp] theorem setBank_health (s : State) (k : Nat) (v : Bank) : (setBank s k v).health = s.health := (rfl)
@[simp] theorem setBank_secure (s : State) (k : Nat) (v : Bank) : (setBank s k v).secure = s.secure := (rfl)
@[simp] theorem setBank_journal (s : State) (k : Nat) (v : Bank) : (setBank s k v).journal = s.journal := (rfl)
@[simp] theorem setBank_restore (s : State) (k : Nat) (v : Bank) : (setBank s k v).restore = s.restore := (rfl)

/-! `setTenant` -/
@[simp] theorem setTenant_pending (s : State) (t : Nat) (v : Tenant) : (setTenant s t v).pending = s.pending := (rfl)
@[simp] theorem setTenant_now (s : State) (t : Nat) (v : Tenant) : (setTenant s t v).now = s.now := (rfl)
@[simp] theorem setTenant_cycle (s : State) (t : Nat) (v : Tenant) : (setTenant s t v).cycle = s.cycle := (rfl)
@[simp] theorem setTenant_free (s : State) (t : Nat) (v : Tenant) : (setTenant s t v).free = s.free := (rfl)
@[simp] theorem setTenant_pwr (s : State) (t : Nat) (v : Tenant) : (setTenant s t v).pwr = s.pwr := (rfl)
@[simp] theorem setTenant_tap (s : State) (t : Nat) (v : Tenant) : (setTenant s t v).tap = s.tap := (rfl)
@[simp] theorem setTenant_guard (s : State) (t : Nat) (v : Tenant) : (setTenant s t v).guard = s.guard := (rfl)
@[simp] theorem setTenant_nor (s : State) (t : Nat) (v : Tenant) : (setTenant s t v).nor = s.nor := (rfl)
@[simp] theorem setTenant_nand (s : State) (t : Nat) (v : Tenant) : (setTenant s t v).nand = s.nand := (rfl)
@[simp] theorem setTenant_beat (s : State) (t : Nat) (v : Tenant) : (setTenant s t v).beat = s.beat := (rfl)
@[simp] theorem setTenant_ctl (s : State) (t : Nat) (v : Tenant) : (setTenant s t v).ctl = s.ctl := (rfl)
@[simp] theorem setTenant_ses (s : State) (t : Nat) (v : Tenant) : (setTenant s t v).ses = s.ses := (rfl)
@[simp] theorem setTenant_cfg (s : State) (t : Nat) (v : Tenant) : (setTenant s t v).cfg = s.cfg := (rfl)
@[simp] theorem setTenant_store0 (s : State) (t : Nat) (v : Tenant) : (setTenant s t v).store0 = s.store0 := (rfl)
@[simp] theorem setTenant_store1 (s : State) (t : Nat) (v : Tenant) : (setTenant s t v).store1 = s.store1 := (rfl)
@[simp] theorem setTenant_step (s : State) (t : Nat) (v : Tenant) : (setTenant s t v).step = s.step := (rfl)
@[simp] theorem setTenant_stage (s : State) (t : Nat) (v : Tenant) : (setTenant s t v).stage = s.stage := (rfl)
@[simp] theorem setTenant_mem (s : State) (t : Nat) (v : Tenant) : (setTenant s t v).mem = s.mem := (rfl)
@[simp] theorem setTenant_dma (s : State) (t : Nat) (v : Tenant) : (setTenant s t v).dma = s.dma := (rfl)
@[simp] theorem setTenant_fwHeld (s : State) (t : Nat) (v : Tenant) : (setTenant s t v).fwHeld = s.fwHeld := (rfl)
@[simp] theorem setTenant_ref (s : State) (t : Nat) (v : Tenant) : (setTenant s t v).ref = s.ref := (rfl)
@[simp] theorem setTenant_half (s : State) (t : Nat) (v : Tenant) : (setTenant s t v).half = s.half := (rfl)
@[simp] theorem setTenant_waiting1 (s : State) (t : Nat) (v : Tenant) : (setTenant s t v).waiting1 = s.waiting1 := (rfl)
@[simp] theorem setTenant_taking (s : State) (t : Nat) (v : Tenant) : (setTenant s t v).taking = s.taking := (rfl)
@[simp] theorem setTenant_arbs (s : State) (t : Nat) (v : Tenant) : (setTenant s t v).arbs = s.arbs := (rfl)
@[simp] theorem setTenant_xfers (s : State) (t : Nat) (v : Tenant) : (setTenant s t v).xfers = s.xfers := (rfl)
@[simp] theorem setTenant_ports (s : State) (t : Nat) (v : Tenant) : (setTenant s t v).ports = s.ports := (rfl)
@[simp] theorem setTenant_err (s : State) (t : Nat) (v : Tenant) : (setTenant s t v).err = s.err := (rfl)
@[simp] theorem setTenant_alarms (s : State) (t : Nat) (v : Tenant) : (setTenant s t v).alarms = s.alarms := (rfl)
@[simp] theorem setTenant_trace (s : State) (t : Nat) (v : Tenant) : (setTenant s t v).trace = s.trace := (rfl)
@[simp] theorem setTenant_health (s : State) (t : Nat) (v : Tenant) : (setTenant s t v).health = s.health := (rfl)
@[simp] theorem setTenant_secure (s : State) (t : Nat) (v : Tenant) : (setTenant s t v).secure = s.secure := (rfl)
@[simp] theorem setTenant_journal (s : State) (t : Nat) (v : Tenant) : (setTenant s t v).journal = s.journal := (rfl)
@[simp] theorem setTenant_restore (s : State) (t : Nat) (v : Tenant) : (setTenant s t v).restore = s.restore := (rfl)

/-! `setFwSlot` -/
@[simp] theorem setFwSlot_pending (s : State) (k : Bool) (v : FwSlot) : (setFwSlot s k v).pending = s.pending := by cases k <;> rfl
@[simp] theorem setFwSlot_now (s : State) (k : Bool) (v : FwSlot) : (setFwSlot s k v).now = s.now := by cases k <;> rfl
@[simp] theorem setFwSlot_cycle (s : State) (k : Bool) (v : FwSlot) : (setFwSlot s k v).cycle = s.cycle := by cases k <;> rfl
@[simp] theorem setFwSlot_free (s : State) (k : Bool) (v : FwSlot) : (setFwSlot s k v).free = s.free := by cases k <;> rfl
@[simp] theorem setFwSlot_pwr (s : State) (k : Bool) (v : FwSlot) : (setFwSlot s k v).pwr = s.pwr := by cases k <;> rfl
@[simp] theorem setFwSlot_tap (s : State) (k : Bool) (v : FwSlot) : (setFwSlot s k v).tap = s.tap := by cases k <;> rfl
@[simp] theorem setFwSlot_guard (s : State) (k : Bool) (v : FwSlot) : (setFwSlot s k v).guard = s.guard := by cases k <;> rfl
@[simp] theorem setFwSlot_nand (s : State) (k : Bool) (v : FwSlot) : (setFwSlot s k v).nand = s.nand := by cases k <;> rfl
@[simp] theorem setFwSlot_beat (s : State) (k : Bool) (v : FwSlot) : (setFwSlot s k v).beat = s.beat := by cases k <;> rfl
@[simp] theorem setFwSlot_ctl (s : State) (k : Bool) (v : FwSlot) : (setFwSlot s k v).ctl = s.ctl := by cases k <;> rfl
@[simp] theorem setFwSlot_ses (s : State) (k : Bool) (v : FwSlot) : (setFwSlot s k v).ses = s.ses := by cases k <;> rfl
@[simp] theorem setFwSlot_cfg (s : State) (k : Bool) (v : FwSlot) : (setFwSlot s k v).cfg = s.cfg := by cases k <;> rfl
@[simp] theorem setFwSlot_store0 (s : State) (k : Bool) (v : FwSlot) : (setFwSlot s k v).store0 = s.store0 := by cases k <;> rfl
@[simp] theorem setFwSlot_store1 (s : State) (k : Bool) (v : FwSlot) : (setFwSlot s k v).store1 = s.store1 := by cases k <;> rfl
@[simp] theorem setFwSlot_step (s : State) (k : Bool) (v : FwSlot) : (setFwSlot s k v).step = s.step := by cases k <;> rfl
@[simp] theorem setFwSlot_stage (s : State) (k : Bool) (v : FwSlot) : (setFwSlot s k v).stage = s.stage := by cases k <;> rfl
@[simp] theorem setFwSlot_mem (s : State) (k : Bool) (v : FwSlot) : (setFwSlot s k v).mem = s.mem := by cases k <;> rfl
@[simp] theorem setFwSlot_tenants (s : State) (k : Bool) (v : FwSlot) : (setFwSlot s k v).tenants = s.tenants := by cases k <;> rfl
@[simp] theorem setFwSlot_dma (s : State) (k : Bool) (v : FwSlot) : (setFwSlot s k v).dma = s.dma := by cases k <;> rfl
@[simp] theorem setFwSlot_fwHeld (s : State) (k : Bool) (v : FwSlot) : (setFwSlot s k v).fwHeld = s.fwHeld := by cases k <;> rfl
@[simp] theorem setFwSlot_ref (s : State) (k : Bool) (v : FwSlot) : (setFwSlot s k v).ref = s.ref := by cases k <;> rfl
@[simp] theorem setFwSlot_half (s : State) (k : Bool) (v : FwSlot) : (setFwSlot s k v).half = s.half := by cases k <;> rfl
@[simp] theorem setFwSlot_waiting1 (s : State) (k : Bool) (v : FwSlot) : (setFwSlot s k v).waiting1 = s.waiting1 := by cases k <;> rfl
@[simp] theorem setFwSlot_taking (s : State) (k : Bool) (v : FwSlot) : (setFwSlot s k v).taking = s.taking := by cases k <;> rfl
@[simp] theorem setFwSlot_arbs (s : State) (k : Bool) (v : FwSlot) : (setFwSlot s k v).arbs = s.arbs := by cases k <;> rfl
@[simp] theorem setFwSlot_xfers (s : State) (k : Bool) (v : FwSlot) : (setFwSlot s k v).xfers = s.xfers := by cases k <;> rfl
@[simp] theorem setFwSlot_ports (s : State) (k : Bool) (v : FwSlot) : (setFwSlot s k v).ports = s.ports := by cases k <;> rfl
@[simp] theorem setFwSlot_err (s : State) (k : Bool) (v : FwSlot) : (setFwSlot s k v).err = s.err := by cases k <;> rfl
@[simp] theorem setFwSlot_alarms (s : State) (k : Bool) (v : FwSlot) : (setFwSlot s k v).alarms = s.alarms := by cases k <;> rfl
@[simp] theorem setFwSlot_trace (s : State) (k : Bool) (v : FwSlot) : (setFwSlot s k v).trace = s.trace := by cases k <;> rfl
@[simp] theorem setFwSlot_health (s : State) (k : Bool) (v : FwSlot) : (setFwSlot s k v).health = s.health := by cases k <;> rfl
@[simp] theorem setFwSlot_secure (s : State) (k : Bool) (v : FwSlot) : (setFwSlot s k v).secure = s.secure := by cases k <;> rfl
@[simp] theorem setFwSlot_journal (s : State) (k : Bool) (v : FwSlot) : (setFwSlot s k v).journal = s.journal := by cases k <;> rfl
@[simp] theorem setFwSlot_restore (s : State) (k : Bool) (v : FwSlot) : (setFwSlot s k v).restore = s.restore := by cases k <;> rfl

/-! `setNandSlot` -/
@[simp] theorem setNandSlot_pending (s : State) (k : Bool) (v : NandSlot) : (setNandSlot s k v).pending = s.pending := by cases k <;> rfl
@[simp] theorem setNandSlot_now (s : State) (k : Bool) (v : NandSlot) : (setNandSlot s k v).now = s.now := by cases k <;> rfl
@[simp] theorem setNandSlot_cycle (s : State) (k : Bool) (v : NandSlot) : (setNandSlot s k v).cycle = s.cycle := by cases k <;> rfl
@[simp] theorem setNandSlot_free (s : State) (k : Bool) (v : NandSlot) : (setNandSlot s k v).free = s.free := by cases k <;> rfl
@[simp] theorem setNandSlot_pwr (s : State) (k : Bool) (v : NandSlot) : (setNandSlot s k v).pwr = s.pwr := by cases k <;> rfl
@[simp] theorem setNandSlot_tap (s : State) (k : Bool) (v : NandSlot) : (setNandSlot s k v).tap = s.tap := by cases k <;> rfl
@[simp] theorem setNandSlot_guard (s : State) (k : Bool) (v : NandSlot) : (setNandSlot s k v).guard = s.guard := by cases k <;> rfl
@[simp] theorem setNandSlot_nor (s : State) (k : Bool) (v : NandSlot) : (setNandSlot s k v).nor = s.nor := by cases k <;> rfl
@[simp] theorem setNandSlot_beat (s : State) (k : Bool) (v : NandSlot) : (setNandSlot s k v).beat = s.beat := by cases k <;> rfl
@[simp] theorem setNandSlot_ctl (s : State) (k : Bool) (v : NandSlot) : (setNandSlot s k v).ctl = s.ctl := by cases k <;> rfl
@[simp] theorem setNandSlot_ses (s : State) (k : Bool) (v : NandSlot) : (setNandSlot s k v).ses = s.ses := by cases k <;> rfl
@[simp] theorem setNandSlot_cfg (s : State) (k : Bool) (v : NandSlot) : (setNandSlot s k v).cfg = s.cfg := by cases k <;> rfl
@[simp] theorem setNandSlot_store0 (s : State) (k : Bool) (v : NandSlot) : (setNandSlot s k v).store0 = s.store0 := by cases k <;> rfl
@[simp] theorem setNandSlot_store1 (s : State) (k : Bool) (v : NandSlot) : (setNandSlot s k v).store1 = s.store1 := by cases k <;> rfl
@[simp] theorem setNandSlot_step (s : State) (k : Bool) (v : NandSlot) : (setNandSlot s k v).step = s.step := by cases k <;> rfl
@[simp] theorem setNandSlot_stage (s : State) (k : Bool) (v : NandSlot) : (setNandSlot s k v).stage = s.stage := by cases k <;> rfl
@[simp] theorem setNandSlot_mem (s : State) (k : Bool) (v : NandSlot) : (setNandSlot s k v).mem = s.mem := by cases k <;> rfl
@[simp] theorem setNandSlot_tenants (s : State) (k : Bool) (v : NandSlot) : (setNandSlot s k v).tenants = s.tenants := by cases k <;> rfl
@[simp] theorem setNandSlot_dma (s : State) (k : Bool) (v : NandSlot) : (setNandSlot s k v).dma = s.dma := by cases k <;> rfl
@[simp] theorem setNandSlot_fwHeld (s : State) (k : Bool) (v : NandSlot) : (setNandSlot s k v).fwHeld = s.fwHeld := by cases k <;> rfl
@[simp] theorem setNandSlot_ref (s : State) (k : Bool) (v : NandSlot) : (setNandSlot s k v).ref = s.ref := by cases k <;> rfl
@[simp] theorem setNandSlot_half (s : State) (k : Bool) (v : NandSlot) : (setNandSlot s k v).half = s.half := by cases k <;> rfl
@[simp] theorem setNandSlot_waiting1 (s : State) (k : Bool) (v : NandSlot) : (setNandSlot s k v).waiting1 = s.waiting1 := by cases k <;> rfl
@[simp] theorem setNandSlot_taking (s : State) (k : Bool) (v : NandSlot) : (setNandSlot s k v).taking = s.taking := by cases k <;> rfl
@[simp] theorem setNandSlot_arbs (s : State) (k : Bool) (v : NandSlot) : (setNandSlot s k v).arbs = s.arbs := by cases k <;> rfl
@[simp] theorem setNandSlot_xfers (s : State) (k : Bool) (v : NandSlot) : (setNandSlot s k v).xfers = s.xfers := by cases k <;> rfl
@[simp] theorem setNandSlot_ports (s : State) (k : Bool) (v : NandSlot) : (setNandSlot s k v).ports = s.ports := by cases k <;> rfl
@[simp] theorem setNandSlot_err (s : State) (k : Bool) (v : NandSlot) : (setNandSlot s k v).err = s.err := by cases k <;> rfl
@[simp] theorem setNandSlot_alarms (s : State) (k : Bool) (v : NandSlot) : (setNandSlot s k v).alarms = s.alarms := by cases k <;> rfl
@[simp] theorem setNandSlot_trace (s : State) (k : Bool) (v : NandSlot) : (setNandSlot s k v).trace = s.trace := by cases k <;> rfl
@[simp] theorem setNandSlot_health (s : State) (k : Bool) (v : NandSlot) : (setNandSlot s k v).health = s.health := by cases k <;> rfl
@[simp] theorem setNandSlot_secure (s : State) (k : Bool) (v : NandSlot) : (setNandSlot s k v).secure = s.secure := by cases k <;> rfl
@[simp] theorem setNandSlot_journal (s : State) (k : Bool) (v : NandSlot) : (setNandSlot s k v).journal = s.journal := by cases k <;> rfl
@[simp] theorem setNandSlot_restore (s : State) (k : Bool) (v : NandSlot) : (setNandSlot s k v).restore = s.restore := by cases k <;> rfl

/-! `setXfer` -/
@[simp] theorem setXfer_pending (s : State) (x : Xfer) : (setXfer s x).pending = s.pending := (rfl)
@[simp] theorem setXfer_now (s : State) (x : Xfer) : (setXfer s x).now = s.now := (rfl)
@[simp] theorem setXfer_cycle (s : State) (x : Xfer) : (setXfer s x).cycle = s.cycle := (rfl)
@[simp] theorem setXfer_free (s : State) (x : Xfer) : (setXfer s x).free = s.free := (rfl)
@[simp] theorem setXfer_pwr (s : State) (x : Xfer) : (setXfer s x).pwr = s.pwr := (rfl)
@[simp] theorem setXfer_tap (s : State) (x : Xfer) : (setXfer s x).tap = s.tap := (rfl)
@[simp] theorem setXfer_guard (s : State) (x : Xfer) : (setXfer s x).guard = s.guard := (rfl)
@[simp] theorem setXfer_nor (s : State) (x : Xfer) : (setXfer s x).nor = s.nor := (rfl)
@[simp] theorem setXfer_nand (s : State) (x : Xfer) : (setXfer s x).nand = s.nand := (rfl)
@[simp] theorem setXfer_beat (s : State) (x : Xfer) : (setXfer s x).beat = s.beat := (rfl)
@[simp] theorem setXfer_ctl (s : State) (x : Xfer) : (setXfer s x).ctl = s.ctl := (rfl)
@[simp] theorem setXfer_ses (s : State) (x : Xfer) : (setXfer s x).ses = s.ses := (rfl)
@[simp] theorem setXfer_cfg (s : State) (x : Xfer) : (setXfer s x).cfg = s.cfg := (rfl)
@[simp] theorem setXfer_store0 (s : State) (x : Xfer) : (setXfer s x).store0 = s.store0 := (rfl)
@[simp] theorem setXfer_store1 (s : State) (x : Xfer) : (setXfer s x).store1 = s.store1 := (rfl)
@[simp] theorem setXfer_step (s : State) (x : Xfer) : (setXfer s x).step = s.step := (rfl)
@[simp] theorem setXfer_stage (s : State) (x : Xfer) : (setXfer s x).stage = s.stage := (rfl)
@[simp] theorem setXfer_mem (s : State) (x : Xfer) : (setXfer s x).mem = s.mem := (rfl)
@[simp] theorem setXfer_tenants (s : State) (x : Xfer) : (setXfer s x).tenants = s.tenants := (rfl)
@[simp] theorem setXfer_dma (s : State) (x : Xfer) : (setXfer s x).dma = s.dma := (rfl)
@[simp] theorem setXfer_fwHeld (s : State) (x : Xfer) : (setXfer s x).fwHeld = s.fwHeld := (rfl)
@[simp] theorem setXfer_ref (s : State) (x : Xfer) : (setXfer s x).ref = s.ref := (rfl)
@[simp] theorem setXfer_half (s : State) (x : Xfer) : (setXfer s x).half = s.half := (rfl)
@[simp] theorem setXfer_waiting1 (s : State) (x : Xfer) : (setXfer s x).waiting1 = s.waiting1 := (rfl)
@[simp] theorem setXfer_taking (s : State) (x : Xfer) : (setXfer s x).taking = s.taking := (rfl)
@[simp] theorem setXfer_arbs (s : State) (x : Xfer) : (setXfer s x).arbs = s.arbs := (rfl)
@[simp] theorem setXfer_ports (s : State) (x : Xfer) : (setXfer s x).ports = s.ports := (rfl)
@[simp] theorem setXfer_err (s : State) (x : Xfer) : (setXfer s x).err = s.err := (rfl)
@[simp] theorem setXfer_alarms (s : State) (x : Xfer) : (setXfer s x).alarms = s.alarms := (rfl)
@[simp] theorem setXfer_trace (s : State) (x : Xfer) : (setXfer s x).trace = s.trace := (rfl)
@[simp] theorem setXfer_health (s : State) (x : Xfer) : (setXfer s x).health = s.health := (rfl)
@[simp] theorem setXfer_secure (s : State) (x : Xfer) : (setXfer s x).secure = s.secure := (rfl)
@[simp] theorem setXfer_journal (s : State) (x : Xfer) : (setXfer s x).journal = s.journal := (rfl)
@[simp] theorem setXfer_restore (s : State) (x : Xfer) : (setXfer s x).restore = s.restore := (rfl)

/-! `setSlotValid` -/
@[simp] theorem setSlotValid_pending (s : State) (k v : Bool) : (setSlotValid s k v).pending = s.pending := by cases k <;> rfl
@[simp] theorem setSlotValid_now (s : State) (k v : Bool) : (setSlotValid s k v).now = s.now := by cases k <;> rfl
@[simp] theorem setSlotValid_cycle (s : State) (k v : Bool) : (setSlotValid s k v).cycle = s.cycle := by cases k <;> rfl
@[simp] theorem setSlotValid_free (s : State) (k v : Bool) : (setSlotValid s k v).free = s.free := by cases k <;> rfl
@[simp] theorem setSlotValid_pwr (s : State) (k v : Bool) : (setSlotValid s k v).pwr = s.pwr := by cases k <;> rfl
@[simp] theorem setSlotValid_tap (s : State) (k v : Bool) : (setSlotValid s k v).tap = s.tap := by cases k <;> rfl
@[simp] theorem setSlotValid_nor (s : State) (k v : Bool) : (setSlotValid s k v).nor = s.nor := by cases k <;> rfl
@[simp] theorem setSlotValid_nand (s : State) (k v : Bool) : (setSlotValid s k v).nand = s.nand := by cases k <;> rfl
@[simp] theorem setSlotValid_beat (s : State) (k v : Bool) : (setSlotValid s k v).beat = s.beat := by cases k <;> rfl
@[simp] theorem setSlotValid_ctl (s : State) (k v : Bool) : (setSlotValid s k v).ctl = s.ctl := by cases k <;> rfl
@[simp] theorem setSlotValid_ses (s : State) (k v : Bool) : (setSlotValid s k v).ses = s.ses := by cases k <;> rfl
@[simp] theorem setSlotValid_cfg (s : State) (k v : Bool) : (setSlotValid s k v).cfg = s.cfg := by cases k <;> rfl
@[simp] theorem setSlotValid_store0 (s : State) (k v : Bool) : (setSlotValid s k v).store0 = s.store0 := by cases k <;> rfl
@[simp] theorem setSlotValid_store1 (s : State) (k v : Bool) : (setSlotValid s k v).store1 = s.store1 := by cases k <;> rfl
@[simp] theorem setSlotValid_step (s : State) (k v : Bool) : (setSlotValid s k v).step = s.step := by cases k <;> rfl
@[simp] theorem setSlotValid_stage (s : State) (k v : Bool) : (setSlotValid s k v).stage = s.stage := by cases k <;> rfl
@[simp] theorem setSlotValid_mem (s : State) (k v : Bool) : (setSlotValid s k v).mem = s.mem := by cases k <;> rfl
@[simp] theorem setSlotValid_tenants (s : State) (k v : Bool) : (setSlotValid s k v).tenants = s.tenants := by cases k <;> rfl
@[simp] theorem setSlotValid_dma (s : State) (k v : Bool) : (setSlotValid s k v).dma = s.dma := by cases k <;> rfl
@[simp] theorem setSlotValid_fwHeld (s : State) (k v : Bool) : (setSlotValid s k v).fwHeld = s.fwHeld := by cases k <;> rfl
@[simp] theorem setSlotValid_ref (s : State) (k v : Bool) : (setSlotValid s k v).ref = s.ref := by cases k <;> rfl
@[simp] theorem setSlotValid_half (s : State) (k v : Bool) : (setSlotValid s k v).half = s.half := by cases k <;> rfl
@[simp] theorem setSlotValid_waiting1 (s : State) (k v : Bool) : (setSlotValid s k v).waiting1 = s.waiting1 := by cases k <;> rfl
@[simp] theorem setSlotValid_taking (s : State) (k v : Bool) : (setSlotValid s k v).taking = s.taking := by cases k <;> rfl
@[simp] theorem setSlotValid_arbs (s : State) (k v : Bool) : (setSlotValid s k v).arbs = s.arbs := by cases k <;> rfl
@[simp] theorem setSlotValid_xfers (s : State) (k v : Bool) : (setSlotValid s k v).xfers = s.xfers := by cases k <;> rfl
@[simp] theorem setSlotValid_ports (s : State) (k v : Bool) : (setSlotValid s k v).ports = s.ports := by cases k <;> rfl
@[simp] theorem setSlotValid_err (s : State) (k v : Bool) : (setSlotValid s k v).err = s.err := by cases k <;> rfl
@[simp] theorem setSlotValid_alarms (s : State) (k v : Bool) : (setSlotValid s k v).alarms = s.alarms := by cases k <;> rfl
@[simp] theorem setSlotValid_trace (s : State) (k v : Bool) : (setSlotValid s k v).trace = s.trace := by cases k <;> rfl
@[simp] theorem setSlotValid_health (s : State) (k v : Bool) : (setSlotValid s k v).health = s.health := by cases k <;> rfl
@[simp] theorem setSlotValid_secure (s : State) (k v : Bool) : (setSlotValid s k v).secure = s.secure := by cases k <;> rfl
@[simp] theorem setSlotValid_journal (s : State) (k v : Bool) : (setSlotValid s k v).journal = s.journal := by cases k <;> rfl
@[simp] theorem setSlotValid_restore (s : State) (k v : Bool) : (setSlotValid s k v).restore = s.restore := by cases k <;> rfl

/-! Reads after writes. -/

@[simp] theorem unit_setUnit (s : State) (u : UnitId) (v : UnitSt) : unit (setUnit s u v) u = v := by simp [unit, setUnit]
@[simp] theorem port_setPort (s : State) (p : PortNo) (v : Port) : port (setPort s p v) p = v := by simp [port, setPort]
@[simp] theorem chan_setChan (s : State) (d : Die) (n : Fin 128) (v : Channel) : chan (setChan s d n v) d n = v := by
  simp [chan, setChan]
@[simp] theorem bank_setBank (s : State) (k : Nat) (v : Bank) : bank (setBank s k v) k = v := by simp [bank, setBank]
@[simp] theorem tenant_setTenant (s : State) (t : Nat) (v : Tenant) : tenant (setTenant s t v) t = v := by
  simp [tenant, setTenant]
@[simp] theorem kcp_setKcp (s : State) (k : Kcp) (v : KcpSt) : kcp (setKcp s k v) k = v := by cases k <;> rfl
@[simp] theorem storeAt_setStore (s : State) (k : Fin 2) (v : CueStore) : storeAt (setStore s k v) k = v := by
  unfold storeAt setStore; split <;> rfl
@[simp] theorem fwSlot_setFwSlot (s : State) (k : Bool) (v : FwSlot) : fwSlot (setFwSlot s k v) k = v := by cases k <;> rfl
@[simp] theorem nandSlot_setNandSlot (s : State) (k : Bool) (v : NandSlot) : nandSlot (setNandSlot s k v) k = v := by
  cases k <;> rfl

/-- The other control port is as before. -/
theorem kcp_setKcp_other (s : State) {k j : Kcp} (v : KcpSt) (h : j ≠ k) : kcp (setKcp s k v) j = kcp s j := by
  cases k <;> cases j <;> first | rfl | exact absurd rfl h
/-- Another peer port is as before. -/
theorem port_setPort_other (s : State) {p q : PortNo} (v : Port) (h : q ≠ p) : port (setPort s p v) q = port s q :=
  Sparse.get_set_other noPort s.ports v (fun e => h (Fin.ext e))
/-- Another unit is as before. -/
theorem unit_setUnit_other (s : State) {u w : UnitId} (v : UnitSt) (h : unitKey w ≠ unitKey u) :
    unit (setUnit s u v) w = unit s w := Sparse.get_set_other noUnit s.stage.units v h
/-- Another bank is as before. -/
theorem bank_setBank_other (s : State) {k j : Nat} (v : Bank) (h : j ≠ k) : bank (setBank s k v) j = bank s j :=
  Sparse.get_set_other noBank s.mem.banks v h
/-- Another tenant is as before. -/
theorem tenant_setTenant_other (s : State) {t u : Nat} (v : Tenant) (h : u ≠ t) : tenant (setTenant s t v) u = tenant s u :=
  Sparse.get_set_other noTenant s.tenants v h

/-- Two units with one key are one unit. -/
theorem unitKey_inj {u w : UnitId} (h : unitKey u = unitKey w) : u = w := by
  rcases u with ⟨d⟩ | ⟨⟨d, b, i⟩⟩ | ⟨d, n⟩ | ⟨d⟩ | ⟨d, n⟩ | ⟨d⟩ | ⟨d, n⟩ | ⟨d, n⟩ <;>
  rcases w with ⟨d'⟩ | ⟨⟨d', b', i'⟩⟩ | ⟨d', n'⟩ | ⟨d'⟩ | ⟨d', n'⟩ | ⟨d'⟩ | ⟨d', n'⟩ | ⟨d', n'⟩ <;>
  simp only [unitKey] at h <;> (try split at h) <;> (try split at h) <;> (try omega) <;>
  simp_all only [UnitId.control.injEq, UnitId.vector.injEq, UnitId.optimizer.injEq, UnitId.gme.injEq, UnitId.layout.injEq,
    UnitId.channel.injEq, UnitId.bank.injEq, UnitId.array.injEq, Arr.mk.injEq, Fin.ext_iff, true_and] <;> omega

/-- Another unit is as before. -/
theorem unit_setUnit_ne (s : State) {u w : UnitId} (v : UnitSt) (h : w ≠ u) : unit (setUnit s u v) w = unit s w :=
  unit_setUnit_other s v (fun e => h (unitKey_inj e))

end Sys2Proof.Machine
end

