-- ==== Sys2Proof/Laws/Memory.lean ====
section
/-! SUPPORT. Which operations leave the stored bytes alone, and that every operation which stores bytes keeps them in canonical form. -/

namespace Sys2Proof.Machine

/-- The stored bytes stand in canonical form (`Mem.wf`), as a proposition. -/
def MemOk (m : Sparse Byte) : Prop := Sparse.wf zeroByte m = true

theorem memOk_iff (m : Mem) : MemOk m.bytes ↔ m.wf = true := Iff.rfl
@[simp] theorem memOk_nil : MemOk [] := rfl
@[simp] theorem memOk_set {m : Sparse Byte} (h : MemOk m) (k : Nat) (v : Byte) : MemOk (Sparse.set zeroByte m k v) :=
  Sparse.set_wf zeroByte k v h
@[simp] theorem memOk_clear {m : Sparse Byte} (h : MemOk m) (a n : Nat) : MemOk (Sparse.clear m a n) :=
  Sparse.clear_wf zeroByte a n h
@[simp] theorem memOk_put {m : Sparse Byte} (h : MemOk m) (k : Nat) (p : List Byte) : MemOk (Sparse.put zeroByte m k p) := by
  induction p generalizing m k with
  | nil => exact h
  | cons b r ih => exact ih (memOk_set h k b) (k + 1)

@[simp] theorem foldl_mem {β : Type} (g : State → β → State) (h : ∀ s x, (g s x).mem = s.mem) (l : List β) (s : State) :
    (l.foldl g s).mem = s.mem := by
  induction l generalizing s with
  | nil => rfl
  | cons x r ih => rw [List.foldl_cons, ih, h]

@[simp] theorem foldl_bytes {β : Type} (g : State → β → State) (h : ∀ s x, (g s x).mem.bytes = s.mem.bytes) (l : List β) (s : State) :
    (l.foldl g s).mem.bytes = s.mem.bytes := by
  induction l generalizing s with
  | nil => rfl
  | cons x r ih => rw [List.foldl_cons, ih, h]

@[simp] theorem foldl_ok {β : Type} (g : State → β → State) (h : ∀ s x, MemOk s.mem.bytes → MemOk (g s x).mem.bytes) (l : List β)
    (s : State) (hs : MemOk s.mem.bytes) : MemOk (l.foldl g s).mem.bytes := by
  induction l generalizing s with
  | nil => exact hs
  | cons x r ih => exact ih _ (h s x hs)

@[simp] theorem drawByte_mem (s : State) :
    (drawByte s).2.mem = s.mem := (rfl)

@[simp] theorem drawBytes_mem (n : Nat) (s : State) : (drawBytes n s).2.mem = s.mem := by
  induction n generalizing s with
  | zero => rfl
  | succ n ih => simp [drawBytes, ih]

@[simp] theorem refPass_mem (s : State) (n : Nat) :
    (refPass s n).mem = s.mem := by
  unfold refPass; dsimp only; (repeat' split) <;> simp

@[simp] theorem sourceUpdate_mem (s : State) (e : Event) (r : ErrRec) :
    (sourceUpdate s e r).mem = s.mem := (rfl)

@[simp] theorem fifoEnter_mem (s : State) (e : Event) (r : ErrRec) :
    (fifoEnter s e r).mem = s.mem := by
  unfold fifoEnter; dsimp only; (repeat' split) <;> simp

@[simp] theorem setPlaceAlarms_bytes (s : State) (p : Nat) (a : PlaceAlarms) :
    (setPlaceAlarms s p a).mem.bytes = s.mem.bytes := (rfl)

@[simp] theorem latchAlarm_mem (s : State) (p : Nat) (r : ErrRec) :
    (latchAlarm s p r).mem = s.mem := by
  unfold latchAlarm; dsimp only; (repeat' split) <;> simp

@[simp] theorem stepMark_mem (s : State) (e : Event) :
    (stepMark s e).mem = s.mem := by
  unfold stepMark; dsimp only; (repeat' split) <;> simp

@[simp] theorem markFirst_mem (s : State) (e : Event) :
    (markFirst s e).mem = s.mem := by
  unfold markFirst; dsimp only; (repeat' split) <;> simp

@[simp] theorem healthEvent_mem (s : State) (e : Event) :
    (healthEvent s e).mem = s.mem := by
  unfold healthEvent; dsimp only; (repeat' split) <;> simp

@[simp] theorem raise_mem (s : State) (e : Event) :
    (raise s e).mem = s.mem := by
  unfold raise; dsimp only; (repeat' split) <;> simp

@[simp] theorem raiseAll_mem (s : State) (l : List Event) :
    (raiseAll s l).mem = s.mem := by
  simp [raiseAll]

@[simp] theorem traceAdd_mem (s : State) (r : TraceRec) :
    (traceAdd s r).mem = s.mem := by
  unfold traceAdd; dsimp only; (repeat' split) <;> simp

@[simp] theorem traceOn_mem (s : State) (kind : Byte) (p : Place) (unit inst cue addr count : Nat) :
    (traceOn s kind p unit inst cue addr count).mem = s.mem := by
  unfold traceOn; (repeat' split) <;> simp

@[simp] theorem traceAt_mem (s : State) (c : Nat) (kind : Byte) (p : Place) (unit inst cue addr count : Nat) :
    (traceAt s c kind p unit inst cue addr count).mem = s.mem := (rfl)

@[simp] theorem setKcp_bytes (s : State) (k : Kcp) (v : KcpSt) :
    (setKcp s k v).mem.bytes = s.mem.bytes := by
  unfold setKcp; dsimp only; (repeat' split) <;> simp

@[simp] theorem emit_mem (s : State) (k : Kcp) (f : FrameOut) (q : BitVec 32) :
    (emit s k f q).mem = s.mem := by
  simp [emit]

@[simp] theorem sendOn_mem (s : State) (k : Kcp) (f : FrameOut) :
    (sendOn s k f).mem = s.mem := by
  unfold sendOn; dsimp only; (repeat' split) <;> simp

@[simp] theorem sendFrame_mem (s : State) (f : FrameOut) :
    (sendFrame s f).mem = s.mem := by
  unfold sendFrame; (repeat' split) <;> simp

@[simp] theorem sendReport_mem (s : State) (opcode : Byte) (cls : BitVec 2) (payload : List Byte) :
    (sendReport s opcode cls payload).mem = s.mem := by
  simp [sendReport]

@[simp] theorem replyFrames_mem (s : State) (opcode : Byte) (refSeq : BitVec 32) (status : Byte) (l : List (List Byte)) :
    (replyFrames s opcode refSeq status l).mem = s.mem := by
  induction l generalizing s with
  | nil => rfl
  | cons p r ih => cases r with
    | nil => simp [replyFrames]
    | cons q r => rw [replyFrames, ih, sendFrame_mem]; simp

@[simp] theorem storeReply_mem (s : State) (o : Owed) (status : Byte) (frames : List (List Byte)) :
    (storeReply s o status frames).mem = s.mem := by
  unfold storeReply; dsimp only; (repeat' split) <;> simp

@[simp] theorem finish_mem (s : State) (o : Owed) (status : Byte) (payload : List Byte) :
    (finish s o status payload).mem = s.mem := by
  simp [finish]

@[simp] theorem creditUse_mem (s : State) (k : Kcp) (c : BitVec 2) :
    (creditUse s k c).mem = s.mem := by
  simp [creditUse]

@[simp] theorem creditOverrun_mem (s : State) (k : Kcp) (c : BitVec 2) :
    (creditOverrun s k c).mem = s.mem := by
  simp [creditOverrun]

@[simp] theorem stray_mem (s : State) (k : Kcp) (opcode : Byte) :
    (stray s k opcode).mem = s.mem := by
  simp [stray]

@[simp] theorem refuse_mem (s : State) (opcode : Byte) (seq : BitVec 32) (status : Byte) :
    (refuse s opcode seq status).mem = s.mem := by
  simp [refuse]

@[simp] theorem refuseOn_mem (s : State) (k : Kcp) (opcode : Byte) (seq : BitVec 32) (status : Byte) :
    (refuseOn s k opcode seq status).mem = s.mem := by
  simp [refuseOn]

@[simp] theorem duplicate_mem (s : State) (c : BitVec 2) (seq : BitVec 32) :
    (duplicate s c seq).mem = s.mem := by
  unfold duplicate; (repeat' split) <;> simp

@[simp] theorem answer_mem (t : State) (o : Owed) (a : Ans) : (answer t o a).mem = t.mem := by
  cases a <;> simp [answer]

theorem runBody_ok (s : State) (o : Owed) (i : CmdInfo) (body : State → Owed → State × Ans)
    (hb : ∀ s o, MemOk s.mem.bytes → MemOk (body s o).1.mem.bytes) (h : MemOk s.mem.bytes) : MemOk (runBody s o i body).mem.bytes := by
  have hb' := hb s o h
  unfold runBody
  dsimp only
  (repeat' split) <;> simp [h, hb']

@[simp] theorem holdCredit_mem (s : State) (f : Frame) :
    (holdCredit s f).mem = s.mem := by
  simp [holdCredit]

@[simp] theorem freeCredit_mem (s : State) (f : Frame) :
    (freeCredit s f).mem = s.mem := by
  simp [freeCredit]

@[simp] theorem holdData_mem (s : State) (f : Frame) (c : Instr) :
    (holdData s f c).mem = s.mem := by
  simp [holdData]

theorem takeCommand_ok (s : State) (f : Frame) (c : Instr) (o : Owed) (i : CmdInfo) (body : State → Owed → State × Ans)
    (hb : ∀ s o, MemOk s.mem.bytes → MemOk (body s o).1.mem.bytes) (h : MemOk s.mem.bytes) :
    MemOk (takeCommand s f c o i body).mem.bytes := by
  unfold takeCommand
  split
  · simp [h]
  · exact runBody_ok _ _ _ _ hb h

theorem checkCommand_ok (s : State) (f : Frame) (c : Instr) (i : CmdInfo) (body : State → Owed → State × Ans)
    (hb : ∀ s o, MemOk s.mem.bytes → MemOk (body s o).1.mem.bytes) (h : MemOk s.mem.bytes) :
    MemOk (checkCommand s f c i body).mem.bytes := by
  unfold checkCommand
  (repeat' split) <;> first | exact takeCommand_ok _ _ _ _ _ _ hb h | (simp; exact h)

theorem runCommand_ok (s : State) (f : Frame) (c : Instr) (i : CmdInfo) (body : State → Owed → State × Ans)
    (hb : ∀ s o, MemOk s.mem.bytes → MemOk (body s o).1.mem.bytes) (h : MemOk s.mem.bytes) :
    MemOk (runCommand s f c i body).mem.bytes := by
  unfold runCommand
  (repeat' split) <;> first | exact h | exact runBody_ok _ _ _ _ hb (by simpa using h) | exact checkCommand_ok _ _ _ _ _ hb (by simpa using h) | (simp; exact h)

theorem checkData_ok (s : State) (f : Frame) (i : CmdInfo) (body : State → Option State)
    (hb : ∀ s t, body s = some t → MemOk s.mem.bytes → MemOk t.mem.bytes) (h : MemOk s.mem.bytes) :
    MemOk (checkData s f i body).mem.bytes := by
  unfold checkData
  (repeat' split) <;> first | (rename_i e; exact hb _ _ e h) | (simp; exact h)

theorem runData_ok (s : State) (f : Frame) (i : CmdInfo) (body : State → Option State)
    (hb : ∀ s t, body s = some t → MemOk s.mem.bytes → MemOk t.mem.bytes) (h : MemOk s.mem.bytes) :
    MemOk (runData s f i body).mem.bytes := by
  unfold runData
  (repeat' split) <;> first | exact h | exact checkData_ok _ _ _ _ hb (by simpa using h) | (simp; exact h)

@[simp] theorem no_mem (s : State) (status : Byte) :
    (no s status).1.mem = s.mem := (rfl)

@[simp] theorem ok_mem (s : State) (payload : List Byte) :
    (ok s payload).1.mem = s.mem := (rfl)

@[simp] theorem setPort_bytes (s : State) (p : PortNo) (v : Port) :
    (setPort s p v).mem.bytes = s.mem.bytes := (rfl)

@[simp] theorem notice1_mem (code : Byte) (stepNo : Nat) (cause : Byte) (s : State) (p : PortNo) :
    (notice1 code stepNo cause s p).mem = s.mem := by
  unfold notice1; (repeat' split) <;> simp

@[simp] theorem noticeAll_mem (s : State) (code : Byte) (stepNo : Nat) (cause : Byte) :
    (noticeAll s code stepNo cause).mem = s.mem := by
  simp [noticeAll]

@[simp] theorem portMove_mem (s : State) (p : PortNo) (t : PortState) (d1 : Nat) :
    (portMove s p t d1).mem = s.mem := by
  unfold portMove; dsimp only; (repeat' split) <;> simp

@[simp] theorem portDown_mem (s : State) (p : PortNo) :
    (portDown s p).mem = s.mem := by
  unfold portDown; dsimp only; (repeat' split) <;> simp

@[simp] theorem portEnter_mem (s : State) (p : PortNo) :
    (portEnter s p).mem = s.mem := by
  unfold portEnter; dsimp only; (repeat' split) <;> simp

@[simp] theorem setStore_bytes (s : State) (k : Fin 2) (v : CueStore) :
    (setStore s k v).mem.bytes = s.mem.bytes := by
  unfold setStore; (repeat' split) <;> simp

@[simp] theorem setUnit_bytes (s : State) (u : UnitId) (v : UnitSt) :
    (setUnit s u v).mem.bytes = s.mem.bytes := (rfl)

@[simp] theorem guardRaise_mem (s : State) (e : Event) :
    (guardRaise s e).mem = s.mem := by
  unfold guardRaise; dsimp only; (repeat' split) <;> simp

@[simp] theorem discardPending_mem (s : State) (sel : Nat → Bool) :
    (discardPending s sel).mem = s.mem := (rfl)

@[simp] theorem clockTo_mem (s : State) (t : Nat) :
    (clockTo s t).mem = s.mem := by
  unfold clockTo; dsimp only; (repeat' split) <;> simp

@[simp] theorem stopFiring_mem (s : State) (cause : Byte) (failed : Bool) (at_ : Nat) :
    (stopFiring s cause failed at_).mem = s.mem := by
  unfold stopFiring; dsimp only; (repeat' split) <;> simp

@[simp] theorem freezeDie_mem (s : State) (d : Die) :
    (freezeDie s d).mem = s.mem := by
  unfold freezeDie; dsimp only; (repeat' split) <;> simp

@[simp] theorem markBrownout_mem (s : State) :
    (markBrownout s).mem = s.mem := by
  unfold markBrownout; dsimp only; (repeat' split) <;> simp

@[simp] theorem journalPut_mem (s : State) (e : JournalEntry) :
    (journalPut s e).mem = s.mem := by
  simp [journalPut]

@[simp] theorem journalEnd_mem (s : State) (f : JournalEntry → JournalEntry) :
    (journalEnd s f).mem = s.mem := by
  unfold journalEnd; dsimp only; (repeat' split) <;> simp

@[simp] theorem imageError_mem (s : State) (id : BitVec 64) (cause : Nat) :
    (imageError s id cause).mem = s.mem := by
  simp [imageError]

@[simp] theorem discardImage_mem (s : State) (cause : Nat) :
    (discardImage s cause).mem = s.mem := by
  unfold discardImage; dsimp only; (repeat' split) <;> simp

@[simp] theorem setChan_bytes (s : State) (d : Die) (n : Fin 128) (c : Channel) :
    (setChan s d n c).mem.bytes = s.mem.bytes := (rfl)

@[simp] theorem forgetSends_mem (s : State) (d : Die) (n : Fin 128) :
    (forgetSends s d n).mem = s.mem := (rfl)

@[simp] theorem endStep_mem (s : State) (state cause : Byte) :
    (endStep s state cause).mem = s.mem := by
  unfold endStep; dsimp only; (repeat' split) <;> simp

@[simp] theorem atEnd_mem (s : State) :
    (atEnd s).mem = s.mem := by
  unfold atEnd; (repeat' split) <;> simp

@[simp] theorem stepLost_mem (s : State) :
    (stepLost s).mem = s.mem := by
  unfold stepLost; (repeat' split) <;> simp

@[simp] theorem startReport_mem (s : State) :
    (startReport s).mem = s.mem := by
  simp [startReport]

@[simp] theorem enterStage_mem (s : State) (n : Nat) :
    (enterStage s n).mem = s.mem := by
  simp [enterStage]

@[simp] theorem dieReset_bytes (s : State) :
    (dieReset s).mem.bytes = s.mem.bytes := (rfl)

@[simp] theorem norWrite_mem (s : State) (fs : List NorField) :
    (norWrite s fs).mem = s.mem := (rfl)

@[simp] theorem guardPowerUp_mem (s : State) :
    (guardPowerUp s).mem = s.mem := by
  unfold guardPowerUp; dsimp only; (repeat' split) <;> simp

@[simp] theorem tryRamp_mem (s : State) :
    (tryRamp s).mem = s.mem := by
  unfold tryRamp; dsimp only; (repeat' split) <;> simp

@[simp] theorem powerRemoval_bytes (s : State) (t : PowerState) :
    (powerRemoval s t).mem.bytes = s.mem.bytes := (rfl)

@[simp] theorem keepRecord_mem (s : State) (kind : Byte) (d0 d1 : Nat) :
    (keepRecord s kind d0 d1).mem = s.mem := (rfl)

@[simp] theorem closeHold_mem (s : State) (outcome : Nat) :
    (closeHold s outcome).mem = s.mem := by
  unfold closeHold; dsimp only; (repeat' split) <;> simp

@[simp] theorem supplyResetWith_bytes (s : State) (d0 d1 : Nat) :
    (supplyResetWith s d0 d1).mem.bytes = s.mem.bytes := by
  simp [supplyResetWith]

@[simp] theorem setFwSlot_bytes (s : State) (k : Bool) (v : FwSlot) :
    (setFwSlot s k v).mem.bytes = s.mem.bytes := by
  unfold setFwSlot; dsimp only; (repeat' split) <;> simp

@[simp] theorem bootSlotEvent_mem (s : State) (k : Nat) (fault sv : Nat) :
    (bootSlotEvent s k fault sv).mem = s.mem := by
  simp [bootSlotEvent]

@[simp] theorem noFirmware_mem (s : State) :
    (noFirmware s).mem = s.mem := by
  simp [noFirmware]

@[simp] theorem slotResults_mem (s : State) :
    (slotResults s).mem = s.mem := by
  unfold slotResults; dsimp only; (repeat' split) <;> simp

@[simp] theorem enterHeld_mem (s : State) (r : ErrRec) :
    (enterHeld s r).mem = s.mem := by
  unfold enterHeld; dsimp only; (repeat' split) <;> simp

@[simp] theorem zeroiseRecord_mem (s : State) (phase bytes : Nat) :
    (zeroiseRecord s phase bytes).mem = s.mem := by
  simp [zeroiseRecord]

@[simp] theorem zeroiseAll_ok (s : State) : MemOk (zeroiseAll s).mem.bytes := by
  simp [zeroiseAll]

@[simp] theorem lifecycleMove_mem (s : State) (l : Lifecycle) (counter : BitVec 64) :
    (lifecycleMove s l counter).mem = s.mem := by
  unfold lifecycleMove; dsimp only; (repeat' split) <;> simp

@[simp] theorem enterHold_mem (s : State) (c : HoldCause) (loc reading : Nat) :
    (enterHold s c loc reading).mem = s.mem := by
  unfold enterHold; dsimp only; (repeat' split) <;> simp

@[simp] theorem exitHold_mem (s : State) (c : HoldCause) :
    (exitHold s c).mem = s.mem := by
  unfold exitHold; dsimp only; (repeat' split) <;> simp

@[simp] theorem freezeAll_mem (s : State) :
    (freezeAll s).mem = s.mem := by
  simp [freezeAll]

@[simp] theorem warmOne_mem (s : State) (d : Nat) (x : Int) :
    (warmOne s d x).mem = s.mem := by
  unfold warmOne; dsimp only; (repeat' split) <;> simp

@[simp] theorem warmAll_mem (n : Nat) (l : List Int) (s : State) : (warmAll n l s).mem = s.mem := by
  induction l generalizing n s with
  | nil => rfl
  | cons x r ih => simp [warmAll, ih]

@[simp] theorem thermalShutdown_bytes (s : State) (d : Nat) (x : Int) :
    (thermalShutdown s d x).mem.bytes = s.mem.bytes := by
  simp [thermalShutdown]

@[simp] theorem tapLoad_mem (s : State) (i : TapIr) :
    (tapLoad s i).mem = s.mem := by
  unfold tapLoad; dsimp only; (repeat' split) <;> simp

@[simp] theorem setLock_mem (s : State) (n : Lock) :
    (setLock s n).mem = s.mem := by
  unfold setLock; dsimp only; (repeat' split) <;> simp

@[simp] theorem moveSource_mem (s : State) (k : Kcp) :
    (moveSource s k).mem = s.mem := by
  unfold moveSource; dsimp only; (repeat' split) <;> simp

@[simp] theorem controlMoved_mem (s : State) (k : Kcp) (cause : Nat) :
    (controlMoved s k cause).mem = s.mem := by
  simp [controlMoved]

@[simp] theorem takeControl_mem (s : State) (k : Kcp) (cause : Nat) :
    (takeControl s k cause).mem = s.mem := by
  unfold takeControl; dsimp only; (repeat' split) <;> simp

@[simp] theorem loseControl_mem (s : State) (cause : Nat) :
    (loseControl s cause).mem = s.mem := (rfl)

@[simp] theorem loadBeat_mem (s : State) (n : BitVec 48) (d : Int) :
    (loadBeat s n d).mem = s.mem := (rfl)

@[simp] theorem holdoverJudge_mem (s : State) (j : Int) (g : Judges) :
    (holdoverJudge s j g).mem = s.mem := by
  unfold holdoverJudge; dsimp only; (repeat' split) <;> simp

@[simp] theorem sourceJudge_mem (s : State) (j : Int) :
    (sourceJudge s j).mem = s.mem := by
  unfold sourceJudge; dsimp only; (repeat' split) <;> simp

@[simp] theorem lockJudge_mem (s : State) (j : Int) (g : Judges) :
    (lockJudge s j g).mem = s.mem := by
  unfold lockJudge; (repeat' split) <;> simp

@[simp] theorem countBoundary_mem (s : State) :
    (countBoundary s).mem = s.mem := by
  unfold countBoundary; dsimp only; (repeat' split) <;> simp

@[simp] theorem runsJudge_mem (s : State) (j : Int) (g : Judges) :
    (runsJudge s j g).mem = s.mem := (rfl)

@[simp] theorem judge_mem (s : State) (j : Int) (g : Judges) :
    (judge s j g).mem = s.mem := by
  simp [judge]

@[simp] theorem judgeBoundary_mem (s : State) :
    (judgeBoundary s).mem = s.mem := by
  simp [judgeBoundary]

@[simp] theorem judgeRest_mem (s : State) :
    (judgeRest s).mem = s.mem := by
  unfold judgeRest; (repeat' split) <;> simp

@[simp] theorem relayOne_mem (s : State) (p : PortNo) :
    (relayOne s p).mem = s.mem := by
  unfold relayOne; (repeat' split) <;> simp

@[simp] theorem relayAll_mem (s : State) :
    (relayAll s).mem = s.mem := by
  unfold relayAll; (repeat' split) <;> simp

@[simp] theorem healthAlarm_mem (old new : Nat) (s : State) (n : Nat × Nat) :
    (healthAlarm old new s n).mem = s.mem := by
  unfold healthAlarm; dsimp only; (repeat' split) <;> simp

@[simp] theorem healthBoundary_mem (s : State) :
    (healthBoundary s).mem = s.mem := by
  simp [healthBoundary]

@[simp] theorem traceBoundary_mem (s : State) :
    (traceBoundary s).mem = s.mem := by
  unfold traceBoundary; dsimp only; (repeat' split) <;> simp

@[simp] theorem stepBoundary_mem (s : State) :
    (stepBoundary s).mem = s.mem := by
  unfold stepBoundary; dsimp only; (repeat' split) <;> simp

@[simp] theorem clockBoundary_mem (s : State) :
    (clockBoundary s).mem = s.mem := by
  simp [clockBoundary]

@[simp] theorem passMarks_mem (s : State) :
    (passMarks s).mem = s.mem := (rfl)

@[simp] theorem setBank_bytes (s : State) (k : Nat) (b : Bank) :
    (setBank s k b).mem.bytes = s.mem.bytes := (rfl)

@[simp] theorem pokeByte_ok (s : State) (p : Nat) (v : Byte) (h : MemOk s.mem.bytes) :
    MemOk (pokeByte s p v).mem.bytes := by
  unfold pokeByte; dsimp only; (repeat' split) <;> simp [h]

@[simp] theorem writeByte_ok (s : State) (a : Nat) (v : Byte) (h : MemOk s.mem.bytes) :
    MemOk (writeByte s a v).mem.bytes := by
  unfold writeByte; dsimp only; (repeat' split) <;> simp [h]

@[simp] theorem store_ok (s : State) (a : Nat) (p : List Byte) (h : MemOk s.mem.bytes) : MemOk (store s a p).mem.bytes := by
  induction p generalizing s a with
  | nil => exact h
  | cons b r ih => exact ih _ _ (writeByte_ok s a b h)

@[simp] theorem countHit_bytes (s : State) (p : Nat × Nat) :
    (countHit s p).mem.bytes = s.mem.bytes := by
  unfold countHit; dsimp only; (repeat' split) <;> simp

@[simp] theorem countGate_bytes (s : State) (a : Nat) :
    (countGate s a).mem.bytes = s.mem.bytes := (rfl)

@[simp] theorem countWord_bytes (s : State) (w : Nat) :
    (countWord s w).mem.bytes = s.mem.bytes := by
  unfold countWord; dsimp only; (repeat' split) <;> simp

@[simp] theorem queueWrite_bytes (s : State) (a : Nat) (m : BitVec 256) :
    (queueWrite s a m).mem.bytes = s.mem.bytes := by
  unfold queueWrite; dsimp only; (repeat' split) <;> simp

@[simp] theorem queueRead_bytes (s : State) (a n : Nat) :
    (queueRead s a n).mem.bytes = s.mem.bytes := by
  unfold queueRead; dsimp only; (repeat' split) <;> simp

@[simp] theorem touchRead1_bytes (s : State) (p : Nat × Nat) :
    (touchRead1 s p).mem.bytes = s.mem.bytes := by
  unfold touchRead1; dsimp only; (repeat' split) <;> simp

@[simp] theorem touchWrite1_bytes (s : State) (p : Nat × BitVec 256) :
    (touchWrite1 s p).mem.bytes = s.mem.bytes := by
  unfold touchWrite1; dsimp only; split
  · exact countHit_bytes s _
  · split
    · exact countGate_bytes s _
    · exact queueWrite_bytes s _ _

@[simp] theorem readCounts_bytes (s : State) (l : List (Nat × Nat)) :
    (readCounts s l).mem.bytes = s.mem.bytes := by
  simp [readCounts]

@[simp] theorem writeCounts_bytes (s : State) (l : List (Nat × BitVec 256)) :
    (writeCounts s l).mem.bytes = s.mem.bytes := by
  simp [writeCounts]

@[simp] theorem touchRead_bytes (w : Who) (s : State) (a n : Nat) :
    (touchRead w s a n).mem.bytes = s.mem.bytes := by
  simp [touchRead]

@[simp] theorem readAll_bytes (w : Who) (s : State) (l : List (Nat × Nat)) :
    (readAll w s l).mem.bytes = s.mem.bytes := by
  simp [readAll]

@[simp] theorem storeAll_ok (s : State) (l : List (Nat × List Byte)) (h : MemOk s.mem.bytes) : MemOk (storeAll s l).mem.bytes :=
  foldl_ok _ (fun t x ht => by simp [ht]) _ _ h

@[simp] theorem putMem_ok (s : State) (l : List (Nat × List Byte)) (h : MemOk s.mem.bytes) :
    MemOk (putMem s l).mem.bytes := by
  simp [putMem, h]

@[simp] theorem writeWith_ok (w : Who) (s : State) (l : List (Nat × List Byte)) (es : List Event) (h : MemOk s.mem.bytes) :
    MemOk (writeWith w s l es).mem.bytes := by
  simp [writeWith, h]

@[simp] theorem writeMem_ok (w : Who) (s : State) (a : Nat) (p : List Byte) (h : MemOk s.mem.bytes) :
    MemOk (writeMem w s a p).mem.bytes := by
  simp [writeMem, h]

@[simp] theorem writeAll_ok (w : Who) (s : State) (l : List (Nat × List Byte)) (h : MemOk s.mem.bytes) :
    MemOk (writeAll w s l).mem.bytes := by
  simp [writeAll, h]

@[simp] theorem storeFree_ok (s : State) (l : List (Nat × Nat)) (h : MemOk s.mem.bytes) : MemOk (storeFree s l).mem.bytes :=
  foldl_ok _ (fun t x ht => by simp [ht]) _ _ h

@[simp] theorem drawUpTo_mem (n : Nat) (s : State) :
    (drawUpTo n s).2.mem = s.mem := (rfl)

@[simp] theorem blurHits_bytes (b a : State) (l : List Fence) (rd : List (Nat × Nat)) :
    (blurHits b a l rd).mem.bytes = a.mem.bytes := by
  unfold blurHits
  split
  · rfl
  · dsimp only
    rw [foldl_bytes _ (fun t i => by simp), foldl_bytes _ (fun t d => by simp)]

@[simp] theorem otherWrites_mem (s : State) (mine : Option Nat) (wr : List (Nat × Nat)) :
    (otherWrites s mine wr).mem = s.mem := by
  unfold otherWrites; dsimp only; (repeat' split) <;> simp

@[simp] theorem joinRun_mem (s : State) (k : Nat) (r : Running) :
    (joinRun s k r).1.mem = s.mem := by
  simp [joinRun]

@[simp] theorem countWait_bytes (s : State) (d : Die) (stream : Bool) :
    (countWait s d stream).mem.bytes = s.mem.bytes := (rfl)

@[simp] theorem takeStream_bytes (s : State) (u : UnitId) (r : Running) :
    (takeStream s u r).1.mem.bytes = s.mem.bytes := by
  unfold takeStream; dsimp only; (repeat' split) <;> simp

@[simp] theorem traceWait_mem (s : State) (u : UnitId) (r : Running) :
    (traceWait s u r).mem = s.mem := by
  unfold traceWait; dsimp only; (repeat' split) <;> simp

@[simp] theorem leaveRx_ok (s : State) (p : PortNo) (h : MemOk s.mem.bytes) : MemOk (leaveRx s p).mem.bytes :=
  foldl_ok _ (fun t x ht => by simp [ht]) _ _ h

@[simp] theorem portFail_ok (s : State) (p : PortNo) (h : MemOk s.mem.bytes) :
    MemOk (portFail s p).mem.bytes := by
  simp [portFail, h]

@[simp] theorem portAgain_ok (s : State) (p : PortNo) (h : MemOk s.mem.bytes) :
    MemOk (portAgain s p).mem.bytes := by
  simp [portAgain, h]

@[simp] theorem requeuePlace_mem (k : Kcp) (lost other : List Queued0) (s : State) (p : Nat) :
    (requeuePlace k lost other s p).mem = s.mem := (rfl)

@[simp] theorem linkDown_mem (s : State) (port : Kcp) :
    (linkDown s port).mem = s.mem := by
  simp [linkDown]

@[simp] theorem badFrame_mem (s : State) (port : Kcp) (c : BitVec 2) :
    (badFrame s port c).mem = s.mem := by
  simp [badFrame]

theorem noPayload_ok (f : Frame) (s : State) (r : State → State × Ans) (hr : MemOk (r s).1.mem.bytes) (h : MemOk s.mem.bytes) :
    MemOk (noPayload f s r).1.mem.bytes := by
  unfold noPayload
  split
  · simpa using h
  · exact hr

@[simp] theorem cancelHeld_mem (s : State) (x1 : Instr) :
    (cancelHeld s x1).mem = s.mem := by
  unfold cancelHeld; (repeat' split) <;> simp

@[simp] theorem freshSeqs_mem (s : State) :
    (freshSeqs s).mem = s.mem := (rfl)

@[simp] theorem sessionOpenBody_mem (f : Frame) (s : State) :
    (sessionOpenBody f s).1.mem = s.mem := by
  unfold sessionOpenBody; dsimp only; (repeat' split) <;> simp

@[simp] theorem attestReply_mem (f : Frame) (s : State) :
    (attestReply f s).1.mem = s.mem := by
  unfold attestReply; dsimp only; (repeat' split) <;> simp

@[simp] theorem neighbourWriteBody_ok (f : Frame) (s : State) (h : MemOk s.mem.bytes) :
    MemOk (neighbourWriteBody f s).1.mem.bytes := by
  unfold neighbourWriteBody; dsimp only; (repeat' split) <;> simp [h]

@[simp] theorem stateRegionWriteBody_mem (f : Frame) (s : State) :
    (stateRegionWriteBody f s).1.mem = s.mem := by
  unfold stateRegionWriteBody; dsimp only; (repeat' split) <;> simp

@[simp] theorem wingWriteBody_mem (f : Frame) (s : State) :
    (wingWriteBody f s).1.mem = s.mem := by
  unfold wingWriteBody; dsimp only; (repeat' split) <;> simp

@[simp] theorem beatDelayWriteBody_mem (f : Frame) (s : State) :
    (beatDelayWriteBody f s).1.mem = s.mem := by
  unfold beatDelayWriteBody; dsimp only; (repeat' split) <;> simp

@[simp] theorem environmentBody_mem (f : Frame) (s : State) :
    (environmentBody f s).1.mem = s.mem := by
  unfold environmentBody; dsimp only; (repeat' split) <;> simp

@[simp] theorem errorReadBody_mem (f : Frame) (s : State) :
    (errorReadBody f s).1.mem = s.mem := by
  unfold errorReadBody; dsimp only; (repeat' split) <;> simp

@[simp] theorem alarmReadBody_mem (f : Frame) (s : State) :
    (alarmReadBody f s).1.mem = s.mem := by
  unfold alarmReadBody; dsimp only; (repeat' split) <;> simp

@[simp] theorem hostFiguresBody_mem (f : Frame) (s : State) :
    (hostFiguresBody f s).1.mem = s.mem := by
  unfold hostFiguresBody; dsimp only; (repeat' split) <;> simp

@[simp] theorem markSent_mem (s : State) (p id : Nat) (q : Option (BitVec 32)) :
    (markSent s p id q).mem = s.mem := (rfl)

@[simp] theorem alarmLeft_mem (s : State) (p : Nat) (id : Nat) :
    (alarmLeft s p id).mem = s.mem := (rfl)

@[simp] theorem sendQueued0_mem (s : State) (k : Kcp) :
    (sendQueued0 s k).mem = s.mem := by
  unfold sendQueued0; dsimp only; (repeat' split) <;> simp

@[simp] theorem traceSend_mem (s : State) (k : Kcp) :
    (traceSend s k).mem = s.mem := by
  unfold traceSend; dsimp only; (repeat' split) <;> simp

@[simp] theorem cyclePass_mem (s : State) :
    (cyclePass s).mem = s.mem := by
  unfold cyclePass; dsimp only; (repeat' split) <;> simp

@[simp] theorem markTimeout_mem (s : State) :
    (markTimeout s).mem = s.mem := by
  unfold markTimeout; (repeat' split) <;> simp

@[simp] theorem tick_mem (s : State) :
    (tick s).mem = s.mem := by
  simp [tick]

@[simp] theorem noteWaits_mem (s : State) (d : Die) (i c : Nat) :
    (noteWaits s d i c).mem = s.mem := (rfl)

@[simp] theorem sendCopies_mem (s : State) (i c : Nat) :
    (sendCopies s i c).mem = s.mem := (rfl)

@[simp] theorem keepBefore_mem (s : State) (k v c : Nat) :
    (keepBefore s k v c).mem = s.mem := by
  unfold keepBefore; dsimp only; (repeat' split) <;> simp

@[simp] theorem putTally_mem (s : State) (i : Nat) (v : BitVec 32) (c : Nat) :
    (putTally s i v c).mem = s.mem := by
  unfold putTally; dsimp only; (repeat' split) <;> simp

@[simp] theorem satTally_mem (s : State) (i v c : Nat) :
    (satTally s i v c).mem = s.mem := by
  unfold satTally; (repeat' split) <;> simp

@[simp] theorem applyTallyAt_mem (s : State) (i n c : Nat) :
    (applyTallyAt s i n c).mem = s.mem := by
  simp [applyTallyAt]

@[simp] theorem applyTally_mem (s : State) (i n : Nat) :
    (applyTally s i n).mem = s.mem := by
  simp [applyTally]

@[simp] theorem setTally_mem (s : State) (i v cue c : Nat) :
    (setTally s i v cue c).mem = s.mem := by
  unfold setTally; dsimp only; (repeat' split) <;> simp

@[simp] theorem signalTally_bytes (s : State) (d : Die) (i n c : Nat) :
    (signalTally s d i n c).mem.bytes = s.mem.bytes := by
  unfold signalTally; dsimp only; (repeat' split) <;> simp

@[simp] theorem signalOpt_bytes (s : State) (d : Die) (c : Nat) (x3 : Option (Nat × Nat)) :
    (signalOpt s d c x3).mem.bytes = s.mem.bytes := by
  unfold signalOpt; (repeat' split) <;> simp

@[simp] theorem settle_bytes (s : State) :
    (settle s).mem.bytes = s.mem.bytes := by
  unfold settle; dsimp only; (repeat' split) <;> simp

@[simp] theorem readyAt_bytes (s : State) (u : UnitId) :
    (readyAt s u).mem.bytes = s.mem.bytes := by
  unfold readyAt; dsimp only; (repeat' split) <;> simp

@[simp] theorem drawWrites_mem (l : List ((Nat × List Byte) × Bool)) (s : State) : (drawWrites l s).2.mem = s.mem := by
  induction l generalizing s with
  | nil => rfl
  | cons x r ih =>
    obtain ⟨y, b⟩ := x
    cases b <;> simp [drawWrites, ih]

@[simp] theorem drawRanges_mem (l : List (Nat × Nat)) (s : State) : (drawRanges l s).2.mem = s.mem := by simp [drawRanges]

@[simp] theorem takenWrite_mem (l need : List (Nat × Nat)) (b : List Byte) (s : State) :
    (takenWrite l need b s).2.mem = s.mem := (rfl)

@[simp] theorem landWrite_mem (u : UnitId) (r : Running) (undef : Bool) (need : List (Nat × Nat)) (b : List Byte) (s : State) :
    (landWrite u r undef need b s).2.mem = s.mem := by
  unfold landWrite; dsimp only; (repeat' split) <;> simp

@[simp] theorem landWrites_mem (u : UnitId) (r : Running) (f : Nat → Bool) (l : List (Nat × Nat × List Byte)) (s : State) :
    (landWrites u r f l s).2.mem = s.mem := by
  induction l generalizing s with
  | nil => rfl
  | cons x l ih => simp [landWrites, ih]

@[simp] theorem freeBits_mem (l : List (Nat × Nat)) (p : List Byte) (s : State) :
    (freeBits l p s).2.mem = s.mem := by
  unfold freeBits; dsimp only; (repeat' split) <;> simp

@[simp] theorem dmeTotals_mem (u : UnitId) (r : Running) (p : List Byte) (s : State) :
    (dmeTotals u r p s).2.mem = s.mem := (rfl)

@[simp] theorem landRecord_mem (u : UnitId) (r : Running) (p : List Byte) (s : State) :
    (landRecord u r p s).2.mem = s.mem := by
  unfold landRecord; (repeat' split) <;> simp

@[simp] theorem landed_mem (s : State) (u : UnitId) (r : Running) (parts : List Nat) : (landed s u r parts).2.mem = s.mem := by
  simp [landed]

/-- A fold that draws leaves memory alone. -/
theorem foldl_draw_mem {α β : Type} (g : α × State → β → α × State) (h : ∀ x b, (g x b).2.mem = x.2.mem) (l : List β) (x : α × State) :
    (l.foldl g x).2.mem = x.2.mem := by
  induction l generalizing x with
  | nil => rfl
  | cons b r ih => rw [List.foldl_cons, ih, h]

@[simp] theorem drawSlot_mem (w : Nat) (l : List Nat) (a : Array (Array Nat)) (s : State) : (drawSlot w l a s).2.mem = s.mem := by
  unfold drawSlot
  rw [foldl_draw_mem _ (fun x b => by simp)]

@[simp] theorem damageTile_mem (x : Running × State) (p : Detect) : (damageTile x p).2.mem = x.2.mem := by
  unfold damageTile
  dsimp only
  split <;> simp

@[simp] theorem damaged_mem (u : UnitId) (r : Running) (l : List Detect) (s : State) : (damaged u r l s).2.mem = s.mem := by
  unfold damaged
  split
  · split
    · rfl
    · exact foldl_draw_mem _ damageTile_mem _ _
  · rfl

@[simp] theorem landPreds_mem (r : Running) (s : State) : (landPreds r s).2.mem = s.mem := by
  unfold landPreds
  rw [foldl_draw_mem _ (fun x b => by dsimp only; split <;> simp)]

@[simp] theorem beginWork_ok (s : State) (u : UnitId) (op cue firedAt c : Nat) (sig : Option (Nat × Nat)) (win : Option Nat) (desc : List Byte) (w : Work) (h : MemOk s.mem.bytes) :
    MemOk (beginWork s u op cue firedAt c sig win desc w).mem.bytes := by
  unfold beginWork; dsimp only; (repeat' split) <;> simp [h]

@[simp] theorem nameSlots_mem (s : State) (l : List Nat) :
    (nameSlots s l).mem = s.mem := (rfl)

@[simp] theorem leavePending_bytes (s : State) (u : UnitId) (p : Pending) (c : Nat) :
    (leavePending s u p c).mem.bytes = s.mem.bytes := by
  simp [leavePending]

@[simp] theorem beforeLater_bytes (s : State) (c : Nat) :
    (beforeLater s c).mem.bytes = s.mem.bytes := (rfl)

@[simp] theorem asOf_bytes (s : State) (c : Nat) :
    (asOf s c).mem.bytes = s.mem.bytes := (rfl)

@[simp] theorem underLater_bytes (s : State) (u : UnitId) (l : List Fence) :
    (underLater s u l).mem.bytes = s.mem.bytes := by
  unfold underLater; dsimp only; (repeat' split) <;> simp

@[simp] theorem startUnit_ok (s : State) (u : UnitId) (op : Nat) (h : MemOk s.mem.bytes) :
    MemOk (startUnit s u op).mem.bytes := by
  unfold startUnit; dsimp only; (repeat' split) <;> simp [h]

@[simp] theorem addPred_mem (d : Die) (u : UnitId) (cue c : Nat) (s : State) (p : PredDelta) :
    (addPred d u cue c s p).mem = s.mem := by
  unfold addPred; dsimp only; (repeat' split) <;> simp

@[simp] theorem noteDone_mem (s : State) (win : Option Nat) (d : Die) (c : Nat) :
    (noteDone s win d c).mem = s.mem := (rfl)

theorem underFences_ok (s : State) (l : List Fence) (f : State → State)
    (hf : ∀ t, MemOk t.mem.bytes → MemOk (f t).mem.bytes) (h : MemOk s.mem.bytes) : MemOk (underFences s l f).mem.bytes := by
  unfold underFences
  split
  · exact hf _ h
  · exact hf _ h

@[simp] theorem layoutHits_mem (s : State) (u : UnitId) (r : Running) (p : List Byte) :
    (layoutHits s u r p).2.mem = s.mem := by
  unfold layoutHits; dsimp only; (repeat' split) <;> simp

@[simp] theorem traceStalls_mem (s : State) (u : UnitId) (cue c : Nat) (l : List Stall) :
    (traceStalls s u cue c l).mem = s.mem := by
  simp [traceStalls]

@[simp] theorem fenceHalt_mem (r : Running) (s : State) :
    (fenceHalt r s).2.mem = s.mem := by
  unfold fenceHalt; dsimp only; (repeat' split) <;> simp

@[simp] theorem haltStream_ok (s : State) (u : UnitId) (r : Running) (c : Chance) (l : List Detect) (h : MemOk s.mem.bytes) :
    MemOk (haltStream s u r c l).mem.bytes := by
  simp [haltStream, h]

@[simp] theorem foldl_addPred_mem (d : Die) (u : UnitId) (cue c : Nat) (l : List PredDelta) (s : State) :
    (l.foldl (addPred d u cue c) s).mem = s.mem := foldl_mem _ (fun s x => by simp) l s

@[simp] theorem completeUnit_ok (s : State) (u : UnitId) (fin : Finish) (h : MemOk s.mem.bytes) :
    MemOk (completeUnit s u fin).mem.bytes := by
  unfold completeUnit
  split
  · exact h
  · dsimp only
    split
    · simpa using h
    · split
      · exact h
      · split
        · exact underFences_ok _ _ _ (fun t ht => by simp [ht]) (by simp [h])
        · simp only [noteDone_mem, signalOpt_bytes, traceStalls_mem, setUnit_bytes, foldl_addPred_mem, apply_ite State.mem,
            traceAt_mem, ite_self, landPreds_mem, blurHits_bytes]
          exact underFences_ok _ _ _ (fun t ht => by simp [ht]) (by simp [h])

@[simp] theorem decideFreeze_mem (s : State) :
    (decideFreeze s).mem = s.mem := by
  unfold decideFreeze; dsimp only; (repeat' split) <;> simp

@[simp] theorem shiftPending_mem (s : State) (n c : Nat) :
    (shiftPending s n c).mem = s.mem := (rfl)

@[simp] theorem lateCue_mem (s : State) (u : UnitId) (cue cause d1 c : Nat) :
    (lateCue s u cue cause d1 c).mem = s.mem := by
  simp [lateCue]

@[simp] theorem loadShadow_mem (s : State) (u : UnitId) (desc : Nat) :
    (loadShadow s u desc).mem = s.mem := by
  unfold loadShadow; dsimp only; (repeat' split) <;> simp

@[simp] theorem laneArrive_mem (s : State) (m : LaneMsg) (c : Nat) :
    (laneArrive s m c).mem = s.mem := by
  unfold laneArrive; dsimp only; (repeat' split) <;> simp

theorem runControl_ok (s : State) (d : Die) (op : Nat) (act : State → Nat → Nat → Nat → State)
    (hact : ∀ t i x c, MemOk t.mem.bytes → MemOk (act t i x c).mem.bytes) (h : MemOk s.mem.bytes) :
    MemOk (runControl s d op act).mem.bytes := by
  unfold runControl
  dsimp only
  (repeat' split)
  · exact h
  · exact h
  · simp [hact, h]

@[simp] theorem bankDone_bytes (s : State) (u : UnitId) (r : Running) (c : Nat) :
    (bankDone s u r c).mem.bytes = s.mem.bytes := by
  simp [bankDone]

@[simp] theorem runBank_bytes (s : State) (d : Die) (n : Fin 64) (op : Nat) (idle : Bank → Bool) (act : Bank → Nat → Nat → Nat → Bank) :
    (runBank s d n op idle act).mem.bytes = s.mem.bytes := by
  unfold runBank; dsimp only; (repeat' split) <;> simp

@[simp] theorem wipeBank_ok (s : State) (k : Nat) (h : MemOk s.mem.bytes) :
    MemOk (wipeBank s k).mem.bytes := by
  simp [wipeBank, h]

@[simp] theorem bankCueDone_bytes (s : State) (d : Die) (n : Fin 64) (c : Nat) :
    (bankCueDone s d n c).mem.bytes = s.mem.bytes := by
  unfold bankCueDone; (repeat' split) <;> simp

@[simp] theorem withdrawChannel_mem (s : State) (d : Die) (n : Fin 128) :
    (withdrawChannel s d n).mem = s.mem := (rfl)

@[simp] theorem fillsOf_mem (s : State) (blk result : Nat) : (fillsOf s blk result).2.mem = s.mem := by
  unfold fillsOf
  dsimp only
  rw [foldl_draw_mem _ (fun x b => by dsimp only; split <;> simp)]

@[simp] theorem signalEmpty_mem (s : State) (d : Die) (l : List Planned) (c : Nat) :
    (signalEmpty s d l c).mem = s.mem := (rfl)

@[simp] theorem overrun_mem (s : State) (d : Die) (cue builder : Nat) (u : Option UnitId) (cost at_ : Nat) :
    (overrun s d cue builder u cost at_).mem = s.mem := by
  simp [overrun]

@[simp] theorem addWindow_mem (s : State) (w : Window) :
    (addWindow s w).mem = s.mem := (rfl)

@[simp] theorem openArrays_bytes (s : State) (d : Die) (p : Pending) (c desc blk : Nat) (r : BuildOut) :
    (openArrays s d p c desc blk r).mem.bytes = s.mem.bytes := by
  unfold openArrays; dsimp only; (repeat' split) <;> simp

@[simp] theorem openList_bytes (s : State) (d : Die) (p : Pending) (c desc blk : Nat) :
    (openList s d p c desc blk).mem.bytes = s.mem.bytes := by
  unfold openList; dsimp only; (repeat' split) <;> simp

theorem openWindow_ok (s : State) (d : Die) (builder : Nat) (f : State → Pending → Nat → Nat → Nat → State)
    (hf : ∀ t p c x y, MemOk t.mem.bytes → MemOk (f t p c x y).mem.bytes) (h : MemOk s.mem.bytes) :
    MemOk (openWindow s d builder f).mem.bytes := by
  unfold openWindow
  dsimp only
  split
  · exact h
  · split
    · exact h
    · simp [hf, h]

@[simp] theorem issueBuilt_ok (s : State) (d : Die) (u : UnitId) (h : MemOk s.mem.bytes) :
    MemOk (issueBuilt s d u).mem.bytes := by
  unfold issueBuilt; dsimp only; (repeat' split) <;> simp [h]

@[simp] theorem stopWrites_mem (u : UnitId) (n : Nat) (s : State) (r : Running) : (stopWrites u n s r).2.mem = s.mem := by
  simp [stopWrites]

@[simp] theorem stopRunning_ok (u : UnitId) (q : Progress) (e : Nat) (s : State) (r : Running) (h : MemOk s.mem.bytes) :
    MemOk (stopRunning u q e s r).mem.bytes := by
  unfold stopRunning
  dsimp only
  split
  · exact h
  · split <;> simp only [addPred_mem, blurHits_bytes, landPreds_mem, traceStalls_mem] <;>
      exact underFences_ok _ _ _ (fun t ht => by simp [ht]) (by simp [h])

@[simp] theorem stopUnit_ok (w : Window) (e : Nat) (s : State) (x : UnitId × Progress) (h : MemOk s.mem.bytes) :
    MemOk (stopUnit w e s x).mem.bytes := by
  have hf := foldl_ok (stopRunning x.1 x.2 e) (fun t r ht => by simp [ht]) (unitWork (unit s x.1)) s h
  simpa [stopUnit] using hf

@[simp] theorem windowOut_mem (s : State) (w : Window) : (windowOut s w).2.mem = s.mem := by simp [windowOut]

@[simp] theorem closeWindow_ok (s : State) (w : Window) (written : List Progress) (h : MemOk s.mem.bytes) :
    MemOk (closeWindow s w written).mem.bytes := by
  unfold closeWindow
  dsimp only
  split
  · split <;> simp [h]
  · rw [stopFiring_mem]
    exact foldl_ok _ (fun t x ht => by simp [ht]) _ _ (by simp [h])

@[simp] theorem applyMove_ok (who : Who) (s : State) (m : Move) (undefd : Bool) (h : MemOk s.mem.bytes) :
    MemOk (applyMove who s m undefd).mem.bytes := by
  unfold applyMove; dsimp only; (repeat' split) <;> simp [h]

@[simp] theorem applyMoves_ok (who : Who) (s : State) (l : List Move) (parts : List Nat) (bad : List (Nat × Nat)) (h : MemOk s.mem.bytes) :
    MemOk (applyMoves who s l parts bad).mem.bytes := by
  unfold applyMoves; simp_all

@[simp] theorem moveHits_mem (s : State) (new : List Fence) (l : List Move) :
    (moveHits s new l).2.mem = s.mem := by
  unfold moveHits; dsimp only; (repeat' split) <;> simp

@[simp] theorem setRun_mem (s : State) (d : Die) (n : Fin 128) (r : Running) :
    (setRun s d n r).mem = s.mem := (rfl)

@[simp] theorem beginRun_bytes (s : State) (d : Die) (n : Fin 128) (r : Running) :
    (beginRun s d n r).1.mem.bytes = s.mem.bytes := by
  simp [beginRun]

theorem startDma_ok (s : State) (d : Die) (n : Fin 128) (op : Nat) (sel : Nat → Bool) (act : State → Pending → Nat → Nat → State)
    (hact : ∀ t p w c, MemOk t.mem.bytes → MemOk (act t p w c).mem.bytes) (h : MemOk s.mem.bytes) :
    MemOk (startDma s d n op sel act).mem.bytes := by
  unfold startDma
  dsimp only
  split
  · exact h
  · split
    · exact h
    · exact hact _ _ _ _ (by simp [h])

@[simp] theorem endOfCount_mem (s : State) (d : Die) (n : Fin 128) (bytes : Nat) :
    (endOfCount s d n bytes).mem = s.mem := (rfl)

@[simp] theorem latchError_mem (s : State) (d : Die) (n : Fin 128) (cue : Nat) (e : BusError) :
    (latchError s d n cue e).mem = s.mem := by
  simp [latchError]

@[simp] theorem haltChannel_ok (s : State) (d : Die) (n : Fin 128) (cue recAt : Nat) (e : BusError) (bytes transfers hits : Nat) (h : MemOk s.mem.bytes) :
    MemOk (haltChannel s d n cue recAt e bytes transfers hits).mem.bytes := by
  simp [haltChannel, h]

@[simp] theorem dmaDone_ok (s : State) (d : Die) (n : Fin 128) (r : Running) (record : List Byte) (bytes c : Nat) (h : MemOk s.mem.bytes) :
    MemOk (dmaDone s d n r record bytes c).mem.bytes := by
  unfold dmaDone; dsimp only; (repeat' split) <;> simp [h]

@[simp] theorem busParity_bytes (s : State) (p : Place) (unit inst cue : Nat) (l : List Detect) :
    (busParity s p unit inst cue l).mem.bytes = s.mem.bytes := by
  simp [busParity]

@[simp] theorem chanParity_bytes (s : State) (d : Die) (n : Fin 128) (cue : Nat) (l : List Detect) :
    (chanParity s d n cue l).mem.bytes = s.mem.bytes := by
  unfold chanParity; (repeat' split) <;> simp

@[simp] theorem applyEarlier_ok (who : Who) (s : State) (l : List Move) (bad : List (Nat × Nat)) (h : MemOk s.mem.bytes) :
    MemOk (applyEarlier who s l bad).mem.bytes := by
  simp [applyEarlier, h]

@[simp] theorem freeMoves_ok (s : State) (l : List Move) (h : MemOk s.mem.bytes) :
    MemOk (freeMoves s l).mem.bytes := by
  simp [freeMoves, h]

@[simp] theorem moveAll_ok (s : State) (d : Die) (n : Fin 128) (r : Running) (parity : List Detect) (h : MemOk s.mem.bytes) :
    MemOk (moveAll s d n r parity).st.mem.bytes := by
  simp only [moveAll, blurHits_bytes, chanParity_bytes]
  exact underFences_ok _ _ _ (fun t ht => by simp [ht]) (by simp [h])

@[simp] theorem finishCopy_ok (s : State) (d : Die) (n : Fin 128) (r : Running) (parity : List Detect) (h : MemOk s.mem.bytes) :
    MemOk (finishCopy s d n r parity).mem.bytes := by
  unfold finishCopy
  split <;> simp [h]

@[simp] theorem copyAct_bytes (d : Die) (n : Fin 128) (s : State) (p : Pending) (w c : Nat) :
    (copyAct d n s p w c).mem.bytes = s.mem.bytes := by
  simp [copyAct]

@[simp] theorem sendTransfer_mem (s : State) (d : Die) (n : Fin 128) (p : PortNo) (h : HeadBody) (payload : List Byte) (whole : Bool) :
    (sendTransfer s d n p h payload whole).mem = s.mem := (rfl)

@[simp] theorem readSources_bytes (s : State) (d : Die) (n : Fin 128) (r : Running) :
    (readSources s d n r).1.mem.bytes = s.mem.bytes := by
  simp [readSources]

@[simp] theorem sentBytes_mem (r : Running) (p : List Byte) (s : State) :
    (sentBytes r p s).2.mem = s.mem := by
  unfold sentBytes; (repeat' split) <;> simp

theorem startOrGo_ok (s : State) (d : Die) (n : Fin 128) (op : Nat) (sel : Nat → Bool) (act : State → Pending → Nat → Nat → State)
    (go : State → Running → Nat → State) (ha : ∀ t p w c, MemOk t.mem.bytes → MemOk (act t p w c).mem.bytes)
    (hg : ∀ t r w, MemOk t.mem.bytes → MemOk (go t r w).mem.bytes) (h : MemOk s.mem.bytes) :
    MemOk (startOrGo s d n op sel act go).mem.bytes := by
  unfold startOrGo
  dsimp only
  (repeat' split)
  · exact hg _ _ _ (by simp [h])
  · exact startDma_ok _ _ _ _ _ _ ha h
  · exact startDma_ok _ _ _ _ _ _ ha h

@[simp] theorem sendGo_bytes (d : Die) (n : Fin 128) (s : State) (r : Running) (w : Nat) :
    (sendGo d n s r w).mem.bytes = s.mem.bytes := by
  simp [sendGo]

@[simp] theorem sendAct_ok (d : Die) (n : Fin 128) (s : State) (p : Pending) (w c : Nat) (h : MemOk s.mem.bytes) :
    MemOk (sendAct d n s p w c).mem.bytes := by
  unfold sendAct; dsimp only; (repeat' split) <;> simp [h]

@[simp] theorem tallyGo_mem (d : Die) (n : Fin 128) (s : State) (r : Running) (w : Nat) :
    (tallyGo d n s r w).mem = s.mem := (rfl)

@[simp] theorem tallyAct_ok (d : Die) (n : Fin 128) (s : State) (p : Pending) (w c : Nat) (h : MemOk s.mem.bytes) :
    MemOk (tallyAct d n s p w c).mem.bytes := by
  unfold tallyAct; dsimp only; (repeat' split) <;> simp [h]

@[simp] theorem moveProgress_mem (s : State) (t adv : Nat) :
    (moveProgress s t adv).mem = s.mem := by
  unfold moveProgress; dsimp only; (repeat' split) <;> simp

@[simp] theorem streamBack_mem (s : State) (d : Die) (n : Fin 128) (r : Running) :
    (streamBack s d n r).mem = s.mem := by
  unfold streamBack; dsimp only; (repeat' split) <;> simp

@[simp] theorem sendDone_ok (s : State) (d : Die) (n : Fin 128) (b : DoneBody) (h : MemOk s.mem.bytes) :
    MemOk (sendDone s d n b).mem.bytes := by
  unfold sendDone; dsimp only; (repeat' split) <;> simp [h]

@[simp] theorem freezeAct_bytes (d : Die) (n : Fin 128) (s : State) (p : Pending) (w c : Nat) :
    (freezeAct d n s p w c).mem.bytes = s.mem.bytes := by
  unfold freezeAct; dsimp only; (repeat' split) <;> simp

@[simp] theorem recordSection_mem (s : State) (w crc status : Nat) :
    (recordSection s w crc status).mem = s.mem := by
  unfold recordSection; dsimp only; (repeat' split) <;> simp

@[simp] theorem finishFreeze_ok (s : State) (d : Die) (n : Fin 128) (r : Running) (w : Nat) (parity : List Detect)
    (h : MemOk s.mem.bytes) : MemOk (finishFreeze s d n r w parity).mem.bytes := by
  unfold finishFreeze
  (repeat' split) <;> simp [h]

@[simp] theorem setNandSlot_bytes (s : State) (k : Bool) (v : NandSlot) :
    (setNandSlot s k v).mem.bytes = s.mem.bytes := by
  unfold setNandSlot; dsimp only; (repeat' split) <;> simp

@[simp] theorem nandPut_mem (s : State) (x : Nat × List Byte) :
    (nandPut s x).mem = s.mem := by
  simp [nandPut]

@[simp] theorem sendData_mem (s : State) (other : Bool) (f : FrameOut) :
    (sendData s other f).mem = s.mem := by
  unfold sendData; (repeat' split) <;> simp

@[simp] theorem readData_mem (both : Bool) (n : Nat) (other : Bool) (id : BitVec 32) (off : Nat) (p : List Byte) (s : State) :
    (readData both n other id off p s).mem = s.mem := by
  induction n generalizing other off p s with
  | zero => rfl
  | succ n ih =>
    unfold readData
    split
    · rfl
    · simp [ih]

@[simp] theorem streamTier1_mem (d : Die) (n : Fin 128) (s : State) (r : Running) (w : Nat) (parts : List (Nat × List Byte)) :
    (streamTier1 d n s r w parts).mem = s.mem := by
  simp [streamTier1]

@[simp] theorem streamGo_bytes (d : Die) (n : Fin 128) (s : State) (r : Running) (w : Nat) :
    (streamGo d n s r w).mem.bytes = s.mem.bytes := by
  unfold streamGo; dsimp only; (repeat' split) <;> simp

@[simp] theorem streamAct_bytes (d : Die) (n : Fin 128) (s : State) (p : Pending) (w c : Nat) :
    (streamAct d n s p w c).mem.bytes = s.mem.bytes := by
  unfold streamAct
  dsimp only
  (repeat' split) <;> simp

@[simp] theorem blurParts_mem (l : List (Nat × List Byte)) (ks : List Nat) (s : State) : (blurParts l ks s).2.mem = s.mem := by
  unfold blurParts
  split <;> simp

@[simp] theorem deliverParts_mem (s : State) (t : Nat) (l : List (Nat × List Byte)) : (deliverParts s t l).mem = s.mem := by
  unfold deliverParts
  split <;> exact foldl_mem _ (fun s x => by simp) l s

@[simp] theorem finishStream_ok (s : State) (d : Die) (n : Fin 128) (r : Running) (w : Nat) (parity : List Detect)
    (h : MemOk s.mem.bytes) : MemOk (finishStream s d n r w parity).mem.bytes := by
  unfold finishStream
  dsimp only
  (repeat' split) <;> simp [h]

@[simp] theorem finishFirmware_ok (s : State) (d : Die) (n : Fin 128) (parity : List Detect) (h : MemOk s.mem.bytes) :
    MemOk (finishFirmware s d n parity).mem.bytes := by
  have hm := moveAll_ok (otherWrites s none (goRun s d n).dest) d n (goRun s d n) parity (by simp [h])
  unfold finishFirmware
  extract_lets r m bytes
  split
  · exact h
  · split
    · exact h
    · split
      · exact haltChannel_ok _ _ _ _ _ _ _ _ _ hm
      · rw [endOfCount_mem]
        exact storeFree_ok _ _ (writeMem_ok _ _ _ _ hm)

@[simp] theorem cutSend_mem (s : State) (r : Running) (m : Nat) :
    (cutSend s r m).mem = s.mem := by
  unfold cutSend; dsimp only; (repeat' split) <;> simp

@[simp] theorem failCopy_ok (s : State) (d : Die) (n : Fin 128) (r : Running) (k : Nat) (e : BusError) (h : MemOk s.mem.bytes) :
    MemOk (failCopy s d n r k e).mem.bytes := by
  unfold failCopy
  refine haltChannel_ok _ _ _ _ _ _ _ _ _ (storeFree_ok _ _ (freeMoves_ok _ _ ?_))
  rw [blurHits_bytes]
  exact underFences_ok _ _ _ (fun t ht => by simp [ht]) (by simp [h])

@[simp] theorem failSend_ok (s : State) (d : Die) (n : Fin 128) (r : Running) (k : Nat) (e : BusError) (h : MemOk s.mem.bytes) :
    MemOk (failSend s d n r k e).mem.bytes := by
  unfold failSend
  dsimp only
  (repeat' split) <;> simp [h]

@[simp] theorem failSecuring_mem (s : State) (d : Die) (n : Fin 128) (r : Running) :
    (failSecuring s d n r).mem = s.mem := by
  unfold failSecuring; (repeat' split) <;> simp

@[simp] theorem freeNand_mem (s : State) (l : List (Nat × Nat)) :
    (freeNand s l).mem = s.mem := by
  simp [freeNand]

@[simp] theorem dropChannel_ok (s : State) (d : Die) (n : Fin 128) (h : MemOk s.mem.bytes) :
    MemOk (dropChannel s d n).mem.bytes := by
  unfold dropChannel
  extract_lets u v s0 s1 f c s2 s3 s4
  have h0 : MemOk s0.mem.bytes := by
    rw [freeNand_mem, foldl_mem _ (fun t r => by split <;> simp)]
    exact h
  clear_value s0
  split <;> simp [s4, s3, s2, f, s1, h0]

@[simp] theorem recycleOne_ok (s : State) (d : Die) (n : Fin 128) (h : MemOk s.mem.bytes) :
    MemOk (recycleOne s d n).mem.bytes := by
  simp [recycleOne, h]

@[simp] theorem recycleChannels_ok (s : State) (h : MemOk s.mem.bytes) :
    MemOk (recycleChannels s).mem.bytes := by
  unfold recycleChannels; simp_all

@[simp] theorem dmaStateBody_mem (f : Frame) (s : State) :
    (dmaStateBody f s).1.mem = s.mem := by
  unfold dmaStateBody; dsimp only; (repeat' split) <;> simp

@[simp] theorem freeHalves_ok (s : State) (h : MemOk s.mem.bytes) :
    MemOk (freeHalves s).mem.bytes := by
  simp [freeHalves, h]

@[simp] theorem freeStates_ok (s : State) (h : MemOk s.mem.bytes) :
    MemOk (freeStates s).mem.bytes := by
  simp [freeStates, h]

@[simp] theorem leaveState_ok (inPlace : Bool) (state : Byte) (s : State) (h : MemOk s.mem.bytes) :
    MemOk (leaveState inPlace state s).mem.bytes := by
  unfold leaveState; (repeat' split) <;> simp [h]

@[simp] theorem closeStep_ok (s : State) (state cause : Byte) (h : MemOk s.mem.bytes) :
    MemOk (closeStep s state cause).mem.bytes := by
  simp [closeStep, h]

@[simp] theorem startInHold_ok (s : State) (h : MemOk s.mem.bytes) :
    MemOk (startInHold s).mem.bytes := by
  unfold startInHold; dsimp only; (repeat' split) <;> simp [h]

@[simp] theorem setTenant_bytes (s : State) (t : Nat) (e : Tenant) :
    (setTenant s t e).mem.bytes = s.mem.bytes := (rfl)

@[simp] theorem tenantOpenBody_mem (f : Frame) (s : State) :
    (tenantOpenBody f s).1.mem = s.mem := by
  unfold tenantOpenBody; dsimp only; (repeat' split) <;> simp

@[simp] theorem fenceRuns_mem (s : State) (l : List Fence) :
    (fenceRuns s l).mem = s.mem := (rfl)

@[simp] theorem fenceTenant_bytes (s : State) (t : Nat) :
    (fenceTenant s t).mem.bytes = s.mem.bytes := (rfl)

@[simp] theorem markFenced_mem (s : State) (f : Fence) :
    (markFenced s f).mem = s.mem := (rfl)

@[simp] theorem admitWaiting_bytes (s : State) :
    (admitWaiting s).mem.bytes = s.mem.bytes := by
  simp [admitWaiting]

@[simp] theorem scrubComplete_bytes (s : State) (t : Nat) :
    (scrubComplete s t).mem.bytes = s.mem.bytes := by
  simp [scrubComplete]

@[simp] theorem zeroRange_ok (s : State) (a n : Nat) (h : MemOk s.mem.bytes) :
    MemOk (zeroRange s a n).mem.bytes := by
  simp [zeroRange, h]

@[simp] theorem zeroIssued_ok (s : State) (a n : Nat) (h : MemOk s.mem.bytes) :
    MemOk (zeroIssued s a n).mem.bytes := by
  unfold zeroIssued; (try dsimp only); (repeat' split) <;> (try simp [h]) <;> simp_all

@[simp] theorem regionDone_ok (s : State) (d : Nat) (f : Fence) (x : Nat × Nat) (h : MemOk s.mem.bytes) :
    MemOk (regionDone s d f x).mem.bytes := by
  unfold regionDone; dsimp only; (repeat' split) <;> simp [h]

@[simp] theorem closeTenant_bytes (s : State) (o : Owed) (t : Nat) (kill : Bool) :
    (closeTenant s o t kill).1.mem.bytes = s.mem.bytes := by
  unfold closeTenant; dsimp only; (repeat' split) <;> simp

theorem tenantArg_ok (f : Frame) (s : State) (k : Nat → State × Ans) (hk : ∀ n, MemOk (k n).1.mem.bytes) (h : MemOk s.mem.bytes) :
    MemOk (tenantArg f s k).1.mem.bytes := by
  unfold tenantArg
  (repeat' split)
  · simpa using h
  · simpa using h
  · exact hk _

@[simp] theorem regionScrubBody_bytes (f : Frame) (s : State) (o : Owed) :
    (regionScrubBody f s o).1.mem.bytes = s.mem.bytes := by
  unfold regionScrubBody; dsimp only; (repeat' split) <;> simp

@[simp] theorem countCorrected_mem (s : State) (p : PortNo) (l : Corrected) :
    (countCorrected s p l).mem = s.mem := by
  unfold countCorrected; dsimp only; (repeat' split) <;> simp

@[simp] theorem exhaust_ok (s : State) (p : PortNo) (h : MemOk s.mem.bytes) :
    MemOk (exhaust s p).mem.bytes := by
  simp [exhaust, h]

@[simp] theorem countUncorrectable_mem (s : State) (p : PortNo) (x2 : Option (Fin 8)) :
    (countUncorrectable s p x2).mem = s.mem := by
  unfold countUncorrectable; dsimp only; (repeat' split) <;> simp

@[simp] theorem checkResends_ok (s : State) (p : PortNo) (h : MemOk s.mem.bytes) :
    MemOk (checkResends s p).mem.bytes := by
  unfold checkResends; (repeat' split) <;> simp [h]

@[simp] theorem tallyAcked_ok (s : State) (owner : Nat) (h : MemOk s.mem.bytes) :
    MemOk (tallyAcked s owner).mem.bytes := by
  unfold tallyAcked; dsimp only; (repeat' split) <;> simp [h]

@[simp] theorem takeHeader_ok (s : State) (h : FlitHdr) (again : Option (BitVec 16 → Bool)) (hs : MemOk s.mem.bytes) :
    MemOk (takeHeader s h again).mem.bytes := by
  unfold takeHeader
  exact foldl_ok _ (fun t x ht => by simp [ht]) _ _ (by simpa using hs)

@[simp] theorem joinRx_mem (s : State) (p : PortNo) (x : RxXfer) :
    (joinRx s p x).1.mem = s.mem := by
  simp [joinRx]

@[simp] theorem takeHead_bytes (s : State) (h : FlitHdr) (b : HeadBody) :
    (takeHead s h b).mem.bytes = s.mem.bytes := by
  unfold takeHead; dsimp only; (repeat' split) <;> simp

@[simp] theorem takeResume_mem (s : State) (h : FlitHdr) :
    (takeResume s h).mem = s.mem := (rfl)

@[simp] theorem takeData_mem (s : State) (p : PortNo) (payload : List Byte) :
    (takeData s p payload).mem = s.mem := by
  unfold takeData; dsimp only; (repeat' split) <;> simp

@[simp] theorem takeEnd_mem (s : State) (h : FlitHdr) (bytes : BitVec 64) (crc : BitVec 32) :
    (takeEnd s h bytes crc).mem = s.mem := by
  unfold takeEnd; dsimp only; (repeat' split) <;> simp

@[simp] theorem takeTally_bytes (s : State) (h : FlitHdr) (es : List TallyEntry) : (takeTally s h es).mem.bytes = s.mem.bytes := by
  simp only [takeTally, setPort_bytes]
  exact foldl_bytes _ (fun t x => by split <;> simp) _ _

@[simp] theorem takeNotice_mem (s : State) (h : FlitHdr) (code : Byte) (stepNo : BitVec 32) :
    (takeNotice s h code stepNo).mem = s.mem := by
  simp [takeNotice]

@[simp] theorem beatSkew_mem (s : State) (p : PortNo) (d : Int) :
    (beatSkew s p d).mem = s.mem := by
  simp [beatSkew]

@[simp] theorem takeRelay_mem (s : State) (h : FlitHdr) (beat : BitVec 48) (tx : BitVec 12) :
    (takeRelay s h beat tx).mem = s.mem := by
  unfold takeRelay; dsimp only; (repeat' split) <;> simp

@[simp] theorem restoreStatus_mem (s : State) (h : FlitHdr) (b : DoneBody) :
    (restoreStatus s h b).mem = s.mem := by
  unfold restoreStatus; (repeat' split) <;> simp

@[simp] theorem takeDone_ok (s : State) (h : FlitHdr) (b : DoneBody) (hs : MemOk s.mem.bytes) :
    MemOk (takeDone s h b).mem.bytes := by
  unfold takeDone
  dsimp only
  split <;> simp [hs]

@[simp] theorem deliverFlit_ok (s : State) (p : PortNo) (i : Instr) (hs : MemOk s.mem.bytes) :
    MemOk (deliverFlit s p i).mem.bytes := by
  unfold deliverFlit
  split <;> simp [hs]

@[simp] theorem acceptFlit_ok (s : State) (p : PortNo) (i : Instr) (hs : MemOk s.mem.bytes) :
    MemOk (acceptFlit s p i).mem.bytes := by
  unfold acceptFlit
  dsimp only
  split <;> simp [hs]

@[simp] theorem drainHeld_ok (n : Nat) (s : State) (p : PortNo) (hs : MemOk s.mem.bytes) : MemOk (drainHeld n s p).mem.bytes := by
  induction n generalizing s with
  | zero => exact hs
  | succ n ih =>
    unfold drainHeld
    dsimp only
    split
    · exact hs
    · exact ih _ (by simp [hs])

@[simp] theorem receiveFlit_ok (r : State) (p : PortNo) (i : Instr) (h : MemOk r.mem.bytes) :
    MemOk (receiveFlit r p i).mem.bytes := by
  have h1 : ∀ c : Prop, [Decidable c] → MemOk (if c then countCorrected r p (fecOf i) else r).mem.bytes := fun c _ => by
    split <;> simp [h]
  unfold receiveFlit
  dsimp only
  (repeat' split) <;> simp [h]

theorem landPiece_ok (who : Who) (snap : Bool) (op : Nat) (l : Landing) (x : Nat × List Byte) (h : MemOk l.st.mem.bytes) :
    MemOk (landPiece who snap op l x).st.mem.bytes := by
  unfold landPiece
  dsimp only
  (repeat' split) <;> simp [h]

theorem landAll_ok (s : State) (p : PortNo) (x : RxXfer) (h : MemOk s.mem.bytes) : MemOk (landAll s p x).st.mem.bytes := by
  have hf : ∀ (l : List (Nat × List Byte)) (a : Landing), MemOk a.st.mem.bytes →
      MemOk (l.foldl (landPiece (whoPort p) x.head.snap x.head.op.toNat) a).st.mem.bytes := by
    intro l
    induction l with
    | nil => exact fun _ ha => ha
    | cons y r ih => exact fun a ha => ih _ (landPiece_ok _ _ _ _ _ ha)
  unfold landAll
  dsimp only
  split
  · exact storeFree_ok _ _ (hf _ _ h)
  · rw [drawUpTo_mem, blurHits_bytes]
    exact storeFree_ok _ _ (hf _ _ h)

@[simp] theorem refuseRx_mem (s : State) (p : PortNo) (x : RxXfer) (cause addr bytes hits : Nat) :
    (refuseRx s p x cause addr bytes hits).mem = s.mem := by
  simp [refuseRx]

@[simp] theorem restorePut_mem (s : State) (off : Nat) (p : List Byte) :
    (restorePut s off p).mem = s.mem := by
  unfold restorePut; (repeat' split) <;> simp

@[simp] theorem rxParity_bytes (s : State) (p : PortNo) (l : List Detect) :
    (rxParity s p l).mem.bytes = s.mem.bytes := by
  unfold rxParity; (repeat' split) <;> simp

@[simp] theorem visibleRx_ok (r : State) (p : PortNo) (x : RxXfer) (parity : List Detect) (h : MemOk r.mem.bytes) :
    MemOk (visibleRx r p x parity).mem.bytes := by
  have h0 : MemOk (rxParity r p parity).mem.bytes := by simpa using h
  have hl := landAll_ok (rxParity r p parity) p x h0
  unfold visibleRx
  dsimp only
  split
  · split
    · rw [setPort_bytes, foldl_bytes _ (fun t w => by simp)]
      exact h0
    · simpa using h
  · split
    · simpa using hl
    · split <;> simpa using hl

@[simp] theorem blurRx_mem (x : RxXfer) (ks : List Nat) (s : State) :
    (blurRx x ks s).2.mem = s.mem := by
  unfold blurRx; dsimp only; (repeat' split) <;> simp

@[simp] theorem traceRxWait_mem (p : PortNo) (x : RxXfer) (s : State) :
    (traceRxWait p x s).mem = s.mem := by
  unfold traceRxWait; dsimp only; (repeat' split) <;> simp

@[simp] theorem dropVerify_mem (s : State) (k : Fin 2) :
    (dropVerify s k).mem = s.mem := by
  unfold dropVerify; (repeat' split) <;> simp

@[simp] theorem sheetBeginBody_mem (f : Frame) (s : State) :
    (sheetBeginBody f s).1.mem = s.mem := by
  unfold sheetBeginBody; dsimp only; (repeat' split) <;> simp

@[simp] theorem sheetVerifyBody_mem (f : Frame) (s : State) (o : Owed) :
    (sheetVerifyBody f s o).1.mem = s.mem := by
  unfold sheetVerifyBody; dsimp only; (repeat' split) <;> simp

@[simp] theorem verifyDone_mem (s : State) (k : Fin 2) (st : CueStore) (o : Owed) :
    (verifyDone s k st o).mem = s.mem := by
  unfold verifyDone; (repeat' split) <;> simp

@[simp] theorem sheetStatusBody_mem (f : Frame) (s : State) :
    (sheetStatusBody f s).1.mem = s.mem := by
  unfold sheetStatusBody; (repeat' split) <;> simp

@[simp] theorem sheetClearBody_mem (f : Frame) (s : State) :
    (sheetClearBody f s).1.mem = s.mem := by
  unfold sheetClearBody; dsimp only; (repeat' split) <;> simp

@[simp] theorem fwHalt_ok (s : State) (k : Nat) (e : BusError) (bytes transfers hits : Nat) (h : MemOk s.mem.bytes) :
    MemOk (fwHalt s k e bytes transfers hits).mem.bytes := by
  unfold fwHalt
  extract_lets d n s1
  have h1 : MemOk s1.mem.bytes := haltChannel_ok _ _ _ _ _ _ _ _ _ h
  clear_value s1
  split
  · exact h1
  · exact recycleOne_ok _ _ _ h1

@[simp] theorem fwEnd_ok (s : State) (k : Nat) (c : FwCount) (h : MemOk s.mem.bytes) : MemOk (fwEnd s k c).mem.bytes := by
  unfold fwEnd
  dsimp only
  split <;> simp [h]

@[simp] theorem fwClose_ok (s : State) (k : Nat) (good : List (Nat × Nat)) (fail : Option BusError) (hits : Nat)
    (det : Bool) (h : MemOk s.mem.bytes) : MemOk (fwClose s k good fail hits det).mem.bytes := by
  unfold fwClose
  dsimp only
  split <;> simp [h]

@[simp] theorem fwWrite_ok (s : State) (k a : Nat) (p : List Byte) (h : MemOk s.mem.bytes) : MemOk (fwWrite s k a p).mem.bytes := by
  unfold fwWrite
  exact fwClose_ok _ _ _ _ _ _ (storeFree_ok _ _ (writeMem_ok _ _ _ _ (by simp [h])))

@[simp] theorem blurBytes_mem (a : Nat) (p : List Byte) (l : List (Nat × Nat)) (s : State) :
    (blurBytes a p l s).2.mem = s.mem := by
  unfold blurBytes; dsimp only; (repeat' split) <;> simp

@[simp] theorem fwRead_ok (s : State) (k a n : Nat) (h : MemOk s.mem.bytes) : MemOk (fwRead s k a n).2.mem.bytes := by
  unfold fwRead
  extract_lets who g m hh b s1 s2 f
  have h2 : MemOk s2.mem.bytes := fwClose_ok _ _ _ _ _ _ (by simp [s1, b, h])
  clear_value s2
  split
  · simp [f, h2]
  · exact h2

@[simp] theorem setXfer_bytes (s : State) (x : Xfer) :
    (setXfer s x).mem.bytes = s.mem.bytes := (rfl)

@[simp] theorem writeOpenBody_mem (f : Frame) (s : State) :
    (writeOpenBody f s).1.mem = s.mem := by
  unfold writeOpenBody; dsimp only; (repeat' split) <;> simp

@[simp] theorem chunkWrite_ok (s : State) (k : Nat) (x : Xfer) (p : List Byte) (h : MemOk s.mem.bytes) :
    MemOk (chunkWrite s k x p).mem.bytes := by
  simp [chunkWrite, h]

@[simp] theorem closeReply_mem (s : State) (id : BitVec 32) :
    (closeReply s id).1.mem = s.mem := by
  unfold closeReply; dsimp only; (repeat' split) <;> simp

@[simp] theorem writeCloseBody_mem (f : Frame) (s : State) :
    (writeCloseBody f s).1.mem = s.mem := by
  unfold writeCloseBody; dsimp only; (repeat' split) <;> simp

@[simp] theorem doRead_ok (s : State) (k : Nat) (p : List Byte) (h : MemOk s.mem.bytes) : MemOk (doRead s k p).1.mem.bytes := by
  simp [doRead, h]

@[simp] theorem readBody_ok (f : Frame) (s : State) (h : MemOk s.mem.bytes) : MemOk (readBody f s).1.mem.bytes := by
  unfold readBody
  dsimp only
  (repeat' split) <;> simp [h]

@[simp] theorem cancelBody_mem (f : Frame) (s : State) :
    (cancelBody f s).1.mem = s.mem := by
  unfold cancelBody; dsimp only; (repeat' split) <;> simp

@[simp] theorem armed_mem (s : State) (k : Fin 2) (p : List Byte) (tids : List Nat) :
    (armed s k p tids).mem = s.mem := by
  simp [armed]

@[simp] theorem armBody_mem (f : Frame) (s : State) :
    (armBody f s).1.mem = s.mem := by
  unfold armBody; dsimp only; (repeat' split) <;> simp

@[simp] theorem started_mem (s : State) (b : Nat) :
    (started s b).mem = s.mem := by
  simp [started]

@[simp] theorem startBody_mem (f : Frame) (s : State) :
    (startBody f s).1.mem = s.mem := by
  unfold startBody; dsimp only; (repeat' split) <;> simp

@[simp] theorem holdBody_mem (f : Frame) (s : State) (o : Owed) :
    (holdBody f s o).1.mem = s.mem := by
  unfold holdBody; dsimp only; (repeat' split) <;> simp

@[simp] theorem resumeBody_mem (f : Frame) (s : State) :
    (resumeBody f s).1.mem = s.mem := by
  unfold resumeBody; dsimp only; (repeat' split) <;> simp

@[simp] theorem withdrawArm_ok (s : State) (h : MemOk s.mem.bytes) :
    MemOk (withdrawArm s).mem.bytes := by
  simp [withdrawArm, h]

@[simp] theorem abortBody_ok (f : Frame) (s : State) (h : MemOk s.mem.bytes) :
    MemOk (abortBody f s).1.mem.bytes := by
  unfold abortBody; (repeat' split) <;> simp [h]

@[simp] theorem statusBody_mem (f : Frame) (s : State) :
    (statusBody f s).1.mem = s.mem := by
  unfold statusBody; (repeat' split) <;> simp

@[simp] theorem storeCounter_mem (s : State) (kind : Nat) (c : BitVec 64) :
    (storeCounter s kind c).mem = s.mem := by
  unfold storeCounter; dsimp only; (repeat' split) <;> simp

theorem guardBody_ok (b : GuardBody) (f : Frame) (s : State) (o : Owed)
    (hb : ∀ s p o c, MemOk s.mem.bytes → MemOk (b.effect s p o c).1.mem.bytes) (h : MemOk s.mem.bytes) :
    MemOk (guardBody b f s o).1.mem.bytes := by
  unfold guardBody
  dsimp only
  (repeat' split)
  · simpa using h
  · simpa using h
  · exact hb _ _ _ _ (by simpa using h)

@[simp] theorem portEnableOne_ok (was : BitVec 64) (s : State) (p : PortNo) (h : MemOk s.mem.bytes) :
    MemOk (portEnableOne was s p).mem.bytes := by
  unfold portEnableOne; dsimp only; (repeat' split) <;> simp [h]

@[simp] theorem kcpDisable_mem (s : State) (k : Kcp) :
    (kcpDisable s k).mem = s.mem := by
  unfold kcpDisable; (repeat' split) <;> simp

@[simp] theorem writePorts_ok (s : State) (v : BitVec 64) (h : MemOk s.mem.bytes) :
    MemOk (writePorts s v).mem.bytes := by
  unfold writePorts; (try dsimp only); (repeat' split) <;> (try simp [h]) <;> simp_all

@[simp] theorem keyRecord_mem (s : State) (which : Nat) (pub : List Byte) :
    (keyRecord s which pub).mem = s.mem := by
  simp [keyRecord]

@[simp] theorem zeroiseBegin_mem (s : State) (after : Lifecycle) (o : Owed) (c : BitVec 64) :
    (zeroiseBegin s after o c).1.mem = s.mem := (rfl)

@[simp] theorem setSlotValid_bytes (s : State) (k : Bool) (v : Bool) :
    (setSlotValid s k v).mem.bytes = s.mem.bytes := by
  unfold setSlotValid; dsimp only; (repeat' split) <;> simp

@[simp] theorem fwSlotCommitBody_mem (f : Frame) (s : State) (o : Owed) :
    (fwSlotCommitBody f s o).1.mem = s.mem := by
  unfold fwSlotCommitBody; dsimp only; (repeat' split) <;> simp

@[simp] theorem readSection_ok (k : Nat) (s : State) (x : ImgSection) (h : MemOk s.mem.bytes) :
    MemOk (readSection k s x).mem.bytes := by
  simp [readSection, h]

@[simp] theorem firmwareSecure_ok (s : State) (k t : Nat) (o : Owed) (h : MemOk s.mem.bytes) :
    MemOk (firmwareSecure s k t o).mem.bytes := by
  simp only [firmwareSecure, deliverParts_mem]
  exact foldl_ok _ (fun t x ht => by simp [ht]) _ _ h

@[simp] theorem waitTier_mem (s : State) (t : Nat) (o : Owed) :
    (waitTier s t o).mem = s.mem := (rfl)

@[simp] theorem secureOn_ok (s : State) (k t : Nat) (o : Owed) (h : MemOk s.mem.bytes) : MemOk (secureOn s k t o).mem.bytes := by
  unfold secureOn
  split <;> simp [h]

@[simp] theorem secureNowBody_ok (f : Frame) (s : State) (o : Owed) (h : MemOk s.mem.bytes) :
    MemOk (secureNowBody f s o).1.mem.bytes := by
  unfold secureNowBody
  dsimp only
  (repeat' split) <;> simp [h]

@[simp] theorem secureFloorBody_mem (f : Frame) (s : State) :
    (secureFloorBody f s).1.mem = s.mem := by
  unfold secureFloorBody; dsimp only; (repeat' split) <;> simp

@[simp] theorem lastImage_mem (s : State) (t : Nat) (id : BitVec 64) :
    (lastImage s t id).mem = s.mem := by
  unfold lastImage; dsimp only; (repeat' split) <;> simp

@[simp] theorem tierDone_mem (s : State) (t : Nat) (i : Image) :
    (tierDone s t i).mem = s.mem := by
  unfold tierDone; dsimp only; (repeat' split) <;> simp

@[simp] theorem imageComplete_mem (s : State) (t : Nat) (ok : Bool) :
    (imageComplete s t ok).mem = s.mem := by
  unfold imageComplete; dsimp only; (repeat' split) <;> simp

@[simp] theorem understudyWriteBody_mem (f : Frame) (s : State) :
    (understudyWriteBody f s).1.mem = s.mem := by
  unfold understudyWriteBody; dsimp only; (repeat' split) <;> simp

@[simp] theorem understudyReadBody_mem (f : Frame) (s : State) :
    (understudyReadBody f s).1.mem = s.mem := by
  unfold understudyReadBody; (repeat' split) <;> simp

@[simp] theorem journalReadBody_mem (f : Frame) (s : State) :
    (journalReadBody f s).1.mem = s.mem := by
  unfold journalReadBody; dsimp only; (repeat' split) <;> simp

@[simp] theorem refuseRestore_mem (s : State) (id : BitVec 64) (cause : Nat) :
    (refuseRestore s id cause).1.mem = s.mem := by
  simp [refuseRestore]

@[simp] theorem beginRestore_mem (s : State) (tier : Nat) (id : BitVec 64) (bytes : Sparse Byte) (sends : List (BitVec 16)) (o : Owed) :
    (beginRestore s tier id bytes sends o).1.mem = s.mem := (rfl)

@[simp] theorem sendRestore_ok (s : State) (k : Nat) (id : BitVec 64) (a : Nat) (o : Owed) (h : MemOk s.mem.bytes) :
    MemOk (sendRestore s k id a o).1.mem.bytes := by
  simp only [sendRestore, beginRestore_mem]
  exact foldl_ok _ (fun t x ht => by simp [ht]) _ _ h

@[simp] theorem restoreFrom_ok (s : State) (take : Nat → Option Nat) (f : Frame) (id : BitVec 64) (o : Owed) (h : MemOk s.mem.bytes) :
    MemOk (restoreFrom s take f id o).1.mem.bytes := by
  unfold restoreFrom
  (repeat' split) <;> simp [h]

@[simp] theorem restoreBody_ok (f : Frame) (s : State) (o : Owed) (h : MemOk s.mem.bytes) :
    MemOk (restoreBody f s o).1.mem.bytes := by
  unfold restoreBody
  dsimp only
  (repeat' split) <;> simp [h]

@[simp] theorem writeSection_ok (r : Restore) (k : Nat) (s : State) (e : Nat) (h : MemOk s.mem.bytes) :
    MemOk (writeSection r k s e).mem.bytes := by
  unfold writeSection
  split <;> simp [h]

@[simp] theorem restored_mem (s : State) (r : Restore) :
    (restored s r).mem = s.mem := (rfl)

@[simp] theorem ownRestoreDone_ok (s : State) (k : Nat) (r : Restore) (h : MemOk s.mem.bytes) :
    MemOk (ownRestoreDone s k r).mem.bytes := by
  have hf := foldl_ok (writeSection r k) (fun t x ht => by simp [ht]) (restoreEntries r) { s with restore := none } h
  unfold ownRestoreDone
  dsimp only
  (repeat' split) <;> simp [h, hf]

@[simp] theorem nandRead_mem (s : State) (r : Restore) :
    (nandRead s r).mem = s.mem := by
  unfold nandRead; (repeat' split) <;> simp

@[simp] theorem sentRestoreDone_mem (s : State) (r : Restore) :
    (sentRestoreDone s r).mem = s.mem := by
  unfold sentRestoreDone; dsimp only; (repeat' split) <;> simp

theorem takeChunk_ok (s : State) (f : Frame) (o : Byte) (body : State → Option State)
    (hb : ∀ s t, body s = some t → MemOk s.mem.bytes → MemOk t.mem.bytes) (h : MemOk s.mem.bytes) :
    MemOk (takeChunk s f o body).mem.bytes := by
  unfold takeChunk
  dsimp only
  split
  · rename_i e; exact hb _ _ e (by simp [h])
  · simp [h]

theorem sheetDataBody_mem {f : Frame} {s t : State} (e : sheetDataBody f s = some t) : t.mem = s.mem := by
  unfold sheetDataBody at e
  dsimp only at e
  split at e
  · cases e
  · cases e; simp

theorem fwSlotDataBody_mem {f : Frame} {s t : State} (e : fwSlotDataBody f s = some t) : t.mem.bytes = s.mem.bytes := by
  unfold fwSlotDataBody at e
  dsimp only at e
  (repeat' split at e) <;> cases e <;> (try split) <;> simp

theorem restoreChunk_mem {p : List Byte} {s t : State} (e : restoreChunk s p = some t) : t.mem = s.mem := by
  unfold restoreChunk at e
  (repeat' split at e) <;> cases e
  rfl

theorem dataDone_ok {b : List Instr} {s t : State} {c : Instr} (e : dataDone b s c = some t) (h : MemOk s.mem.bytes) :
    MemOk t.mem.bytes := by
  unfold dataDone at e
  (repeat' split at e) <;> cases e
  · exact takeChunk_ok _ _ _ _ (fun _ _ e h => by rw [sheetDataBody_mem e]; exact h) h
  · exact takeChunk_ok _ _ _ _ (fun _ _ e h => by rw [fwSlotDataBody_mem e]; exact h) h
  · exact takeChunk_ok _ _ _ _ (fun _ _ e h => by rw [restoreChunk_mem e]; exact h) h

theorem dataTurns_ok (b : List Instr) (s : State) (l : List Instr) (h : MemOk s.mem.bytes) : MemOk (dataTurns b s l).mem.bytes := by
  induction l generalizing b s with
  | nil => exact h
  | cons c r ih =>
    unfold dataTurns
    split
    · rename_i e; exact ih _ _ (dataDone_ok e h)
    · exact ih _ _ h

@[simp] theorem takeHeld_ok (s : State) (k : Nat) (i : Instr) (h : MemOk s.mem.bytes) : MemOk (takeHeld s k i).mem.bytes := by
  unfold takeHeld
  (repeat' split) <;> (try dsimp only) <;> (repeat' split) <;> simp [h]

@[simp] theorem takeOldest_ok (s : State) (h : MemOk s.mem.bytes) : MemOk (takeOldest s).mem.bytes := by
  unfold takeOldest
  (repeat' split) <;> simp [h]

end Sys2Proof.Machine
end

