-- ==== Sys2Proof/Laws/Frames.lean ====
section
/-! SUPPORT. What the shared operations leave alone: each is shown once on State with the parts it may touch blanked out; one lemma
per field follows. -/

namespace Sys2Proof.Machine

/-- What every step of a fold leaves alone, the fold leaves alone. -/
theorem foldl_field {β γ : Type} (π : State → γ) (g : State → β → State) (h : ∀ s x, π (g s x) = π s) (l : List β) (s : State) :
    π (l.foldl g s) = π s := by
  induction l generalizing s with
  | nil => rfl
  | cons x r ih => rw [List.foldl_cons, ih, h]

/-- A field that a projection keeps is the same in two states with the same projection. -/
theorem field_of {δ : Type} {π : State → State} (f : State → δ) {s t : State} (e : π s = π t) (h : ∀ u, f (π u) = f u) : f s = f t := by
  rw [← h s, e, h t]

/-! ## An error event touches the errors, the alarms, the marks of the step and the health counts -/

/-- The step without the marks that an event leaves on it. -/
def StepSt.unmarked (t : StepSt) : StepSt := { t with replay := false, originF := none, originS := none, firstSeen := [] }

/-- State without what an event may touch. -/
def butEvents (s : State) : State :=
  { s with err := Errors.reset, alarms := { places := [], nextId := 1 }, step := s.step.unmarked, health := Health.reset }

theorem sourceUpdate_only (s : State) (e : Event) (r : ErrRec) : butEvents (sourceUpdate s e r) = butEvents s := rfl
theorem fifoEnter_only (s : State) (e : Event) (r : ErrRec) : butEvents (fifoEnter s e r) = butEvents s := by
  unfold fifoEnter; dsimp only; (repeat' split) <;> rfl
theorem latchAlarm_only (s : State) (p : Nat) (r : ErrRec) : butEvents (latchAlarm s p r) = butEvents s := by
  unfold latchAlarm; dsimp only; split
  · rfl
  · split <;> rfl
theorem stepMark_only (s : State) (e : Event) : butEvents (stepMark s e) = butEvents s := by
  unfold stepMark; split
  · rfl
  · dsimp only; split <;> split <;> rfl
theorem markFirst_only (s : State) (e : Event) : butEvents (markFirst s e) = butEvents s := by
  unfold markFirst; split <;> rfl
theorem healthEvent_only (s : State) (e : Event) : butEvents (healthEvent s e) = butEvents s := by
  unfold healthEvent; split <;> rfl

/-- An event touches nothing else. -/
theorem raise_only (s : State) (e : Event) : butEvents (raise s e) = butEvents s := by
  unfold raise
  dsimp only
  rw [stepMark_only]
  split
  · rw [latchAlarm_only, healthEvent_only, markFirst_only, fifoEnter_only, sourceUpdate_only]
  · rw [healthEvent_only, markFirst_only, fifoEnter_only, sourceUpdate_only]

theorem raiseAll_only (s : State) (l : List Event) : butEvents (raiseAll s l) = butEvents s :=
  foldl_field butEvents _ raise_only _ _

/-! ## An access touches memory and the fence hits too -/

/-- State without what an access may touch. -/
def butAccess (s : State) : State := { butEvents s with mem := Mem.reset, tenants := [] }

theorem butAccess_of {s t : State} (h : butEvents s = butEvents t) : butAccess s = butAccess t := by
  unfold butAccess; rw [h]
theorem countHit_only (s : State) (p : Nat × Nat) : butAccess (countHit s p) = butAccess s := by
  unfold countHit; dsimp only; split <;> rfl
theorem countGate_only (s : State) (a : Nat) : butAccess (countGate s a) = butAccess s := rfl
theorem countWord_only (s : State) (w : Nat) : butAccess (countWord s w) = butAccess s := by
  unfold countWord
  dsimp only
  (repeat' split) <;> rfl
theorem queueRead_only (s : State) (a n : Nat) : butAccess (queueRead s a n) = butAccess s := by
  unfold queueRead; dsimp only; (repeat' split) <;> rfl
theorem queueWrite_only (s : State) (a : Nat) (m : BitVec 256) : butAccess (queueWrite s a m) = butAccess s := by
  unfold queueWrite; dsimp only; split <;> rfl
theorem touchRead1_only (s : State) (p : Nat × Nat) : butAccess (touchRead1 s p) = butAccess s := by
  have h : butAccess (if pieceFenced s p then countHit s p else s) = butAccess s := by
    split
    · exact countHit_only s p
    · rfl
  unfold touchRead1
  dsimp only
  split
  · exact h
  · split
    · rw [countGate_only, h]
    · rw [queueRead_only, h]
theorem touchWrite1_only (s : State) (p : Nat × BitVec 256) : butAccess (touchWrite1 s p) = butAccess s := by
  unfold touchWrite1
  dsimp only
  split
  · exact countHit_only s _
  · split
    · exact countGate_only s _
    · exact queueWrite_only s _ _
theorem readCounts_only (s : State) (l : List (Nat × Nat)) : butAccess (readCounts s l) = butAccess s := by
  rw [readCounts, foldl_field butAccess _ countWord_only, foldl_field butAccess _ touchRead1_only]
theorem writeCounts_only (s : State) (l : List (Nat × BitVec 256)) : butAccess (writeCounts s l) = butAccess s := by
  rw [writeCounts, foldl_field butAccess _ countWord_only, foldl_field butAccess _ touchWrite1_only]
theorem touchRead_only (w : Who) (s : State) (a n : Nat) : butAccess (touchRead w s a n) = butAccess s := by
  rw [touchRead, butAccess_of (raiseAll_only _ _), readCounts_only]
/-- A read touches nothing else. -/
theorem readAll_only (w : Who) (s : State) (l : List (Nat × Nat)) : butAccess (readAll w s l) = butAccess s := by
  rw [readAll, butAccess_of (raiseAll_only _ _), readCounts_only]
theorem pokeByte_only (s : State) (p : Nat) (v : Byte) : butAccess (pokeByte s p v) = butAccess s := by
  unfold pokeByte; dsimp only; split <;> split <;> rfl
theorem writeByte_only (s : State) (a : Nat) (v : Byte) : butAccess (writeByte s a v) = butAccess s := by
  unfold writeByte; split
  · rfl
  · dsimp only; split
    · rfl
    · exact pokeByte_only _ _ _
theorem store_only (s : State) (a : Nat) (p : List Byte) : butAccess (store s a p) = butAccess s := by
  induction p generalizing s a with
  | nil => rfl
  | cons b r ih => rw [store, ih, writeByte_only]
theorem storeAll_only (s : State) (l : List (Nat × List Byte)) : butAccess (storeAll s l) = butAccess s := by
  induction l generalizing s with
  | nil => rfl
  | cons y r ih => exact (ih _).trans (store_only s y.1 y.2)
theorem putMem_only (s : State) (l : List (Nat × List Byte)) : butAccess (putMem s l) = butAccess s := by
  rw [putMem, storeAll_only, writeCounts_only]
theorem writeWith_only (w : Who) (s : State) (l : List (Nat × List Byte)) (es : List Event) :
    butAccess (writeWith w s l es) = butAccess s := by
  rw [writeWith, butAccess_of (raiseAll_only _ _), putMem_only]
/-- A write touches nothing else. -/
theorem writeMem_only (w : Who) (s : State) (a : Nat) (p : List Byte) : butAccess (writeMem w s a p) = butAccess s :=
  writeWith_only _ _ _ _
theorem writeAll_only (w : Who) (s : State) (l : List (Nat × List Byte)) : butAccess (writeAll w s l) = butAccess s :=
  writeWith_only _ _ _ _

/-! ## A frame sent touches the control ports and the session -/

/-- State without what a frame sent may touch. -/
def butFrames (s : State) : State :=
  { s with ctl := { a := KcpSt.reset, b := KcpSt.reset, carrier := none, lost := none, sent := [] }, ses := Session.reset }

theorem setKcp_only (s : State) (k : Kcp) (v : KcpSt) : butFrames (setKcp s k v) = butFrames s := by cases k <;> rfl
theorem emit_only (s : State) (k : Kcp) (f : FrameOut) (q : BitVec 32) : butFrames (emit s k f q) = butFrames s := by
  cases k <;> rfl
theorem sendOn_only (s : State) (k : Kcp) (f : FrameOut) : butFrames (sendOn s k f) = butFrames s := by
  unfold sendOn; split
  · exact emit_only _ _ _ _
  · exact emit_only s k f (s.ses.out f.cls)
theorem sendFrame_only (s : State) (f : FrameOut) : butFrames (sendFrame s f) = butFrames s := by
  unfold sendFrame; split
  · rfl
  · exact sendOn_only _ _ _
theorem sendReport_only (s : State) (opcode : Byte) (cls : BitVec 2) (payload : List Byte) :
    butFrames (sendReport s opcode cls payload) = butFrames s := sendFrame_only _ _
theorem replyFrames_only (s : State) (opcode : Byte) (refSeq : BitVec 32) (status : Byte) (l : List (List Byte)) :
    butFrames (replyFrames s opcode refSeq status l) = butFrames s := by
  induction l generalizing s with
  | nil => rfl
  | cons p r ih => cases r with
    | nil => exact sendFrame_only _ _
    | cons q r => rw [replyFrames, ih, sendFrame_only]; simp
theorem storeReply_only (s : State) (o : Owed) (status : Byte) (frames : List (List Byte)) :
    butFrames (storeReply s o status frames) = butFrames s := by
  unfold storeReply; split <;> rfl
/-- A final reply touches nothing else. -/
theorem finish_only (s : State) (o : Owed) (status : Byte) (payload : List Byte) : butFrames (finish s o status payload) = butFrames s := by
  unfold finish; dsimp only; rw [replyFrames_only, storeReply_only]
theorem creditUse_only (s : State) (k : Kcp) (c : BitVec 2) : butFrames (creditUse s k c) = butFrames s := setKcp_only _ _ _
theorem refuse_only (s : State) (opcode : Byte) (seq : BitVec 32) (status : Byte) : butFrames (refuse s opcode seq status) = butFrames s :=
  replyFrames_only _ _ _ _ _

/-! ## A tally signal touches the tallies, the waits of pending cues and the count of waits for a stream, and records a saturation -/

/-- State without what a signal may touch. -/
def butSignals (s : State) : State :=
  { butEvents s with stage := { Stage.reset with windows := s.stage.windows, lends := s.stage.lends, later := s.stage.later,
                                                 preds := s.stage.preds, planned := s.stage.planned },
                      mem := { s.mem with counters := { s.mem.counters with streamWaits := [], opWaits := [] } } }

theorem butSignals_of {s t : State} (h : butEvents s = butEvents t) : butSignals s = butSignals t := by
  have hs : s.stage = t.stage := field_of State.stage h (fun _ => rfl)
  have hm : s.mem = t.mem := field_of State.mem h (fun _ => rfl)
  unfold butSignals; rw [h, hs, hm]
theorem keepBefore_only (s : State) (k v c : Nat) : butSignals (keepBefore s k v c) = butSignals s := by
  unfold keepBefore; dsimp only; (repeat' split) <;> rfl
theorem noteWaits_only (s : State) (d : Die) (i c : Nat) : butSignals (noteWaits s d i c) = butSignals s := rfl
theorem sendCopies_only (s : State) (i c : Nat) : butSignals (sendCopies s i c) = butSignals s := rfl
theorem tallies_only (s : State) (x : Sparse (BitVec 32)) :
    butSignals { s with stage := { s.stage with tallies := x } } = butSignals s := rfl
theorem putTally_only (s : State) (i : Nat) (v : BitVec 32) (c : Nat) : butSignals (putTally s i v c) = butSignals s := by
  unfold putTally
  split
  · rfl
  · dsimp only
    rw [sendCopies_only, noteWaits_only, tallies_only, keepBefore_only]
theorem satTally_only (s : State) (i v c : Nat) : butSignals (satTally s i v c) = butSignals s := by
  unfold satTally
  split
  · rw [butSignals_of (raise_only _ _), putTally_only]
  · exact putTally_only _ _ _ _
theorem applyTallyAt_only (s : State) (i n c : Nat) : butSignals (applyTallyAt s i n c) = butSignals s := by
  unfold applyTallyAt
  dsimp only
  rw [satTally_only]
  exact keepBefore_only s i (tallyOf s i).toNat c
theorem applyTally_only (s : State) (i n : Nat) : butSignals (applyTally s i n) = butSignals s := applyTallyAt_only _ _ _ _
theorem setTally_only (s : State) (i v cue c : Nat) : butSignals (setTally s i v cue c) = butSignals s := by
  unfold setTally
  dsimp only
  (repeat' split)
  · rw [satTally_only, keepBefore_only]
  · exact keepBefore_only _ _ _ _
  · rw [satTally_only]
    exact keepBefore_only s i (tallyOf s i).toNat c
theorem signalTally_only (s : State) (d : Die) (i n c : Nat) : butSignals (signalTally s d i n c) = butSignals s := by
  unfold signalTally
  split
  · exact applyTallyAt_only _ _ _ _
  · dsimp only; split <;> rfl
/-- A signal touches nothing else. -/
theorem signalOpt_only (s : State) (d : Die) (c : Nat) (o : Option (Nat × Nat)) : butSignals (signalOpt s d c o) = butSignals s := by
  cases o with
  | none => rfl
  | some x => exact signalTally_only _ _ _ _ _

/-! ## The clock, the trace and free bytes -/

/-- State without the clock. -/
def butClock (s : State) : State := { s with now := 0, ref := 0, half := false, cycle := 0 }

theorem refPass_only (s : State) (n : Nat) : butClock (refPass s n) = butClock s := by unfold refPass; split <;> rfl
theorem clockTo_only (s : State) (t : Nat) : butClock (clockTo s t) = butClock s := by
  unfold clockTo
  split
  · rfl
  · dsimp only
    split
    · rfl
    · exact refPass_only s _
/-- The clock does not go back. -/
theorem clockTo_past {s : State} {t : Nat} (h : t ≤ s.now) : clockTo s t = s := by unfold clockTo; rw [if_pos h]
/-- A trace record touches nothing else. -/
theorem traceAt_only (s : State) (c : Nat) (kind : Byte) (p : Place) (unit inst cue addr count : Nat) :
    { traceAt s c kind p unit inst cue addr count with trace := s.trace } = s := rfl

/-! Fields that `raise` leaves alone. -/

@[simp] theorem raise_pending (s : State) (e : Event) :
    (raise s e).pending = s.pending := field_of State.pending (raise_only s e) (fun _ => rfl)
@[simp] theorem raise_now (s : State) (e : Event) :
    (raise s e).now = s.now := field_of State.now (raise_only s e) (fun _ => rfl)
@[simp] theorem raise_ref (s : State) (e : Event) :
    (raise s e).ref = s.ref := field_of State.ref (raise_only s e) (fun _ => rfl)
@[simp] theorem raise_half (s : State) (e : Event) :
    (raise s e).half = s.half := field_of State.half (raise_only s e) (fun _ => rfl)
@[simp] theorem raise_cycle (s : State) (e : Event) :
    (raise s e).cycle = s.cycle := field_of State.cycle (raise_only s e) (fun _ => rfl)
@[simp] theorem raise_free (s : State) (e : Event) :
    (raise s e).free = s.free := field_of State.free (raise_only s e) (fun _ => rfl)
@[simp] theorem raise_pwr (s : State) (e : Event) :
    (raise s e).pwr = s.pwr := field_of State.pwr (raise_only s e) (fun _ => rfl)
@[simp] theorem raise_tap (s : State) (e : Event) :
    (raise s e).tap = s.tap := field_of State.tap (raise_only s e) (fun _ => rfl)
@[simp] theorem raise_guard (s : State) (e : Event) :
    (raise s e).guard = s.guard := field_of State.guard (raise_only s e) (fun _ => rfl)
@[simp] theorem raise_nor (s : State) (e : Event) :
    (raise s e).nor = s.nor := field_of State.nor (raise_only s e) (fun _ => rfl)
@[simp] theorem raise_nand (s : State) (e : Event) :
    (raise s e).nand = s.nand := field_of State.nand (raise_only s e) (fun _ => rfl)
@[simp] theorem raise_beat (s : State) (e : Event) :
    (raise s e).beat = s.beat := field_of State.beat (raise_only s e) (fun _ => rfl)
@[simp] theorem raise_ctl (s : State) (e : Event) :
    (raise s e).ctl = s.ctl := field_of State.ctl (raise_only s e) (fun _ => rfl)
@[simp] theorem raise_ses (s : State) (e : Event) :
    (raise s e).ses = s.ses := field_of State.ses (raise_only s e) (fun _ => rfl)
@[simp] theorem raise_cfg (s : State) (e : Event) :
    (raise s e).cfg = s.cfg := field_of State.cfg (raise_only s e) (fun _ => rfl)
@[simp] theorem raise_store0 (s : State) (e : Event) :
    (raise s e).store0 = s.store0 := field_of State.store0 (raise_only s e) (fun _ => rfl)
@[simp] theorem raise_store1 (s : State) (e : Event) :
    (raise s e).store1 = s.store1 := field_of State.store1 (raise_only s e) (fun _ => rfl)
@[simp] theorem raise_stage (s : State) (e : Event) :
    (raise s e).stage = s.stage := field_of State.stage (raise_only s e) (fun _ => rfl)
@[simp] theorem raise_tenants (s : State) (e : Event) :
    (raise s e).tenants = s.tenants := field_of State.tenants (raise_only s e) (fun _ => rfl)
@[simp] theorem raise_dma (s : State) (e : Event) :
    (raise s e).dma = s.dma := field_of State.dma (raise_only s e) (fun _ => rfl)
@[simp] theorem raise_fwHeld (s : State) (e : Event) :
    (raise s e).fwHeld = s.fwHeld := field_of State.fwHeld (raise_only s e) (fun _ => rfl)
@[simp] theorem raise_waiting1 (s : State) (e : Event) :
    (raise s e).waiting1 = s.waiting1 := field_of State.waiting1 (raise_only s e) (fun _ => rfl)
@[simp] theorem raise_taking (s : State) (e : Event) :
    (raise s e).taking = s.taking := field_of State.taking (raise_only s e) (fun _ => rfl)
@[simp] theorem raise_arbs (s : State) (e : Event) :
    (raise s e).arbs = s.arbs := field_of State.arbs (raise_only s e) (fun _ => rfl)
@[simp] theorem raise_xfers (s : State) (e : Event) :
    (raise s e).xfers = s.xfers := field_of State.xfers (raise_only s e) (fun _ => rfl)
@[simp] theorem raise_ports (s : State) (e : Event) :
    (raise s e).ports = s.ports := field_of State.ports (raise_only s e) (fun _ => rfl)
@[simp] theorem raise_trace (s : State) (e : Event) :
    (raise s e).trace = s.trace := field_of State.trace (raise_only s e) (fun _ => rfl)
@[simp] theorem raise_secure (s : State) (e : Event) :
    (raise s e).secure = s.secure := field_of State.secure (raise_only s e) (fun _ => rfl)
@[simp] theorem raise_journal (s : State) (e : Event) :
    (raise s e).journal = s.journal := field_of State.journal (raise_only s e) (fun _ => rfl)
@[simp] theorem raise_restore (s : State) (e : Event) :
    (raise s e).restore = s.restore := field_of State.restore (raise_only s e) (fun _ => rfl)
@[simp] theorem raise_step_phase (s : State) (e : Event) :
    (raise s e).step.phase = s.step.phase := field_of (fun t : State => t.step.phase) (raise_only s e) (fun _ => rfl)
@[simp] theorem raise_step_store (s : State) (e : Event) :
    (raise s e).step.store = s.step.store := field_of (fun t : State => t.step.store) (raise_only s e) (fun _ => rfl)
@[simp] theorem raise_step_hash (s : State) (e : Event) :
    (raise s e).step.hash = s.step.hash := field_of (fun t : State => t.step.hash) (raise_only s e) (fun _ => rfl)
@[simp] theorem raise_step_manifest (s : State) (e : Event) :
    (raise s e).step.manifest = s.step.manifest := field_of (fun t : State => t.step.manifest) (raise_only s e) (fun _ => rfl)
@[simp] theorem raise_step_number (s : State) (e : Event) :
    (raise s e).step.number = s.step.number := field_of (fun t : State => t.step.number) (raise_only s e) (fun _ => rfl)
@[simp] theorem raise_step_seed (s : State) (e : Event) :
    (raise s e).step.seed = s.step.seed := field_of (fun t : State => t.step.seed) (raise_only s e) (fun _ => rfl)
@[simp] theorem raise_step_tenants (s : State) (e : Event) :
    (raise s e).step.tenants = s.step.tenants := field_of (fun t : State => t.step.tenants) (raise_only s e) (fun _ => rfl)
@[simp] theorem raise_step_startBeat (s : State) (e : Event) :
    (raise s e).step.startBeat = s.step.startBeat := field_of (fun t : State => t.step.startBeat) (raise_only s e) (fun _ => rfl)
@[simp] theorem raise_step_relBeat (s : State) (e : Event) :
    (raise s e).step.relBeat = s.step.relBeat := field_of (fun t : State => t.step.relBeat) (raise_only s e) (fun _ => rfl)
@[simp] theorem raise_step_next (s : State) (e : Event) :
    (raise s e).step.next = s.step.next := field_of (fun t : State => t.step.next) (raise_only s e) (fun _ => rfl)
@[simp] theorem raise_step_stopped (s : State) (e : Event) :
    (raise s e).step.stopped = s.step.stopped := field_of (fun t : State => t.step.stopped) (raise_only s e) (fun _ => rfl)
@[simp] theorem raise_step_stopAt (s : State) (e : Event) :
    (raise s e).step.stopAt = s.step.stopAt := field_of (fun t : State => t.step.stopAt) (raise_only s e) (fun _ => rfl)
@[simp] theorem raise_step_cause (s : State) (e : Event) :
    (raise s e).step.cause = s.step.cause := field_of (fun t : State => t.step.cause) (raise_only s e) (fun _ => rfl)
@[simp] theorem raise_step_failed (s : State) (e : Event) :
    (raise s e).step.failed = s.step.failed := field_of (fun t : State => t.step.failed) (raise_only s e) (fun _ => rfl)
@[simp] theorem raise_step_suspect (s : State) (e : Event) :
    (raise s e).step.suspect = s.step.suspect := field_of (fun t : State => t.step.suspect) (raise_only s e) (fun _ => rfl)
@[simp] theorem raise_step_lateCues (s : State) (e : Event) :
    (raise s e).step.lateCues = s.step.lateCues := field_of (fun t : State => t.step.lateCues) (raise_only s e) (fun _ => rfl)
@[simp] theorem raise_step_idleCycles (s : State) (e : Event) :
    (raise s e).step.idleCycles = s.step.idleCycles := field_of (fun t : State => t.step.idleCycles) (raise_only s e) (fun _ => rfl)
@[simp] theorem raise_step_hold (s : State) (e : Event) :
    (raise s e).step.hold = s.step.hold := field_of (fun t : State => t.step.hold) (raise_only s e) (fun _ => rfl)
@[simp] theorem raise_step_holdAt (s : State) (e : Event) :
    (raise s e).step.holdAt = s.step.holdAt := field_of (fun t : State => t.step.holdAt) (raise_only s e) (fun _ => rfl)
@[simp] theorem raise_step_resume (s : State) (e : Event) :
    (raise s e).step.resume = s.step.resume := field_of (fun t : State => t.step.resume) (raise_only s e) (fun _ => rfl)
@[simp] theorem raise_step_curtains (s : State) (e : Event) :
    (raise s e).step.curtains = s.step.curtains := field_of (fun t : State => t.step.curtains) (raise_only s e) (fun _ => rfl)
@[simp] theorem raise_step_curtainAt (s : State) (e : Event) :
    (raise s e).step.curtainAt = s.step.curtainAt := field_of (fun t : State => t.step.curtainAt) (raise_only s e) (fun _ => rfl)
@[simp] theorem raise_step_lastDone (s : State) (e : Event) :
    (raise s e).step.lastDone = s.step.lastDone := field_of (fun t : State => t.step.lastDone) (raise_only s e) (fun _ => rfl)
@[simp] theorem raise_step_prevEnd (s : State) (e : Event) :
    (raise s e).step.prevEnd = s.step.prevEnd := field_of (fun t : State => t.step.prevEnd) (raise_only s e) (fun _ => rfl)
@[simp] theorem raise_step_dirty (s : State) (e : Event) :
    (raise s e).step.dirty = s.step.dirty := field_of (fun t : State => t.step.dirty) (raise_only s e) (fun _ => rfl)
@[simp] theorem raise_step_lastCommitted (s : State) (e : Event) :
    (raise s e).step.lastCommitted = s.step.lastCommitted := field_of (fun t : State => t.step.lastCommitted) (raise_only s e) (fun _ => rfl)
@[simp] theorem raise_step_lastHash (s : State) (e : Event) :
    (raise s e).step.lastHash = s.step.lastHash := field_of (fun t : State => t.step.lastHash) (raise_only s e) (fun _ => rfl)
@[simp] theorem raise_step_lastMode (s : State) (e : Event) :
    (raise s e).step.lastMode = s.step.lastMode := field_of (fun t : State => t.step.lastMode) (raise_only s e) (fun _ => rfl)
@[simp] theorem raise_step_freezes (s : State) (e : Event) :
    (raise s e).step.freezes = s.step.freezes := field_of (fun t : State => t.step.freezes) (raise_only s e) (fun _ => rfl)
@[simp] theorem raise_step_slotsNamed (s : State) (e : Event) :
    (raise s e).step.slotsNamed = s.step.slotsNamed := field_of (fun t : State => t.step.slotsNamed) (raise_only s e) (fun _ => rfl)
@[simp] theorem raise_step_frozen (s : State) (e : Event) :
    (raise s e).step.frozen = s.step.frozen := field_of (fun t : State => t.step.frozen) (raise_only s e) (fun _ => rfl)
@[simp] theorem raise_step_dropped (s : State) (e : Event) :
    (raise s e).step.dropped = s.step.dropped := field_of (fun t : State => t.step.dropped) (raise_only s e) (fun _ => rfl)

/-! Fields that `raiseAll` leaves alone. -/

@[simp] theorem raiseAll_pending (s : State) (l : List Event) :
    (raiseAll s l).pending = s.pending := field_of State.pending (raiseAll_only s l) (fun _ => rfl)
@[simp] theorem raiseAll_now (s : State) (l : List Event) :
    (raiseAll s l).now = s.now := field_of State.now (raiseAll_only s l) (fun _ => rfl)
@[simp] theorem raiseAll_ref (s : State) (l : List Event) :
    (raiseAll s l).ref = s.ref := field_of State.ref (raiseAll_only s l) (fun _ => rfl)
@[simp] theorem raiseAll_half (s : State) (l : List Event) :
    (raiseAll s l).half = s.half := field_of State.half (raiseAll_only s l) (fun _ => rfl)
@[simp] theorem raiseAll_cycle (s : State) (l : List Event) :
    (raiseAll s l).cycle = s.cycle := field_of State.cycle (raiseAll_only s l) (fun _ => rfl)
@[simp] theorem raiseAll_free (s : State) (l : List Event) :
    (raiseAll s l).free = s.free := field_of State.free (raiseAll_only s l) (fun _ => rfl)
@[simp] theorem raiseAll_pwr (s : State) (l : List Event) :
    (raiseAll s l).pwr = s.pwr := field_of State.pwr (raiseAll_only s l) (fun _ => rfl)
@[simp] theorem raiseAll_tap (s : State) (l : List Event) :
    (raiseAll s l).tap = s.tap := field_of State.tap (raiseAll_only s l) (fun _ => rfl)
@[simp] theorem raiseAll_guard (s : State) (l : List Event) :
    (raiseAll s l).guard = s.guard := field_of State.guard (raiseAll_only s l) (fun _ => rfl)
@[simp] theorem raiseAll_nor (s : State) (l : List Event) :
    (raiseAll s l).nor = s.nor := field_of State.nor (raiseAll_only s l) (fun _ => rfl)
@[simp] theorem raiseAll_nand (s : State) (l : List Event) :
    (raiseAll s l).nand = s.nand := field_of State.nand (raiseAll_only s l) (fun _ => rfl)
@[simp] theorem raiseAll_beat (s : State) (l : List Event) :
    (raiseAll s l).beat = s.beat := field_of State.beat (raiseAll_only s l) (fun _ => rfl)
@[simp] theorem raiseAll_ctl (s : State) (l : List Event) :
    (raiseAll s l).ctl = s.ctl := field_of State.ctl (raiseAll_only s l) (fun _ => rfl)
@[simp] theorem raiseAll_ses (s : State) (l : List Event) :
    (raiseAll s l).ses = s.ses := field_of State.ses (raiseAll_only s l) (fun _ => rfl)
@[simp] theorem raiseAll_cfg (s : State) (l : List Event) :
    (raiseAll s l).cfg = s.cfg := field_of State.cfg (raiseAll_only s l) (fun _ => rfl)
@[simp] theorem raiseAll_store0 (s : State) (l : List Event) :
    (raiseAll s l).store0 = s.store0 := field_of State.store0 (raiseAll_only s l) (fun _ => rfl)
@[simp] theorem raiseAll_store1 (s : State) (l : List Event) :
    (raiseAll s l).store1 = s.store1 := field_of State.store1 (raiseAll_only s l) (fun _ => rfl)
@[simp] theorem raiseAll_stage (s : State) (l : List Event) :
    (raiseAll s l).stage = s.stage := field_of State.stage (raiseAll_only s l) (fun _ => rfl)
@[simp] theorem raiseAll_tenants (s : State) (l : List Event) :
    (raiseAll s l).tenants = s.tenants := field_of State.tenants (raiseAll_only s l) (fun _ => rfl)
@[simp] theorem raiseAll_dma (s : State) (l : List Event) :
    (raiseAll s l).dma = s.dma := field_of State.dma (raiseAll_only s l) (fun _ => rfl)
@[simp] theorem raiseAll_fwHeld (s : State) (l : List Event) :
    (raiseAll s l).fwHeld = s.fwHeld := field_of State.fwHeld (raiseAll_only s l) (fun _ => rfl)
@[simp] theorem raiseAll_waiting1 (s : State) (l : List Event) :
    (raiseAll s l).waiting1 = s.waiting1 := field_of State.waiting1 (raiseAll_only s l) (fun _ => rfl)
@[simp] theorem raiseAll_taking (s : State) (l : List Event) :
    (raiseAll s l).taking = s.taking := field_of State.taking (raiseAll_only s l) (fun _ => rfl)
@[simp] theorem raiseAll_arbs (s : State) (l : List Event) :
    (raiseAll s l).arbs = s.arbs := field_of State.arbs (raiseAll_only s l) (fun _ => rfl)
@[simp] theorem raiseAll_xfers (s : State) (l : List Event) :
    (raiseAll s l).xfers = s.xfers := field_of State.xfers (raiseAll_only s l) (fun _ => rfl)
@[simp] theorem raiseAll_ports (s : State) (l : List Event) :
    (raiseAll s l).ports = s.ports := field_of State.ports (raiseAll_only s l) (fun _ => rfl)
@[simp] theorem raiseAll_trace (s : State) (l : List Event) :
    (raiseAll s l).trace = s.trace := field_of State.trace (raiseAll_only s l) (fun _ => rfl)
@[simp] theorem raiseAll_secure (s : State) (l : List Event) :
    (raiseAll s l).secure = s.secure := field_of State.secure (raiseAll_only s l) (fun _ => rfl)
@[simp] theorem raiseAll_journal (s : State) (l : List Event) :
    (raiseAll s l).journal = s.journal := field_of State.journal (raiseAll_only s l) (fun _ => rfl)
@[simp] theorem raiseAll_restore (s : State) (l : List Event) :
    (raiseAll s l).restore = s.restore := field_of State.restore (raiseAll_only s l) (fun _ => rfl)
@[simp] theorem raiseAll_step_phase (s : State) (l : List Event) :
    (raiseAll s l).step.phase = s.step.phase := field_of (fun t : State => t.step.phase) (raiseAll_only s l) (fun _ => rfl)
@[simp] theorem raiseAll_step_store (s : State) (l : List Event) :
    (raiseAll s l).step.store = s.step.store := field_of (fun t : State => t.step.store) (raiseAll_only s l) (fun _ => rfl)
@[simp] theorem raiseAll_step_hash (s : State) (l : List Event) :
    (raiseAll s l).step.hash = s.step.hash := field_of (fun t : State => t.step.hash) (raiseAll_only s l) (fun _ => rfl)
@[simp] theorem raiseAll_step_manifest (s : State) (l : List Event) :
    (raiseAll s l).step.manifest = s.step.manifest := field_of (fun t : State => t.step.manifest) (raiseAll_only s l) (fun _ => rfl)
@[simp] theorem raiseAll_step_number (s : State) (l : List Event) :
    (raiseAll s l).step.number = s.step.number := field_of (fun t : State => t.step.number) (raiseAll_only s l) (fun _ => rfl)
@[simp] theorem raiseAll_step_seed (s : State) (l : List Event) :
    (raiseAll s l).step.seed = s.step.seed := field_of (fun t : State => t.step.seed) (raiseAll_only s l) (fun _ => rfl)
@[simp] theorem raiseAll_step_tenants (s : State) (l : List Event) :
    (raiseAll s l).step.tenants = s.step.tenants := field_of (fun t : State => t.step.tenants) (raiseAll_only s l) (fun _ => rfl)
@[simp] theorem raiseAll_step_startBeat (s : State) (l : List Event) :
    (raiseAll s l).step.startBeat = s.step.startBeat := field_of (fun t : State => t.step.startBeat) (raiseAll_only s l) (fun _ => rfl)
@[simp] theorem raiseAll_step_relBeat (s : State) (l : List Event) :
    (raiseAll s l).step.relBeat = s.step.relBeat := field_of (fun t : State => t.step.relBeat) (raiseAll_only s l) (fun _ => rfl)
@[simp] theorem raiseAll_step_next (s : State) (l : List Event) :
    (raiseAll s l).step.next = s.step.next := field_of (fun t : State => t.step.next) (raiseAll_only s l) (fun _ => rfl)
@[simp] theorem raiseAll_step_stopped (s : State) (l : List Event) :
    (raiseAll s l).step.stopped = s.step.stopped := field_of (fun t : State => t.step.stopped) (raiseAll_only s l) (fun _ => rfl)
@[simp] theorem raiseAll_step_stopAt (s : State) (l : List Event) :
    (raiseAll s l).step.stopAt = s.step.stopAt := field_of (fun t : State => t.step.stopAt) (raiseAll_only s l) (fun _ => rfl)
@[simp] theorem raiseAll_step_cause (s : State) (l : List Event) :
    (raiseAll s l).step.cause = s.step.cause := field_of (fun t : State => t.step.cause) (raiseAll_only s l) (fun _ => rfl)
@[simp] theorem raiseAll_step_failed (s : State) (l : List Event) :
    (raiseAll s l).step.failed = s.step.failed := field_of (fun t : State => t.step.failed) (raiseAll_only s l) (fun _ => rfl)
@[simp] theorem raiseAll_step_suspect (s : State) (l : List Event) :
    (raiseAll s l).step.suspect = s.step.suspect := field_of (fun t : State => t.step.suspect) (raiseAll_only s l) (fun _ => rfl)
@[simp] theorem raiseAll_step_lateCues (s : State) (l : List Event) :
    (raiseAll s l).step.lateCues = s.step.lateCues := field_of (fun t : State => t.step.lateCues) (raiseAll_only s l) (fun _ => rfl)
@[simp] theorem raiseAll_step_idleCycles (s : State) (l : List Event) :
    (raiseAll s l).step.idleCycles = s.step.idleCycles := field_of (fun t : State => t.step.idleCycles) (raiseAll_only s l) (fun _ => rfl)
@[simp] theorem raiseAll_step_hold (s : State) (l : List Event) :
    (raiseAll s l).step.hold = s.step.hold := field_of (fun t : State => t.step.hold) (raiseAll_only s l) (fun _ => rfl)
@[simp] theorem raiseAll_step_holdAt (s : State) (l : List Event) :
    (raiseAll s l).step.holdAt = s.step.holdAt := field_of (fun t : State => t.step.holdAt) (raiseAll_only s l) (fun _ => rfl)
@[simp] theorem raiseAll_step_resume (s : State) (l : List Event) :
    (raiseAll s l).step.resume = s.step.resume := field_of (fun t : State => t.step.resume) (raiseAll_only s l) (fun _ => rfl)
@[simp] theorem raiseAll_step_curtains (s : State) (l : List Event) :
    (raiseAll s l).step.curtains = s.step.curtains := field_of (fun t : State => t.step.curtains) (raiseAll_only s l) (fun _ => rfl)
@[simp] theorem raiseAll_step_curtainAt (s : State) (l : List Event) :
    (raiseAll s l).step.curtainAt = s.step.curtainAt := field_of (fun t : State => t.step.curtainAt) (raiseAll_only s l) (fun _ => rfl)
@[simp] theorem raiseAll_step_lastDone (s : State) (l : List Event) :
    (raiseAll s l).step.lastDone = s.step.lastDone := field_of (fun t : State => t.step.lastDone) (raiseAll_only s l) (fun _ => rfl)
@[simp] theorem raiseAll_step_prevEnd (s : State) (l : List Event) :
    (raiseAll s l).step.prevEnd = s.step.prevEnd := field_of (fun t : State => t.step.prevEnd) (raiseAll_only s l) (fun _ => rfl)
@[simp] theorem raiseAll_step_dirty (s : State) (l : List Event) :
    (raiseAll s l).step.dirty = s.step.dirty := field_of (fun t : State => t.step.dirty) (raiseAll_only s l) (fun _ => rfl)
@[simp] theorem raiseAll_step_lastCommitted (s : State) (l : List Event) :
    (raiseAll s l).step.lastCommitted = s.step.lastCommitted := field_of (fun t : State => t.step.lastCommitted) (raiseAll_only s l) (fun _ => rfl)
@[simp] theorem raiseAll_step_lastHash (s : State) (l : List Event) :
    (raiseAll s l).step.lastHash = s.step.lastHash := field_of (fun t : State => t.step.lastHash) (raiseAll_only s l) (fun _ => rfl)
@[simp] theorem raiseAll_step_lastMode (s : State) (l : List Event) :
    (raiseAll s l).step.lastMode = s.step.lastMode := field_of (fun t : State => t.step.lastMode) (raiseAll_only s l) (fun _ => rfl)
@[simp] theorem raiseAll_step_freezes (s : State) (l : List Event) :
    (raiseAll s l).step.freezes = s.step.freezes := field_of (fun t : State => t.step.freezes) (raiseAll_only s l) (fun _ => rfl)
@[simp] theorem raiseAll_step_slotsNamed (s : State) (l : List Event) :
    (raiseAll s l).step.slotsNamed = s.step.slotsNamed := field_of (fun t : State => t.step.slotsNamed) (raiseAll_only s l) (fun _ => rfl)
@[simp] theorem raiseAll_step_frozen (s : State) (l : List Event) :
    (raiseAll s l).step.frozen = s.step.frozen := field_of (fun t : State => t.step.frozen) (raiseAll_only s l) (fun _ => rfl)
@[simp] theorem raiseAll_step_dropped (s : State) (l : List Event) :
    (raiseAll s l).step.dropped = s.step.dropped := field_of (fun t : State => t.step.dropped) (raiseAll_only s l) (fun _ => rfl)

/-! Fields that `readAll` leaves alone. -/

@[simp] theorem readAll_pending (w : Who) (s : State) (l : List (Nat × Nat)) :
    (readAll w s l).pending = s.pending := field_of State.pending (readAll_only w s l) (fun _ => rfl)
@[simp] theorem readAll_now (w : Who) (s : State) (l : List (Nat × Nat)) :
    (readAll w s l).now = s.now := field_of State.now (readAll_only w s l) (fun _ => rfl)
@[simp] theorem readAll_ref (w : Who) (s : State) (l : List (Nat × Nat)) :
    (readAll w s l).ref = s.ref := field_of State.ref (readAll_only w s l) (fun _ => rfl)
@[simp] theorem readAll_half (w : Who) (s : State) (l : List (Nat × Nat)) :
    (readAll w s l).half = s.half := field_of State.half (readAll_only w s l) (fun _ => rfl)
@[simp] theorem readAll_cycle (w : Who) (s : State) (l : List (Nat × Nat)) :
    (readAll w s l).cycle = s.cycle := field_of State.cycle (readAll_only w s l) (fun _ => rfl)
@[simp] theorem readAll_free (w : Who) (s : State) (l : List (Nat × Nat)) :
    (readAll w s l).free = s.free := field_of State.free (readAll_only w s l) (fun _ => rfl)
@[simp] theorem readAll_pwr (w : Who) (s : State) (l : List (Nat × Nat)) :
    (readAll w s l).pwr = s.pwr := field_of State.pwr (readAll_only w s l) (fun _ => rfl)
@[simp] theorem readAll_tap (w : Who) (s : State) (l : List (Nat × Nat)) :
    (readAll w s l).tap = s.tap := field_of State.tap (readAll_only w s l) (fun _ => rfl)
@[simp] theorem readAll_guard (w : Who) (s : State) (l : List (Nat × Nat)) :
    (readAll w s l).guard = s.guard := field_of State.guard (readAll_only w s l) (fun _ => rfl)
@[simp] theorem readAll_nor (w : Who) (s : State) (l : List (Nat × Nat)) :
    (readAll w s l).nor = s.nor := field_of State.nor (readAll_only w s l) (fun _ => rfl)
@[simp] theorem readAll_nand (w : Who) (s : State) (l : List (Nat × Nat)) :
    (readAll w s l).nand = s.nand := field_of State.nand (readAll_only w s l) (fun _ => rfl)
@[simp] theorem readAll_beat (w : Who) (s : State) (l : List (Nat × Nat)) :
    (readAll w s l).beat = s.beat := field_of State.beat (readAll_only w s l) (fun _ => rfl)
@[simp] theorem readAll_ctl (w : Who) (s : State) (l : List (Nat × Nat)) :
    (readAll w s l).ctl = s.ctl := field_of State.ctl (readAll_only w s l) (fun _ => rfl)
@[simp] theorem readAll_ses (w : Who) (s : State) (l : List (Nat × Nat)) :
    (readAll w s l).ses = s.ses := field_of State.ses (readAll_only w s l) (fun _ => rfl)
@[simp] theorem readAll_cfg (w : Who) (s : State) (l : List (Nat × Nat)) :
    (readAll w s l).cfg = s.cfg := field_of State.cfg (readAll_only w s l) (fun _ => rfl)
@[simp] theorem readAll_store0 (w : Who) (s : State) (l : List (Nat × Nat)) :
    (readAll w s l).store0 = s.store0 := field_of State.store0 (readAll_only w s l) (fun _ => rfl)
@[simp] theorem readAll_store1 (w : Who) (s : State) (l : List (Nat × Nat)) :
    (readAll w s l).store1 = s.store1 := field_of State.store1 (readAll_only w s l) (fun _ => rfl)
@[simp] theorem readAll_stage (w : Who) (s : State) (l : List (Nat × Nat)) :
    (readAll w s l).stage = s.stage := field_of State.stage (readAll_only w s l) (fun _ => rfl)
@[simp] theorem readAll_dma (w : Who) (s : State) (l : List (Nat × Nat)) :
    (readAll w s l).dma = s.dma := field_of State.dma (readAll_only w s l) (fun _ => rfl)
@[simp] theorem readAll_fwHeld (w : Who) (s : State) (l : List (Nat × Nat)) :
    (readAll w s l).fwHeld = s.fwHeld := field_of State.fwHeld (readAll_only w s l) (fun _ => rfl)
@[simp] theorem readAll_waiting1 (w : Who) (s : State) (l : List (Nat × Nat)) :
    (readAll w s l).waiting1 = s.waiting1 := field_of State.waiting1 (readAll_only w s l) (fun _ => rfl)
@[simp] theorem readAll_taking (w : Who) (s : State) (l : List (Nat × Nat)) :
    (readAll w s l).taking = s.taking := field_of State.taking (readAll_only w s l) (fun _ => rfl)
@[simp] theorem readAll_arbs (w : Who) (s : State) (l : List (Nat × Nat)) :
    (readAll w s l).arbs = s.arbs := field_of State.arbs (readAll_only w s l) (fun _ => rfl)
@[simp] theorem readAll_xfers (w : Who) (s : State) (l : List (Nat × Nat)) :
    (readAll w s l).xfers = s.xfers := field_of State.xfers (readAll_only w s l) (fun _ => rfl)
@[simp] theorem readAll_ports (w : Who) (s : State) (l : List (Nat × Nat)) :
    (readAll w s l).ports = s.ports := field_of State.ports (readAll_only w s l) (fun _ => rfl)
@[simp] theorem readAll_trace (w : Who) (s : State) (l : List (Nat × Nat)) :
    (readAll w s l).trace = s.trace := field_of State.trace (readAll_only w s l) (fun _ => rfl)
@[simp] theorem readAll_secure (w : Who) (s : State) (l : List (Nat × Nat)) :
    (readAll w s l).secure = s.secure := field_of State.secure (readAll_only w s l) (fun _ => rfl)
@[simp] theorem readAll_journal (w : Who) (s : State) (l : List (Nat × Nat)) :
    (readAll w s l).journal = s.journal := field_of State.journal (readAll_only w s l) (fun _ => rfl)
@[simp] theorem readAll_restore (w : Who) (s : State) (l : List (Nat × Nat)) :
    (readAll w s l).restore = s.restore := field_of State.restore (readAll_only w s l) (fun _ => rfl)
@[simp] theorem readAll_step_phase (w : Who) (s : State) (l : List (Nat × Nat)) :
    (readAll w s l).step.phase = s.step.phase := field_of (fun t : State => t.step.phase) (readAll_only w s l) (fun _ => rfl)
@[simp] theorem readAll_step_store (w : Who) (s : State) (l : List (Nat × Nat)) :
    (readAll w s l).step.store = s.step.store := field_of (fun t : State => t.step.store) (readAll_only w s l) (fun _ => rfl)
@[simp] theorem readAll_step_hash (w : Who) (s : State) (l : List (Nat × Nat)) :
    (readAll w s l).step.hash = s.step.hash := field_of (fun t : State => t.step.hash) (readAll_only w s l) (fun _ => rfl)
@[simp] theorem readAll_step_manifest (w : Who) (s : State) (l : List (Nat × Nat)) :
    (readAll w s l).step.manifest = s.step.manifest := field_of (fun t : State => t.step.manifest) (readAll_only w s l) (fun _ => rfl)
@[simp] theorem readAll_step_number (w : Who) (s : State) (l : List (Nat × Nat)) :
    (readAll w s l).step.number = s.step.number := field_of (fun t : State => t.step.number) (readAll_only w s l) (fun _ => rfl)
@[simp] theorem readAll_step_seed (w : Who) (s : State) (l : List (Nat × Nat)) :
    (readAll w s l).step.seed = s.step.seed := field_of (fun t : State => t.step.seed) (readAll_only w s l) (fun _ => rfl)
@[simp] theorem readAll_step_tenants (w : Who) (s : State) (l : List (Nat × Nat)) :
    (readAll w s l).step.tenants = s.step.tenants := field_of (fun t : State => t.step.tenants) (readAll_only w s l) (fun _ => rfl)
@[simp] theorem readAll_step_startBeat (w : Who) (s : State) (l : List (Nat × Nat)) :
    (readAll w s l).step.startBeat = s.step.startBeat := field_of (fun t : State => t.step.startBeat) (readAll_only w s l) (fun _ => rfl)
@[simp] theorem readAll_step_relBeat (w : Who) (s : State) (l : List (Nat × Nat)) :
    (readAll w s l).step.relBeat = s.step.relBeat := field_of (fun t : State => t.step.relBeat) (readAll_only w s l) (fun _ => rfl)
@[simp] theorem readAll_step_next (w : Who) (s : State) (l : List (Nat × Nat)) :
    (readAll w s l).step.next = s.step.next := field_of (fun t : State => t.step.next) (readAll_only w s l) (fun _ => rfl)
@[simp] theorem readAll_step_stopped (w : Who) (s : State) (l : List (Nat × Nat)) :
    (readAll w s l).step.stopped = s.step.stopped := field_of (fun t : State => t.step.stopped) (readAll_only w s l) (fun _ => rfl)
@[simp] theorem readAll_step_stopAt (w : Who) (s : State) (l : List (Nat × Nat)) :
    (readAll w s l).step.stopAt = s.step.stopAt := field_of (fun t : State => t.step.stopAt) (readAll_only w s l) (fun _ => rfl)
@[simp] theorem readAll_step_cause (w : Who) (s : State) (l : List (Nat × Nat)) :
    (readAll w s l).step.cause = s.step.cause := field_of (fun t : State => t.step.cause) (readAll_only w s l) (fun _ => rfl)
@[simp] theorem readAll_step_failed (w : Who) (s : State) (l : List (Nat × Nat)) :
    (readAll w s l).step.failed = s.step.failed := field_of (fun t : State => t.step.failed) (readAll_only w s l) (fun _ => rfl)
@[simp] theorem readAll_step_suspect (w : Who) (s : State) (l : List (Nat × Nat)) :
    (readAll w s l).step.suspect = s.step.suspect := field_of (fun t : State => t.step.suspect) (readAll_only w s l) (fun _ => rfl)
@[simp] theorem readAll_step_lateCues (w : Who) (s : State) (l : List (Nat × Nat)) :
    (readAll w s l).step.lateCues = s.step.lateCues := field_of (fun t : State => t.step.lateCues) (readAll_only w s l) (fun _ => rfl)
@[simp] theorem readAll_step_idleCycles (w : Who) (s : State) (l : List (Nat × Nat)) :
    (readAll w s l).step.idleCycles = s.step.idleCycles := field_of (fun t : State => t.step.idleCycles) (readAll_only w s l) (fun _ => rfl)
@[simp] theorem readAll_step_hold (w : Who) (s : State) (l : List (Nat × Nat)) :
    (readAll w s l).step.hold = s.step.hold := field_of (fun t : State => t.step.hold) (readAll_only w s l) (fun _ => rfl)
@[simp] theorem readAll_step_holdAt (w : Who) (s : State) (l : List (Nat × Nat)) :
    (readAll w s l).step.holdAt = s.step.holdAt := field_of (fun t : State => t.step.holdAt) (readAll_only w s l) (fun _ => rfl)
@[simp] theorem readAll_step_resume (w : Who) (s : State) (l : List (Nat × Nat)) :
    (readAll w s l).step.resume = s.step.resume := field_of (fun t : State => t.step.resume) (readAll_only w s l) (fun _ => rfl)
@[simp] theorem readAll_step_curtains (w : Who) (s : State) (l : List (Nat × Nat)) :
    (readAll w s l).step.curtains = s.step.curtains := field_of (fun t : State => t.step.curtains) (readAll_only w s l) (fun _ => rfl)
@[simp] theorem readAll_step_curtainAt (w : Who) (s : State) (l : List (Nat × Nat)) :
    (readAll w s l).step.curtainAt = s.step.curtainAt := field_of (fun t : State => t.step.curtainAt) (readAll_only w s l) (fun _ => rfl)
@[simp] theorem readAll_step_lastDone (w : Who) (s : State) (l : List (Nat × Nat)) :
    (readAll w s l).step.lastDone = s.step.lastDone := field_of (fun t : State => t.step.lastDone) (readAll_only w s l) (fun _ => rfl)
@[simp] theorem readAll_step_prevEnd (w : Who) (s : State) (l : List (Nat × Nat)) :
    (readAll w s l).step.prevEnd = s.step.prevEnd := field_of (fun t : State => t.step.prevEnd) (readAll_only w s l) (fun _ => rfl)
@[simp] theorem readAll_step_dirty (w : Who) (s : State) (l : List (Nat × Nat)) :
    (readAll w s l).step.dirty = s.step.dirty := field_of (fun t : State => t.step.dirty) (readAll_only w s l) (fun _ => rfl)
@[simp] theorem readAll_step_lastCommitted (w : Who) (s : State) (l : List (Nat × Nat)) :
    (readAll w s l).step.lastCommitted = s.step.lastCommitted := field_of (fun t : State => t.step.lastCommitted) (readAll_only w s l) (fun _ => rfl)
@[simp] theorem readAll_step_lastHash (w : Who) (s : State) (l : List (Nat × Nat)) :
    (readAll w s l).step.lastHash = s.step.lastHash := field_of (fun t : State => t.step.lastHash) (readAll_only w s l) (fun _ => rfl)
@[simp] theorem readAll_step_lastMode (w : Who) (s : State) (l : List (Nat × Nat)) :
    (readAll w s l).step.lastMode = s.step.lastMode := field_of (fun t : State => t.step.lastMode) (readAll_only w s l) (fun _ => rfl)
@[simp] theorem readAll_step_freezes (w : Who) (s : State) (l : List (Nat × Nat)) :
    (readAll w s l).step.freezes = s.step.freezes := field_of (fun t : State => t.step.freezes) (readAll_only w s l) (fun _ => rfl)
@[simp] theorem readAll_step_slotsNamed (w : Who) (s : State) (l : List (Nat × Nat)) :
    (readAll w s l).step.slotsNamed = s.step.slotsNamed := field_of (fun t : State => t.step.slotsNamed) (readAll_only w s l) (fun _ => rfl)
@[simp] theorem readAll_step_frozen (w : Who) (s : State) (l : List (Nat × Nat)) :
    (readAll w s l).step.frozen = s.step.frozen := field_of (fun t : State => t.step.frozen) (readAll_only w s l) (fun _ => rfl)
@[simp] theorem readAll_step_dropped (w : Who) (s : State) (l : List (Nat × Nat)) :
    (readAll w s l).step.dropped = s.step.dropped := field_of (fun t : State => t.step.dropped) (readAll_only w s l) (fun _ => rfl)

/-! Fields that `writeMem` leaves alone. -/

@[simp] theorem writeMem_pending (w : Who) (s : State) (a : Nat) (p : List Byte) :
    (writeMem w s a p).pending = s.pending := field_of State.pending (writeMem_only w s a p) (fun _ => rfl)
@[simp] theorem writeMem_now (w : Who) (s : State) (a : Nat) (p : List Byte) :
    (writeMem w s a p).now = s.now := field_of State.now (writeMem_only w s a p) (fun _ => rfl)
@[simp] theorem writeMem_ref (w : Who) (s : State) (a : Nat) (p : List Byte) :
    (writeMem w s a p).ref = s.ref := field_of State.ref (writeMem_only w s a p) (fun _ => rfl)
@[simp] theorem writeMem_half (w : Who) (s : State) (a : Nat) (p : List Byte) :
    (writeMem w s a p).half = s.half := field_of State.half (writeMem_only w s a p) (fun _ => rfl)
@[simp] theorem writeMem_cycle (w : Who) (s : State) (a : Nat) (p : List Byte) :
    (writeMem w s a p).cycle = s.cycle := field_of State.cycle (writeMem_only w s a p) (fun _ => rfl)
@[simp] theorem writeMem_free (w : Who) (s : State) (a : Nat) (p : List Byte) :
    (writeMem w s a p).free = s.free := field_of State.free (writeMem_only w s a p) (fun _ => rfl)
@[simp] theorem writeMem_pwr (w : Who) (s : State) (a : Nat) (p : List Byte) :
    (writeMem w s a p).pwr = s.pwr := field_of State.pwr (writeMem_only w s a p) (fun _ => rfl)
@[simp] theorem writeMem_tap (w : Who) (s : State) (a : Nat) (p : List Byte) :
    (writeMem w s a p).tap = s.tap := field_of State.tap (writeMem_only w s a p) (fun _ => rfl)
@[simp] theorem writeMem_guard (w : Who) (s : State) (a : Nat) (p : List Byte) :
    (writeMem w s a p).guard = s.guard := field_of State.guard (writeMem_only w s a p) (fun _ => rfl)
@[simp] theorem writeMem_nor (w : Who) (s : State) (a : Nat) (p : List Byte) :
    (writeMem w s a p).nor = s.nor := field_of State.nor (writeMem_only w s a p) (fun _ => rfl)
@[simp] theorem writeMem_nand (w : Who) (s : State) (a : Nat) (p : List Byte) :
    (writeMem w s a p).nand = s.nand := field_of State.nand (writeMem_only w s a p) (fun _ => rfl)
@[simp] theorem writeMem_beat (w : Who) (s : State) (a : Nat) (p : List Byte) :
    (writeMem w s a p).beat = s.beat := field_of State.beat (writeMem_only w s a p) (fun _ => rfl)
@[simp] theorem writeMem_ctl (w : Who) (s : State) (a : Nat) (p : List Byte) :
    (writeMem w s a p).ctl = s.ctl := field_of State.ctl (writeMem_only w s a p) (fun _ => rfl)
@[simp] theorem writeMem_ses (w : Who) (s : State) (a : Nat) (p : List Byte) :
    (writeMem w s a p).ses = s.ses := field_of State.ses (writeMem_only w s a p) (fun _ => rfl)
@[simp] theorem writeMem_cfg (w : Who) (s : State) (a : Nat) (p : List Byte) :
    (writeMem w s a p).cfg = s.cfg := field_of State.cfg (writeMem_only w s a p) (fun _ => rfl)
@[simp] theorem writeMem_store0 (w : Who) (s : State) (a : Nat) (p : List Byte) :
    (writeMem w s a p).store0 = s.store0 := field_of State.store0 (writeMem_only w s a p) (fun _ => rfl)
@[simp] theorem writeMem_store1 (w : Who) (s : State) (a : Nat) (p : List Byte) :
    (writeMem w s a p).store1 = s.store1 := field_of State.store1 (writeMem_only w s a p) (fun _ => rfl)
@[simp] theorem writeMem_stage (w : Who) (s : State) (a : Nat) (p : List Byte) :
    (writeMem w s a p).stage = s.stage := field_of State.stage (writeMem_only w s a p) (fun _ => rfl)
@[simp] theorem writeMem_dma (w : Who) (s : State) (a : Nat) (p : List Byte) :
    (writeMem w s a p).dma = s.dma := field_of State.dma (writeMem_only w s a p) (fun _ => rfl)
@[simp] theorem writeMem_fwHeld (w : Who) (s : State) (a : Nat) (p : List Byte) :
    (writeMem w s a p).fwHeld = s.fwHeld := field_of State.fwHeld (writeMem_only w s a p) (fun _ => rfl)
@[simp] theorem writeMem_waiting1 (w : Who) (s : State) (a : Nat) (p : List Byte) :
    (writeMem w s a p).waiting1 = s.waiting1 := field_of State.waiting1 (writeMem_only w s a p) (fun _ => rfl)
@[simp] theorem writeMem_taking (w : Who) (s : State) (a : Nat) (p : List Byte) :
    (writeMem w s a p).taking = s.taking := field_of State.taking (writeMem_only w s a p) (fun _ => rfl)
@[simp] theorem writeMem_arbs (w : Who) (s : State) (a : Nat) (p : List Byte) :
    (writeMem w s a p).arbs = s.arbs := field_of State.arbs (writeMem_only w s a p) (fun _ => rfl)
@[simp] theorem writeMem_xfers (w : Who) (s : State) (a : Nat) (p : List Byte) :
    (writeMem w s a p).xfers = s.xfers := field_of State.xfers (writeMem_only w s a p) (fun _ => rfl)
@[simp] theorem writeMem_ports (w : Who) (s : State) (a : Nat) (p : List Byte) :
    (writeMem w s a p).ports = s.ports := field_of State.ports (writeMem_only w s a p) (fun _ => rfl)
@[simp] theorem writeMem_trace (w : Who) (s : State) (a : Nat) (p : List Byte) :
    (writeMem w s a p).trace = s.trace := field_of State.trace (writeMem_only w s a p) (fun _ => rfl)
@[simp] theorem writeMem_secure (w : Who) (s : State) (a : Nat) (p : List Byte) :
    (writeMem w s a p).secure = s.secure := field_of State.secure (writeMem_only w s a p) (fun _ => rfl)
@[simp] theorem writeMem_journal (w : Who) (s : State) (a : Nat) (p : List Byte) :
    (writeMem w s a p).journal = s.journal := field_of State.journal (writeMem_only w s a p) (fun _ => rfl)
@[simp] theorem writeMem_restore (w : Who) (s : State) (a : Nat) (p : List Byte) :
    (writeMem w s a p).restore = s.restore := field_of State.restore (writeMem_only w s a p) (fun _ => rfl)
@[simp] theorem writeMem_step_phase (w : Who) (s : State) (a : Nat) (p : List Byte) :
    (writeMem w s a p).step.phase = s.step.phase := field_of (fun t : State => t.step.phase) (writeMem_only w s a p) (fun _ => rfl)
@[simp] theorem writeMem_step_store (w : Who) (s : State) (a : Nat) (p : List Byte) :
    (writeMem w s a p).step.store = s.step.store := field_of (fun t : State => t.step.store) (writeMem_only w s a p) (fun _ => rfl)
@[simp] theorem writeMem_step_hash (w : Who) (s : State) (a : Nat) (p : List Byte) :
    (writeMem w s a p).step.hash = s.step.hash := field_of (fun t : State => t.step.hash) (writeMem_only w s a p) (fun _ => rfl)
@[simp] theorem writeMem_step_manifest (w : Who) (s : State) (a : Nat) (p : List Byte) :
    (writeMem w s a p).step.manifest = s.step.manifest := field_of (fun t : State => t.step.manifest) (writeMem_only w s a p) (fun _ => rfl)
@[simp] theorem writeMem_step_number (w : Who) (s : State) (a : Nat) (p : List Byte) :
    (writeMem w s a p).step.number = s.step.number := field_of (fun t : State => t.step.number) (writeMem_only w s a p) (fun _ => rfl)
@[simp] theorem writeMem_step_seed (w : Who) (s : State) (a : Nat) (p : List Byte) :
    (writeMem w s a p).step.seed = s.step.seed := field_of (fun t : State => t.step.seed) (writeMem_only w s a p) (fun _ => rfl)
@[simp] theorem writeMem_step_tenants (w : Who) (s : State) (a : Nat) (p : List Byte) :
    (writeMem w s a p).step.tenants = s.step.tenants := field_of (fun t : State => t.step.tenants) (writeMem_only w s a p) (fun _ => rfl)
@[simp] theorem writeMem_step_startBeat (w : Who) (s : State) (a : Nat) (p : List Byte) :
    (writeMem w s a p).step.startBeat = s.step.startBeat := field_of (fun t : State => t.step.startBeat) (writeMem_only w s a p) (fun _ => rfl)
@[simp] theorem writeMem_step_relBeat (w : Who) (s : State) (a : Nat) (p : List Byte) :
    (writeMem w s a p).step.relBeat = s.step.relBeat := field_of (fun t : State => t.step.relBeat) (writeMem_only w s a p) (fun _ => rfl)
@[simp] theorem writeMem_step_next (w : Who) (s : State) (a : Nat) (p : List Byte) :
    (writeMem w s a p).step.next = s.step.next := field_of (fun t : State => t.step.next) (writeMem_only w s a p) (fun _ => rfl)
@[simp] theorem writeMem_step_stopped (w : Who) (s : State) (a : Nat) (p : List Byte) :
    (writeMem w s a p).step.stopped = s.step.stopped := field_of (fun t : State => t.step.stopped) (writeMem_only w s a p) (fun _ => rfl)
@[simp] theorem writeMem_step_stopAt (w : Who) (s : State) (a : Nat) (p : List Byte) :
    (writeMem w s a p).step.stopAt = s.step.stopAt := field_of (fun t : State => t.step.stopAt) (writeMem_only w s a p) (fun _ => rfl)
@[simp] theorem writeMem_step_cause (w : Who) (s : State) (a : Nat) (p : List Byte) :
    (writeMem w s a p).step.cause = s.step.cause := field_of (fun t : State => t.step.cause) (writeMem_only w s a p) (fun _ => rfl)
@[simp] theorem writeMem_step_failed (w : Who) (s : State) (a : Nat) (p : List Byte) :
    (writeMem w s a p).step.failed = s.step.failed := field_of (fun t : State => t.step.failed) (writeMem_only w s a p) (fun _ => rfl)
@[simp] theorem writeMem_step_suspect (w : Who) (s : State) (a : Nat) (p : List Byte) :
    (writeMem w s a p).step.suspect = s.step.suspect := field_of (fun t : State => t.step.suspect) (writeMem_only w s a p) (fun _ => rfl)
@[simp] theorem writeMem_step_lateCues (w : Who) (s : State) (a : Nat) (p : List Byte) :
    (writeMem w s a p).step.lateCues = s.step.lateCues := field_of (fun t : State => t.step.lateCues) (writeMem_only w s a p) (fun _ => rfl)
@[simp] theorem writeMem_step_idleCycles (w : Who) (s : State) (a : Nat) (p : List Byte) :
    (writeMem w s a p).step.idleCycles = s.step.idleCycles := field_of (fun t : State => t.step.idleCycles) (writeMem_only w s a p) (fun _ => rfl)
@[simp] theorem writeMem_step_hold (w : Who) (s : State) (a : Nat) (p : List Byte) :
    (writeMem w s a p).step.hold = s.step.hold := field_of (fun t : State => t.step.hold) (writeMem_only w s a p) (fun _ => rfl)
@[simp] theorem writeMem_step_holdAt (w : Who) (s : State) (a : Nat) (p : List Byte) :
    (writeMem w s a p).step.holdAt = s.step.holdAt := field_of (fun t : State => t.step.holdAt) (writeMem_only w s a p) (fun _ => rfl)
@[simp] theorem writeMem_step_resume (w : Who) (s : State) (a : Nat) (p : List Byte) :
    (writeMem w s a p).step.resume = s.step.resume := field_of (fun t : State => t.step.resume) (writeMem_only w s a p) (fun _ => rfl)
@[simp] theorem writeMem_step_curtains (w : Who) (s : State) (a : Nat) (p : List Byte) :
    (writeMem w s a p).step.curtains = s.step.curtains := field_of (fun t : State => t.step.curtains) (writeMem_only w s a p) (fun _ => rfl)
@[simp] theorem writeMem_step_curtainAt (w : Who) (s : State) (a : Nat) (p : List Byte) :
    (writeMem w s a p).step.curtainAt = s.step.curtainAt := field_of (fun t : State => t.step.curtainAt) (writeMem_only w s a p) (fun _ => rfl)
@[simp] theorem writeMem_step_lastDone (w : Who) (s : State) (a : Nat) (p : List Byte) :
    (writeMem w s a p).step.lastDone = s.step.lastDone := field_of (fun t : State => t.step.lastDone) (writeMem_only w s a p) (fun _ => rfl)
@[simp] theorem writeMem_step_prevEnd (w : Who) (s : State) (a : Nat) (p : List Byte) :
    (writeMem w s a p).step.prevEnd = s.step.prevEnd := field_of (fun t : State => t.step.prevEnd) (writeMem_only w s a p) (fun _ => rfl)
@[simp] theorem writeMem_step_dirty (w : Who) (s : State) (a : Nat) (p : List Byte) :
    (writeMem w s a p).step.dirty = s.step.dirty := field_of (fun t : State => t.step.dirty) (writeMem_only w s a p) (fun _ => rfl)
@[simp] theorem writeMem_step_lastCommitted (w : Who) (s : State) (a : Nat) (p : List Byte) :
    (writeMem w s a p).step.lastCommitted = s.step.lastCommitted := field_of (fun t : State => t.step.lastCommitted) (writeMem_only w s a p) (fun _ => rfl)
@[simp] theorem writeMem_step_lastHash (w : Who) (s : State) (a : Nat) (p : List Byte) :
    (writeMem w s a p).step.lastHash = s.step.lastHash := field_of (fun t : State => t.step.lastHash) (writeMem_only w s a p) (fun _ => rfl)
@[simp] theorem writeMem_step_lastMode (w : Who) (s : State) (a : Nat) (p : List Byte) :
    (writeMem w s a p).step.lastMode = s.step.lastMode := field_of (fun t : State => t.step.lastMode) (writeMem_only w s a p) (fun _ => rfl)
@[simp] theorem writeMem_step_freezes (w : Who) (s : State) (a : Nat) (p : List Byte) :
    (writeMem w s a p).step.freezes = s.step.freezes := field_of (fun t : State => t.step.freezes) (writeMem_only w s a p) (fun _ => rfl)
@[simp] theorem writeMem_step_slotsNamed (w : Who) (s : State) (a : Nat) (p : List Byte) :
    (writeMem w s a p).step.slotsNamed = s.step.slotsNamed := field_of (fun t : State => t.step.slotsNamed) (writeMem_only w s a p) (fun _ => rfl)
@[simp] theorem writeMem_step_frozen (w : Who) (s : State) (a : Nat) (p : List Byte) :
    (writeMem w s a p).step.frozen = s.step.frozen := field_of (fun t : State => t.step.frozen) (writeMem_only w s a p) (fun _ => rfl)
@[simp] theorem writeMem_step_dropped (w : Who) (s : State) (a : Nat) (p : List Byte) :
    (writeMem w s a p).step.dropped = s.step.dropped := field_of (fun t : State => t.step.dropped) (writeMem_only w s a p) (fun _ => rfl)

/-! Fields that `writeWith` leaves alone. -/

@[simp] theorem writeWith_pending (w : Who) (s : State) (l : List (Nat × List Byte)) (es : List Event) :
    (writeWith w s l es).pending = s.pending := field_of State.pending (writeWith_only w s l es) (fun _ => rfl)
@[simp] theorem writeWith_now (w : Who) (s : State) (l : List (Nat × List Byte)) (es : List Event) :
    (writeWith w s l es).now = s.now := field_of State.now (writeWith_only w s l es) (fun _ => rfl)
@[simp] theorem writeWith_ref (w : Who) (s : State) (l : List (Nat × List Byte)) (es : List Event) :
    (writeWith w s l es).ref = s.ref := field_of State.ref (writeWith_only w s l es) (fun _ => rfl)
@[simp] theorem writeWith_half (w : Who) (s : State) (l : List (Nat × List Byte)) (es : List Event) :
    (writeWith w s l es).half = s.half := field_of State.half (writeWith_only w s l es) (fun _ => rfl)
@[simp] theorem writeWith_cycle (w : Who) (s : State) (l : List (Nat × List Byte)) (es : List Event) :
    (writeWith w s l es).cycle = s.cycle := field_of State.cycle (writeWith_only w s l es) (fun _ => rfl)
@[simp] theorem writeWith_free (w : Who) (s : State) (l : List (Nat × List Byte)) (es : List Event) :
    (writeWith w s l es).free = s.free := field_of State.free (writeWith_only w s l es) (fun _ => rfl)
@[simp] theorem writeWith_pwr (w : Who) (s : State) (l : List (Nat × List Byte)) (es : List Event) :
    (writeWith w s l es).pwr = s.pwr := field_of State.pwr (writeWith_only w s l es) (fun _ => rfl)
@[simp] theorem writeWith_tap (w : Who) (s : State) (l : List (Nat × List Byte)) (es : List Event) :
    (writeWith w s l es).tap = s.tap := field_of State.tap (writeWith_only w s l es) (fun _ => rfl)
@[simp] theorem writeWith_guard (w : Who) (s : State) (l : List (Nat × List Byte)) (es : List Event) :
    (writeWith w s l es).guard = s.guard := field_of State.guard (writeWith_only w s l es) (fun _ => rfl)
@[simp] theorem writeWith_nor (w : Who) (s : State) (l : List (Nat × List Byte)) (es : List Event) :
    (writeWith w s l es).nor = s.nor := field_of State.nor (writeWith_only w s l es) (fun _ => rfl)
@[simp] theorem writeWith_nand (w : Who) (s : State) (l : List (Nat × List Byte)) (es : List Event) :
    (writeWith w s l es).nand = s.nand := field_of State.nand (writeWith_only w s l es) (fun _ => rfl)
@[simp] theorem writeWith_beat (w : Who) (s : State) (l : List (Nat × List Byte)) (es : List Event) :
    (writeWith w s l es).beat = s.beat := field_of State.beat (writeWith_only w s l es) (fun _ => rfl)
@[simp] theorem writeWith_ctl (w : Who) (s : State) (l : List (Nat × List Byte)) (es : List Event) :
    (writeWith w s l es).ctl = s.ctl := field_of State.ctl (writeWith_only w s l es) (fun _ => rfl)
@[simp] theorem writeWith_ses (w : Who) (s : State) (l : List (Nat × List Byte)) (es : List Event) :
    (writeWith w s l es).ses = s.ses := field_of State.ses (writeWith_only w s l es) (fun _ => rfl)
@[simp] theorem writeWith_cfg (w : Who) (s : State) (l : List (Nat × List Byte)) (es : List Event) :
    (writeWith w s l es).cfg = s.cfg := field_of State.cfg (writeWith_only w s l es) (fun _ => rfl)
@[simp] theorem writeWith_store0 (w : Who) (s : State) (l : List (Nat × List Byte)) (es : List Event) :
    (writeWith w s l es).store0 = s.store0 := field_of State.store0 (writeWith_only w s l es) (fun _ => rfl)
@[simp] theorem writeWith_store1 (w : Who) (s : State) (l : List (Nat × List Byte)) (es : List Event) :
    (writeWith w s l es).store1 = s.store1 := field_of State.store1 (writeWith_only w s l es) (fun _ => rfl)
@[simp] theorem writeWith_stage (w : Who) (s : State) (l : List (Nat × List Byte)) (es : List Event) :
    (writeWith w s l es).stage = s.stage := field_of State.stage (writeWith_only w s l es) (fun _ => rfl)
@[simp] theorem writeWith_dma (w : Who) (s : State) (l : List (Nat × List Byte)) (es : List Event) :
    (writeWith w s l es).dma = s.dma := field_of State.dma (writeWith_only w s l es) (fun _ => rfl)
@[simp] theorem writeWith_fwHeld (w : Who) (s : State) (l : List (Nat × List Byte)) (es : List Event) :
    (writeWith w s l es).fwHeld = s.fwHeld := field_of State.fwHeld (writeWith_only w s l es) (fun _ => rfl)
@[simp] theorem writeWith_waiting1 (w : Who) (s : State) (l : List (Nat × List Byte)) (es : List Event) :
    (writeWith w s l es).waiting1 = s.waiting1 := field_of State.waiting1 (writeWith_only w s l es) (fun _ => rfl)
@[simp] theorem writeWith_taking (w : Who) (s : State) (l : List (Nat × List Byte)) (es : List Event) :
    (writeWith w s l es).taking = s.taking := field_of State.taking (writeWith_only w s l es) (fun _ => rfl)
@[simp] theorem writeWith_arbs (w : Who) (s : State) (l : List (Nat × List Byte)) (es : List Event) :
    (writeWith w s l es).arbs = s.arbs := field_of State.arbs (writeWith_only w s l es) (fun _ => rfl)
@[simp] theorem writeWith_xfers (w : Who) (s : State) (l : List (Nat × List Byte)) (es : List Event) :
    (writeWith w s l es).xfers = s.xfers := field_of State.xfers (writeWith_only w s l es) (fun _ => rfl)
@[simp] theorem writeWith_ports (w : Who) (s : State) (l : List (Nat × List Byte)) (es : List Event) :
    (writeWith w s l es).ports = s.ports := field_of State.ports (writeWith_only w s l es) (fun _ => rfl)
@[simp] theorem writeWith_trace (w : Who) (s : State) (l : List (Nat × List Byte)) (es : List Event) :
    (writeWith w s l es).trace = s.trace := field_of State.trace (writeWith_only w s l es) (fun _ => rfl)
@[simp] theorem writeWith_secure (w : Who) (s : State) (l : List (Nat × List Byte)) (es : List Event) :
    (writeWith w s l es).secure = s.secure := field_of State.secure (writeWith_only w s l es) (fun _ => rfl)
@[simp] theorem writeWith_journal (w : Who) (s : State) (l : List (Nat × List Byte)) (es : List Event) :
    (writeWith w s l es).journal = s.journal := field_of State.journal (writeWith_only w s l es) (fun _ => rfl)
@[simp] theorem writeWith_restore (w : Who) (s : State) (l : List (Nat × List Byte)) (es : List Event) :
    (writeWith w s l es).restore = s.restore := field_of State.restore (writeWith_only w s l es) (fun _ => rfl)
@[simp] theorem writeWith_step_phase (w : Who) (s : State) (l : List (Nat × List Byte)) (es : List Event) :
    (writeWith w s l es).step.phase = s.step.phase := field_of (fun t : State => t.step.phase) (writeWith_only w s l es) (fun _ => rfl)
@[simp] theorem writeWith_step_store (w : Who) (s : State) (l : List (Nat × List Byte)) (es : List Event) :
    (writeWith w s l es).step.store = s.step.store := field_of (fun t : State => t.step.store) (writeWith_only w s l es) (fun _ => rfl)
@[simp] theorem writeWith_step_hash (w : Who) (s : State) (l : List (Nat × List Byte)) (es : List Event) :
    (writeWith w s l es).step.hash = s.step.hash := field_of (fun t : State => t.step.hash) (writeWith_only w s l es) (fun _ => rfl)
@[simp] theorem writeWith_step_manifest (w : Who) (s : State) (l : List (Nat × List Byte)) (es : List Event) :
    (writeWith w s l es).step.manifest = s.step.manifest := field_of (fun t : State => t.step.manifest) (writeWith_only w s l es) (fun _ => rfl)
@[simp] theorem writeWith_step_number (w : Who) (s : State) (l : List (Nat × List Byte)) (es : List Event) :
    (writeWith w s l es).step.number = s.step.number := field_of (fun t : State => t.step.number) (writeWith_only w s l es) (fun _ => rfl)
@[simp] theorem writeWith_step_seed (w : Who) (s : State) (l : List (Nat × List Byte)) (es : List Event) :
    (writeWith w s l es).step.seed = s.step.seed := field_of (fun t : State => t.step.seed) (writeWith_only w s l es) (fun _ => rfl)
@[simp] theorem writeWith_step_tenants (w : Who) (s : State) (l : List (Nat × List Byte)) (es : List Event) :
    (writeWith w s l es).step.tenants = s.step.tenants := field_of (fun t : State => t.step.tenants) (writeWith_only w s l es) (fun _ => rfl)
@[simp] theorem writeWith_step_startBeat (w : Who) (s : State) (l : List (Nat × List Byte)) (es : List Event) :
    (writeWith w s l es).step.startBeat = s.step.startBeat := field_of (fun t : State => t.step.startBeat) (writeWith_only w s l es) (fun _ => rfl)
@[simp] theorem writeWith_step_relBeat (w : Who) (s : State) (l : List (Nat × List Byte)) (es : List Event) :
    (writeWith w s l es).step.relBeat = s.step.relBeat := field_of (fun t : State => t.step.relBeat) (writeWith_only w s l es) (fun _ => rfl)
@[simp] theorem writeWith_step_next (w : Who) (s : State) (l : List (Nat × List Byte)) (es : List Event) :
    (writeWith w s l es).step.next = s.step.next := field_of (fun t : State => t.step.next) (writeWith_only w s l es) (fun _ => rfl)
@[simp] theorem writeWith_step_stopped (w : Who) (s : State) (l : List (Nat × List Byte)) (es : List Event) :
    (writeWith w s l es).step.stopped = s.step.stopped := field_of (fun t : State => t.step.stopped) (writeWith_only w s l es) (fun _ => rfl)
@[simp] theorem writeWith_step_stopAt (w : Who) (s : State) (l : List (Nat × List Byte)) (es : List Event) :
    (writeWith w s l es).step.stopAt = s.step.stopAt := field_of (fun t : State => t.step.stopAt) (writeWith_only w s l es) (fun _ => rfl)
@[simp] theorem writeWith_step_cause (w : Who) (s : State) (l : List (Nat × List Byte)) (es : List Event) :
    (writeWith w s l es).step.cause = s.step.cause := field_of (fun t : State => t.step.cause) (writeWith_only w s l es) (fun _ => rfl)
@[simp] theorem writeWith_step_failed (w : Who) (s : State) (l : List (Nat × List Byte)) (es : List Event) :
    (writeWith w s l es).step.failed = s.step.failed := field_of (fun t : State => t.step.failed) (writeWith_only w s l es) (fun _ => rfl)
@[simp] theorem writeWith_step_suspect (w : Who) (s : State) (l : List (Nat × List Byte)) (es : List Event) :
    (writeWith w s l es).step.suspect = s.step.suspect := field_of (fun t : State => t.step.suspect) (writeWith_only w s l es) (fun _ => rfl)
@[simp] theorem writeWith_step_lateCues (w : Who) (s : State) (l : List (Nat × List Byte)) (es : List Event) :
    (writeWith w s l es).step.lateCues = s.step.lateCues := field_of (fun t : State => t.step.lateCues) (writeWith_only w s l es) (fun _ => rfl)
@[simp] theorem writeWith_step_idleCycles (w : Who) (s : State) (l : List (Nat × List Byte)) (es : List Event) :
    (writeWith w s l es).step.idleCycles = s.step.idleCycles := field_of (fun t : State => t.step.idleCycles) (writeWith_only w s l es) (fun _ => rfl)
@[simp] theorem writeWith_step_hold (w : Who) (s : State) (l : List (Nat × List Byte)) (es : List Event) :
    (writeWith w s l es).step.hold = s.step.hold := field_of (fun t : State => t.step.hold) (writeWith_only w s l es) (fun _ => rfl)
@[simp] theorem writeWith_step_holdAt (w : Who) (s : State) (l : List (Nat × List Byte)) (es : List Event) :
    (writeWith w s l es).step.holdAt = s.step.holdAt := field_of (fun t : State => t.step.holdAt) (writeWith_only w s l es) (fun _ => rfl)
@[simp] theorem writeWith_step_resume (w : Who) (s : State) (l : List (Nat × List Byte)) (es : List Event) :
    (writeWith w s l es).step.resume = s.step.resume := field_of (fun t : State => t.step.resume) (writeWith_only w s l es) (fun _ => rfl)
@[simp] theorem writeWith_step_curtains (w : Who) (s : State) (l : List (Nat × List Byte)) (es : List Event) :
    (writeWith w s l es).step.curtains = s.step.curtains := field_of (fun t : State => t.step.curtains) (writeWith_only w s l es) (fun _ => rfl)
@[simp] theorem writeWith_step_curtainAt (w : Who) (s : State) (l : List (Nat × List Byte)) (es : List Event) :
    (writeWith w s l es).step.curtainAt = s.step.curtainAt := field_of (fun t : State => t.step.curtainAt) (writeWith_only w s l es) (fun _ => rfl)
@[simp] theorem writeWith_step_lastDone (w : Who) (s : State) (l : List (Nat × List Byte)) (es : List Event) :
    (writeWith w s l es).step.lastDone = s.step.lastDone := field_of (fun t : State => t.step.lastDone) (writeWith_only w s l es) (fun _ => rfl)
@[simp] theorem writeWith_step_prevEnd (w : Who) (s : State) (l : List (Nat × List Byte)) (es : List Event) :
    (writeWith w s l es).step.prevEnd = s.step.prevEnd := field_of (fun t : State => t.step.prevEnd) (writeWith_only w s l es) (fun _ => rfl)
@[simp] theorem writeWith_step_dirty (w : Who) (s : State) (l : List (Nat × List Byte)) (es : List Event) :
    (writeWith w s l es).step.dirty = s.step.dirty := field_of (fun t : State => t.step.dirty) (writeWith_only w s l es) (fun _ => rfl)
@[simp] theorem writeWith_step_lastCommitted (w : Who) (s : State) (l : List (Nat × List Byte)) (es : List Event) :
    (writeWith w s l es).step.lastCommitted = s.step.lastCommitted := field_of (fun t : State => t.step.lastCommitted) (writeWith_only w s l es) (fun _ => rfl)
@[simp] theorem writeWith_step_lastHash (w : Who) (s : State) (l : List (Nat × List Byte)) (es : List Event) :
    (writeWith w s l es).step.lastHash = s.step.lastHash := field_of (fun t : State => t.step.lastHash) (writeWith_only w s l es) (fun _ => rfl)
@[simp] theorem writeWith_step_lastMode (w : Who) (s : State) (l : List (Nat × List Byte)) (es : List Event) :
    (writeWith w s l es).step.lastMode = s.step.lastMode := field_of (fun t : State => t.step.lastMode) (writeWith_only w s l es) (fun _ => rfl)
@[simp] theorem writeWith_step_freezes (w : Who) (s : State) (l : List (Nat × List Byte)) (es : List Event) :
    (writeWith w s l es).step.freezes = s.step.freezes := field_of (fun t : State => t.step.freezes) (writeWith_only w s l es) (fun _ => rfl)
@[simp] theorem writeWith_step_slotsNamed (w : Who) (s : State) (l : List (Nat × List Byte)) (es : List Event) :
    (writeWith w s l es).step.slotsNamed = s.step.slotsNamed := field_of (fun t : State => t.step.slotsNamed) (writeWith_only w s l es) (fun _ => rfl)
@[simp] theorem writeWith_step_frozen (w : Who) (s : State) (l : List (Nat × List Byte)) (es : List Event) :
    (writeWith w s l es).step.frozen = s.step.frozen := field_of (fun t : State => t.step.frozen) (writeWith_only w s l es) (fun _ => rfl)
@[simp] theorem writeWith_step_dropped (w : Who) (s : State) (l : List (Nat × List Byte)) (es : List Event) :
    (writeWith w s l es).step.dropped = s.step.dropped := field_of (fun t : State => t.step.dropped) (writeWith_only w s l es) (fun _ => rfl)

/-! Fields that `writeAll` leaves alone. -/

@[simp] theorem writeAll_pending (w : Who) (s : State) (l : List (Nat × List Byte)) :
    (writeAll w s l).pending = s.pending := field_of State.pending (writeAll_only w s l) (fun _ => rfl)
@[simp] theorem writeAll_now (w : Who) (s : State) (l : List (Nat × List Byte)) :
    (writeAll w s l).now = s.now := field_of State.now (writeAll_only w s l) (fun _ => rfl)
@[simp] theorem writeAll_ref (w : Who) (s : State) (l : List (Nat × List Byte)) :
    (writeAll w s l).ref = s.ref := field_of State.ref (writeAll_only w s l) (fun _ => rfl)
@[simp] theorem writeAll_half (w : Who) (s : State) (l : List (Nat × List Byte)) :
    (writeAll w s l).half = s.half := field_of State.half (writeAll_only w s l) (fun _ => rfl)
@[simp] theorem writeAll_cycle (w : Who) (s : State) (l : List (Nat × List Byte)) :
    (writeAll w s l).cycle = s.cycle := field_of State.cycle (writeAll_only w s l) (fun _ => rfl)
@[simp] theorem writeAll_free (w : Who) (s : State) (l : List (Nat × List Byte)) :
    (writeAll w s l).free = s.free := field_of State.free (writeAll_only w s l) (fun _ => rfl)
@[simp] theorem writeAll_pwr (w : Who) (s : State) (l : List (Nat × List Byte)) :
    (writeAll w s l).pwr = s.pwr := field_of State.pwr (writeAll_only w s l) (fun _ => rfl)
@[simp] theorem writeAll_tap (w : Who) (s : State) (l : List (Nat × List Byte)) :
    (writeAll w s l).tap = s.tap := field_of State.tap (writeAll_only w s l) (fun _ => rfl)
@[simp] theorem writeAll_guard (w : Who) (s : State) (l : List (Nat × List Byte)) :
    (writeAll w s l).guard = s.guard := field_of State.guard (writeAll_only w s l) (fun _ => rfl)
@[simp] theorem writeAll_nor (w : Who) (s : State) (l : List (Nat × List Byte)) :
    (writeAll w s l).nor = s.nor := field_of State.nor (writeAll_only w s l) (fun _ => rfl)
@[simp] theorem writeAll_nand (w : Who) (s : State) (l : List (Nat × List Byte)) :
    (writeAll w s l).nand = s.nand := field_of State.nand (writeAll_only w s l) (fun _ => rfl)
@[simp] theorem writeAll_beat (w : Who) (s : State) (l : List (Nat × List Byte)) :
    (writeAll w s l).beat = s.beat := field_of State.beat (writeAll_only w s l) (fun _ => rfl)
@[simp] theorem writeAll_ctl (w : Who) (s : State) (l : List (Nat × List Byte)) :
    (writeAll w s l).ctl = s.ctl := field_of State.ctl (writeAll_only w s l) (fun _ => rfl)
@[simp] theorem writeAll_ses (w : Who) (s : State) (l : List (Nat × List Byte)) :
    (writeAll w s l).ses = s.ses := field_of State.ses (writeAll_only w s l) (fun _ => rfl)
@[simp] theorem writeAll_cfg (w : Who) (s : State) (l : List (Nat × List Byte)) :
    (writeAll w s l).cfg = s.cfg := field_of State.cfg (writeAll_only w s l) (fun _ => rfl)
@[simp] theorem writeAll_store0 (w : Who) (s : State) (l : List (Nat × List Byte)) :
    (writeAll w s l).store0 = s.store0 := field_of State.store0 (writeAll_only w s l) (fun _ => rfl)
@[simp] theorem writeAll_store1 (w : Who) (s : State) (l : List (Nat × List Byte)) :
    (writeAll w s l).store1 = s.store1 := field_of State.store1 (writeAll_only w s l) (fun _ => rfl)
@[simp] theorem writeAll_stage (w : Who) (s : State) (l : List (Nat × List Byte)) :
    (writeAll w s l).stage = s.stage := field_of State.stage (writeAll_only w s l) (fun _ => rfl)
@[simp] theorem writeAll_dma (w : Who) (s : State) (l : List (Nat × List Byte)) :
    (writeAll w s l).dma = s.dma := field_of State.dma (writeAll_only w s l) (fun _ => rfl)
@[simp] theorem writeAll_fwHeld (w : Who) (s : State) (l : List (Nat × List Byte)) :
    (writeAll w s l).fwHeld = s.fwHeld := field_of State.fwHeld (writeAll_only w s l) (fun _ => rfl)
@[simp] theorem writeAll_waiting1 (w : Who) (s : State) (l : List (Nat × List Byte)) :
    (writeAll w s l).waiting1 = s.waiting1 := field_of State.waiting1 (writeAll_only w s l) (fun _ => rfl)
@[simp] theorem writeAll_taking (w : Who) (s : State) (l : List (Nat × List Byte)) :
    (writeAll w s l).taking = s.taking := field_of State.taking (writeAll_only w s l) (fun _ => rfl)
@[simp] theorem writeAll_arbs (w : Who) (s : State) (l : List (Nat × List Byte)) :
    (writeAll w s l).arbs = s.arbs := field_of State.arbs (writeAll_only w s l) (fun _ => rfl)
@[simp] theorem writeAll_xfers (w : Who) (s : State) (l : List (Nat × List Byte)) :
    (writeAll w s l).xfers = s.xfers := field_of State.xfers (writeAll_only w s l) (fun _ => rfl)
@[simp] theorem writeAll_ports (w : Who) (s : State) (l : List (Nat × List Byte)) :
    (writeAll w s l).ports = s.ports := field_of State.ports (writeAll_only w s l) (fun _ => rfl)
@[simp] theorem writeAll_trace (w : Who) (s : State) (l : List (Nat × List Byte)) :
    (writeAll w s l).trace = s.trace := field_of State.trace (writeAll_only w s l) (fun _ => rfl)
@[simp] theorem writeAll_secure (w : Who) (s : State) (l : List (Nat × List Byte)) :
    (writeAll w s l).secure = s.secure := field_of State.secure (writeAll_only w s l) (fun _ => rfl)
@[simp] theorem writeAll_journal (w : Who) (s : State) (l : List (Nat × List Byte)) :
    (writeAll w s l).journal = s.journal := field_of State.journal (writeAll_only w s l) (fun _ => rfl)
@[simp] theorem writeAll_restore (w : Who) (s : State) (l : List (Nat × List Byte)) :
    (writeAll w s l).restore = s.restore := field_of State.restore (writeAll_only w s l) (fun _ => rfl)
@[simp] theorem writeAll_step_phase (w : Who) (s : State) (l : List (Nat × List Byte)) :
    (writeAll w s l).step.phase = s.step.phase := field_of (fun t : State => t.step.phase) (writeAll_only w s l) (fun _ => rfl)
@[simp] theorem writeAll_step_store (w : Who) (s : State) (l : List (Nat × List Byte)) :
    (writeAll w s l).step.store = s.step.store := field_of (fun t : State => t.step.store) (writeAll_only w s l) (fun _ => rfl)
@[simp] theorem writeAll_step_hash (w : Who) (s : State) (l : List (Nat × List Byte)) :
    (writeAll w s l).step.hash = s.step.hash := field_of (fun t : State => t.step.hash) (writeAll_only w s l) (fun _ => rfl)
@[simp] theorem writeAll_step_manifest (w : Who) (s : State) (l : List (Nat × List Byte)) :
    (writeAll w s l).step.manifest = s.step.manifest := field_of (fun t : State => t.step.manifest) (writeAll_only w s l) (fun _ => rfl)
@[simp] theorem writeAll_step_number (w : Who) (s : State) (l : List (Nat × List Byte)) :
    (writeAll w s l).step.number = s.step.number := field_of (fun t : State => t.step.number) (writeAll_only w s l) (fun _ => rfl)
@[simp] theorem writeAll_step_seed (w : Who) (s : State) (l : List (Nat × List Byte)) :
    (writeAll w s l).step.seed = s.step.seed := field_of (fun t : State => t.step.seed) (writeAll_only w s l) (fun _ => rfl)
@[simp] theorem writeAll_step_tenants (w : Who) (s : State) (l : List (Nat × List Byte)) :
    (writeAll w s l).step.tenants = s.step.tenants := field_of (fun t : State => t.step.tenants) (writeAll_only w s l) (fun _ => rfl)
@[simp] theorem writeAll_step_startBeat (w : Who) (s : State) (l : List (Nat × List Byte)) :
    (writeAll w s l).step.startBeat = s.step.startBeat := field_of (fun t : State => t.step.startBeat) (writeAll_only w s l) (fun _ => rfl)
@[simp] theorem writeAll_step_relBeat (w : Who) (s : State) (l : List (Nat × List Byte)) :
    (writeAll w s l).step.relBeat = s.step.relBeat := field_of (fun t : State => t.step.relBeat) (writeAll_only w s l) (fun _ => rfl)
@[simp] theorem writeAll_step_next (w : Who) (s : State) (l : List (Nat × List Byte)) :
    (writeAll w s l).step.next = s.step.next := field_of (fun t : State => t.step.next) (writeAll_only w s l) (fun _ => rfl)
@[simp] theorem writeAll_step_stopped (w : Who) (s : State) (l : List (Nat × List Byte)) :
    (writeAll w s l).step.stopped = s.step.stopped := field_of (fun t : State => t.step.stopped) (writeAll_only w s l) (fun _ => rfl)
@[simp] theorem writeAll_step_stopAt (w : Who) (s : State) (l : List (Nat × List Byte)) :
    (writeAll w s l).step.stopAt = s.step.stopAt := field_of (fun t : State => t.step.stopAt) (writeAll_only w s l) (fun _ => rfl)
@[simp] theorem writeAll_step_cause (w : Who) (s : State) (l : List (Nat × List Byte)) :
    (writeAll w s l).step.cause = s.step.cause := field_of (fun t : State => t.step.cause) (writeAll_only w s l) (fun _ => rfl)
@[simp] theorem writeAll_step_failed (w : Who) (s : State) (l : List (Nat × List Byte)) :
    (writeAll w s l).step.failed = s.step.failed := field_of (fun t : State => t.step.failed) (writeAll_only w s l) (fun _ => rfl)
@[simp] theorem writeAll_step_suspect (w : Who) (s : State) (l : List (Nat × List Byte)) :
    (writeAll w s l).step.suspect = s.step.suspect := field_of (fun t : State => t.step.suspect) (writeAll_only w s l) (fun _ => rfl)
@[simp] theorem writeAll_step_lateCues (w : Who) (s : State) (l : List (Nat × List Byte)) :
    (writeAll w s l).step.lateCues = s.step.lateCues := field_of (fun t : State => t.step.lateCues) (writeAll_only w s l) (fun _ => rfl)
@[simp] theorem writeAll_step_idleCycles (w : Who) (s : State) (l : List (Nat × List Byte)) :
    (writeAll w s l).step.idleCycles = s.step.idleCycles := field_of (fun t : State => t.step.idleCycles) (writeAll_only w s l) (fun _ => rfl)
@[simp] theorem writeAll_step_hold (w : Who) (s : State) (l : List (Nat × List Byte)) :
    (writeAll w s l).step.hold = s.step.hold := field_of (fun t : State => t.step.hold) (writeAll_only w s l) (fun _ => rfl)
@[simp] theorem writeAll_step_holdAt (w : Who) (s : State) (l : List (Nat × List Byte)) :
    (writeAll w s l).step.holdAt = s.step.holdAt := field_of (fun t : State => t.step.holdAt) (writeAll_only w s l) (fun _ => rfl)
@[simp] theorem writeAll_step_resume (w : Who) (s : State) (l : List (Nat × List Byte)) :
    (writeAll w s l).step.resume = s.step.resume := field_of (fun t : State => t.step.resume) (writeAll_only w s l) (fun _ => rfl)
@[simp] theorem writeAll_step_curtains (w : Who) (s : State) (l : List (Nat × List Byte)) :
    (writeAll w s l).step.curtains = s.step.curtains := field_of (fun t : State => t.step.curtains) (writeAll_only w s l) (fun _ => rfl)
@[simp] theorem writeAll_step_curtainAt (w : Who) (s : State) (l : List (Nat × List Byte)) :
    (writeAll w s l).step.curtainAt = s.step.curtainAt := field_of (fun t : State => t.step.curtainAt) (writeAll_only w s l) (fun _ => rfl)
@[simp] theorem writeAll_step_lastDone (w : Who) (s : State) (l : List (Nat × List Byte)) :
    (writeAll w s l).step.lastDone = s.step.lastDone := field_of (fun t : State => t.step.lastDone) (writeAll_only w s l) (fun _ => rfl)
@[simp] theorem writeAll_step_prevEnd (w : Who) (s : State) (l : List (Nat × List Byte)) :
    (writeAll w s l).step.prevEnd = s.step.prevEnd := field_of (fun t : State => t.step.prevEnd) (writeAll_only w s l) (fun _ => rfl)
@[simp] theorem writeAll_step_dirty (w : Who) (s : State) (l : List (Nat × List Byte)) :
    (writeAll w s l).step.dirty = s.step.dirty := field_of (fun t : State => t.step.dirty) (writeAll_only w s l) (fun _ => rfl)
@[simp] theorem writeAll_step_lastCommitted (w : Who) (s : State) (l : List (Nat × List Byte)) :
    (writeAll w s l).step.lastCommitted = s.step.lastCommitted := field_of (fun t : State => t.step.lastCommitted) (writeAll_only w s l) (fun _ => rfl)
@[simp] theorem writeAll_step_lastHash (w : Who) (s : State) (l : List (Nat × List Byte)) :
    (writeAll w s l).step.lastHash = s.step.lastHash := field_of (fun t : State => t.step.lastHash) (writeAll_only w s l) (fun _ => rfl)
@[simp] theorem writeAll_step_lastMode (w : Who) (s : State) (l : List (Nat × List Byte)) :
    (writeAll w s l).step.lastMode = s.step.lastMode := field_of (fun t : State => t.step.lastMode) (writeAll_only w s l) (fun _ => rfl)
@[simp] theorem writeAll_step_freezes (w : Who) (s : State) (l : List (Nat × List Byte)) :
    (writeAll w s l).step.freezes = s.step.freezes := field_of (fun t : State => t.step.freezes) (writeAll_only w s l) (fun _ => rfl)
@[simp] theorem writeAll_step_slotsNamed (w : Who) (s : State) (l : List (Nat × List Byte)) :
    (writeAll w s l).step.slotsNamed = s.step.slotsNamed := field_of (fun t : State => t.step.slotsNamed) (writeAll_only w s l) (fun _ => rfl)
@[simp] theorem writeAll_step_frozen (w : Who) (s : State) (l : List (Nat × List Byte)) :
    (writeAll w s l).step.frozen = s.step.frozen := field_of (fun t : State => t.step.frozen) (writeAll_only w s l) (fun _ => rfl)
@[simp] theorem writeAll_step_dropped (w : Who) (s : State) (l : List (Nat × List Byte)) :
    (writeAll w s l).step.dropped = s.step.dropped := field_of (fun t : State => t.step.dropped) (writeAll_only w s l) (fun _ => rfl)

/-! Fields that `applyTallyAt` leaves alone. -/

@[simp] theorem applyTallyAt_pending (s : State) (i n c : Nat) :
    (applyTallyAt s i n c).pending = s.pending := field_of State.pending (applyTallyAt_only s i n c) (fun _ => rfl)
@[simp] theorem applyTallyAt_now (s : State) (i n c : Nat) :
    (applyTallyAt s i n c).now = s.now := field_of State.now (applyTallyAt_only s i n c) (fun _ => rfl)
@[simp] theorem applyTallyAt_ref (s : State) (i n c : Nat) :
    (applyTallyAt s i n c).ref = s.ref := field_of State.ref (applyTallyAt_only s i n c) (fun _ => rfl)
@[simp] theorem applyTallyAt_half (s : State) (i n c : Nat) :
    (applyTallyAt s i n c).half = s.half := field_of State.half (applyTallyAt_only s i n c) (fun _ => rfl)
@[simp] theorem applyTallyAt_cycle (s : State) (i n c : Nat) :
    (applyTallyAt s i n c).cycle = s.cycle := field_of State.cycle (applyTallyAt_only s i n c) (fun _ => rfl)
@[simp] theorem applyTallyAt_free (s : State) (i n c : Nat) :
    (applyTallyAt s i n c).free = s.free := field_of State.free (applyTallyAt_only s i n c) (fun _ => rfl)
@[simp] theorem applyTallyAt_pwr (s : State) (i n c : Nat) :
    (applyTallyAt s i n c).pwr = s.pwr := field_of State.pwr (applyTallyAt_only s i n c) (fun _ => rfl)
@[simp] theorem applyTallyAt_tap (s : State) (i n c : Nat) :
    (applyTallyAt s i n c).tap = s.tap := field_of State.tap (applyTallyAt_only s i n c) (fun _ => rfl)
@[simp] theorem applyTallyAt_guard (s : State) (i n c : Nat) :
    (applyTallyAt s i n c).guard = s.guard := field_of State.guard (applyTallyAt_only s i n c) (fun _ => rfl)
@[simp] theorem applyTallyAt_nor (s : State) (i n c : Nat) :
    (applyTallyAt s i n c).nor = s.nor := field_of State.nor (applyTallyAt_only s i n c) (fun _ => rfl)
@[simp] theorem applyTallyAt_nand (s : State) (i n c : Nat) :
    (applyTallyAt s i n c).nand = s.nand := field_of State.nand (applyTallyAt_only s i n c) (fun _ => rfl)
@[simp] theorem applyTallyAt_beat (s : State) (i n c : Nat) :
    (applyTallyAt s i n c).beat = s.beat := field_of State.beat (applyTallyAt_only s i n c) (fun _ => rfl)
@[simp] theorem applyTallyAt_ctl (s : State) (i n c : Nat) :
    (applyTallyAt s i n c).ctl = s.ctl := field_of State.ctl (applyTallyAt_only s i n c) (fun _ => rfl)
@[simp] theorem applyTallyAt_ses (s : State) (i n c : Nat) :
    (applyTallyAt s i n c).ses = s.ses := field_of State.ses (applyTallyAt_only s i n c) (fun _ => rfl)
@[simp] theorem applyTallyAt_cfg (s : State) (i n c : Nat) :
    (applyTallyAt s i n c).cfg = s.cfg := field_of State.cfg (applyTallyAt_only s i n c) (fun _ => rfl)
@[simp] theorem applyTallyAt_store0 (s : State) (i n c : Nat) :
    (applyTallyAt s i n c).store0 = s.store0 := field_of State.store0 (applyTallyAt_only s i n c) (fun _ => rfl)
@[simp] theorem applyTallyAt_store1 (s : State) (i n c : Nat) :
    (applyTallyAt s i n c).store1 = s.store1 := field_of State.store1 (applyTallyAt_only s i n c) (fun _ => rfl)
@[simp] theorem applyTallyAt_tenants (s : State) (i n c : Nat) :
    (applyTallyAt s i n c).tenants = s.tenants := field_of State.tenants (applyTallyAt_only s i n c) (fun _ => rfl)
@[simp] theorem applyTallyAt_dma (s : State) (i n c : Nat) :
    (applyTallyAt s i n c).dma = s.dma := field_of State.dma (applyTallyAt_only s i n c) (fun _ => rfl)
@[simp] theorem applyTallyAt_fwHeld (s : State) (i n c : Nat) :
    (applyTallyAt s i n c).fwHeld = s.fwHeld := field_of State.fwHeld (applyTallyAt_only s i n c) (fun _ => rfl)
@[simp] theorem applyTallyAt_waiting1 (s : State) (i n c : Nat) :
    (applyTallyAt s i n c).waiting1 = s.waiting1 := field_of State.waiting1 (applyTallyAt_only s i n c) (fun _ => rfl)
@[simp] theorem applyTallyAt_taking (s : State) (i n c : Nat) :
    (applyTallyAt s i n c).taking = s.taking := field_of State.taking (applyTallyAt_only s i n c) (fun _ => rfl)
@[simp] theorem applyTallyAt_arbs (s : State) (i n c : Nat) :
    (applyTallyAt s i n c).arbs = s.arbs := field_of State.arbs (applyTallyAt_only s i n c) (fun _ => rfl)
@[simp] theorem applyTallyAt_xfers (s : State) (i n c : Nat) :
    (applyTallyAt s i n c).xfers = s.xfers := field_of State.xfers (applyTallyAt_only s i n c) (fun _ => rfl)
@[simp] theorem applyTallyAt_ports (s : State) (i n c : Nat) :
    (applyTallyAt s i n c).ports = s.ports := field_of State.ports (applyTallyAt_only s i n c) (fun _ => rfl)
@[simp] theorem applyTallyAt_trace (s : State) (i n c : Nat) :
    (applyTallyAt s i n c).trace = s.trace := field_of State.trace (applyTallyAt_only s i n c) (fun _ => rfl)
@[simp] theorem applyTallyAt_secure (s : State) (i n c : Nat) :
    (applyTallyAt s i n c).secure = s.secure := field_of State.secure (applyTallyAt_only s i n c) (fun _ => rfl)
@[simp] theorem applyTallyAt_journal (s : State) (i n c : Nat) :
    (applyTallyAt s i n c).journal = s.journal := field_of State.journal (applyTallyAt_only s i n c) (fun _ => rfl)
@[simp] theorem applyTallyAt_restore (s : State) (i n c : Nat) :
    (applyTallyAt s i n c).restore = s.restore := field_of State.restore (applyTallyAt_only s i n c) (fun _ => rfl)
@[simp] theorem applyTallyAt_step_phase (s : State) (i n c : Nat) :
    (applyTallyAt s i n c).step.phase = s.step.phase := field_of (fun t : State => t.step.phase) (applyTallyAt_only s i n c) (fun _ => rfl)
@[simp] theorem applyTallyAt_step_store (s : State) (i n c : Nat) :
    (applyTallyAt s i n c).step.store = s.step.store := field_of (fun t : State => t.step.store) (applyTallyAt_only s i n c) (fun _ => rfl)
@[simp] theorem applyTallyAt_step_hash (s : State) (i n c : Nat) :
    (applyTallyAt s i n c).step.hash = s.step.hash := field_of (fun t : State => t.step.hash) (applyTallyAt_only s i n c) (fun _ => rfl)
@[simp] theorem applyTallyAt_step_manifest (s : State) (i n c : Nat) :
    (applyTallyAt s i n c).step.manifest = s.step.manifest := field_of (fun t : State => t.step.manifest) (applyTallyAt_only s i n c) (fun _ => rfl)
@[simp] theorem applyTallyAt_step_number (s : State) (i n c : Nat) :
    (applyTallyAt s i n c).step.number = s.step.number := field_of (fun t : State => t.step.number) (applyTallyAt_only s i n c) (fun _ => rfl)
@[simp] theorem applyTallyAt_step_seed (s : State) (i n c : Nat) :
    (applyTallyAt s i n c).step.seed = s.step.seed := field_of (fun t : State => t.step.seed) (applyTallyAt_only s i n c) (fun _ => rfl)
@[simp] theorem applyTallyAt_step_tenants (s : State) (i n c : Nat) :
    (applyTallyAt s i n c).step.tenants = s.step.tenants := field_of (fun t : State => t.step.tenants) (applyTallyAt_only s i n c) (fun _ => rfl)
@[simp] theorem applyTallyAt_step_startBeat (s : State) (i n c : Nat) :
    (applyTallyAt s i n c).step.startBeat = s.step.startBeat := field_of (fun t : State => t.step.startBeat) (applyTallyAt_only s i n c) (fun _ => rfl)
@[simp] theorem applyTallyAt_step_relBeat (s : State) (i n c : Nat) :
    (applyTallyAt s i n c).step.relBeat = s.step.relBeat := field_of (fun t : State => t.step.relBeat) (applyTallyAt_only s i n c) (fun _ => rfl)
@[simp] theorem applyTallyAt_step_next (s : State) (i n c : Nat) :
    (applyTallyAt s i n c).step.next = s.step.next := field_of (fun t : State => t.step.next) (applyTallyAt_only s i n c) (fun _ => rfl)
@[simp] theorem applyTallyAt_step_stopped (s : State) (i n c : Nat) :
    (applyTallyAt s i n c).step.stopped = s.step.stopped := field_of (fun t : State => t.step.stopped) (applyTallyAt_only s i n c) (fun _ => rfl)
@[simp] theorem applyTallyAt_step_stopAt (s : State) (i n c : Nat) :
    (applyTallyAt s i n c).step.stopAt = s.step.stopAt := field_of (fun t : State => t.step.stopAt) (applyTallyAt_only s i n c) (fun _ => rfl)
@[simp] theorem applyTallyAt_step_cause (s : State) (i n c : Nat) :
    (applyTallyAt s i n c).step.cause = s.step.cause := field_of (fun t : State => t.step.cause) (applyTallyAt_only s i n c) (fun _ => rfl)
@[simp] theorem applyTallyAt_step_failed (s : State) (i n c : Nat) :
    (applyTallyAt s i n c).step.failed = s.step.failed := field_of (fun t : State => t.step.failed) (applyTallyAt_only s i n c) (fun _ => rfl)
@[simp] theorem applyTallyAt_step_suspect (s : State) (i n c : Nat) :
    (applyTallyAt s i n c).step.suspect = s.step.suspect := field_of (fun t : State => t.step.suspect) (applyTallyAt_only s i n c) (fun _ => rfl)
@[simp] theorem applyTallyAt_step_lateCues (s : State) (i n c : Nat) :
    (applyTallyAt s i n c).step.lateCues = s.step.lateCues := field_of (fun t : State => t.step.lateCues) (applyTallyAt_only s i n c) (fun _ => rfl)
@[simp] theorem applyTallyAt_step_idleCycles (s : State) (i n c : Nat) :
    (applyTallyAt s i n c).step.idleCycles = s.step.idleCycles := field_of (fun t : State => t.step.idleCycles) (applyTallyAt_only s i n c) (fun _ => rfl)
@[simp] theorem applyTallyAt_step_hold (s : State) (i n c : Nat) :
    (applyTallyAt s i n c).step.hold = s.step.hold := field_of (fun t : State => t.step.hold) (applyTallyAt_only s i n c) (fun _ => rfl)
@[simp] theorem applyTallyAt_step_holdAt (s : State) (i n c : Nat) :
    (applyTallyAt s i n c).step.holdAt = s.step.holdAt := field_of (fun t : State => t.step.holdAt) (applyTallyAt_only s i n c) (fun _ => rfl)
@[simp] theorem applyTallyAt_step_resume (s : State) (i n c : Nat) :
    (applyTallyAt s i n c).step.resume = s.step.resume := field_of (fun t : State => t.step.resume) (applyTallyAt_only s i n c) (fun _ => rfl)
@[simp] theorem applyTallyAt_step_curtains (s : State) (i n c : Nat) :
    (applyTallyAt s i n c).step.curtains = s.step.curtains := field_of (fun t : State => t.step.curtains) (applyTallyAt_only s i n c) (fun _ => rfl)
@[simp] theorem applyTallyAt_step_curtainAt (s : State) (i n c : Nat) :
    (applyTallyAt s i n c).step.curtainAt = s.step.curtainAt := field_of (fun t : State => t.step.curtainAt) (applyTallyAt_only s i n c) (fun _ => rfl)
@[simp] theorem applyTallyAt_step_lastDone (s : State) (i n c : Nat) :
    (applyTallyAt s i n c).step.lastDone = s.step.lastDone := field_of (fun t : State => t.step.lastDone) (applyTallyAt_only s i n c) (fun _ => rfl)
@[simp] theorem applyTallyAt_step_prevEnd (s : State) (i n c : Nat) :
    (applyTallyAt s i n c).step.prevEnd = s.step.prevEnd := field_of (fun t : State => t.step.prevEnd) (applyTallyAt_only s i n c) (fun _ => rfl)
@[simp] theorem applyTallyAt_step_dirty (s : State) (i n c : Nat) :
    (applyTallyAt s i n c).step.dirty = s.step.dirty := field_of (fun t : State => t.step.dirty) (applyTallyAt_only s i n c) (fun _ => rfl)
@[simp] theorem applyTallyAt_step_lastCommitted (s : State) (i n c : Nat) :
    (applyTallyAt s i n c).step.lastCommitted = s.step.lastCommitted := field_of (fun t : State => t.step.lastCommitted) (applyTallyAt_only s i n c) (fun _ => rfl)
@[simp] theorem applyTallyAt_step_lastHash (s : State) (i n c : Nat) :
    (applyTallyAt s i n c).step.lastHash = s.step.lastHash := field_of (fun t : State => t.step.lastHash) (applyTallyAt_only s i n c) (fun _ => rfl)
@[simp] theorem applyTallyAt_step_lastMode (s : State) (i n c : Nat) :
    (applyTallyAt s i n c).step.lastMode = s.step.lastMode := field_of (fun t : State => t.step.lastMode) (applyTallyAt_only s i n c) (fun _ => rfl)
@[simp] theorem applyTallyAt_step_freezes (s : State) (i n c : Nat) :
    (applyTallyAt s i n c).step.freezes = s.step.freezes := field_of (fun t : State => t.step.freezes) (applyTallyAt_only s i n c) (fun _ => rfl)
@[simp] theorem applyTallyAt_step_slotsNamed (s : State) (i n c : Nat) :
    (applyTallyAt s i n c).step.slotsNamed = s.step.slotsNamed := field_of (fun t : State => t.step.slotsNamed) (applyTallyAt_only s i n c) (fun _ => rfl)
@[simp] theorem applyTallyAt_step_frozen (s : State) (i n c : Nat) :
    (applyTallyAt s i n c).step.frozen = s.step.frozen := field_of (fun t : State => t.step.frozen) (applyTallyAt_only s i n c) (fun _ => rfl)
@[simp] theorem applyTallyAt_step_dropped (s : State) (i n c : Nat) :
    (applyTallyAt s i n c).step.dropped = s.step.dropped := field_of (fun t : State => t.step.dropped) (applyTallyAt_only s i n c) (fun _ => rfl)
@[simp] theorem applyTallyAt_stage_windows (s : State) (i n c : Nat) :
    (applyTallyAt s i n c).stage.windows = s.stage.windows := field_of (fun t : State => t.stage.windows) (applyTallyAt_only s i n c) (fun _ => rfl)
@[simp] theorem applyTallyAt_stage_lends (s : State) (i n c : Nat) :
    (applyTallyAt s i n c).stage.lends = s.stage.lends := field_of (fun t : State => t.stage.lends) (applyTallyAt_only s i n c) (fun _ => rfl)
@[simp] theorem applyTallyAt_stage_later (s : State) (i n c : Nat) :
    (applyTallyAt s i n c).stage.later = s.stage.later := field_of (fun t : State => t.stage.later) (applyTallyAt_only s i n c) (fun _ => rfl)
@[simp] theorem applyTallyAt_stage_preds (s : State) (i n c : Nat) :
    (applyTallyAt s i n c).stage.preds = s.stage.preds := field_of (fun t : State => t.stage.preds) (applyTallyAt_only s i n c) (fun _ => rfl)
@[simp] theorem applyTallyAt_stage_planned (s : State) (i n c : Nat) :
    (applyTallyAt s i n c).stage.planned = s.stage.planned := field_of (fun t : State => t.stage.planned) (applyTallyAt_only s i n c) (fun _ => rfl)

/-! Fields that `applyTally` leaves alone. -/

@[simp] theorem applyTally_pending (s : State) (i n : Nat) :
    (applyTally s i n).pending = s.pending := field_of State.pending (applyTally_only s i n) (fun _ => rfl)
@[simp] theorem applyTally_now (s : State) (i n : Nat) :
    (applyTally s i n).now = s.now := field_of State.now (applyTally_only s i n) (fun _ => rfl)
@[simp] theorem applyTally_ref (s : State) (i n : Nat) :
    (applyTally s i n).ref = s.ref := field_of State.ref (applyTally_only s i n) (fun _ => rfl)
@[simp] theorem applyTally_half (s : State) (i n : Nat) :
    (applyTally s i n).half = s.half := field_of State.half (applyTally_only s i n) (fun _ => rfl)
@[simp] theorem applyTally_cycle (s : State) (i n : Nat) :
    (applyTally s i n).cycle = s.cycle := field_of State.cycle (applyTally_only s i n) (fun _ => rfl)
@[simp] theorem applyTally_free (s : State) (i n : Nat) :
    (applyTally s i n).free = s.free := field_of State.free (applyTally_only s i n) (fun _ => rfl)
@[simp] theorem applyTally_pwr (s : State) (i n : Nat) :
    (applyTally s i n).pwr = s.pwr := field_of State.pwr (applyTally_only s i n) (fun _ => rfl)
@[simp] theorem applyTally_tap (s : State) (i n : Nat) :
    (applyTally s i n).tap = s.tap := field_of State.tap (applyTally_only s i n) (fun _ => rfl)
@[simp] theorem applyTally_guard (s : State) (i n : Nat) :
    (applyTally s i n).guard = s.guard := field_of State.guard (applyTally_only s i n) (fun _ => rfl)
@[simp] theorem applyTally_nor (s : State) (i n : Nat) :
    (applyTally s i n).nor = s.nor := field_of State.nor (applyTally_only s i n) (fun _ => rfl)
@[simp] theorem applyTally_nand (s : State) (i n : Nat) :
    (applyTally s i n).nand = s.nand := field_of State.nand (applyTally_only s i n) (fun _ => rfl)
@[simp] theorem applyTally_beat (s : State) (i n : Nat) :
    (applyTally s i n).beat = s.beat := field_of State.beat (applyTally_only s i n) (fun _ => rfl)
@[simp] theorem applyTally_ctl (s : State) (i n : Nat) :
    (applyTally s i n).ctl = s.ctl := field_of State.ctl (applyTally_only s i n) (fun _ => rfl)
@[simp] theorem applyTally_ses (s : State) (i n : Nat) :
    (applyTally s i n).ses = s.ses := field_of State.ses (applyTally_only s i n) (fun _ => rfl)
@[simp] theorem applyTally_cfg (s : State) (i n : Nat) :
    (applyTally s i n).cfg = s.cfg := field_of State.cfg (applyTally_only s i n) (fun _ => rfl)
@[simp] theorem applyTally_store0 (s : State) (i n : Nat) :
    (applyTally s i n).store0 = s.store0 := field_of State.store0 (applyTally_only s i n) (fun _ => rfl)
@[simp] theorem applyTally_store1 (s : State) (i n : Nat) :
    (applyTally s i n).store1 = s.store1 := field_of State.store1 (applyTally_only s i n) (fun _ => rfl)
@[simp] theorem applyTally_tenants (s : State) (i n : Nat) :
    (applyTally s i n).tenants = s.tenants := field_of State.tenants (applyTally_only s i n) (fun _ => rfl)
@[simp] theorem applyTally_dma (s : State) (i n : Nat) :
    (applyTally s i n).dma = s.dma := field_of State.dma (applyTally_only s i n) (fun _ => rfl)
@[simp] theorem applyTally_fwHeld (s : State) (i n : Nat) :
    (applyTally s i n).fwHeld = s.fwHeld := field_of State.fwHeld (applyTally_only s i n) (fun _ => rfl)
@[simp] theorem applyTally_waiting1 (s : State) (i n : Nat) :
    (applyTally s i n).waiting1 = s.waiting1 := field_of State.waiting1 (applyTally_only s i n) (fun _ => rfl)
@[simp] theorem applyTally_taking (s : State) (i n : Nat) :
    (applyTally s i n).taking = s.taking := field_of State.taking (applyTally_only s i n) (fun _ => rfl)
@[simp] theorem applyTally_arbs (s : State) (i n : Nat) :
    (applyTally s i n).arbs = s.arbs := field_of State.arbs (applyTally_only s i n) (fun _ => rfl)
@[simp] theorem applyTally_xfers (s : State) (i n : Nat) :
    (applyTally s i n).xfers = s.xfers := field_of State.xfers (applyTally_only s i n) (fun _ => rfl)
@[simp] theorem applyTally_ports (s : State) (i n : Nat) :
    (applyTally s i n).ports = s.ports := field_of State.ports (applyTally_only s i n) (fun _ => rfl)
@[simp] theorem applyTally_trace (s : State) (i n : Nat) :
    (applyTally s i n).trace = s.trace := field_of State.trace (applyTally_only s i n) (fun _ => rfl)
@[simp] theorem applyTally_secure (s : State) (i n : Nat) :
    (applyTally s i n).secure = s.secure := field_of State.secure (applyTally_only s i n) (fun _ => rfl)
@[simp] theorem applyTally_journal (s : State) (i n : Nat) :
    (applyTally s i n).journal = s.journal := field_of State.journal (applyTally_only s i n) (fun _ => rfl)
@[simp] theorem applyTally_restore (s : State) (i n : Nat) :
    (applyTally s i n).restore = s.restore := field_of State.restore (applyTally_only s i n) (fun _ => rfl)
@[simp] theorem applyTally_step_phase (s : State) (i n : Nat) :
    (applyTally s i n).step.phase = s.step.phase := field_of (fun t : State => t.step.phase) (applyTally_only s i n) (fun _ => rfl)
@[simp] theorem applyTally_step_store (s : State) (i n : Nat) :
    (applyTally s i n).step.store = s.step.store := field_of (fun t : State => t.step.store) (applyTally_only s i n) (fun _ => rfl)
@[simp] theorem applyTally_step_hash (s : State) (i n : Nat) :
    (applyTally s i n).step.hash = s.step.hash := field_of (fun t : State => t.step.hash) (applyTally_only s i n) (fun _ => rfl)
@[simp] theorem applyTally_step_manifest (s : State) (i n : Nat) :
    (applyTally s i n).step.manifest = s.step.manifest := field_of (fun t : State => t.step.manifest) (applyTally_only s i n) (fun _ => rfl)
@[simp] theorem applyTally_step_number (s : State) (i n : Nat) :
    (applyTally s i n).step.number = s.step.number := field_of (fun t : State => t.step.number) (applyTally_only s i n) (fun _ => rfl)
@[simp] theorem applyTally_step_seed (s : State) (i n : Nat) :
    (applyTally s i n).step.seed = s.step.seed := field_of (fun t : State => t.step.seed) (applyTally_only s i n) (fun _ => rfl)
@[simp] theorem applyTally_step_tenants (s : State) (i n : Nat) :
    (applyTally s i n).step.tenants = s.step.tenants := field_of (fun t : State => t.step.tenants) (applyTally_only s i n) (fun _ => rfl)
@[simp] theorem applyTally_step_startBeat (s : State) (i n : Nat) :
    (applyTally s i n).step.startBeat = s.step.startBeat := field_of (fun t : State => t.step.startBeat) (applyTally_only s i n) (fun _ => rfl)
@[simp] theorem applyTally_step_relBeat (s : State) (i n : Nat) :
    (applyTally s i n).step.relBeat = s.step.relBeat := field_of (fun t : State => t.step.relBeat) (applyTally_only s i n) (fun _ => rfl)
@[simp] theorem applyTally_step_next (s : State) (i n : Nat) :
    (applyTally s i n).step.next = s.step.next := field_of (fun t : State => t.step.next) (applyTally_only s i n) (fun _ => rfl)
@[simp] theorem applyTally_step_stopped (s : State) (i n : Nat) :
    (applyTally s i n).step.stopped = s.step.stopped := field_of (fun t : State => t.step.stopped) (applyTally_only s i n) (fun _ => rfl)
@[simp] theorem applyTally_step_stopAt (s : State) (i n : Nat) :
    (applyTally s i n).step.stopAt = s.step.stopAt := field_of (fun t : State => t.step.stopAt) (applyTally_only s i n) (fun _ => rfl)
@[simp] theorem applyTally_step_cause (s : State) (i n : Nat) :
    (applyTally s i n).step.cause = s.step.cause := field_of (fun t : State => t.step.cause) (applyTally_only s i n) (fun _ => rfl)
@[simp] theorem applyTally_step_failed (s : State) (i n : Nat) :
    (applyTally s i n).step.failed = s.step.failed := field_of (fun t : State => t.step.failed) (applyTally_only s i n) (fun _ => rfl)
@[simp] theorem applyTally_step_suspect (s : State) (i n : Nat) :
    (applyTally s i n).step.suspect = s.step.suspect := field_of (fun t : State => t.step.suspect) (applyTally_only s i n) (fun _ => rfl)
@[simp] theorem applyTally_step_lateCues (s : State) (i n : Nat) :
    (applyTally s i n).step.lateCues = s.step.lateCues := field_of (fun t : State => t.step.lateCues) (applyTally_only s i n) (fun _ => rfl)
@[simp] theorem applyTally_step_idleCycles (s : State) (i n : Nat) :
    (applyTally s i n).step.idleCycles = s.step.idleCycles := field_of (fun t : State => t.step.idleCycles) (applyTally_only s i n) (fun _ => rfl)
@[simp] theorem applyTally_step_hold (s : State) (i n : Nat) :
    (applyTally s i n).step.hold = s.step.hold := field_of (fun t : State => t.step.hold) (applyTally_only s i n) (fun _ => rfl)
@[simp] theorem applyTally_step_holdAt (s : State) (i n : Nat) :
    (applyTally s i n).step.holdAt = s.step.holdAt := field_of (fun t : State => t.step.holdAt) (applyTally_only s i n) (fun _ => rfl)
@[simp] theorem applyTally_step_resume (s : State) (i n : Nat) :
    (applyTally s i n).step.resume = s.step.resume := field_of (fun t : State => t.step.resume) (applyTally_only s i n) (fun _ => rfl)
@[simp] theorem applyTally_step_curtains (s : State) (i n : Nat) :
    (applyTally s i n).step.curtains = s.step.curtains := field_of (fun t : State => t.step.curtains) (applyTally_only s i n) (fun _ => rfl)
@[simp] theorem applyTally_step_curtainAt (s : State) (i n : Nat) :
    (applyTally s i n).step.curtainAt = s.step.curtainAt := field_of (fun t : State => t.step.curtainAt) (applyTally_only s i n) (fun _ => rfl)
@[simp] theorem applyTally_step_lastDone (s : State) (i n : Nat) :
    (applyTally s i n).step.lastDone = s.step.lastDone := field_of (fun t : State => t.step.lastDone) (applyTally_only s i n) (fun _ => rfl)
@[simp] theorem applyTally_step_prevEnd (s : State) (i n : Nat) :
    (applyTally s i n).step.prevEnd = s.step.prevEnd := field_of (fun t : State => t.step.prevEnd) (applyTally_only s i n) (fun _ => rfl)
@[simp] theorem applyTally_step_dirty (s : State) (i n : Nat) :
    (applyTally s i n).step.dirty = s.step.dirty := field_of (fun t : State => t.step.dirty) (applyTally_only s i n) (fun _ => rfl)
@[simp] theorem applyTally_step_lastCommitted (s : State) (i n : Nat) :
    (applyTally s i n).step.lastCommitted = s.step.lastCommitted := field_of (fun t : State => t.step.lastCommitted) (applyTally_only s i n) (fun _ => rfl)
@[simp] theorem applyTally_step_lastHash (s : State) (i n : Nat) :
    (applyTally s i n).step.lastHash = s.step.lastHash := field_of (fun t : State => t.step.lastHash) (applyTally_only s i n) (fun _ => rfl)
@[simp] theorem applyTally_step_lastMode (s : State) (i n : Nat) :
    (applyTally s i n).step.lastMode = s.step.lastMode := field_of (fun t : State => t.step.lastMode) (applyTally_only s i n) (fun _ => rfl)
@[simp] theorem applyTally_step_freezes (s : State) (i n : Nat) :
    (applyTally s i n).step.freezes = s.step.freezes := field_of (fun t : State => t.step.freezes) (applyTally_only s i n) (fun _ => rfl)
@[simp] theorem applyTally_step_slotsNamed (s : State) (i n : Nat) :
    (applyTally s i n).step.slotsNamed = s.step.slotsNamed := field_of (fun t : State => t.step.slotsNamed) (applyTally_only s i n) (fun _ => rfl)
@[simp] theorem applyTally_step_frozen (s : State) (i n : Nat) :
    (applyTally s i n).step.frozen = s.step.frozen := field_of (fun t : State => t.step.frozen) (applyTally_only s i n) (fun _ => rfl)
@[simp] theorem applyTally_step_dropped (s : State) (i n : Nat) :
    (applyTally s i n).step.dropped = s.step.dropped := field_of (fun t : State => t.step.dropped) (applyTally_only s i n) (fun _ => rfl)
@[simp] theorem applyTally_stage_windows (s : State) (i n : Nat) :
    (applyTally s i n).stage.windows = s.stage.windows := field_of (fun t : State => t.stage.windows) (applyTally_only s i n) (fun _ => rfl)
@[simp] theorem applyTally_stage_lends (s : State) (i n : Nat) :
    (applyTally s i n).stage.lends = s.stage.lends := field_of (fun t : State => t.stage.lends) (applyTally_only s i n) (fun _ => rfl)
@[simp] theorem applyTally_stage_later (s : State) (i n : Nat) :
    (applyTally s i n).stage.later = s.stage.later := field_of (fun t : State => t.stage.later) (applyTally_only s i n) (fun _ => rfl)
@[simp] theorem applyTally_stage_preds (s : State) (i n : Nat) :
    (applyTally s i n).stage.preds = s.stage.preds := field_of (fun t : State => t.stage.preds) (applyTally_only s i n) (fun _ => rfl)
@[simp] theorem applyTally_stage_planned (s : State) (i n : Nat) :
    (applyTally s i n).stage.planned = s.stage.planned := field_of (fun t : State => t.stage.planned) (applyTally_only s i n) (fun _ => rfl)

/-! Fields that `signalOpt` leaves alone. -/

@[simp] theorem signalOpt_pending (s : State) (d : Die) (c : Nat) (o : Option (Nat × Nat)) :
    (signalOpt s d c o).pending = s.pending := field_of State.pending (signalOpt_only s d c o) (fun _ => rfl)
@[simp] theorem signalOpt_now (s : State) (d : Die) (c : Nat) (o : Option (Nat × Nat)) :
    (signalOpt s d c o).now = s.now := field_of State.now (signalOpt_only s d c o) (fun _ => rfl)
@[simp] theorem signalOpt_ref (s : State) (d : Die) (c : Nat) (o : Option (Nat × Nat)) :
    (signalOpt s d c o).ref = s.ref := field_of State.ref (signalOpt_only s d c o) (fun _ => rfl)
@[simp] theorem signalOpt_half (s : State) (d : Die) (c : Nat) (o : Option (Nat × Nat)) :
    (signalOpt s d c o).half = s.half := field_of State.half (signalOpt_only s d c o) (fun _ => rfl)
@[simp] theorem signalOpt_cycle (s : State) (d : Die) (c : Nat) (o : Option (Nat × Nat)) :
    (signalOpt s d c o).cycle = s.cycle := field_of State.cycle (signalOpt_only s d c o) (fun _ => rfl)
@[simp] theorem signalOpt_free (s : State) (d : Die) (c : Nat) (o : Option (Nat × Nat)) :
    (signalOpt s d c o).free = s.free := field_of State.free (signalOpt_only s d c o) (fun _ => rfl)
@[simp] theorem signalOpt_pwr (s : State) (d : Die) (c : Nat) (o : Option (Nat × Nat)) :
    (signalOpt s d c o).pwr = s.pwr := field_of State.pwr (signalOpt_only s d c o) (fun _ => rfl)
@[simp] theorem signalOpt_tap (s : State) (d : Die) (c : Nat) (o : Option (Nat × Nat)) :
    (signalOpt s d c o).tap = s.tap := field_of State.tap (signalOpt_only s d c o) (fun _ => rfl)
@[simp] theorem signalOpt_guard (s : State) (d : Die) (c : Nat) (o : Option (Nat × Nat)) :
    (signalOpt s d c o).guard = s.guard := field_of State.guard (signalOpt_only s d c o) (fun _ => rfl)
@[simp] theorem signalOpt_nor (s : State) (d : Die) (c : Nat) (o : Option (Nat × Nat)) :
    (signalOpt s d c o).nor = s.nor := field_of State.nor (signalOpt_only s d c o) (fun _ => rfl)
@[simp] theorem signalOpt_nand (s : State) (d : Die) (c : Nat) (o : Option (Nat × Nat)) :
    (signalOpt s d c o).nand = s.nand := field_of State.nand (signalOpt_only s d c o) (fun _ => rfl)
@[simp] theorem signalOpt_beat (s : State) (d : Die) (c : Nat) (o : Option (Nat × Nat)) :
    (signalOpt s d c o).beat = s.beat := field_of State.beat (signalOpt_only s d c o) (fun _ => rfl)
@[simp] theorem signalOpt_ctl (s : State) (d : Die) (c : Nat) (o : Option (Nat × Nat)) :
    (signalOpt s d c o).ctl = s.ctl := field_of State.ctl (signalOpt_only s d c o) (fun _ => rfl)
@[simp] theorem signalOpt_ses (s : State) (d : Die) (c : Nat) (o : Option (Nat × Nat)) :
    (signalOpt s d c o).ses = s.ses := field_of State.ses (signalOpt_only s d c o) (fun _ => rfl)
@[simp] theorem signalOpt_cfg (s : State) (d : Die) (c : Nat) (o : Option (Nat × Nat)) :
    (signalOpt s d c o).cfg = s.cfg := field_of State.cfg (signalOpt_only s d c o) (fun _ => rfl)
@[simp] theorem signalOpt_store0 (s : State) (d : Die) (c : Nat) (o : Option (Nat × Nat)) :
    (signalOpt s d c o).store0 = s.store0 := field_of State.store0 (signalOpt_only s d c o) (fun _ => rfl)
@[simp] theorem signalOpt_store1 (s : State) (d : Die) (c : Nat) (o : Option (Nat × Nat)) :
    (signalOpt s d c o).store1 = s.store1 := field_of State.store1 (signalOpt_only s d c o) (fun _ => rfl)
@[simp] theorem signalOpt_tenants (s : State) (d : Die) (c : Nat) (o : Option (Nat × Nat)) :
    (signalOpt s d c o).tenants = s.tenants := field_of State.tenants (signalOpt_only s d c o) (fun _ => rfl)
@[simp] theorem signalOpt_dma (s : State) (d : Die) (c : Nat) (o : Option (Nat × Nat)) :
    (signalOpt s d c o).dma = s.dma := field_of State.dma (signalOpt_only s d c o) (fun _ => rfl)
@[simp] theorem signalOpt_fwHeld (s : State) (d : Die) (c : Nat) (o : Option (Nat × Nat)) :
    (signalOpt s d c o).fwHeld = s.fwHeld := field_of State.fwHeld (signalOpt_only s d c o) (fun _ => rfl)
@[simp] theorem signalOpt_waiting1 (s : State) (d : Die) (c : Nat) (o : Option (Nat × Nat)) :
    (signalOpt s d c o).waiting1 = s.waiting1 := field_of State.waiting1 (signalOpt_only s d c o) (fun _ => rfl)
@[simp] theorem signalOpt_taking (s : State) (d : Die) (c : Nat) (o : Option (Nat × Nat)) :
    (signalOpt s d c o).taking = s.taking := field_of State.taking (signalOpt_only s d c o) (fun _ => rfl)
@[simp] theorem signalOpt_arbs (s : State) (d : Die) (c : Nat) (o : Option (Nat × Nat)) :
    (signalOpt s d c o).arbs = s.arbs := field_of State.arbs (signalOpt_only s d c o) (fun _ => rfl)
@[simp] theorem signalOpt_xfers (s : State) (d : Die) (c : Nat) (o : Option (Nat × Nat)) :
    (signalOpt s d c o).xfers = s.xfers := field_of State.xfers (signalOpt_only s d c o) (fun _ => rfl)
@[simp] theorem signalOpt_ports (s : State) (d : Die) (c : Nat) (o : Option (Nat × Nat)) :
    (signalOpt s d c o).ports = s.ports := field_of State.ports (signalOpt_only s d c o) (fun _ => rfl)
@[simp] theorem signalOpt_trace (s : State) (d : Die) (c : Nat) (o : Option (Nat × Nat)) :
    (signalOpt s d c o).trace = s.trace := field_of State.trace (signalOpt_only s d c o) (fun _ => rfl)
@[simp] theorem signalOpt_secure (s : State) (d : Die) (c : Nat) (o : Option (Nat × Nat)) :
    (signalOpt s d c o).secure = s.secure := field_of State.secure (signalOpt_only s d c o) (fun _ => rfl)
@[simp] theorem signalOpt_journal (s : State) (d : Die) (c : Nat) (o : Option (Nat × Nat)) :
    (signalOpt s d c o).journal = s.journal := field_of State.journal (signalOpt_only s d c o) (fun _ => rfl)
@[simp] theorem signalOpt_restore (s : State) (d : Die) (c : Nat) (o : Option (Nat × Nat)) :
    (signalOpt s d c o).restore = s.restore := field_of State.restore (signalOpt_only s d c o) (fun _ => rfl)
@[simp] theorem signalOpt_step_phase (s : State) (d : Die) (c : Nat) (o : Option (Nat × Nat)) :
    (signalOpt s d c o).step.phase = s.step.phase := field_of (fun t : State => t.step.phase) (signalOpt_only s d c o) (fun _ => rfl)
@[simp] theorem signalOpt_step_store (s : State) (d : Die) (c : Nat) (o : Option (Nat × Nat)) :
    (signalOpt s d c o).step.store = s.step.store := field_of (fun t : State => t.step.store) (signalOpt_only s d c o) (fun _ => rfl)
@[simp] theorem signalOpt_step_hash (s : State) (d : Die) (c : Nat) (o : Option (Nat × Nat)) :
    (signalOpt s d c o).step.hash = s.step.hash := field_of (fun t : State => t.step.hash) (signalOpt_only s d c o) (fun _ => rfl)
@[simp] theorem signalOpt_step_manifest (s : State) (d : Die) (c : Nat) (o : Option (Nat × Nat)) :
    (signalOpt s d c o).step.manifest = s.step.manifest := field_of (fun t : State => t.step.manifest) (signalOpt_only s d c o) (fun _ => rfl)
@[simp] theorem signalOpt_step_number (s : State) (d : Die) (c : Nat) (o : Option (Nat × Nat)) :
    (signalOpt s d c o).step.number = s.step.number := field_of (fun t : State => t.step.number) (signalOpt_only s d c o) (fun _ => rfl)
@[simp] theorem signalOpt_step_seed (s : State) (d : Die) (c : Nat) (o : Option (Nat × Nat)) :
    (signalOpt s d c o).step.seed = s.step.seed := field_of (fun t : State => t.step.seed) (signalOpt_only s d c o) (fun _ => rfl)
@[simp] theorem signalOpt_step_tenants (s : State) (d : Die) (c : Nat) (o : Option (Nat × Nat)) :
    (signalOpt s d c o).step.tenants = s.step.tenants := field_of (fun t : State => t.step.tenants) (signalOpt_only s d c o) (fun _ => rfl)
@[simp] theorem signalOpt_step_startBeat (s : State) (d : Die) (c : Nat) (o : Option (Nat × Nat)) :
    (signalOpt s d c o).step.startBeat = s.step.startBeat := field_of (fun t : State => t.step.startBeat) (signalOpt_only s d c o) (fun _ => rfl)
@[simp] theorem signalOpt_step_relBeat (s : State) (d : Die) (c : Nat) (o : Option (Nat × Nat)) :
    (signalOpt s d c o).step.relBeat = s.step.relBeat := field_of (fun t : State => t.step.relBeat) (signalOpt_only s d c o) (fun _ => rfl)
@[simp] theorem signalOpt_step_next (s : State) (d : Die) (c : Nat) (o : Option (Nat × Nat)) :
    (signalOpt s d c o).step.next = s.step.next := field_of (fun t : State => t.step.next) (signalOpt_only s d c o) (fun _ => rfl)
@[simp] theorem signalOpt_step_stopped (s : State) (d : Die) (c : Nat) (o : Option (Nat × Nat)) :
    (signalOpt s d c o).step.stopped = s.step.stopped := field_of (fun t : State => t.step.stopped) (signalOpt_only s d c o) (fun _ => rfl)
@[simp] theorem signalOpt_step_stopAt (s : State) (d : Die) (c : Nat) (o : Option (Nat × Nat)) :
    (signalOpt s d c o).step.stopAt = s.step.stopAt := field_of (fun t : State => t.step.stopAt) (signalOpt_only s d c o) (fun _ => rfl)
@[simp] theorem signalOpt_step_cause (s : State) (d : Die) (c : Nat) (o : Option (Nat × Nat)) :
    (signalOpt s d c o).step.cause = s.step.cause := field_of (fun t : State => t.step.cause) (signalOpt_only s d c o) (fun _ => rfl)
@[simp] theorem signalOpt_step_failed (s : State) (d : Die) (c : Nat) (o : Option (Nat × Nat)) :
    (signalOpt s d c o).step.failed = s.step.failed := field_of (fun t : State => t.step.failed) (signalOpt_only s d c o) (fun _ => rfl)
@[simp] theorem signalOpt_step_suspect (s : State) (d : Die) (c : Nat) (o : Option (Nat × Nat)) :
    (signalOpt s d c o).step.suspect = s.step.suspect := field_of (fun t : State => t.step.suspect) (signalOpt_only s d c o) (fun _ => rfl)
@[simp] theorem signalOpt_step_lateCues (s : State) (d : Die) (c : Nat) (o : Option (Nat × Nat)) :
    (signalOpt s d c o).step.lateCues = s.step.lateCues := field_of (fun t : State => t.step.lateCues) (signalOpt_only s d c o) (fun _ => rfl)
@[simp] theorem signalOpt_step_idleCycles (s : State) (d : Die) (c : Nat) (o : Option (Nat × Nat)) :
    (signalOpt s d c o).step.idleCycles = s.step.idleCycles := field_of (fun t : State => t.step.idleCycles) (signalOpt_only s d c o) (fun _ => rfl)
@[simp] theorem signalOpt_step_hold (s : State) (d : Die) (c : Nat) (o : Option (Nat × Nat)) :
    (signalOpt s d c o).step.hold = s.step.hold := field_of (fun t : State => t.step.hold) (signalOpt_only s d c o) (fun _ => rfl)
@[simp] theorem signalOpt_step_holdAt (s : State) (d : Die) (c : Nat) (o : Option (Nat × Nat)) :
    (signalOpt s d c o).step.holdAt = s.step.holdAt := field_of (fun t : State => t.step.holdAt) (signalOpt_only s d c o) (fun _ => rfl)
@[simp] theorem signalOpt_step_resume (s : State) (d : Die) (c : Nat) (o : Option (Nat × Nat)) :
    (signalOpt s d c o).step.resume = s.step.resume := field_of (fun t : State => t.step.resume) (signalOpt_only s d c o) (fun _ => rfl)
@[simp] theorem signalOpt_step_curtains (s : State) (d : Die) (c : Nat) (o : Option (Nat × Nat)) :
    (signalOpt s d c o).step.curtains = s.step.curtains := field_of (fun t : State => t.step.curtains) (signalOpt_only s d c o) (fun _ => rfl)
@[simp] theorem signalOpt_step_curtainAt (s : State) (d : Die) (c : Nat) (o : Option (Nat × Nat)) :
    (signalOpt s d c o).step.curtainAt = s.step.curtainAt := field_of (fun t : State => t.step.curtainAt) (signalOpt_only s d c o) (fun _ => rfl)
@[simp] theorem signalOpt_step_lastDone (s : State) (d : Die) (c : Nat) (o : Option (Nat × Nat)) :
    (signalOpt s d c o).step.lastDone = s.step.lastDone := field_of (fun t : State => t.step.lastDone) (signalOpt_only s d c o) (fun _ => rfl)
@[simp] theorem signalOpt_step_prevEnd (s : State) (d : Die) (c : Nat) (o : Option (Nat × Nat)) :
    (signalOpt s d c o).step.prevEnd = s.step.prevEnd := field_of (fun t : State => t.step.prevEnd) (signalOpt_only s d c o) (fun _ => rfl)
@[simp] theorem signalOpt_step_dirty (s : State) (d : Die) (c : Nat) (o : Option (Nat × Nat)) :
    (signalOpt s d c o).step.dirty = s.step.dirty := field_of (fun t : State => t.step.dirty) (signalOpt_only s d c o) (fun _ => rfl)
@[simp] theorem signalOpt_step_lastCommitted (s : State) (d : Die) (c : Nat) (o : Option (Nat × Nat)) :
    (signalOpt s d c o).step.lastCommitted = s.step.lastCommitted := field_of (fun t : State => t.step.lastCommitted) (signalOpt_only s d c o) (fun _ => rfl)
@[simp] theorem signalOpt_step_lastHash (s : State) (d : Die) (c : Nat) (o : Option (Nat × Nat)) :
    (signalOpt s d c o).step.lastHash = s.step.lastHash := field_of (fun t : State => t.step.lastHash) (signalOpt_only s d c o) (fun _ => rfl)
@[simp] theorem signalOpt_step_lastMode (s : State) (d : Die) (c : Nat) (o : Option (Nat × Nat)) :
    (signalOpt s d c o).step.lastMode = s.step.lastMode := field_of (fun t : State => t.step.lastMode) (signalOpt_only s d c o) (fun _ => rfl)
@[simp] theorem signalOpt_step_freezes (s : State) (d : Die) (c : Nat) (o : Option (Nat × Nat)) :
    (signalOpt s d c o).step.freezes = s.step.freezes := field_of (fun t : State => t.step.freezes) (signalOpt_only s d c o) (fun _ => rfl)
@[simp] theorem signalOpt_step_slotsNamed (s : State) (d : Die) (c : Nat) (o : Option (Nat × Nat)) :
    (signalOpt s d c o).step.slotsNamed = s.step.slotsNamed := field_of (fun t : State => t.step.slotsNamed) (signalOpt_only s d c o) (fun _ => rfl)
@[simp] theorem signalOpt_step_frozen (s : State) (d : Die) (c : Nat) (o : Option (Nat × Nat)) :
    (signalOpt s d c o).step.frozen = s.step.frozen := field_of (fun t : State => t.step.frozen) (signalOpt_only s d c o) (fun _ => rfl)
@[simp] theorem signalOpt_step_dropped (s : State) (d : Die) (c : Nat) (o : Option (Nat × Nat)) :
    (signalOpt s d c o).step.dropped = s.step.dropped := field_of (fun t : State => t.step.dropped) (signalOpt_only s d c o) (fun _ => rfl)
@[simp] theorem signalOpt_stage_windows (s : State) (d : Die) (c : Nat) (o : Option (Nat × Nat)) :
    (signalOpt s d c o).stage.windows = s.stage.windows := field_of (fun t : State => t.stage.windows) (signalOpt_only s d c o) (fun _ => rfl)
@[simp] theorem signalOpt_stage_lends (s : State) (d : Die) (c : Nat) (o : Option (Nat × Nat)) :
    (signalOpt s d c o).stage.lends = s.stage.lends := field_of (fun t : State => t.stage.lends) (signalOpt_only s d c o) (fun _ => rfl)
@[simp] theorem signalOpt_stage_later (s : State) (d : Die) (c : Nat) (o : Option (Nat × Nat)) :
    (signalOpt s d c o).stage.later = s.stage.later := field_of (fun t : State => t.stage.later) (signalOpt_only s d c o) (fun _ => rfl)
@[simp] theorem signalOpt_stage_preds (s : State) (d : Die) (c : Nat) (o : Option (Nat × Nat)) :
    (signalOpt s d c o).stage.preds = s.stage.preds := field_of (fun t : State => t.stage.preds) (signalOpt_only s d c o) (fun _ => rfl)
@[simp] theorem signalOpt_stage_planned (s : State) (d : Die) (c : Nat) (o : Option (Nat × Nat)) :
    (signalOpt s d c o).stage.planned = s.stage.planned := field_of (fun t : State => t.stage.planned) (signalOpt_only s d c o) (fun _ => rfl)
@[simp] theorem signalOpt_mem_fences (s : State) (d : Die) (c : Nat) (o : Option (Nat × Nat)) :
    (signalOpt s d c o).mem.fences = s.mem.fences := field_of (fun t : State => t.mem.fences) (signalOpt_only s d c o) (fun _ => rfl)
@[simp] theorem signalOpt_mem_banks (s : State) (d : Die) (c : Nat) (o : Option (Nat × Nat)) :
    (signalOpt s d c o).mem.banks = s.mem.banks := field_of (fun t : State => t.mem.banks) (signalOpt_only s d c o) (fun _ => rfl)
@[simp] theorem signalOpt_mem_queues (s : State) (d : Die) (c : Nat) (o : Option (Nat × Nat)) :
    (signalOpt s d c o).mem.queues = s.mem.queues := field_of (fun t : State => t.mem.queues) (signalOpt_only s d c o) (fun _ => rfl)

/-! Fields that `sendFrame` leaves alone. -/

@[simp] theorem sendFrame_pending (s : State) (f : FrameOut) :
    (sendFrame s f).pending = s.pending := field_of State.pending (sendFrame_only s f) (fun _ => rfl)
@[simp] theorem sendFrame_now (s : State) (f : FrameOut) :
    (sendFrame s f).now = s.now := field_of State.now (sendFrame_only s f) (fun _ => rfl)
@[simp] theorem sendFrame_ref (s : State) (f : FrameOut) :
    (sendFrame s f).ref = s.ref := field_of State.ref (sendFrame_only s f) (fun _ => rfl)
@[simp] theorem sendFrame_half (s : State) (f : FrameOut) :
    (sendFrame s f).half = s.half := field_of State.half (sendFrame_only s f) (fun _ => rfl)
@[simp] theorem sendFrame_cycle (s : State) (f : FrameOut) :
    (sendFrame s f).cycle = s.cycle := field_of State.cycle (sendFrame_only s f) (fun _ => rfl)
@[simp] theorem sendFrame_free (s : State) (f : FrameOut) :
    (sendFrame s f).free = s.free := field_of State.free (sendFrame_only s f) (fun _ => rfl)
@[simp] theorem sendFrame_pwr (s : State) (f : FrameOut) :
    (sendFrame s f).pwr = s.pwr := field_of State.pwr (sendFrame_only s f) (fun _ => rfl)
@[simp] theorem sendFrame_tap (s : State) (f : FrameOut) :
    (sendFrame s f).tap = s.tap := field_of State.tap (sendFrame_only s f) (fun _ => rfl)
@[simp] theorem sendFrame_guard (s : State) (f : FrameOut) :
    (sendFrame s f).guard = s.guard := field_of State.guard (sendFrame_only s f) (fun _ => rfl)
@[simp] theorem sendFrame_nor (s : State) (f : FrameOut) :
    (sendFrame s f).nor = s.nor := field_of State.nor (sendFrame_only s f) (fun _ => rfl)
@[simp] theorem sendFrame_nand (s : State) (f : FrameOut) :
    (sendFrame s f).nand = s.nand := field_of State.nand (sendFrame_only s f) (fun _ => rfl)
@[simp] theorem sendFrame_beat (s : State) (f : FrameOut) :
    (sendFrame s f).beat = s.beat := field_of State.beat (sendFrame_only s f) (fun _ => rfl)
@[simp] theorem sendFrame_cfg (s : State) (f : FrameOut) :
    (sendFrame s f).cfg = s.cfg := field_of State.cfg (sendFrame_only s f) (fun _ => rfl)
@[simp] theorem sendFrame_store0 (s : State) (f : FrameOut) :
    (sendFrame s f).store0 = s.store0 := field_of State.store0 (sendFrame_only s f) (fun _ => rfl)
@[simp] theorem sendFrame_store1 (s : State) (f : FrameOut) :
    (sendFrame s f).store1 = s.store1 := field_of State.store1 (sendFrame_only s f) (fun _ => rfl)
@[simp] theorem sendFrame_step (s : State) (f : FrameOut) :
    (sendFrame s f).step = s.step := field_of State.step (sendFrame_only s f) (fun _ => rfl)
@[simp] theorem sendFrame_stage (s : State) (f : FrameOut) :
    (sendFrame s f).stage = s.stage := field_of State.stage (sendFrame_only s f) (fun _ => rfl)
@[simp] theorem sendFrame_tenants (s : State) (f : FrameOut) :
    (sendFrame s f).tenants = s.tenants := field_of State.tenants (sendFrame_only s f) (fun _ => rfl)
@[simp] theorem sendFrame_dma (s : State) (f : FrameOut) :
    (sendFrame s f).dma = s.dma := field_of State.dma (sendFrame_only s f) (fun _ => rfl)
@[simp] theorem sendFrame_fwHeld (s : State) (f : FrameOut) :
    (sendFrame s f).fwHeld = s.fwHeld := field_of State.fwHeld (sendFrame_only s f) (fun _ => rfl)
@[simp] theorem sendFrame_waiting1 (s : State) (f : FrameOut) :
    (sendFrame s f).waiting1 = s.waiting1 := field_of State.waiting1 (sendFrame_only s f) (fun _ => rfl)
@[simp] theorem sendFrame_taking (s : State) (f : FrameOut) :
    (sendFrame s f).taking = s.taking := field_of State.taking (sendFrame_only s f) (fun _ => rfl)
@[simp] theorem sendFrame_arbs (s : State) (f : FrameOut) :
    (sendFrame s f).arbs = s.arbs := field_of State.arbs (sendFrame_only s f) (fun _ => rfl)
@[simp] theorem sendFrame_xfers (s : State) (f : FrameOut) :
    (sendFrame s f).xfers = s.xfers := field_of State.xfers (sendFrame_only s f) (fun _ => rfl)
@[simp] theorem sendFrame_ports (s : State) (f : FrameOut) :
    (sendFrame s f).ports = s.ports := field_of State.ports (sendFrame_only s f) (fun _ => rfl)
@[simp] theorem sendFrame_err (s : State) (f : FrameOut) :
    (sendFrame s f).err = s.err := field_of State.err (sendFrame_only s f) (fun _ => rfl)
@[simp] theorem sendFrame_alarms (s : State) (f : FrameOut) :
    (sendFrame s f).alarms = s.alarms := field_of State.alarms (sendFrame_only s f) (fun _ => rfl)
@[simp] theorem sendFrame_trace (s : State) (f : FrameOut) :
    (sendFrame s f).trace = s.trace := field_of State.trace (sendFrame_only s f) (fun _ => rfl)
@[simp] theorem sendFrame_health (s : State) (f : FrameOut) :
    (sendFrame s f).health = s.health := field_of State.health (sendFrame_only s f) (fun _ => rfl)
@[simp] theorem sendFrame_secure (s : State) (f : FrameOut) :
    (sendFrame s f).secure = s.secure := field_of State.secure (sendFrame_only s f) (fun _ => rfl)
@[simp] theorem sendFrame_journal (s : State) (f : FrameOut) :
    (sendFrame s f).journal = s.journal := field_of State.journal (sendFrame_only s f) (fun _ => rfl)
@[simp] theorem sendFrame_restore (s : State) (f : FrameOut) :
    (sendFrame s f).restore = s.restore := field_of State.restore (sendFrame_only s f) (fun _ => rfl)

/-! Fields that `sendReport` leaves alone. -/

@[simp] theorem sendReport_pending (s : State) (opcode : Byte) (cls : BitVec 2) (payload : List Byte) :
    (sendReport s opcode cls payload).pending = s.pending := field_of State.pending (sendReport_only s opcode cls payload) (fun _ => rfl)
@[simp] theorem sendReport_now (s : State) (opcode : Byte) (cls : BitVec 2) (payload : List Byte) :
    (sendReport s opcode cls payload).now = s.now := field_of State.now (sendReport_only s opcode cls payload) (fun _ => rfl)
@[simp] theorem sendReport_ref (s : State) (opcode : Byte) (cls : BitVec 2) (payload : List Byte) :
    (sendReport s opcode cls payload).ref = s.ref := field_of State.ref (sendReport_only s opcode cls payload) (fun _ => rfl)
@[simp] theorem sendReport_half (s : State) (opcode : Byte) (cls : BitVec 2) (payload : List Byte) :
    (sendReport s opcode cls payload).half = s.half := field_of State.half (sendReport_only s opcode cls payload) (fun _ => rfl)
@[simp] theorem sendReport_cycle (s : State) (opcode : Byte) (cls : BitVec 2) (payload : List Byte) :
    (sendReport s opcode cls payload).cycle = s.cycle := field_of State.cycle (sendReport_only s opcode cls payload) (fun _ => rfl)
@[simp] theorem sendReport_free (s : State) (opcode : Byte) (cls : BitVec 2) (payload : List Byte) :
    (sendReport s opcode cls payload).free = s.free := field_of State.free (sendReport_only s opcode cls payload) (fun _ => rfl)
@[simp] theorem sendReport_pwr (s : State) (opcode : Byte) (cls : BitVec 2) (payload : List Byte) :
    (sendReport s opcode cls payload).pwr = s.pwr := field_of State.pwr (sendReport_only s opcode cls payload) (fun _ => rfl)
@[simp] theorem sendReport_tap (s : State) (opcode : Byte) (cls : BitVec 2) (payload : List Byte) :
    (sendReport s opcode cls payload).tap = s.tap := field_of State.tap (sendReport_only s opcode cls payload) (fun _ => rfl)
@[simp] theorem sendReport_guard (s : State) (opcode : Byte) (cls : BitVec 2) (payload : List Byte) :
    (sendReport s opcode cls payload).guard = s.guard := field_of State.guard (sendReport_only s opcode cls payload) (fun _ => rfl)
@[simp] theorem sendReport_nor (s : State) (opcode : Byte) (cls : BitVec 2) (payload : List Byte) :
    (sendReport s opcode cls payload).nor = s.nor := field_of State.nor (sendReport_only s opcode cls payload) (fun _ => rfl)
@[simp] theorem sendReport_nand (s : State) (opcode : Byte) (cls : BitVec 2) (payload : List Byte) :
    (sendReport s opcode cls payload).nand = s.nand := field_of State.nand (sendReport_only s opcode cls payload) (fun _ => rfl)
@[simp] theorem sendReport_beat (s : State) (opcode : Byte) (cls : BitVec 2) (payload : List Byte) :
    (sendReport s opcode cls payload).beat = s.beat := field_of State.beat (sendReport_only s opcode cls payload) (fun _ => rfl)
@[simp] theorem sendReport_cfg (s : State) (opcode : Byte) (cls : BitVec 2) (payload : List Byte) :
    (sendReport s opcode cls payload).cfg = s.cfg := field_of State.cfg (sendReport_only s opcode cls payload) (fun _ => rfl)
@[simp] theorem sendReport_store0 (s : State) (opcode : Byte) (cls : BitVec 2) (payload : List Byte) :
    (sendReport s opcode cls payload).store0 = s.store0 := field_of State.store0 (sendReport_only s opcode cls payload) (fun _ => rfl)
@[simp] theorem sendReport_store1 (s : State) (opcode : Byte) (cls : BitVec 2) (payload : List Byte) :
    (sendReport s opcode cls payload).store1 = s.store1 := field_of State.store1 (sendReport_only s opcode cls payload) (fun _ => rfl)
@[simp] theorem sendReport_step (s : State) (opcode : Byte) (cls : BitVec 2) (payload : List Byte) :
    (sendReport s opcode cls payload).step = s.step := field_of State.step (sendReport_only s opcode cls payload) (fun _ => rfl)
@[simp] theorem sendReport_stage (s : State) (opcode : Byte) (cls : BitVec 2) (payload : List Byte) :
    (sendReport s opcode cls payload).stage = s.stage := field_of State.stage (sendReport_only s opcode cls payload) (fun _ => rfl)
@[simp] theorem sendReport_tenants (s : State) (opcode : Byte) (cls : BitVec 2) (payload : List Byte) :
    (sendReport s opcode cls payload).tenants = s.tenants := field_of State.tenants (sendReport_only s opcode cls payload) (fun _ => rfl)
@[simp] theorem sendReport_dma (s : State) (opcode : Byte) (cls : BitVec 2) (payload : List Byte) :
    (sendReport s opcode cls payload).dma = s.dma := field_of State.dma (sendReport_only s opcode cls payload) (fun _ => rfl)
@[simp] theorem sendReport_fwHeld (s : State) (opcode : Byte) (cls : BitVec 2) (payload : List Byte) :
    (sendReport s opcode cls payload).fwHeld = s.fwHeld := field_of State.fwHeld (sendReport_only s opcode cls payload) (fun _ => rfl)
@[simp] theorem sendReport_waiting1 (s : State) (opcode : Byte) (cls : BitVec 2) (payload : List Byte) :
    (sendReport s opcode cls payload).waiting1 = s.waiting1 := field_of State.waiting1 (sendReport_only s opcode cls payload) (fun _ => rfl)
@[simp] theorem sendReport_taking (s : State) (opcode : Byte) (cls : BitVec 2) (payload : List Byte) :
    (sendReport s opcode cls payload).taking = s.taking := field_of State.taking (sendReport_only s opcode cls payload) (fun _ => rfl)
@[simp] theorem sendReport_arbs (s : State) (opcode : Byte) (cls : BitVec 2) (payload : List Byte) :
    (sendReport s opcode cls payload).arbs = s.arbs := field_of State.arbs (sendReport_only s opcode cls payload) (fun _ => rfl)
@[simp] theorem sendReport_xfers (s : State) (opcode : Byte) (cls : BitVec 2) (payload : List Byte) :
    (sendReport s opcode cls payload).xfers = s.xfers := field_of State.xfers (sendReport_only s opcode cls payload) (fun _ => rfl)
@[simp] theorem sendReport_ports (s : State) (opcode : Byte) (cls : BitVec 2) (payload : List Byte) :
    (sendReport s opcode cls payload).ports = s.ports := field_of State.ports (sendReport_only s opcode cls payload) (fun _ => rfl)
@[simp] theorem sendReport_err (s : State) (opcode : Byte) (cls : BitVec 2) (payload : List Byte) :
    (sendReport s opcode cls payload).err = s.err := field_of State.err (sendReport_only s opcode cls payload) (fun _ => rfl)
@[simp] theorem sendReport_alarms (s : State) (opcode : Byte) (cls : BitVec 2) (payload : List Byte) :
    (sendReport s opcode cls payload).alarms = s.alarms := field_of State.alarms (sendReport_only s opcode cls payload) (fun _ => rfl)
@[simp] theorem sendReport_trace (s : State) (opcode : Byte) (cls : BitVec 2) (payload : List Byte) :
    (sendReport s opcode cls payload).trace = s.trace := field_of State.trace (sendReport_only s opcode cls payload) (fun _ => rfl)
@[simp] theorem sendReport_health (s : State) (opcode : Byte) (cls : BitVec 2) (payload : List Byte) :
    (sendReport s opcode cls payload).health = s.health := field_of State.health (sendReport_only s opcode cls payload) (fun _ => rfl)
@[simp] theorem sendReport_secure (s : State) (opcode : Byte) (cls : BitVec 2) (payload : List Byte) :
    (sendReport s opcode cls payload).secure = s.secure := field_of State.secure (sendReport_only s opcode cls payload) (fun _ => rfl)
@[simp] theorem sendReport_journal (s : State) (opcode : Byte) (cls : BitVec 2) (payload : List Byte) :
    (sendReport s opcode cls payload).journal = s.journal := field_of State.journal (sendReport_only s opcode cls payload) (fun _ => rfl)
@[simp] theorem sendReport_restore (s : State) (opcode : Byte) (cls : BitVec 2) (payload : List Byte) :
    (sendReport s opcode cls payload).restore = s.restore := field_of State.restore (sendReport_only s opcode cls payload) (fun _ => rfl)

/-! Fields that `replyFrames` leaves alone. -/

@[simp] theorem replyFrames_pending (s : State) (opcode : Byte) (refSeq : BitVec 32) (status : Byte) (l : List (List Byte)) :
    (replyFrames s opcode refSeq status l).pending = s.pending := field_of State.pending (replyFrames_only s opcode refSeq status l) (fun _ => rfl)
@[simp] theorem replyFrames_now (s : State) (opcode : Byte) (refSeq : BitVec 32) (status : Byte) (l : List (List Byte)) :
    (replyFrames s opcode refSeq status l).now = s.now := field_of State.now (replyFrames_only s opcode refSeq status l) (fun _ => rfl)
@[simp] theorem replyFrames_ref (s : State) (opcode : Byte) (refSeq : BitVec 32) (status : Byte) (l : List (List Byte)) :
    (replyFrames s opcode refSeq status l).ref = s.ref := field_of State.ref (replyFrames_only s opcode refSeq status l) (fun _ => rfl)
@[simp] theorem replyFrames_half (s : State) (opcode : Byte) (refSeq : BitVec 32) (status : Byte) (l : List (List Byte)) :
    (replyFrames s opcode refSeq status l).half = s.half := field_of State.half (replyFrames_only s opcode refSeq status l) (fun _ => rfl)
@[simp] theorem replyFrames_cycle (s : State) (opcode : Byte) (refSeq : BitVec 32) (status : Byte) (l : List (List Byte)) :
    (replyFrames s opcode refSeq status l).cycle = s.cycle := field_of State.cycle (replyFrames_only s opcode refSeq status l) (fun _ => rfl)
@[simp] theorem replyFrames_free (s : State) (opcode : Byte) (refSeq : BitVec 32) (status : Byte) (l : List (List Byte)) :
    (replyFrames s opcode refSeq status l).free = s.free := field_of State.free (replyFrames_only s opcode refSeq status l) (fun _ => rfl)
@[simp] theorem replyFrames_pwr (s : State) (opcode : Byte) (refSeq : BitVec 32) (status : Byte) (l : List (List Byte)) :
    (replyFrames s opcode refSeq status l).pwr = s.pwr := field_of State.pwr (replyFrames_only s opcode refSeq status l) (fun _ => rfl)
@[simp] theorem replyFrames_tap (s : State) (opcode : Byte) (refSeq : BitVec 32) (status : Byte) (l : List (List Byte)) :
    (replyFrames s opcode refSeq status l).tap = s.tap := field_of State.tap (replyFrames_only s opcode refSeq status l) (fun _ => rfl)
@[simp] theorem replyFrames_guard (s : State) (opcode : Byte) (refSeq : BitVec 32) (status : Byte) (l : List (List Byte)) :
    (replyFrames s opcode refSeq status l).guard = s.guard := field_of State.guard (replyFrames_only s opcode refSeq status l) (fun _ => rfl)
@[simp] theorem replyFrames_nor (s : State) (opcode : Byte) (refSeq : BitVec 32) (status : Byte) (l : List (List Byte)) :
    (replyFrames s opcode refSeq status l).nor = s.nor := field_of State.nor (replyFrames_only s opcode refSeq status l) (fun _ => rfl)
@[simp] theorem replyFrames_nand (s : State) (opcode : Byte) (refSeq : BitVec 32) (status : Byte) (l : List (List Byte)) :
    (replyFrames s opcode refSeq status l).nand = s.nand := field_of State.nand (replyFrames_only s opcode refSeq status l) (fun _ => rfl)
@[simp] theorem replyFrames_beat (s : State) (opcode : Byte) (refSeq : BitVec 32) (status : Byte) (l : List (List Byte)) :
    (replyFrames s opcode refSeq status l).beat = s.beat := field_of State.beat (replyFrames_only s opcode refSeq status l) (fun _ => rfl)
@[simp] theorem replyFrames_cfg (s : State) (opcode : Byte) (refSeq : BitVec 32) (status : Byte) (l : List (List Byte)) :
    (replyFrames s opcode refSeq status l).cfg = s.cfg := field_of State.cfg (replyFrames_only s opcode refSeq status l) (fun _ => rfl)
@[simp] theorem replyFrames_store0 (s : State) (opcode : Byte) (refSeq : BitVec 32) (status : Byte) (l : List (List Byte)) :
    (replyFrames s opcode refSeq status l).store0 = s.store0 := field_of State.store0 (replyFrames_only s opcode refSeq status l) (fun _ => rfl)
@[simp] theorem replyFrames_store1 (s : State) (opcode : Byte) (refSeq : BitVec 32) (status : Byte) (l : List (List Byte)) :
    (replyFrames s opcode refSeq status l).store1 = s.store1 := field_of State.store1 (replyFrames_only s opcode refSeq status l) (fun _ => rfl)
@[simp] theorem replyFrames_step (s : State) (opcode : Byte) (refSeq : BitVec 32) (status : Byte) (l : List (List Byte)) :
    (replyFrames s opcode refSeq status l).step = s.step := field_of State.step (replyFrames_only s opcode refSeq status l) (fun _ => rfl)
@[simp] theorem replyFrames_stage (s : State) (opcode : Byte) (refSeq : BitVec 32) (status : Byte) (l : List (List Byte)) :
    (replyFrames s opcode refSeq status l).stage = s.stage := field_of State.stage (replyFrames_only s opcode refSeq status l) (fun _ => rfl)
@[simp] theorem replyFrames_tenants (s : State) (opcode : Byte) (refSeq : BitVec 32) (status : Byte) (l : List (List Byte)) :
    (replyFrames s opcode refSeq status l).tenants = s.tenants := field_of State.tenants (replyFrames_only s opcode refSeq status l) (fun _ => rfl)
@[simp] theorem replyFrames_dma (s : State) (opcode : Byte) (refSeq : BitVec 32) (status : Byte) (l : List (List Byte)) :
    (replyFrames s opcode refSeq status l).dma = s.dma := field_of State.dma (replyFrames_only s opcode refSeq status l) (fun _ => rfl)
@[simp] theorem replyFrames_fwHeld (s : State) (opcode : Byte) (refSeq : BitVec 32) (status : Byte) (l : List (List Byte)) :
    (replyFrames s opcode refSeq status l).fwHeld = s.fwHeld := field_of State.fwHeld (replyFrames_only s opcode refSeq status l) (fun _ => rfl)
@[simp] theorem replyFrames_waiting1 (s : State) (opcode : Byte) (refSeq : BitVec 32) (status : Byte) (l : List (List Byte)) :
    (replyFrames s opcode refSeq status l).waiting1 = s.waiting1 := field_of State.waiting1 (replyFrames_only s opcode refSeq status l) (fun _ => rfl)
@[simp] theorem replyFrames_taking (s : State) (opcode : Byte) (refSeq : BitVec 32) (status : Byte) (l : List (List Byte)) :
    (replyFrames s opcode refSeq status l).taking = s.taking := field_of State.taking (replyFrames_only s opcode refSeq status l) (fun _ => rfl)
@[simp] theorem replyFrames_arbs (s : State) (opcode : Byte) (refSeq : BitVec 32) (status : Byte) (l : List (List Byte)) :
    (replyFrames s opcode refSeq status l).arbs = s.arbs := field_of State.arbs (replyFrames_only s opcode refSeq status l) (fun _ => rfl)
@[simp] theorem replyFrames_xfers (s : State) (opcode : Byte) (refSeq : BitVec 32) (status : Byte) (l : List (List Byte)) :
    (replyFrames s opcode refSeq status l).xfers = s.xfers := field_of State.xfers (replyFrames_only s opcode refSeq status l) (fun _ => rfl)
@[simp] theorem replyFrames_ports (s : State) (opcode : Byte) (refSeq : BitVec 32) (status : Byte) (l : List (List Byte)) :
    (replyFrames s opcode refSeq status l).ports = s.ports := field_of State.ports (replyFrames_only s opcode refSeq status l) (fun _ => rfl)
@[simp] theorem replyFrames_err (s : State) (opcode : Byte) (refSeq : BitVec 32) (status : Byte) (l : List (List Byte)) :
    (replyFrames s opcode refSeq status l).err = s.err := field_of State.err (replyFrames_only s opcode refSeq status l) (fun _ => rfl)
@[simp] theorem replyFrames_alarms (s : State) (opcode : Byte) (refSeq : BitVec 32) (status : Byte) (l : List (List Byte)) :
    (replyFrames s opcode refSeq status l).alarms = s.alarms := field_of State.alarms (replyFrames_only s opcode refSeq status l) (fun _ => rfl)
@[simp] theorem replyFrames_trace (s : State) (opcode : Byte) (refSeq : BitVec 32) (status : Byte) (l : List (List Byte)) :
    (replyFrames s opcode refSeq status l).trace = s.trace := field_of State.trace (replyFrames_only s opcode refSeq status l) (fun _ => rfl)
@[simp] theorem replyFrames_health (s : State) (opcode : Byte) (refSeq : BitVec 32) (status : Byte) (l : List (List Byte)) :
    (replyFrames s opcode refSeq status l).health = s.health := field_of State.health (replyFrames_only s opcode refSeq status l) (fun _ => rfl)
@[simp] theorem replyFrames_secure (s : State) (opcode : Byte) (refSeq : BitVec 32) (status : Byte) (l : List (List Byte)) :
    (replyFrames s opcode refSeq status l).secure = s.secure := field_of State.secure (replyFrames_only s opcode refSeq status l) (fun _ => rfl)
@[simp] theorem replyFrames_journal (s : State) (opcode : Byte) (refSeq : BitVec 32) (status : Byte) (l : List (List Byte)) :
    (replyFrames s opcode refSeq status l).journal = s.journal := field_of State.journal (replyFrames_only s opcode refSeq status l) (fun _ => rfl)
@[simp] theorem replyFrames_restore (s : State) (opcode : Byte) (refSeq : BitVec 32) (status : Byte) (l : List (List Byte)) :
    (replyFrames s opcode refSeq status l).restore = s.restore := field_of State.restore (replyFrames_only s opcode refSeq status l) (fun _ => rfl)

/-! Fields that `finish` leaves alone. -/

@[simp] theorem finish_pending (s : State) (o : Owed) (status : Byte) (payload : List Byte) :
    (finish s o status payload).pending = s.pending := field_of State.pending (finish_only s o status payload) (fun _ => rfl)
@[simp] theorem finish_now (s : State) (o : Owed) (status : Byte) (payload : List Byte) :
    (finish s o status payload).now = s.now := field_of State.now (finish_only s o status payload) (fun _ => rfl)
@[simp] theorem finish_ref (s : State) (o : Owed) (status : Byte) (payload : List Byte) :
    (finish s o status payload).ref = s.ref := field_of State.ref (finish_only s o status payload) (fun _ => rfl)
@[simp] theorem finish_half (s : State) (o : Owed) (status : Byte) (payload : List Byte) :
    (finish s o status payload).half = s.half := field_of State.half (finish_only s o status payload) (fun _ => rfl)
@[simp] theorem finish_cycle (s : State) (o : Owed) (status : Byte) (payload : List Byte) :
    (finish s o status payload).cycle = s.cycle := field_of State.cycle (finish_only s o status payload) (fun _ => rfl)
@[simp] theorem finish_free (s : State) (o : Owed) (status : Byte) (payload : List Byte) :
    (finish s o status payload).free = s.free := field_of State.free (finish_only s o status payload) (fun _ => rfl)
@[simp] theorem finish_pwr (s : State) (o : Owed) (status : Byte) (payload : List Byte) :
    (finish s o status payload).pwr = s.pwr := field_of State.pwr (finish_only s o status payload) (fun _ => rfl)
@[simp] theorem finish_tap (s : State) (o : Owed) (status : Byte) (payload : List Byte) :
    (finish s o status payload).tap = s.tap := field_of State.tap (finish_only s o status payload) (fun _ => rfl)
@[simp] theorem finish_guard (s : State) (o : Owed) (status : Byte) (payload : List Byte) :
    (finish s o status payload).guard = s.guard := field_of State.guard (finish_only s o status payload) (fun _ => rfl)
@[simp] theorem finish_nor (s : State) (o : Owed) (status : Byte) (payload : List Byte) :
    (finish s o status payload).nor = s.nor := field_of State.nor (finish_only s o status payload) (fun _ => rfl)
@[simp] theorem finish_nand (s : State) (o : Owed) (status : Byte) (payload : List Byte) :
    (finish s o status payload).nand = s.nand := field_of State.nand (finish_only s o status payload) (fun _ => rfl)
@[simp] theorem finish_beat (s : State) (o : Owed) (status : Byte) (payload : List Byte) :
    (finish s o status payload).beat = s.beat := field_of State.beat (finish_only s o status payload) (fun _ => rfl)
@[simp] theorem finish_cfg (s : State) (o : Owed) (status : Byte) (payload : List Byte) :
    (finish s o status payload).cfg = s.cfg := field_of State.cfg (finish_only s o status payload) (fun _ => rfl)
@[simp] theorem finish_store0 (s : State) (o : Owed) (status : Byte) (payload : List Byte) :
    (finish s o status payload).store0 = s.store0 := field_of State.store0 (finish_only s o status payload) (fun _ => rfl)
@[simp] theorem finish_store1 (s : State) (o : Owed) (status : Byte) (payload : List Byte) :
    (finish s o status payload).store1 = s.store1 := field_of State.store1 (finish_only s o status payload) (fun _ => rfl)
@[simp] theorem finish_step (s : State) (o : Owed) (status : Byte) (payload : List Byte) :
    (finish s o status payload).step = s.step := field_of State.step (finish_only s o status payload) (fun _ => rfl)
@[simp] theorem finish_stage (s : State) (o : Owed) (status : Byte) (payload : List Byte) :
    (finish s o status payload).stage = s.stage := field_of State.stage (finish_only s o status payload) (fun _ => rfl)
@[simp] theorem finish_tenants (s : State) (o : Owed) (status : Byte) (payload : List Byte) :
    (finish s o status payload).tenants = s.tenants := field_of State.tenants (finish_only s o status payload) (fun _ => rfl)
@[simp] theorem finish_dma (s : State) (o : Owed) (status : Byte) (payload : List Byte) :
    (finish s o status payload).dma = s.dma := field_of State.dma (finish_only s o status payload) (fun _ => rfl)
@[simp] theorem finish_fwHeld (s : State) (o : Owed) (status : Byte) (payload : List Byte) :
    (finish s o status payload).fwHeld = s.fwHeld := field_of State.fwHeld (finish_only s o status payload) (fun _ => rfl)
@[simp] theorem finish_waiting1 (s : State) (o : Owed) (status : Byte) (payload : List Byte) :
    (finish s o status payload).waiting1 = s.waiting1 := field_of State.waiting1 (finish_only s o status payload) (fun _ => rfl)
@[simp] theorem finish_taking (s : State) (o : Owed) (status : Byte) (payload : List Byte) :
    (finish s o status payload).taking = s.taking := field_of State.taking (finish_only s o status payload) (fun _ => rfl)
@[simp] theorem finish_arbs (s : State) (o : Owed) (status : Byte) (payload : List Byte) :
    (finish s o status payload).arbs = s.arbs := field_of State.arbs (finish_only s o status payload) (fun _ => rfl)
@[simp] theorem finish_xfers (s : State) (o : Owed) (status : Byte) (payload : List Byte) :
    (finish s o status payload).xfers = s.xfers := field_of State.xfers (finish_only s o status payload) (fun _ => rfl)
@[simp] theorem finish_ports (s : State) (o : Owed) (status : Byte) (payload : List Byte) :
    (finish s o status payload).ports = s.ports := field_of State.ports (finish_only s o status payload) (fun _ => rfl)
@[simp] theorem finish_err (s : State) (o : Owed) (status : Byte) (payload : List Byte) :
    (finish s o status payload).err = s.err := field_of State.err (finish_only s o status payload) (fun _ => rfl)
@[simp] theorem finish_alarms (s : State) (o : Owed) (status : Byte) (payload : List Byte) :
    (finish s o status payload).alarms = s.alarms := field_of State.alarms (finish_only s o status payload) (fun _ => rfl)
@[simp] theorem finish_trace (s : State) (o : Owed) (status : Byte) (payload : List Byte) :
    (finish s o status payload).trace = s.trace := field_of State.trace (finish_only s o status payload) (fun _ => rfl)
@[simp] theorem finish_health (s : State) (o : Owed) (status : Byte) (payload : List Byte) :
    (finish s o status payload).health = s.health := field_of State.health (finish_only s o status payload) (fun _ => rfl)
@[simp] theorem finish_secure (s : State) (o : Owed) (status : Byte) (payload : List Byte) :
    (finish s o status payload).secure = s.secure := field_of State.secure (finish_only s o status payload) (fun _ => rfl)
@[simp] theorem finish_journal (s : State) (o : Owed) (status : Byte) (payload : List Byte) :
    (finish s o status payload).journal = s.journal := field_of State.journal (finish_only s o status payload) (fun _ => rfl)
@[simp] theorem finish_restore (s : State) (o : Owed) (status : Byte) (payload : List Byte) :
    (finish s o status payload).restore = s.restore := field_of State.restore (finish_only s o status payload) (fun _ => rfl)

/-! Fields that `creditUse` leaves alone. -/

@[simp] theorem creditUse_pending (s : State) (k : Kcp) (c : BitVec 2) :
    (creditUse s k c).pending = s.pending := field_of State.pending (creditUse_only s k c) (fun _ => rfl)
@[simp] theorem creditUse_now (s : State) (k : Kcp) (c : BitVec 2) :
    (creditUse s k c).now = s.now := field_of State.now (creditUse_only s k c) (fun _ => rfl)
@[simp] theorem creditUse_ref (s : State) (k : Kcp) (c : BitVec 2) :
    (creditUse s k c).ref = s.ref := field_of State.ref (creditUse_only s k c) (fun _ => rfl)
@[simp] theorem creditUse_half (s : State) (k : Kcp) (c : BitVec 2) :
    (creditUse s k c).half = s.half := field_of State.half (creditUse_only s k c) (fun _ => rfl)
@[simp] theorem creditUse_cycle (s : State) (k : Kcp) (c : BitVec 2) :
    (creditUse s k c).cycle = s.cycle := field_of State.cycle (creditUse_only s k c) (fun _ => rfl)
@[simp] theorem creditUse_free (s : State) (k : Kcp) (c : BitVec 2) :
    (creditUse s k c).free = s.free := field_of State.free (creditUse_only s k c) (fun _ => rfl)
@[simp] theorem creditUse_pwr (s : State) (k : Kcp) (c : BitVec 2) :
    (creditUse s k c).pwr = s.pwr := field_of State.pwr (creditUse_only s k c) (fun _ => rfl)
@[simp] theorem creditUse_tap (s : State) (k : Kcp) (c : BitVec 2) :
    (creditUse s k c).tap = s.tap := field_of State.tap (creditUse_only s k c) (fun _ => rfl)
@[simp] theorem creditUse_guard (s : State) (k : Kcp) (c : BitVec 2) :
    (creditUse s k c).guard = s.guard := field_of State.guard (creditUse_only s k c) (fun _ => rfl)
@[simp] theorem creditUse_nor (s : State) (k : Kcp) (c : BitVec 2) :
    (creditUse s k c).nor = s.nor := field_of State.nor (creditUse_only s k c) (fun _ => rfl)
@[simp] theorem creditUse_nand (s : State) (k : Kcp) (c : BitVec 2) :
    (creditUse s k c).nand = s.nand := field_of State.nand (creditUse_only s k c) (fun _ => rfl)
@[simp] theorem creditUse_beat (s : State) (k : Kcp) (c : BitVec 2) :
    (creditUse s k c).beat = s.beat := field_of State.beat (creditUse_only s k c) (fun _ => rfl)
@[simp] theorem creditUse_cfg (s : State) (k : Kcp) (c : BitVec 2) :
    (creditUse s k c).cfg = s.cfg := field_of State.cfg (creditUse_only s k c) (fun _ => rfl)
@[simp] theorem creditUse_store0 (s : State) (k : Kcp) (c : BitVec 2) :
    (creditUse s k c).store0 = s.store0 := field_of State.store0 (creditUse_only s k c) (fun _ => rfl)
@[simp] theorem creditUse_store1 (s : State) (k : Kcp) (c : BitVec 2) :
    (creditUse s k c).store1 = s.store1 := field_of State.store1 (creditUse_only s k c) (fun _ => rfl)
@[simp] theorem creditUse_step (s : State) (k : Kcp) (c : BitVec 2) :
    (creditUse s k c).step = s.step := field_of State.step (creditUse_only s k c) (fun _ => rfl)
@[simp] theorem creditUse_stage (s : State) (k : Kcp) (c : BitVec 2) :
    (creditUse s k c).stage = s.stage := field_of State.stage (creditUse_only s k c) (fun _ => rfl)
@[simp] theorem creditUse_tenants (s : State) (k : Kcp) (c : BitVec 2) :
    (creditUse s k c).tenants = s.tenants := field_of State.tenants (creditUse_only s k c) (fun _ => rfl)
@[simp] theorem creditUse_dma (s : State) (k : Kcp) (c : BitVec 2) :
    (creditUse s k c).dma = s.dma := field_of State.dma (creditUse_only s k c) (fun _ => rfl)
@[simp] theorem creditUse_fwHeld (s : State) (k : Kcp) (c : BitVec 2) :
    (creditUse s k c).fwHeld = s.fwHeld := field_of State.fwHeld (creditUse_only s k c) (fun _ => rfl)
@[simp] theorem creditUse_waiting1 (s : State) (k : Kcp) (c : BitVec 2) :
    (creditUse s k c).waiting1 = s.waiting1 := field_of State.waiting1 (creditUse_only s k c) (fun _ => rfl)
@[simp] theorem creditUse_taking (s : State) (k : Kcp) (c : BitVec 2) :
    (creditUse s k c).taking = s.taking := field_of State.taking (creditUse_only s k c) (fun _ => rfl)
@[simp] theorem creditUse_arbs (s : State) (k : Kcp) (c : BitVec 2) :
    (creditUse s k c).arbs = s.arbs := field_of State.arbs (creditUse_only s k c) (fun _ => rfl)
@[simp] theorem creditUse_xfers (s : State) (k : Kcp) (c : BitVec 2) :
    (creditUse s k c).xfers = s.xfers := field_of State.xfers (creditUse_only s k c) (fun _ => rfl)
@[simp] theorem creditUse_ports (s : State) (k : Kcp) (c : BitVec 2) :
    (creditUse s k c).ports = s.ports := field_of State.ports (creditUse_only s k c) (fun _ => rfl)
@[simp] theorem creditUse_err (s : State) (k : Kcp) (c : BitVec 2) :
    (creditUse s k c).err = s.err := field_of State.err (creditUse_only s k c) (fun _ => rfl)
@[simp] theorem creditUse_alarms (s : State) (k : Kcp) (c : BitVec 2) :
    (creditUse s k c).alarms = s.alarms := field_of State.alarms (creditUse_only s k c) (fun _ => rfl)
@[simp] theorem creditUse_trace (s : State) (k : Kcp) (c : BitVec 2) :
    (creditUse s k c).trace = s.trace := field_of State.trace (creditUse_only s k c) (fun _ => rfl)
@[simp] theorem creditUse_health (s : State) (k : Kcp) (c : BitVec 2) :
    (creditUse s k c).health = s.health := field_of State.health (creditUse_only s k c) (fun _ => rfl)
@[simp] theorem creditUse_secure (s : State) (k : Kcp) (c : BitVec 2) :
    (creditUse s k c).secure = s.secure := field_of State.secure (creditUse_only s k c) (fun _ => rfl)
@[simp] theorem creditUse_journal (s : State) (k : Kcp) (c : BitVec 2) :
    (creditUse s k c).journal = s.journal := field_of State.journal (creditUse_only s k c) (fun _ => rfl)
@[simp] theorem creditUse_restore (s : State) (k : Kcp) (c : BitVec 2) :
    (creditUse s k c).restore = s.restore := field_of State.restore (creditUse_only s k c) (fun _ => rfl)

/-! Fields that `clockTo` leaves alone. -/

@[simp] theorem clockTo_pending (s : State) (t : Nat) :
    (clockTo s t).pending = s.pending := field_of State.pending (clockTo_only s t) (fun _ => rfl)
@[simp] theorem clockTo_free (s : State) (t : Nat) :
    (clockTo s t).free = s.free := field_of State.free (clockTo_only s t) (fun _ => rfl)
@[simp] theorem clockTo_pwr (s : State) (t : Nat) :
    (clockTo s t).pwr = s.pwr := field_of State.pwr (clockTo_only s t) (fun _ => rfl)
@[simp] theorem clockTo_tap (s : State) (t : Nat) :
    (clockTo s t).tap = s.tap := field_of State.tap (clockTo_only s t) (fun _ => rfl)
@[simp] theorem clockTo_guard (s : State) (t : Nat) :
    (clockTo s t).guard = s.guard := field_of State.guard (clockTo_only s t) (fun _ => rfl)
@[simp] theorem clockTo_nor (s : State) (t : Nat) :
    (clockTo s t).nor = s.nor := field_of State.nor (clockTo_only s t) (fun _ => rfl)
@[simp] theorem clockTo_nand (s : State) (t : Nat) :
    (clockTo s t).nand = s.nand := field_of State.nand (clockTo_only s t) (fun _ => rfl)
@[simp] theorem clockTo_beat (s : State) (t : Nat) :
    (clockTo s t).beat = s.beat := field_of State.beat (clockTo_only s t) (fun _ => rfl)
@[simp] theorem clockTo_ctl (s : State) (t : Nat) :
    (clockTo s t).ctl = s.ctl := field_of State.ctl (clockTo_only s t) (fun _ => rfl)
@[simp] theorem clockTo_ses (s : State) (t : Nat) :
    (clockTo s t).ses = s.ses := field_of State.ses (clockTo_only s t) (fun _ => rfl)
@[simp] theorem clockTo_cfg (s : State) (t : Nat) :
    (clockTo s t).cfg = s.cfg := field_of State.cfg (clockTo_only s t) (fun _ => rfl)
@[simp] theorem clockTo_store0 (s : State) (t : Nat) :
    (clockTo s t).store0 = s.store0 := field_of State.store0 (clockTo_only s t) (fun _ => rfl)
@[simp] theorem clockTo_store1 (s : State) (t : Nat) :
    (clockTo s t).store1 = s.store1 := field_of State.store1 (clockTo_only s t) (fun _ => rfl)
@[simp] theorem clockTo_step (s : State) (t : Nat) :
    (clockTo s t).step = s.step := field_of State.step (clockTo_only s t) (fun _ => rfl)
@[simp] theorem clockTo_stage (s : State) (t : Nat) :
    (clockTo s t).stage = s.stage := field_of State.stage (clockTo_only s t) (fun _ => rfl)
@[simp] theorem clockTo_tenants (s : State) (t : Nat) :
    (clockTo s t).tenants = s.tenants := field_of State.tenants (clockTo_only s t) (fun _ => rfl)
@[simp] theorem clockTo_dma (s : State) (t : Nat) :
    (clockTo s t).dma = s.dma := field_of State.dma (clockTo_only s t) (fun _ => rfl)
@[simp] theorem clockTo_fwHeld (s : State) (t : Nat) :
    (clockTo s t).fwHeld = s.fwHeld := field_of State.fwHeld (clockTo_only s t) (fun _ => rfl)
@[simp] theorem clockTo_waiting1 (s : State) (t : Nat) :
    (clockTo s t).waiting1 = s.waiting1 := field_of State.waiting1 (clockTo_only s t) (fun _ => rfl)
@[simp] theorem clockTo_taking (s : State) (t : Nat) :
    (clockTo s t).taking = s.taking := field_of State.taking (clockTo_only s t) (fun _ => rfl)
@[simp] theorem clockTo_arbs (s : State) (t : Nat) :
    (clockTo s t).arbs = s.arbs := field_of State.arbs (clockTo_only s t) (fun _ => rfl)
@[simp] theorem clockTo_xfers (s : State) (t : Nat) :
    (clockTo s t).xfers = s.xfers := field_of State.xfers (clockTo_only s t) (fun _ => rfl)
@[simp] theorem clockTo_ports (s : State) (t : Nat) :
    (clockTo s t).ports = s.ports := field_of State.ports (clockTo_only s t) (fun _ => rfl)
@[simp] theorem clockTo_err (s : State) (t : Nat) :
    (clockTo s t).err = s.err := field_of State.err (clockTo_only s t) (fun _ => rfl)
@[simp] theorem clockTo_alarms (s : State) (t : Nat) :
    (clockTo s t).alarms = s.alarms := field_of State.alarms (clockTo_only s t) (fun _ => rfl)
@[simp] theorem clockTo_trace (s : State) (t : Nat) :
    (clockTo s t).trace = s.trace := field_of State.trace (clockTo_only s t) (fun _ => rfl)
@[simp] theorem clockTo_health (s : State) (t : Nat) :
    (clockTo s t).health = s.health := field_of State.health (clockTo_only s t) (fun _ => rfl)
@[simp] theorem clockTo_secure (s : State) (t : Nat) :
    (clockTo s t).secure = s.secure := field_of State.secure (clockTo_only s t) (fun _ => rfl)
@[simp] theorem clockTo_journal (s : State) (t : Nat) :
    (clockTo s t).journal = s.journal := field_of State.journal (clockTo_only s t) (fun _ => rfl)
@[simp] theorem clockTo_restore (s : State) (t : Nat) :
    (clockTo s t).restore = s.restore := field_of State.restore (clockTo_only s t) (fun _ => rfl)

/-! Fields that `traceAt` leaves alone. -/

@[simp] theorem traceAt_pending (s : State) (c : Nat) (kind : Byte) (p : Place) (unit inst cue addr count : Nat) :
    (traceAt s c kind p unit inst cue addr count).pending = s.pending := (rfl)
@[simp] theorem traceAt_now (s : State) (c : Nat) (kind : Byte) (p : Place) (unit inst cue addr count : Nat) :
    (traceAt s c kind p unit inst cue addr count).now = s.now := (rfl)
@[simp] theorem traceAt_ref (s : State) (c : Nat) (kind : Byte) (p : Place) (unit inst cue addr count : Nat) :
    (traceAt s c kind p unit inst cue addr count).ref = s.ref := (rfl)
@[simp] theorem traceAt_half (s : State) (c : Nat) (kind : Byte) (p : Place) (unit inst cue addr count : Nat) :
    (traceAt s c kind p unit inst cue addr count).half = s.half := (rfl)
@[simp] theorem traceAt_cycle (s : State) (c : Nat) (kind : Byte) (p : Place) (unit inst cue addr count : Nat) :
    (traceAt s c kind p unit inst cue addr count).cycle = s.cycle := (rfl)
@[simp] theorem traceAt_free (s : State) (c : Nat) (kind : Byte) (p : Place) (unit inst cue addr count : Nat) :
    (traceAt s c kind p unit inst cue addr count).free = s.free := (rfl)
@[simp] theorem traceAt_pwr (s : State) (c : Nat) (kind : Byte) (p : Place) (unit inst cue addr count : Nat) :
    (traceAt s c kind p unit inst cue addr count).pwr = s.pwr := (rfl)
@[simp] theorem traceAt_tap (s : State) (c : Nat) (kind : Byte) (p : Place) (unit inst cue addr count : Nat) :
    (traceAt s c kind p unit inst cue addr count).tap = s.tap := (rfl)
@[simp] theorem traceAt_guard (s : State) (c : Nat) (kind : Byte) (p : Place) (unit inst cue addr count : Nat) :
    (traceAt s c kind p unit inst cue addr count).guard = s.guard := (rfl)
@[simp] theorem traceAt_nor (s : State) (c : Nat) (kind : Byte) (p : Place) (unit inst cue addr count : Nat) :
    (traceAt s c kind p unit inst cue addr count).nor = s.nor := (rfl)
@[simp] theorem traceAt_nand (s : State) (c : Nat) (kind : Byte) (p : Place) (unit inst cue addr count : Nat) :
    (traceAt s c kind p unit inst cue addr count).nand = s.nand := (rfl)
@[simp] theorem traceAt_beat (s : State) (c : Nat) (kind : Byte) (p : Place) (unit inst cue addr count : Nat) :
    (traceAt s c kind p unit inst cue addr count).beat = s.beat := (rfl)
@[simp] theorem traceAt_ctl (s : State) (c : Nat) (kind : Byte) (p : Place) (unit inst cue addr count : Nat) :
    (traceAt s c kind p unit inst cue addr count).ctl = s.ctl := (rfl)
@[simp] theorem traceAt_ses (s : State) (c : Nat) (kind : Byte) (p : Place) (unit inst cue addr count : Nat) :
    (traceAt s c kind p unit inst cue addr count).ses = s.ses := (rfl)
@[simp] theorem traceAt_cfg (s : State) (c : Nat) (kind : Byte) (p : Place) (unit inst cue addr count : Nat) :
    (traceAt s c kind p unit inst cue addr count).cfg = s.cfg := (rfl)
@[simp] theorem traceAt_store0 (s : State) (c : Nat) (kind : Byte) (p : Place) (unit inst cue addr count : Nat) :
    (traceAt s c kind p unit inst cue addr count).store0 = s.store0 := (rfl)
@[simp] theorem traceAt_store1 (s : State) (c : Nat) (kind : Byte) (p : Place) (unit inst cue addr count : Nat) :
    (traceAt s c kind p unit inst cue addr count).store1 = s.store1 := (rfl)
@[simp] theorem traceAt_step (s : State) (c : Nat) (kind : Byte) (p : Place) (unit inst cue addr count : Nat) :
    (traceAt s c kind p unit inst cue addr count).step = s.step := (rfl)
@[simp] theorem traceAt_stage (s : State) (c : Nat) (kind : Byte) (p : Place) (unit inst cue addr count : Nat) :
    (traceAt s c kind p unit inst cue addr count).stage = s.stage := (rfl)
@[simp] theorem traceAt_tenants (s : State) (c : Nat) (kind : Byte) (p : Place) (unit inst cue addr count : Nat) :
    (traceAt s c kind p unit inst cue addr count).tenants = s.tenants := (rfl)
@[simp] theorem traceAt_dma (s : State) (c : Nat) (kind : Byte) (p : Place) (unit inst cue addr count : Nat) :
    (traceAt s c kind p unit inst cue addr count).dma = s.dma := (rfl)
@[simp] theorem traceAt_fwHeld (s : State) (c : Nat) (kind : Byte) (p : Place) (unit inst cue addr count : Nat) :
    (traceAt s c kind p unit inst cue addr count).fwHeld = s.fwHeld := (rfl)
@[simp] theorem traceAt_waiting1 (s : State) (c : Nat) (kind : Byte) (p : Place) (unit inst cue addr count : Nat) :
    (traceAt s c kind p unit inst cue addr count).waiting1 = s.waiting1 := (rfl)
@[simp] theorem traceAt_taking (s : State) (c : Nat) (kind : Byte) (p : Place) (unit inst cue addr count : Nat) :
    (traceAt s c kind p unit inst cue addr count).taking = s.taking := (rfl)
@[simp] theorem traceAt_arbs (s : State) (c : Nat) (kind : Byte) (p : Place) (unit inst cue addr count : Nat) :
    (traceAt s c kind p unit inst cue addr count).arbs = s.arbs := (rfl)
@[simp] theorem traceAt_xfers (s : State) (c : Nat) (kind : Byte) (p : Place) (unit inst cue addr count : Nat) :
    (traceAt s c kind p unit inst cue addr count).xfers = s.xfers := (rfl)
@[simp] theorem traceAt_ports (s : State) (c : Nat) (kind : Byte) (p : Place) (unit inst cue addr count : Nat) :
    (traceAt s c kind p unit inst cue addr count).ports = s.ports := (rfl)
@[simp] theorem traceAt_err (s : State) (c : Nat) (kind : Byte) (p : Place) (unit inst cue addr count : Nat) :
    (traceAt s c kind p unit inst cue addr count).err = s.err := (rfl)
@[simp] theorem traceAt_alarms (s : State) (c : Nat) (kind : Byte) (p : Place) (unit inst cue addr count : Nat) :
    (traceAt s c kind p unit inst cue addr count).alarms = s.alarms := (rfl)
@[simp] theorem traceAt_health (s : State) (c : Nat) (kind : Byte) (p : Place) (unit inst cue addr count : Nat) :
    (traceAt s c kind p unit inst cue addr count).health = s.health := (rfl)
@[simp] theorem traceAt_secure (s : State) (c : Nat) (kind : Byte) (p : Place) (unit inst cue addr count : Nat) :
    (traceAt s c kind p unit inst cue addr count).secure = s.secure := (rfl)
@[simp] theorem traceAt_journal (s : State) (c : Nat) (kind : Byte) (p : Place) (unit inst cue addr count : Nat) :
    (traceAt s c kind p unit inst cue addr count).journal = s.journal := (rfl)
@[simp] theorem traceAt_restore (s : State) (c : Nat) (kind : Byte) (p : Place) (unit inst cue addr count : Nat) :
    (traceAt s c kind p unit inst cue addr count).restore = s.restore := (rfl)

end Sys2Proof.Machine
end

