-- ==== Sys2Proof/Laws/Commands.lean ====
section
/-! SUPPORT. What an accepted command frame does: everything before the command's own checks, said once. -/

namespace Sys2Proof.Machine

@[simp] theorem creditUse_ses_exp (s : State) (k : Kcp) (c : BitVec 2) : (creditUse s k c).ses = s.ses := by cases k <;> rfl

theorem accepts_iff (s : State) (f : Frame) (i : CmdInfo) :
    accepts s f i = true ↔ (kcp s f.port).up = true ∧ creditHeld (kcp s f.port) f.cls = true ∧ f.cls = i.cls ∧
      (isStandby s f.port = false ∨ i.standby = true) ∧ s.ses.current = some f.session ∧ f.seq = s.ses.exp f.cls ∧
      s.pwr.stage = 6 ∧ s.guard.lifecycle ≠ .scrapped ∧ s.guard.zero = none ∧ s.taking = none ∧
      (f.cls ≠ 1 ∨ (class1Open s = false ∧ s.waiting1 = [])) := by
  simp [accepts, and_assoc]

theorem afterAccept_guard' (s : State) (f : Frame) : (afterAccept s f).guard = s.guard := by
  unfold afterAccept; exact creditUse_guard s f.port f.cls

/-- A body runs where nothing of the state refuses its command: its answer is sent, whatever it is. -/
theorem runBody_open {s : State} {i : CmdInfo} (o : Owed) (body : State → Owed → State × Ans) (h : stateRefuses s i = none) :
    runBody s o i body = answer (body s o).1 o (body s o).2 := by
  unfold runBody
  dsimp only
  split
  · rfl
  · rw [h]

/-- READY, not SCRAPPED and with no zeroisation under way, the state refuses no command. -/
theorem stateRefuses_none {s : State} (i : CmdInfo) (h7 : s.pwr.stage = 6) (h8 : s.guard.lifecycle ≠ .scrapped) (h9 : s.guard.zero = none) :
    stateRefuses s i = none := by
  unfold stateRefuses
  rw [if_neg (by simp [stageRefuses, h7]), if_neg (c := scrapRefuses s i = true) (by simp [scrapRefuses, h8]),
    if_neg (c := (zeroStart s = true ∧ _)) (by simp [zeroStart, h9])]
  simp

/-- An accepted frame runs its command's body on the state after acceptance, and the answer is sent. -/
theorem runCommand_accepts {s : State} {f : Frame} {i : CmdInfo} (c : Instr) (body : State → Owed → State × Ans)
    (h : accepts s f i = true) (hop : i.opcode ≠ 0x01) :
    runCommand s f c i body = answer (body (afterAccept s f) (owedBy s f i.opcode)).1 (owedBy s f i.opcode)
      (body (afterAccept s f) (owedBy s f i.opcode)).2 := by
  obtain ⟨h1, h2, h3, h4, h5, h6, h7, h8, h9, h10, h11⟩ := (accepts_iff s f i).1 h
  have hst : isStandby (creditUse s f.port f.cls) f.port = isStandby s f.port := by
    unfold creditUse isStandby; cases f.port <;> rfl
  have e1 : (isStandby (creditUse s f.port f.cls) f.port = true ∧ (!i.standby) = true) ↔ False := by
    rw [hst]; rcases h4 with h | h <;> simp [h]
  have hw : (f.cls = 2 ∧ f.cls ≠ i.cls) ↔ False := by simp [h3]
  have hn : ((creditUse s f.port f.cls).ses.current ≠ some f.session ∧ (!sessionFree (creditUse s f.port f.cls) i) = true) ↔ False := by
    simp [h5]
  have hs : seqFree (creditUse s f.port f.cls) i = false := by
    simpa [seqFree, h5, h7] using hop
  have hq : seqCheck ((creditUse s f.port f.cls).ses.exp f.cls) f.seq = .expected := by simp [seqCheck, h6]
  have hp : (afterAccept s f).pwr = s.pwr := by unfold afterAccept; exact creditUse_pwr s f.port f.cls
  have hg : (afterAccept s f).guard = s.guard := afterAccept_guard' s f
  have hr := stateRefuses_none (s := afterAccept s f) i (by rw [hp, h7]) (by rw [hg]; exact h8) (by rw [hg, h9])
  have hb : runBody (afterAccept s f) (owedBy s f i.opcode) i body = _ := runBody_open _ _ hr
  unfold runCommand
  rw [h10]
  dsimp only
  rw [h1, h2]
  simp only [Bool.not_true, Bool.false_eq_true, if_false]
  unfold checkCommand
  rw [if_neg hw.1, if_neg (by simp [h3]), if_neg e1.1, if_neg hn.1, hs]
  simp only [Bool.false_eq_true, if_false, hq]
  unfold takeCommand
  rw [if_neg, ← hb]
  · simp only [owedBy, creditUse_ses_exp, afterAccept]
  · have hc : class1Open { creditUse s f.port f.cls with ses := (creditUse s f.port f.cls).ses.advance f.cls } = class1Open s := by
      simp [class1Open]
    rw [hc]
    rintro ⟨hx, -, hy⟩
    rcases h11 with h | ⟨ha, hb⟩
    · exact h hx
    · rcases hy with hy | hy
      · rw [ha] at hy; exact Bool.noConfusion hy
      · simp [hb] at hy

/-- SESSION_OPEN is taken without a session and whatever its SEQ, whatever waits: its body runs on the state whose credit is used, and its
reply is stored in no session. -/
theorem runCommand_opens {s : State} {f : Frame} {i : CmdInfo} (c : Instr) (body : State → Owed → State × Ans)
    (h1 : (kcp s f.port).up = true) (h2 : creditHeld (kcp s f.port) f.cls = true) (h3 : f.cls = i.cls) (h4 : i.standby = true)
    (h5 : i.needSession = false) (h6 : i.opcode = 0x01) (h7 : s.pwr.stage = 6) (h8 : s.guard.lifecycle ≠ .scrapped)
    (h9 : s.guard.zero = none) (h10 : s.taking = none) :
    runCommand s f c i body =
      let o : Owed := { opcode := i.opcode, cls := f.cls, seq := f.seq, session := none }
      answer (body (creditUse s f.port f.cls) o).1 o (body (creditUse s f.port f.cls) o).2 := by
  have hr := stateRefuses_none (s := creditUse s f.port f.cls) i (by simpa using h7) (by simpa using h8) (by simpa using h9)
  unfold runCommand
  rw [h10]
  dsimp only
  rw [h1, h2]
  simp only [Bool.not_true, Bool.false_eq_true, if_false]
  unfold checkCommand
  rw [if_neg (by simp [h3]), if_neg (by simp [h3]), if_neg (by simp [h4]), if_neg (by simp [sessionFree, h5]),
    if_pos (by simp [seqFree, h6])]
  unfold takeCommand
  rw [if_neg (by simp [h6]), runBody_open _ _ hr]

theorem acceptsData_iff (s : State) (f : Frame) (i : CmdInfo) :
    acceptsData s f i = true ↔ (kcp s f.port).up = true ∧ creditHeld (kcp s f.port) f.cls = true ∧ f.cls = 2 ∧
      (isStandby s f.port = false ∨ i.standby = true) ∧ s.ses.current = some f.session ∧
      s.pwr.stage = 6 ∧ s.guard.lifecycle ≠ .scrapped ∧ s.guard.zero = none := by
  simp [acceptsData, and_assoc]

/-- An accepted data frame does what its body says. -/
theorem runData_accepts {s t : State} {f : Frame} {i : CmdInfo} (body : State → Option State) (h : acceptsData s f i = true)
    (hb : body (creditUse s f.port f.cls) = some t) : runData s f i body = t := by
  obtain ⟨h1, h2, h3, h4, h5, h7, h8, h9⟩ := (acceptsData_iff s f i).1 h
  have hst : isStandby (creditUse s f.port f.cls) f.port = isStandby s f.port := by
    unfold creditUse isStandby; cases f.port <;> rfl
  unfold runData
  rw [h1, h2]
  simp only [Bool.not_true, Bool.false_eq_true, if_false]
  unfold checkData
  rw [if_neg (by simp [h3]), if_neg (by rw [hst]; rcases h4 with h | h <;> simp [h]), if_neg (by simp [h5]),
    if_neg (by simp [stageRefuses, scrapRefuses, h7, h8, h9]), hb]

/-- Acceptance touches the port and the session alone. -/
theorem afterAccept_only (s : State) (f : Frame) : butFrames (afterAccept s f) = butFrames s := by
  unfold afterAccept creditUse; cases f.port <;> rfl

@[simp] theorem afterAccept_pending (s : State) (f : Frame) : (afterAccept s f).pending = s.pending := field_of State.pending (afterAccept_only s f) (fun _ => rfl)
@[simp] theorem afterAccept_now (s : State) (f : Frame) : (afterAccept s f).now = s.now := field_of State.now (afterAccept_only s f) (fun _ => rfl)
@[simp] theorem afterAccept_ref (s : State) (f : Frame) : (afterAccept s f).ref = s.ref := field_of State.ref (afterAccept_only s f) (fun _ => rfl)
@[simp] theorem afterAccept_half (s : State) (f : Frame) : (afterAccept s f).half = s.half := field_of State.half (afterAccept_only s f) (fun _ => rfl)
@[simp] theorem afterAccept_cycle (s : State) (f : Frame) : (afterAccept s f).cycle = s.cycle := field_of State.cycle (afterAccept_only s f) (fun _ => rfl)
@[simp] theorem afterAccept_free (s : State) (f : Frame) : (afterAccept s f).free = s.free := field_of State.free (afterAccept_only s f) (fun _ => rfl)
@[simp] theorem afterAccept_pwr (s : State) (f : Frame) : (afterAccept s f).pwr = s.pwr := field_of State.pwr (afterAccept_only s f) (fun _ => rfl)
@[simp] theorem afterAccept_tap (s : State) (f : Frame) : (afterAccept s f).tap = s.tap := field_of State.tap (afterAccept_only s f) (fun _ => rfl)
@[simp] theorem afterAccept_guard (s : State) (f : Frame) : (afterAccept s f).guard = s.guard := field_of State.guard (afterAccept_only s f) (fun _ => rfl)
@[simp] theorem afterAccept_nor (s : State) (f : Frame) : (afterAccept s f).nor = s.nor := field_of State.nor (afterAccept_only s f) (fun _ => rfl)
@[simp] theorem afterAccept_nand (s : State) (f : Frame) : (afterAccept s f).nand = s.nand := field_of State.nand (afterAccept_only s f) (fun _ => rfl)
@[simp] theorem afterAccept_beat (s : State) (f : Frame) : (afterAccept s f).beat = s.beat := field_of State.beat (afterAccept_only s f) (fun _ => rfl)
@[simp] theorem afterAccept_cfg (s : State) (f : Frame) : (afterAccept s f).cfg = s.cfg := field_of State.cfg (afterAccept_only s f) (fun _ => rfl)
@[simp] theorem afterAccept_store0 (s : State) (f : Frame) : (afterAccept s f).store0 = s.store0 := field_of State.store0 (afterAccept_only s f) (fun _ => rfl)
@[simp] theorem afterAccept_store1 (s : State) (f : Frame) : (afterAccept s f).store1 = s.store1 := field_of State.store1 (afterAccept_only s f) (fun _ => rfl)
@[simp] theorem afterAccept_step (s : State) (f : Frame) : (afterAccept s f).step = s.step := field_of State.step (afterAccept_only s f) (fun _ => rfl)
@[simp] theorem afterAccept_stage (s : State) (f : Frame) : (afterAccept s f).stage = s.stage := field_of State.stage (afterAccept_only s f) (fun _ => rfl)
@[simp] theorem afterAccept_mem (s : State) (f : Frame) : (afterAccept s f).mem = s.mem := field_of State.mem (afterAccept_only s f) (fun _ => rfl)
@[simp] theorem afterAccept_tenants (s : State) (f : Frame) : (afterAccept s f).tenants = s.tenants := field_of State.tenants (afterAccept_only s f) (fun _ => rfl)
@[simp] theorem afterAccept_dma (s : State) (f : Frame) : (afterAccept s f).dma = s.dma := field_of State.dma (afterAccept_only s f) (fun _ => rfl)
@[simp] theorem afterAccept_fwHeld (s : State) (f : Frame) : (afterAccept s f).fwHeld = s.fwHeld := field_of State.fwHeld (afterAccept_only s f) (fun _ => rfl)
@[simp] theorem afterAccept_waiting1 (s : State) (f : Frame) : (afterAccept s f).waiting1 = s.waiting1 := field_of State.waiting1 (afterAccept_only s f) (fun _ => rfl)
@[simp] theorem afterAccept_taking (s : State) (f : Frame) : (afterAccept s f).taking = s.taking := field_of State.taking (afterAccept_only s f) (fun _ => rfl)
@[simp] theorem afterAccept_arbs (s : State) (f : Frame) : (afterAccept s f).arbs = s.arbs := field_of State.arbs (afterAccept_only s f) (fun _ => rfl)
@[simp] theorem afterAccept_xfers (s : State) (f : Frame) : (afterAccept s f).xfers = s.xfers := field_of State.xfers (afterAccept_only s f) (fun _ => rfl)
@[simp] theorem afterAccept_ports (s : State) (f : Frame) : (afterAccept s f).ports = s.ports := field_of State.ports (afterAccept_only s f) (fun _ => rfl)
@[simp] theorem afterAccept_err (s : State) (f : Frame) : (afterAccept s f).err = s.err := field_of State.err (afterAccept_only s f) (fun _ => rfl)
@[simp] theorem afterAccept_alarms (s : State) (f : Frame) : (afterAccept s f).alarms = s.alarms := field_of State.alarms (afterAccept_only s f) (fun _ => rfl)
@[simp] theorem afterAccept_trace (s : State) (f : Frame) : (afterAccept s f).trace = s.trace := field_of State.trace (afterAccept_only s f) (fun _ => rfl)
@[simp] theorem afterAccept_health (s : State) (f : Frame) : (afterAccept s f).health = s.health := field_of State.health (afterAccept_only s f) (fun _ => rfl)
@[simp] theorem afterAccept_secure (s : State) (f : Frame) : (afterAccept s f).secure = s.secure := field_of State.secure (afterAccept_only s f) (fun _ => rfl)
@[simp] theorem afterAccept_journal (s : State) (f : Frame) : (afterAccept s f).journal = s.journal := field_of State.journal (afterAccept_only s f) (fun _ => rfl)
@[simp] theorem afterAccept_restore (s : State) (f : Frame) : (afterAccept s f).restore = s.restore := field_of State.restore (afterAccept_only s f) (fun _ => rfl)
@[simp] theorem afterAccept_carrier (s : State) (f : Frame) : (afterAccept s f).ctl.carrier = s.ctl.carrier := by
  unfold afterAccept creditUse; cases f.port <;> rfl
@[simp] theorem afterAccept_sent (s : State) (f : Frame) : (afterAccept s f).ctl.sent = s.ctl.sent := by
  unfold afterAccept creditUse; cases f.port <;> rfl
@[simp] theorem afterAccept_current (s : State) (f : Frame) : (afterAccept s f).ses.current = s.ses.current := by
  unfold afterAccept Session.advance; dsimp only; rw [creditUse_ses_exp]; split <;> rfl
@[simp] theorem afterAccept_last (s : State) (f : Frame) : (afterAccept s f).ses.last = s.ses.last := by
  unfold afterAccept Session.advance; dsimp only; rw [creditUse_ses_exp]; split <;> rfl

end Sys2Proof.Machine
end

