-- ==== Sys2Proof/Laws/Events.lean ====
section
/-! SUPPORT. What an error event leaves in the sources and their counts. -/

namespace Sys2Proof.Machine

/-- The record that an event leaves in its source. -/
def eventOf (s : State) (e : Event) : ErrRec := eventRec s e (raises s e) (replayKind e.kind && stepStarted s)

/-- An event updates its own source. -/
theorem raise_sources (s : State) (e : Event) :
    (raise s e).err.sources = (sourceUpdate s e (eventOf s e)).err.sources := by
  have hs : ∀ t, (stepMark t e).err = t.err := by intro t; unfold stepMark; split <;> rfl
  have hl : ∀ t p r, (latchAlarm t p r).err = t.err := by
    intro t p r; unfold latchAlarm; dsimp only; split
    · rfl
    · split <;> rfl
  have hh : ∀ t, (healthEvent t e).err = t.err := by intro t; unfold healthEvent; split <;> rfl
  have hm : ∀ t, (markFirst t e).err = t.err := by intro t; unfold markFirst; split <;> rfl
  have hf : ∀ t r, (fifoEnter t e r).err.sources = t.err.sources := by
    intro t r; unfold fifoEnter; dsimp only; (repeat' split) <;> rfl
  unfold raise
  dsimp only
  rw [hs]
  split
  · rw [hl, hh, hm, hf]; rfl
  · rw [hh, hm, hf]; rfl

/-- The source of a key after an event. -/
theorem raise_source (s : State) (e : Event) (k : Nat) (h : k ≠ sourceKey e.kind e.place.val) :
    Sparse.get noSource (raise s e).err.sources k = Sparse.get noSource s.err.sources k := by
  rw [raise_sources]; exact Sparse.get_set_other noSource _ _ h

theorem countOf_congr {s t : State} (h : t.err = s.err) (kind : Byte) (p : Place) : countOf t kind p = countOf s kind p := by
  unfold countOf; rw [h]

/-- An event is one more of its kind at its place. -/
theorem countOf_raise_same (s : State) (e : Event) : countOf (raise s e) e.kind e.place = stopAt top32 (countOf s e.kind e.place + 1) := by
  unfold countOf; rw [raise_sources]; unfold sourceUpdate; dsimp only; rw [Sparse.get_set_self]

/-- It counts for no other. -/
theorem countOf_raise_other (s : State) (e : Event) (kind : Byte) (p : Place) (h : sourceKey kind p.val ≠ sourceKey e.kind e.place.val) :
    countOf (raise s e) kind p = countOf s kind p := by
  unfold countOf; rw [raise_source s e _ h]

/-- A kind of the same place whose code differs is another source. -/
theorem sourceKey_kind {k k' : Byte} (p : Nat) (h : k ≠ k') : sourceKey k p ≠ sourceKey k' p := by
  unfold sourceKey; intro e; exact h (BitVec.eq_of_toNat_eq (by omega))

/-- One event raised is one more of its kind at its place. -/
theorem oneMore_raise (s : State) (e : Event) : oneMore s (raise s e) e.kind e.place := countOf_raise_same s e

/-- One more, counted from a state with the same sources to one with the same sources. -/
theorem oneMore_congr {s s' t t' : State} {kind : Byte} {p : Place} (h : oneMore s t kind p)
    (hs : s'.err.sources = s.err.sources) (ht : t'.err.sources = t.err.sources) : oneMore s' t' kind p := by
  unfold oneMore countOf at *; rw [hs, ht]; exact h

end Sys2Proof.Machine
end

