-- ==== Sys2Proof/Tests/Slice0.lean ====
section
/-! SUPPORT. Tests: the well-formedness checks, and for each statement with hypotheses a concrete state and operands that meet
them, clause by clause; some values from the manual's examples. -/

namespace Sys2Proof.Tests
open Sys2Proof Sys2Proof.Machine

set_option Elab.async false

/-! ## Well-formedness: an ill-formed command for each check, which the check refuses -/

/-- A frame on port A of session 1 with SEQ 0. -/
def fr (cls : BitVec 2) (p : List Byte) : Frame := { port := .a, cls := cls, seq := 0, session := 1, payload := p }
/-- A flit header of port P0 with SEQ 0, of a kind and class. -/
def hd (kind : BitVec 4) (cls : BitVec 2) : FlitHdr :=
  { port := 0, kind := kind, cls := cls, seq := 0, ack := 0, cred0 := 0, cred1 := 0, cred2 := 0, cred3 := 0, xfer := 0, sender := 2,
    farPort := 0, fec := [] }
def asks (p : Nat) : Raise := { port := p, chan := none, addr := 0, num := 0 }

theorem test_wf_long_frame : (Instr.read (fr 1 (List.replicate 8157 0))).wf = false := by decide +kernel
theorem test_wf_longest_frame : (Instr.read (fr 1 (List.replicate 8156 0))).wf = true := by decide +kernel
theorem test_wf_class0_frame : (Instr.controlTake (fr 0 (List.replicate 221 0))).wf = false := by decide +kernel
theorem test_wf_listed_opcode : (Instr.unknownOpcode 0x40 (fr 1 [])).wf = false := by decide
theorem test_wf_unlisted_opcode : (Instr.unknownOpcode 0x46 (fr 1 [])).wf = true := by decide
theorem test_wf_short_data_flit : (Instr.dataFlit 0 0 ⟨(List.replicate 255 0), []⟩).wf = false := by decide +kernel
theorem test_wf_long_data_flit : (Instr.dataFlit 0 0 ⟨(List.replicate 257 0), []⟩).wf = false := by decide +kernel
theorem test_wf_long_burst : (Instr.badFlit 0 0xFFF8 13 ⟨none, 0, []⟩).wf = false := by decide
theorem test_wf_longest_burst : (Instr.badFlit 0 0xFFF8 12 ⟨none, 0, []⟩).wf = true := by decide
theorem test_wf_wrong_kind : (Instr.resumeFlit (hd 1 2)).wf = false := by decide
theorem test_wf_wrong_class : (Instr.resumeFlit (hd 2 1)).wf = false := by decide
theorem test_wf_numbered_link : (Instr.link { hd 7 0 with seq := 1 } none).wf = false := by decide
theorem test_wf_empty_tally : (Instr.tally (hd 5 1) []).wf = false := by decide
theorem test_wf_long_tally : (Instr.tally (hd 5 1) (List.replicate 30 ⟨0, 1⟩)).wf = false := by decide
theorem test_wf_same_port_twice : (Instr.arbiterSlot (.peer 0) ⟨[asks 1, asks 1], false⟩).wf = false := by decide
theorem test_wf_seven_dies : (Instr.sensorRead [50, 50, 50, 50, 50, 50, 50]).wf = false := by decide

/-! ## A frame's bytes -/

/-- A HOLD as sp. 13 Table 13-3 lays it out: OPCODE 0x42, CLASS 1, LENGTH 6, SEQ 7, SESSION 1, the payload, its CRC, padding to one unit. -/
def holdFrame : List Byte :=
  let b := toLE 32 (0x42 * 2 ^ 248 + 1 * 2 ^ 246 + 6 * 2 ^ 208 + 7 * 2 ^ 176 + 1 * 2 ^ 112) ++ toLE 6 9
  b ++ toLE 4 (crc32c b) ++ zeros 214
theorem test_frame_spells_its_command : decodeTableWord 2048 (ofLE holdFrame) =
    some (.hold { port := .a, cls := 1, seq := 7, session := 1, payload := toLE 6 9 }) := by decide +kernel
theorem test_spoiled_frame_spells_none : decodeTableWord 2048 (ofLE holdFrame + 1) =
    some (.badFrame .a (toLE 256 (ofLE holdFrame + 1)) { marks := true, fec := 0 }) := by decide +kernel

/-! ## States -/

/-- READY, FIELD, control on port A, session 1. -/
def ready : State :=
  { State.reset with
    pwr := { Power.reset with state := .ready, v54 := true, pwrEn := true, bulkCharged := true, railsUp := 4, pwrGood := true,
                              released := true, stage := 6, slotsChecked := true, hbmInit := true },
    guard := { Guard.reset with lifecycle := .field },
    ctl := { State.reset.ctl with a := { KcpSt.reset with up := true }, carrier := some .a },
    ses := { Session.reset with current := some 1, last := 1 } }

/-- The beat LOCKED, a step RUNNING. -/
def running : State :=
  { ready with beat := { Beat.reset with lock := .locked }, step := { StepSt.reset with phase := .running }, now := 100 }

/-- A cue word with an opcode and a slack. -/
def cueWord (op slack : Nat) : BitVec 256 := BitVec.ofNat 256 (op * 2 ^ 189 + slack * 2 ^ 127)
/-- The cue pending at a unit, fired now. -/
def cueOf (op : Nat) : Pending := { cue := 7, raw := cueWord op 0, firedAt := 100, metAt := some 100 }
/-- The running step with a cue pending at a unit. -/
def pend (u : UnitId) (op : Nat) : State := setUnit running u { running := none, pending := some (cueOf op), tail := [], freeAt := 0 }

/-! ## The statements' hypotheses are met -/

/-- IdleStepIsOneCycle: out of a hold and in it; with a command that waits. -/
def owed : Owed := { opcode := 0x42, cls := 1, seq := 0, session := some 1 }
def supplyHeld : State := { ready with guard := { ready.guard with holdSupply := true } }
def queued : State := { ready with waiting1 := [(.stepStatus (fr 1 []), owed)] }
theorem test_idle_meets : ready.pending = [] ∧ (nextWaiting ready).isNone = true ∧ ready.pwr.v54 = true ∧ inHold ready = false ∧
    inHold supplyHeld = true ∧ supplyHeld.pending = [] ∧ (nextWaiting supplyHeld).isNone = true ∧ supplyHeld.pwr.v54 = true ∧
    queued.pending = [] ∧ queued.waiting1 = (.stepStatus (fr 1 []), owed) :: [] ∧ class1Open queued = false := by decide

/-- EveryStepKeepsMemoryCanonical: a command that writes memory, in canonical memory. -/
theorem test_canonical_meets : ready.mem.wf = true ∧ ∃ t, step { ready with pending := [.deviceReset (fr 1 [1])] } = .next t := by
  exact ⟨by decide, _, rfl⟩

/-- GuardRegistersChangeOnlyBySignedCommands, OnlyCommitsAndRestoresMoveTheCommittedStep: a command with an effect. -/
theorem test_kept_meets : guardWriter (.deviceReset (fr 1 [1])) = false ∧ Instr.deviceReset (fr 1 [1]) ≠ .restoreComplete ∧
    ∃ t, exec (.deviceReset (fr 1 [1])) ready = .next t := ⟨by decide, by decide, _, rfl⟩

/-- AFrameNeedsALinkAndACredit, UnknownOpcodeIsRefused: the link down; up with its 16 class 1 credits used. -/
def noCredit : State := setKcp ready .a { kcp ready .a with cred1 := ⟨16, 0, 0⟩ }
theorem test_credit_meets : (Instr.identity (fr 1 [])).frame? = some (fr 1 []) ∧ (kcp State.reset .a).up = false ∧ noCredit.taking = none ∧
    (kcp noCredit .a).up = true ∧ creditHeld (kcp noCredit .a) 1 = false ∧
    creditHeld (kcp (setKcp ready .a { kcp ready .a with cred1 := ⟨15, 0, 0⟩ }) .a) 1 = true := by decide

/-- ChecksRefuseInOrder: each clause. -/
def sheetVer (cls : BitVec 2) (seq session : BitVec 32) : Frame := { port := .a, cls := cls, seq := seq, session := session, payload := [0] }
def later : State := { ready with ses := { ready.ses with exp1 := 5 } }
def standby : State := { ready with ctl := { ready.ctl with b := { KcpSt.reset with up := true }, carrier := some .b } }
theorem test_checks_meet :
    commandOf (.sheetVerify (sheetVer 1 0 1)) = some (sheetVer 1 0 1, cmd 0x22) ∧ (kcp ready .a).up = true ∧
    creditHeld (kcp ready .a) 1 = true ∧ creditHeld (kcp ready .a) 2 = true ∧ creditHeld (kcp ready .a) 0 = true ∧
    (sheetVer 2 0 1).cls ≠ (cmd 0x22).cls ∧ (sheetVer 0 0 1).cls ≠ (cmd 0x22).cls ∧ (sheetVer 0 0 1).cls ≠ 2 ∧
    (isStandby standby .a = true ∧ (cmd 0x22).standby = false ∧ creditHeld (kcp standby .a) 1 = true) ∧
    (isStandby ready .a = false ∧ ready.ses.current ≠ some (sheetVer 1 0 2).session ∧ (cmd 0x22).needSession = true ∧ ready.pwr.stage ≠ 2) ∧
    (later.ses.current = some (1 : BitVec 32) ∧ seqCheck (later.ses.exp 1) 6 = .wrong ∧ seqCheck (later.ses.exp 1) 4 = .duplicate) := by
  decide
def starting : State := { ready with pwr := { ready.pwr with stage := 4, state := .starting } }
def scrapped : State := { ready with guard := { ready.guard with lifecycle := .scrapped } }
def zeroing : State := { ready with guard := { ready.guard with zero := some { reply := none, counter := 0 } } }
theorem test_refusals_meet :
    ((sheetVer 1 0 1).cls = (cmd 0x22).cls ∧ isStandby starting .a = false ∧ starting.ses.current = some (sheetVer 1 0 1).session ∧
      (sheetVer 1 0 1).seq = starting.ses.exp (sheetVer 1 0 1).cls ∧ starting.pwr.stage ≠ 2) ∧
    (class1Open starting = false ∧ starting.waiting1 = []) ∧
    stageRefuses starting (cmd 0x22) = true ∧ (stageRefuses scrapped (cmd 0x22) = false ∧ scrapped.guard.lifecycle = .scrapped) ∧
    (stageRefuses zeroing (cmd 0x22) = false ∧ zeroing.guard.lifecycle ≠ .scrapped ∧ zeroStart zeroing = true ∧ class1Open zeroing = false ∧
      zeroing.waiting1 = []) ∧
    class1Open { ready with guard := { ready.guard with zero := some { reply := some owed, counter := 0 } } } = true ∧
    queued.waiting1 ≠ [] := by decide

/-- FinalReplyIsOneFrame: the longest payload of one frame. -/
theorem test_reply_meets : ready.ctl.carrier = some .a ∧ (List.replicate 8156 (0 : Byte)).length ≤ 8156 := by decide +kernel

/-- IdentityAndAttestAnswer. -/
def keyed : State := { ready with guard := { ready.guard with deviceKey := some 5 } }
def keyless : State := { ready with guard := { ready.guard with deviceKey := none } }
theorem test_identity_meets : accepts ready (fr 1 []) (cmdAlways 0x00) = true ∧
    (accepts keyed (fr 1 (List.replicate 32 7)) (cmdAlways 0x05) = true ∧ keyed.guard.deviceKey = some 5) ∧
    (accepts keyless (fr 1 (List.replicate 32 7)) (cmdAlways 0x05) = true ∧ keyless.guard.deviceKey = none) := by decide

/-- SessionOpenStartsASession, and UnknownOpcodeIsRefused in both classes: without a session. -/
def noSession : State := { ready with ses := Session.reset }
theorem test_open_meets : noSession.taking = none ∧ (fr 2 [9]).cls = 2 ∧ (fr 1 [9]).cls ≠ 2 ∧ creditHeld (kcp noSession .a) 2 = true ∧ (kcp noSession .a).up = true ∧ creditHeld (kcp noSession .a) 1 = true ∧ noSession.pwr.stage = 6 ∧
    noSession.guard.lifecycle ≠ .scrapped ∧ noSession.guard.zero = none ∧ (fr 1 [9]).payload.length = 1 := by decide

/-- SessionCommandsTakeEffect. -/
def lostBeat : State := { running with beat := { Beat.reset with lock := .lost } }
theorem test_session_meets :
    (ready.ctl.carrier = some .a ∧ accepts ready (fr 1 []) (cmdEarly 0x02) = true) ∧
    (accepts standby (fr 0 []) { opcode := 0x03, cls := 0, needSession := true, standby := true, stages := [4, 5, 7] } = true ∧
      standby.ctl.carrier = some (otherKcp .a)) ∧ ready.ctl.carrier = some (fr 0 []).port ∧
    (accepts ready (fr 1 []) (cmdEarly 0x04) = true ∧ stepBusy ready = false) ∧
    (accepts lostBeat (fr 1 []) (cmdEarly 0x04) = true ∧ lostBeat.beat.lock = .lost) ∧
    (accepts running (fr 1 []) (cmdEarly 0x04) = true ∧ stepBusy running = true ∧ running.beat.lock ≠ .lost) := by decide

/-- ConfigurationWritesTakeEffect: the largest LENGTH of a wing, the largest threshold, both ends of a delay. -/
def entry16 (i : Nat) (e : Nat) : List Byte := BitVec.ofNat 8 i :: zeros 15 ++ toLE 16 e
theorem test_config_writes_meet :
    (accepts ready (fr 1 [0x42]) (cmdEarly 0x10) = true ∧ stepBusy ready = false ∧ anyVerified ready = false) ∧
    (accepts ready (fr 1 (entry16 5 (3 * 2 ^ 117))) (cmdEarly 0x11) = true ∧ (entry16 5 0).length = 32 ∧ byteAt (entry16 5 0) 0 = 5 ∧
      zeroAt (entry16 5 0) 1 15 = true ∧ peerPort (entryOf (entry16 5 0)) < 6 ∧
      (peerEnable (entryOf (entry16 5 0)) = true → ready.cfg.deviceId.isSome)) ∧
    (accepts ready (fr 1 (entry16 63 0)) (cmdEarly 0x13) = true ∧ byteAt (entry16 63 0) 0 < 64 ∧
      regionFieldsOk (taken128 (entryOf (entry16 63 1)) regionFields) = true ∧ hitsWing ready (taken128 (entryOf (entry16 63 1)) regionFields) = false) ∧
    (accepts ready (fr 1 (entry16 3 0)) (cmdEarly 0x15) = true ∧ byteAt (entry16 3 0) 0 < 4 ∧
      wLength (taken128 (entryOf (entry16 3 1)) wingFields) ≤ 12288 ∧ wingInside 3 (taken128 (entryOf (entry16 3 1)) wingFields) = true ∧
      (allRegionRanges ready).any (fun r => overlaps r.1 r.2 (eBase (taken128 (entryOf (entry16 3 1)) wingFields))
        (wLength (taken128 (entryOf (entry16 3 1)) wingFields))) = false) ∧
    (accepts ready (fr 1 (toLE 4 16)) (cmdEarly 0x17) = true ∧ leAt (toLE 4 16) 0 4 % 32 ≤ 16 ∧ leAt (toLE 4 0xFFFFFFF0) 0 4 % 32 ≤ 16) ∧
    (accepts ready (fr 1 ([1, 0, 0, 0] ++ toLE 4 65535)) (cmdEarly 0x19) = true ∧ signed 32 (leAt ([1, 0, 0, 0] ++ toLE 4 65535) 4 4) ≤ 65535 ∧
      -65536 ≤ signed 32 (leAt ([1, 0, 0, 0] ++ toLE 4 4294901760) 4 4) ∧ byteAt ([1, 0, 0, 0] ++ toLE 4 65535) 0 < 2 ∧
      zeroAt ([1, 0, 0, 0] ++ toLE 4 65535) 1 3 = true ∧ ready.beat.lock = .unlocked ∧ lostBeat.beat.lock = .lost) ∧
    (accepts ready (fr 1 (toLE 2 4000 ++ toLE 2 2000 ++ zeros 12)) (cmdEarly 0x1B) = true ∧
      signed 16 (leAt (toLE 2 4000 ++ toLE 2 2000 ++ zeros 12) 0 2) ≤ 4000 ∧ 2000 ≤ leAt (toLE 2 4000 ++ toLE 2 2000 ++ zeros 12) 2 2 ∧
      zeroAt (toLE 2 4000 ++ toLE 2 2000 ++ zeros 12) 6 2 = true) := by decide +kernel

/-- ConfigurationReadsAnswer. -/
theorem test_config_reads_meet : accepts ready (fr 1 [BitVec.ofNat 8 (5 : PortNo).val]) (cmdEarly 0x12) = true ∧
    accepts ready (fr 1 [BitVec.ofNat 8 (63 : Fin 64).val]) (cmdEarly 0x14) = true ∧
    accepts ready (fr 1 [BitVec.ofNat 8 (3 : Fin 4).val]) (cmdEarly 0x16) = true ∧ accepts ready (fr 1 []) (cmdEarly 0x18) = true ∧
    accepts ready (fr 1 [1]) (cmdEarly 0x1A) = true ∧ (1 : Byte) < 2 := by decide

/-- ControlLinksComeAndGo. -/
def both : State := { ready with ctl := { ready.ctl with b := { KcpSt.reset with up := true } } }
/-- Both links fell; port A carried control last. -/
def cutOff : State := { ready with ctl := { State.reset.ctl with lost := some (.a, 1) } }
theorem test_links_meet :
    ((kcp ready .b).up = false ∧ diesOn ready = true ∧ ready.pwr.released = true ∧ kcpEnabled ready .b = true ∧ ready.ctl.carrier.isSome) ∧
    ((kcp cutOff .b).up = false ∧ diesOn cutOff = true ∧ kcpEnabled cutOff .b = true ∧ cutOff.ctl.carrier = none ∧
      cutOff.ctl.lost = some (otherKcp .b, 1)) ∧
    ((kcp both .b).up = true ∧ both.ctl.carrier ≠ some .b) ∧ (both.ctl.carrier = some .a ∧ (kcp both (otherKcp .a)).up = true) ∧
    ((kcp ready .a).up = true ∧ ready.ctl.carrier = some .a ∧ (kcp ready (otherKcp .a)).up = false) ∧
    (frameSound (zeros 256) = false ∧ (kcp ready .a).up = true) ∧
    owesCredits (kcp (setKcp ready .a { kcp ready .a with cred1 := ⟨3, 3, 1⟩ }) .a) = true := by decide +kernel

/-- AWrittenByteReadsBack: the first byte of HBM and the last of scratch; the last byte of a fence; a bank that is GATED. -/
def aFence : Fence := { tenant := 3, region := 0, base := 256, len := 256, scrubbing := [], scrubbed := [] }
def fencedState : State := { ready with mem := { ready.mem with fences := [aFence] } }
def gated : State := setBank ready 0 { bank ready 0 with state := .gated }
theorem test_write_meets : (fencedAt ready 0 = false ∧ 0 < tallyBase ∧ gatedAt ready (swapAddr ready 0) = false) ∧
    fencedAt ready (scratchBase + 4 * 2 ^ 28 - 1) = false ∧ scratchBase + 4 * 2 ^ 28 - 1 < tallyBase ∧
    gatedAt ready (swapAddr ready (scratchBase + 4 * 2 ^ 28 - 1)) = false := by decide
theorem test_closed_meets : fencedAt fencedState 511 = true ∧ fencedAt fencedState 512 = false ∧
    (scratchBase < tallyBase ∧ bankOf (swapAddr gated scratchBase) = some 0 ∧ (bank gated 0).state ≠ .on) := by decide

/-- EventsAreRecordedByTheirSource, ErrorReadReturnsAndRemovesRecords: a source with a first event, a recorder free and busy, a record that the
recorder offers first; groups 0 and 21. -/
def anEvent : Event := ev 0x06 0 3 0 1 2 .first
theorem test_events_meet :
    (Sparse.get noSource (raise ready anEvent).err.sources (sourceKey 0x06 0)).first.isSome = true ∧
    (alarmOnly anEvent.kind = false ∧ Sparse.get (fun _ => 0) ready.err.busyUntil 0 ≤ ready.now ∧ ready.err.fifo.length < 1024) ∧
    ready.now < Sparse.get (fun _ => 0) (raise ready anEvent).err.busyUntil 0 ∧
    ((raise ready anEvent).err.fifo.any (betterOffer (eventRec ready (ev 0x05 0 3 0 1 2 .first) true false)) = true ∧ alarmOnly 0x05 = false) ∧
    ready.err.fifo.any (betterOffer (eventRec ready anEvent true false)) = false ∧
    (accepts ready (fr 1 [21]) (cmdEarly 0x72) = true ∧ (counterGroup ready 21).isSome ∧ (counterGroup ready 7).isSome ∧
      counterGroup ready 22 = none) ∧ accepts ready (fr 1 (toLE 2 1024)) (cmdEarly 0x73) = true := by decide +kernel

/-- TalliesSaturateAndLanesDeliver: the last value and one more; both kinds of message, and one behind another of its pair. -/
def msg (copy : Bool) : LaneMsg := { origin := 0, dest := 1, tally := 4096, value := 3, copy := copy, sentAt := 60, queued := false }
def withLane (l : List LaneMsg) : State := { running with stage := { running.stage with lane := l } }
theorem test_tallies_meet :
    0xFFFFFFFF < (tallyOf (putTally ready 16383 0xFFFFFFFF 0) 16383).toNat + 1 ∧ (tallyOf ready 16383).toNat + 0xFFFFFFFF ≤ 0xFFFFFFFF ∧
    reaches (withLane [msg true]) ((msg true).sentAt + 40 * hops 0 1) = true ∧
    (withLane [msg true]).stage.lane[0]? = some (msg true) ∧ (withLane [msg false]).stage.lane[0]? = some (msg false) ∧
    ({ msg true with queued := true }.queued = true ∧ placeFor (withLane [{ msg true with queued := true }]) 0 0 = true) ∧
    ((withLane [msg true, msg false]).stage.lane.take 1).any (fun x => x.origin = (msg false).origin && x.dest = (msg false).dest) = true := by
  decide

/-- A store with one cue in the list of die 0 and a descriptor region. -/
def sheetWith (cue : BitVec 256) (desc : List Byte) : CueStore :=
  let l := Sparse.put zeroByte (Sparse.put zeroByte [] 0 (toLE 64 (2 ^ 352 + 4 * 2 ^ 320))) 64 (toLE 32 cue.toNat)
  { CueStore.reset with st := .inUse, bytes := Sparse.put zeroByte l 96 desc }
/-- The running step with that store. -/
def runningWith (cue : BitVec 256) (desc : List Byte) : State := { running with store0 := sheetWith cue desc }

/-- CuesFireInOrderOrAreLate: a MARK at the present position fires, its place free and taken; a cue whose wait does not hold is late. -/
def waits : Pending := { cueOf 7 with raw := cueWord 7 0 ||| BitVec.ofNat 256 (2 ^ 143 + 2 ^ 102), metAt := none }
def late : State := setUnit running (.control 0) { running := none, pending := some waits, tail := [], freeAt := 0 }
def fires : State := runningWith (cueWord 7 5) []
theorem test_fire_meets :
    (Sparse.get (fun _ => 0) fires.step.next 0 = 0 ∧ canStart fires 0 (positionAt fires (cCycle ((sheet fires).cue 0 0))) = true ∧
      (fires.guard.holdPower = false ∧ fires.guard.holdThermal = false) ∧ 0 < (sheet fires).count 0 ∧ cBeat ((sheet fires).cue 0 0) = fires.step.relBeat ∧
      targetOf (sheet fires) ((sheet fires).cue 0 0) = .control 0 ∧ (unit fires (.control 0)).pending = none) ∧
    (canStart { late with store0 := fires.store0 } 0 100 = true ∧ (unit late (.control 0)).pending.isSome) ∧
    ((unit late (.control 0)).pending = some waits ∧ reaches late (waits.firedAt + cSlack waits.raw) = true ∧
      canStart (settle (clockTo late 100)) 0 100 = true ∧ (unit (settle (clockTo late 100)) (.control 0)).pending = some waits ∧
      startCycle (settle (clockTo late 100)) (.control 0) waits = none) := by
  decide +kernel

/-- NoCueFiresUnlessTheBeatRuns. -/
def armedNoBeat : State := { ready with step := { StepSt.reset with phase := .armed } }
theorem test_no_beat_meets : accepts armedNoBeat (fr 1 (zeros 6)) (cmd 0x41) = true ∧ armedNoBeat.step.phase = .armed ∧
    armedNoBeat.beat.lock = .unlocked := by decide

/-- ControlCuesAct: each control cue; the end of a lend, and the cycle before it. -/
def lends : State :=
  { running with stage := { running.stage with lends := [{ die := 1, cue := 9, mask := 16, span := 20, startedAt := 90 }] } }
theorem test_control_meets : startsAt (pend (.control 2) 4) (.control 2) 4 (cueOf 4) 100 ∧ doneSignal (cueOf 4).raw = none ∧
    startsAt (pend (.control 2) 7) (.control 2) 7 (cueOf 7) 100 ∧ startsAt (pend (.control 2) 3) (.control 2) 3 (cueOf 3) 100 ∧
    startsAt (pend (.control 2) 2) (.control 2) 2 (cueOf 2) 100 ∧ (2 : Die) ∉ (pend (.control 2) 2).step.curtains := by decide +kernel
theorem test_lend_end_meets : (lends.stage.lends.find? (fun l => l.die = 1 && l.cue = 9)).map (fun l => reaches lends (l.startedAt + l.span)) =
    some true ∧ reaches { lends with cycle := 4095 } 110 = false := by decide +kernel
/-- The cycle in which a control cue acts, reached and not; a tally that a higher cue has set in it. -/
theorem test_control_acts_meets : reaches (readyAt (pend (.control 2) 4) (.control 2)) 104 = true ∧
    (let s := { pend (.control 2) 4 with cycle := 4093 }
     startsAt s (.control 2) 4 (cueOf 4) 100 ∧ reaches (readyAt s (.control 2)) 104 = false) ∧
    (let s := { pend (.control 2) 4 with stage := { (pend (.control 2) 4).stage with changedAt := 104, sets := [(0, 8, 5)] } }
     let s1 := settle (clockTo (leftAt s (.control 2) (cueOf 4) 100) 104)
     startsAt s (.control 2) 4 (cueOf 4) 100 ∧ s1.stage.changedAt = 104 ∧
      s1.stage.sets.any (fun x => x.1 = 0 && decide ((cueOf 4).cue < x.2.1)) = true) := by decide +kernel

/-- ComputeCuesStart: every row, on the last unit of its kind; a forward opcode on a backward array has its lend. -/
def computeStarts : List Instr :=
  [.mmFwd ⟨3, false, 15⟩, .mmBwdData 3 31, .mmBwdWeight 3 31, .mmPredict 3 15, .gather 3 7, .scatter 3 7, .scatterAcc 3 7,
   .segmentReduce 3 7, .merge 3 7, .prefixSum 3 7, .histogram 3 7, .topK 3 7, .act 3 3, .actGrad 3 3, .actGradOut 3 3, .glu 3 3,
   .gluGrad 3 3, .dropout 3 3, .addN 3 3, .convert 3 3, .sumsqRow 3 3, .scaleRows 3 3, .softmaxRow 3 3, .clipScale 3 3, .adamw 3,
   .momentum 3, .sgd 3, .permute 3, .pack 3, .unpack 3, .encode 3, .decode 3]
def startsOf (c : Instr) : Bool :=
  match computeRow c with
  | some (u, op) => decide (startsAt (pend u op) u op (cueOf op) 100)
  | none => false
theorem test_compute_meets : ∀ c ∈ computeStarts, startsOf c = true := by decide +kernel
theorem test_lent_meets : startsAt (let s := pend (.array ⟨1, true, 4⟩) 0x10; { s with stage := { s.stage with lends := lends.stage.lends } })
    (.array ⟨1, true, 4⟩) 0x10 (cueOf 0x10) 100 := by decide +kernel

/-- ComputeCuesComplete: a running cue, a halted one, none; each unit. -/
def aRun (op : Byte) (halted : Bool) : Running :=
  { cue := 7, opcode := op, firedAt := 90, startedAt := 90, cycles := 5, writes := [(0, [1, 2])], due := [1], recAt := 64, record := zeros 32,
    signal := none, preds := [], halted := halted, window := none, moves := [], port := none, send := SendSt.zero, desc := zeros 64, reads := [],
    dest := [(0, 2)], needs := [], ctl := [], span := [], raced := [], clash := [], fenced := [], chances := [], tiles := [], slots := [],
    queued := false }
/-- Nothing of note happened to the cue; its unit stalled past the beat's end. -/
def plain : Finish := { parity := [], stalls := [] }
def stalled : Finish := { parity := [], stalls := [⟨0, 9999⟩] }
def busy (u : UnitId) (r : Running) : State := setUnit running u { running := some r, pending := none, tail := [], freeAt := 0 }
def finishes (u : UnitId) (op : Byte) : Bool :=
  let s := busy u (aRun op false)
  decide (oldest (unit s u) = some (aRun op false)) && reaches s (completionAt u (aRun op false) []) && streamRuns s u (aRun op false) &&
    !reaches s (completionAt u (aRun op false) stalled.stalls)
theorem test_complete_meets : completeRow (.dmeComplete ⟨3, true, 31⟩ plain) = some (.array ⟨3, true, 31⟩, plain) ∧
    finishes (.array ⟨3, true, 31⟩) 0x11 = true ∧ finishes (.gme 3 7) 0x20 = true ∧ finishes (.vector 3 3) 0x30 = true ∧
    finishes (.optimizer 3) 0x40 = true ∧ finishes (.layout 3) 0x50 = true ∧
    (aRun 0x20 false).due.length = (aRun 0x20 false).writes.length ∧
    oldest (unit (busy (.gme 3 7) (aRun 0x20 true)) (.gme 3 7)) = some (aRun 0x20 true) ∧ (aRun 0x20 true).halted = true ∧
    oldest (unit ready (.layout 3)) = none := by decide +kernel
/-- No index of the cue is one that a kill may take (that one does is a free value); a completion that comes after the next one's may not. -/
theorem test_complete_fits_meets : (fenceHalt (aRun 0x30 false) running).1.isNone = true ∧
    stallsFit (.vector 3 3) (unit (busy (.vector 3 3) (aRun 0x30 false)) (.vector 3 3)) 9999 = true ∧
    (let v : UnitSt := { running := some (aRun 0x30 false), pending := none, tail := [aRun 0x31 false], freeAt := 0 }
     oldest v = some (aRun 0x31 false) ∧ stallsFit (.vector 3 3) v 9999 = false) := by decide +kernel
/-- The same: a completion signal to a tally of the unit's die, and to one of another die. -/
def signals (i : Nat) : State := busy (.gme 3 7) { aRun 0x20 false with signal := some (i, 255) }
theorem test_complete_signal_meets :
    (oldest (unit (signals 16383) (.gme 3 7))).map (·.signal) = some (some (16383, 255)) ∧ homeDie 16383 = unitDie (.gme 3 7) ∧
    (oldest (unit (signals 0) (.gme 3 7))).map (·.signal) = some (some (0, 255)) ∧ homeDie 0 ≠ unitDie (.gme 3 7) := by decide

/-! The step. -/

/-- TheStepStartsAtItsBeat: with and without a hold. -/
def starts : State := { running with step := { StepSt.reset with phase := .starting } }
def startsHeld : State := { starts with guard := { starts.guard with holdPower := true } }
theorem test_start_meets : (starts.step.phase = .starting ∧ beatRuns starts = true ∧ beatNow starts = starts.step.startBeat ∧
      starts.step.stopped = false ∧ inHold starts = false ∧ starts.secure.due = [] ∧ starts.dma.filter (fun e => leftOver e.2) = []) ∧ inHold startsHeld = true ∧
    beatNow startsHeld = startsHeld.step.startBeat := by decide

/-- StepControlCommandsTakeEffect. -/
def verified : State := { running with step := StepSt.reset, store1 := { CueStore.reset with st := .verified, expected := 1 } }
def armPayload : List Byte := zeros 31 ++ [1] ++ zeros 64
def armedState : State := { running with step := { StepSt.reset with phase := .armed } }
def heldState : State := { running with step := { StepSt.reset with phase := .held } }
theorem test_step_commands_meet :
    (accepts verified (fr 1 armPayload) (cmd 0x40) = true ∧ armPayload.length = 96 + 2 * leAt armPayload 80 2 ∧ leAt armPayload 80 2 ≤ 1024 ∧
      (armTenants armPayload (leAt armPayload 80 2)).any (fun i => decide (16383 < i)) = false ∧
      zeroAt armPayload 82 14 = true ∧ stepBusy verified = false ∧ armAllowed verified (leAt armPayload 80 2) = true ∧
      storeWith verified (BitVec.ofNat 256 (ofBE (slice armPayload 0 32))) = some 1 ∧ verified.step.dirty = false ∧
      armDetail verified (storeAt verified 1) (armTenants armPayload (leAt armPayload 80 2)) = none) ∧
    (accepts armedState (fr 1 (toLE 6 8)) (cmd 0x41) = true ∧ beatRuns armedState = true ∧ startTooEarly armedState 8 = false ∧
      startTooEarly armedState 7 = true ∧ armedState.secure.firmware = false) ∧
    (accepts starts (fr 1 (toLE 6 4)) (cmd 0x42) = true ∧ stepStarted starts = true ∧ starts.step.hold = none ∧ starts.step.phase ≠ .held ∧
      (beatNow starts).toNat + 4 ≤ 4 ∧ starts.step.startBeat.toNat ≤ 4 ∧ holdUnsafe starts 4 = false) ∧
    (accepts heldState (fr 1 (toLE 6 4)) (cmd 0x43) = true ∧ heldState.step.phase = .held ∧ (beatNow heldState).toNat + 4 ≤ 4) ∧
    (accepts armedState (fr 0 []) abortInfo = true ∧ accepts running (fr 0 []) abortInfo = true ∧ stepStarted running = true) ∧
    accepts running (fr 1 []) (cmd 0x45) = true := by decide +kernel

/-- AHoldStopsTheCounterUntilItsResume: in the beat of the hold, in a beat after it, with the curtains up; its resume. -/
def holdsNow : State := { running with step := { running.step with hold := some (0, owed), relBeat := 1 } }
def holdsBefore : State := { holdsNow with beat := { holdsNow.beat with count := 1 }, now := 5000 }
def holdsCurtain : State := { holdsNow with step := { holdsNow.step with curtains := [3, 2, 1, 0] } }
def resumesNow : State := { running with step := { running.step with phase := .held, resume := some 0, holdAt := 100 } }
theorem test_hold_meets : (holdsNow.step.hold = some (0, owed) ∧ (holdEdge holdsNow).isSome ∧ holdsNow.step.phase = .running ∧
      holdsNow.step.stopped = false ∧ curtainUp holdsNow = false ∧ curtainsMeet holdsNow 0 = false) ∧
    ((holdEdge holdsBefore).isSome ∧ (beatNow holdsBefore - 0).toNat = 1 ∧ curtainUp holdsBefore = false) ∧
    (curtainUp holdsCurtain = true ∧ (holdEdge holdsCurtain).isSome) ∧
    (resumesNow.step.resume = some 0 ∧ resumesNow.step.phase = .held ∧ beatNow resumesNow = 0 ∧ resumesNow.cycle = 0 ∧ beatRuns resumesNow = true ∧
      resumesNow.step.stopped = false ∧ inHold resumesNow = false ∧ resumesNow.pwr.v54 = true) := by decide +kernel

/-- StepsEndAsTheirWorkEnded. -/
def curtained : State := { running with step := { running.step with curtains := [3, 2, 1, 0], curtainAt := 90, lastDone := 89 } }
def failed : State := { running with step := { running.step with stopped := true, stopAt := 100, cause := 5, failed := true } }
def suspect : State := { running with step := { running.step with stopped := true, stopAt := 100, cause := 0x10, suspect := true } }
def draining : State := { busy (.gme 3 7) (aRun 0x20 false) with step := curtained.step }
theorem test_end_meets : commitDue (atEnd curtained) = true ∧ endDue (atEnd failed) = some (3, 5) ∧
    endDue (atEnd suspect) = some (2, 0x10) ∧ running.ctl.carrier = some .a ∧
    (draining.step.phase = .running ∧ curtainUp draining = true ∧ draining.step.stopped = false ∧
      reaches draining (draining.step.curtainAt + drainOf draining) = true ∧ workDone draining = false) ∧
    (let s := { curtained with step := { curtained.step with lastDone := 90 + drainOf curtained } }; inTime s = false) ∧
    curtained.dma.filter (fun e => leftOver e.2) = [] := by
  decide +kernel

/-- BanksGoDownAndUp: the last bank of die 3. -/
def bankIs (b : Bank) (s : State) : State := setBank s (bankKey 3 63) b
def aBank (st : BankState) (d : Bool) (t : Option BankState) : Bank := { state := st, target := t, cue := 7, draining := d, since := 0 }
theorem test_banks_meet :
    (startsAt (pend (.bank 3 63) 5) (.bank 3 63) 5 (cueOf 5) 100 ∧ (bank (pend (.bank 3 63) 5) (bankKey 3 63)).state = .on) ∧
    (startsAt (bankIs (aBank .off false none) (pend (.bank 3 63) 5)) (.bank 3 63) 5 (cueOf 5) 100 ∧
      (bank (bankIs (aBank .off false none) (pend (.bank 3 63) 5)) (bankKey 3 63)).state ≠ .on ∧
      (unit (bankIs (aBank .off false none) (pend (.bank 3 63) 5)) (.bank 3 63)).running = none) ∧
    (let s := bankIs (aBank .gated true (some .off)) running
     (bank s (bankKey 3 63)).state = .gated ∧ (bank s (bankKey 3 63)).draining = true ∧
      reaches s (drainEnd s (bankKey 3 63) (bank s (bankKey 3 63)).since) = true) ∧
    (let s := bankIs (aBank .gated false (some .off)) running
     (bank s (bankKey 3 63)).state = .gated ∧ (bank s (bankKey 3 63)).draining = false ∧ reaches s ((bank s (bankKey 3 63)).since + 32) = true) ∧
    (startsAt (bankIs (aBank .retain false none) (pend (.bank 3 63) 6)) (.bank 3 63) 6 (cueOf 6) 100) ∧
    (startsAt (pend (.bank 3 63) 6) (.bank 3 63) 6 (cueOf 6) 100 ∧ (unit (pend (.bank 3 63) 6) (.bank 3 63)).running = none) ∧
    (let s := bankIs (aBank .rising false none) running
     (bank s (bankKey 3 63)).state = .rising ∧ reaches s ((bank s (bankKey 3 63)).since + 63) = true) ∧
    bankOf (scratchBase + 4 * 2 ^ 28 - 1) = some (bankKey 3 63) := by decide +kernel

/-- BanksGoDownAndUp, DmaCuesStart: the cycle of the first action, reached and not. -/
theorem test_fourth_cycle_meets : reaches (readyAt (pend (.bank 3 63) 5) (.bank 3 63)) 104 = true ∧
    (let s := { pend (.bank 3 63) 5 with cycle := 4093 }
     startsAt s (.bank 3 63) 5 (cueOf 5) 100 ∧ reaches (readyAt s (.bank 3 63)) 104 = false) ∧
    reaches (readyAt (pend (.channel 3 127) 0x60) (.channel 3 127)) 104 = true := by decide +kernel

/-! DMA channels, arbiters, windows. -/

/-- A cue pending at a unit, with the step's store holding its descriptor. -/
def pendWith (u : UnitId) (op : Nat) (desc : List Byte) : State := { pend u op with store0 := sheetWith 0 desc }
/-- Port P0 in a state. -/
def portIs (st : PortState) (s : State) : State := setPort s 0 { port s 0 with st := st }
def oneRegion (s : State) : State := { s with cfg := { s.cfg with regions := [(0, BitVec.ofNat 128 (2 ^ 79 + 2 ^ 80))] } }
def wOf (s : State) : Nat := leAt ((sheet s).desc (cDesc (cueOf 0).raw) 64) 0 64
theorem test_dma_meets :
    (startsAt (pend (.channel 3 127) 0x60) (.channel 3 127) 0x60 (cueOf 0x60) 100 ∧ (chan (pend (.channel 3 127) 0x60) 3 127).st = .idle) ∧
    (startsAt (portIs .up (pend (.channel 3 127) 0x61)) (.channel 3 127) 0x61 (cueOf 0x61) 100 ∧ sendTallyOnly (wOf (pend (.channel 3 127) 0x61)) = false ∧
      (port (portIs .up (pend (.channel 3 127) 0x61)) (sendPort (wOf (pend (.channel 3 127) 0x61)))).st = .up) ∧
    (startsAt (portIs .up (pendWith (.channel 3 127) 0x61 (toLE 64 (2 ^ 210)))) (.channel 3 127) 0x61 (cueOf 0x61) 100 ∧
      sendTallyOnly (wOf (pendWith (.channel 3 127) 0x61 (toLE 64 (2 ^ 210)))) = true) ∧
    (port (pend (.channel 3 127) 0x61) (sendPort 0)).st ≠ .up := by decide +kernel
theorem test_stream_meets :
    (startsAt (oneRegion (pend (.channel 3 127) 0x62)) (.channel 3 127) 0x62 (cueOf 0x62) 100 ∧ snKind (wOf (oneRegion (pend (.channel 3 127) 0x62))) = 0 ∧
      (sectionRegion (oneRegion (pend (.channel 3 127) 0x62)) (localOf 0) (snLength 0)).isSome) ∧
    (startsAt (pendWith (.channel 3 127) 0x62 (toLE 64 (2 ^ 325))) (.channel 3 127) 0x62 (cueOf 0x62) 100 ∧
      snKind (wOf (pendWith (.channel 3 127) 0x62 (toLE 64 (2 ^ 325)))) = 1 ∧ (streamImage (pendWith (.channel 3 127) 0x62 (toLE 64 (2 ^ 325))) (snTier (wOf (pendWith (.channel 3 127) 0x62 (toLE 64 (2 ^ 325)))))).isNone) := by decide +kernel

/-- The device has the ID 0. -/
def own (s : State) : State := { s with cfg := { s.cfg with deviceId := some 0 } }
/-- CopiesCompleteOrHalt: a transfer that reads and writes HBM; one into the firmware region. -/
def copying (halted : Bool) (dst : Nat) : Running := { aRun 0x60 halted with writes := [], moves := [⟨0, dst, 64⟩] }
theorem test_copy_meets :
    (let s := own (busy (.channel 0 0) (copying false 256))
     (unit s (.channel 0 0)).running = some (copying false 256) ∧ (copying false 256).port = none ∧ reaches s (dmaReady (copying false 256)) = true ∧
      streamRuns s (.channel 0 0) (copying false 256) = true ∧
      (copying false 256).moves.findSome? (moveFault (settle (clockTo s (dmaReady (copying false 256))))) = none ∧
      bankFault (moveAll (settle (clockTo s (dmaReady (copying false 256)))) 0 0 (copying false 256) []).st 64 32 = false) ∧
    ((copying true 256).halted = true) ∧
    ((copying false fwBase).moves.findSome? (moveFault (settle (clockTo (own (busy (.channel 0 0) (copying false fwBase))) 95)))).isSome ∧
    (chanFault (own (busy (.channel 0 0) (copying false fwBase))) 0 0 0).isSome := by decide +kernel

/-- ChannelRegistersTakeTheirWrites: a disabled channel, an error in the cycle of a DISABLE and none, an IDLE one, one that the running sheet names. -/
def disabled : State := setChan ready 3 127 { chan ready 3 127 with st := .disabled, disable := true }
def dmaCue : BitVec 256 := BitVec.ofNat 256 (7 * 2 ^ 207 + 127 * 2 ^ 197 + 0x60 * 2 ^ 189)
theorem test_channel_meets : ((some 0).bind (chanFault (busy (.channel 0 0) (copying false fwBase)) 0 0)).isSome ∧
    (none : Option Nat).bind (chanFault ready 3 127) = none ∧ (chan disabled 3 127).disable = true ∧
    ((chan ready 3 127).st = .idle ∧ channelNamed ready 3 127 = false ∧ placeFor ready 3 (goOps 3 0) = true) ∧ (chan disabled 3 127).st ≠ .idle ∧
    channelNamed (runningWith dmaCue []) 0 127 = true := by decide +kernel

/-- ArbitersGrantBySlot: a lock in force, one request, an eighth grant, the others; a request that its arbiter takes; nothing raised. -/
def aReq (p : Nat) : Request := { port := p, rank := 1, lock := 1, since := 0, chan := none, seq := 0 }
def anArb (grant left : Nat) (owner : Option Nat) : Arbiter :=
  { slot := 0, grant := grant, owner := owner, lockChan := none, lockSeq := 0, left := left, last0 := none, last1 := none, last2 := none,
    last3 := none, raised := [aReq 0, aReq 1], present := [], served := none }
theorem test_arbiter_meets : raiseOk ready (.peer 5) (asks 3) = true ∧
    lockOwner (anArb 3 2 (some 1)) (seenAt (anArb 3 2 (some 1)) false) = some (aReq 1, false) ∧
    slotGrant (anArb 7 0 none) false = some (aReq 0, false, false) ∧ ((anArb 7 0 none).grant + 1) % 8 = 0 ∧
    slotGrant (anArb 6 0 none) false = some (aReq 0, false, false) ∧ ((anArb 6 0 none).grant + 1) % 8 ≠ 0 ∧
    (bankBusy ready (.bank 3 63) = false ∧
      bankBusy { ready with mem := { ready.mem with queues := [(255, { noQueue 255 with entries := List.replicate 16 ⟨0, 0, 1⟩ })] } } (.bank 3 63) =
        true) ∧
    slotGrant { anArb 6 0 none with raised := [] } false = none ∧ arbKey (.peer 4) ≠ arbKey (.peer 5) := by decide +kernel

/-- WindowsOpen: each builder; an EXPERT_LIST whose list can be planned and one that cannot. -/
def windowDesc (b : Nat) : List Byte := toLE 32 (b * 2 ^ 200) ++ zeros 32
def planOf (s : State) : Except UnitId (List Planned) :=
  let l := leftAt s (.control 1) (cueOf 1) 100
  let b := setUnit l (.control 1) { unit l (.control 1) with freeAt := 100 }
  let blk := ofLE ((sheet s).desc 1 64)
  let r := wdResult (ofLE ((sheet s).desc 0 32))
  let g := fillsOf (readAll (whoPrompter 7) b [(r + 4 * bits blk 511 503, 4 * bits blk 502 494)]) blk r
  planList blk g.1 (sheet b) (templatesOf (sheet b) (cueOf 1).raw)
theorem test_windows_meet :
    (startsAt (pendWith (.control 1) 1 (windowDesc 1)) (.control 1) 1 (cueOf 1) 100 ∧
      wdBuilder (ofLE ((sheet (pendWith (.control 1) 1 (windowDesc 1))).desc (cDesc (cueOf 1).raw) 32)) = 1) ∧
    wdBuilder (ofLE ((sheet (pendWith (.control 1) 1 (windowDesc 2))).desc (cDesc (cueOf 1).raw) 32)) = 2 ∧
    wdBuilder (ofLE ((sheet (pendWith (.control 1) 1 (windowDesc 3))).desc (cDesc (cueOf 1).raw) 32)) = 3 ∧
    (planOf (pendWith (.control 1) 1 (windowDesc 3))).isOk = true := by decide +kernel

/-- BuiltCommandsAreIssuedInOrder, AWindowClosesInItsLastCycle: a window of GME 0 with a command to issue, and one with none. -/
def aBuilt : Built := { unit := .gme 1 0, opcode := 0x20, desc := zeros 256, wait := none, signal := none, onStart := false, issued := false }
def aWindow (len : Nat) (l : List Built) : Window :=
  { die := 1, cue := 7, firedAt := 90, openedAt := 90, desc := BitVec.ofNat 256 (len * 2 ^ 232 + 2 ^ 4),
    signal := none, builtAt := 100, reads := [], raced := false, outputs := [(0, [1])], built := l, cost := 0, failed := false, lastDone := 90 }
def opened (len : Nat) (l : List Built) : State := { running with stage := { running.stage with windows := [aWindow len l] } }
theorem test_issue_meets : unitDie (.gme 1 0) = 1 ∧
    takeWindow 1 (.gme 1 0) (settle (opened 50 [aBuilt])).stage.windows =
      some (aWindow 50 [aBuilt], aBuilt, [aWindow 50 [{ aBuilt with issued := true }]]) ∧
    issueCycle (settle (opened 50 [aBuilt])) (aWindow 50 [aBuilt]) 1 (.gme 1 0) aBuilt = some 100 ∧ reaches (opened 50 [aBuilt]) 100 = true ∧
    100 < 90 + wdLen (aWindow 50 [aBuilt]).desc.toNat ∧ 90 + wdLen (aWindow 10 [aBuilt]).desc.toNat ≤ 100 := by decide +kernel
theorem test_close_meets : (opened 50 []).stage.windows.find? (fun x => x.die = 1 && x.cue = 7) = some (aWindow 50 []) ∧
    reaches (opened 50 []) (90 + wdLen (aWindow 50 []).desc.toNat - 1) = true ∧
    reaches { opened 50 [] with cycle := 4095 } (90 + wdLen (aWindow 50 []).desc.toNat - 1) = false ∧
    busyUnits (opened 50 []) (aWindow 50 []) = [] ∧ busyUnits (opened 50 [aBuilt]) (aWindow 50 [aBuilt]) ≠ [] := by decide +kernel

/-! Tenants and scrubs. -/

/-- TenantCommandsTakeEffect: the last tenant, at the last PLACE, with one region. -/
def openPayload : List Byte := toLE 2 16383 ++ toLE 2 1023 ++ [1, 0, 0, 0] ++ zeros 8 ++ toLE 16 (256 * 2 ^ 32)
def tenantOpenState (active : Bool) : State :=
  { ready with tenants := [(16383, { tenant ready 16383 with st := .open_, active := active, regions := [(0, 256)], rstate := [0], zeroed := [0] })] }
theorem test_tenants_meet :
    (accepts ready (fr 1 openPayload) (cmd 0x50) = true ∧ openPayload.length = 16 + 16 * byteAt openPayload 4 ∧ byteAt openPayload 4 ≤ 16 ∧
      16 ≤ openPayload.length ∧ leAt openPayload 0 2 < 16384 ∧ leAt openPayload 2 2 < 1024 ∧ zeroAt openPayload 5 3 = true ∧ zeroAt openPayload 15 1 = true ∧
      (regionRecords openPayload (byteAt openPayload 4)).any (fun w => bits w 31 0 ≠ 0) = false ∧ ready.guard.lifecycle = .field ∧
      (tenant ready 16383).st = .closed ∧ paddockOk ready 16383 ((regionRecords openPayload (byteAt openPayload 4)).map recordRange) = true) ∧
    (accepts (tenantOpenState false) (fr 1 (toLE 2 16383)) (cmd 0x51) = true ∧ (tenant (tenantOpenState false) 16383).st = .open_ ∧
      (tenant (tenantOpenState false) 16383).active = false ∧ (tenant (tenantOpenState false) 16383).regions ≠ []) ∧
    accepts (tenantOpenState true) (fr 0 (toLE 2 16383)) { cmd 0x52 with cls := 0 } = true ∧ (tenant (tenantOpenState true) 16383).active = true ∧
    (accepts ready (fr 1 (toLE 2 16383)) (cmd 0x53) = true ∧ accepts ready (fr 1 (toLE 2 16383)) (cmd 0x54) = true ∧
      (tenant ready 16383).st ≠ .open_) ∧
    (accepts (tenantOpenState false) (fr 1 openPayload) (cmd 0x50) = true ∧ (tenantOpenState false).guard.lifecycle = .field ∧
      (tenant (tenantOpenState false) 16383).st ≠ .closed) ∧ accepts ready (fr 1 (toLE 2 16383)) (cmd 0x51) = true ∧
    accepts ready (fr 0 (toLE 2 16383)) { cmd 0x52 with cls := 0 } = true ∧
    (let s := { ready with tenants := [(16383, { tenant ready 16383 with st := .open_ })] }
     accepts s (fr 1 (toLE 2 16383)) (cmd 0x51) = true ∧ (tenant s 16383).st = .open_ ∧ (tenant s 16383).active = false ∧
      (tenant s 16383).regions = []) := by decide +kernel

/-- ScrubsZeroWhatTheyCover: a fence to scrub and one being scrubbed, whose end closes its tenant, and one whose tenant has another left; a bank
that is in RETAIN. -/
def scrubs (l : List Nat) : State :=
  { fencedState with mem := { fencedState.mem with fences := [{ aFence with scrubbing := l }],
                                                   scrubs := [{ base := 512, len := 256, owed := owed }] },
                     tenants := [(3, { tenant ready 3 with st := .fenced, regions := [(256, 256)], rstate := [1], zeroed := [0] })] }
def blocked : State :=
  { setBank ready 0 { bank ready 0 with state := .retain } with
    mem := { (setBank ready 0 { bank ready 0 with state := .retain }).mem with
             fences := [{ aFence with base := scratchBase, scrubbing := [0] }], scrubs := [{ base := scratchBase, len := 256, owed := owed }] } }
def scrubPayload : List Byte := toLE 7 512 ++ [0] ++ toLE 5 256
theorem test_scrubs_meet : nextScrub (scrubs []) 0 = some aFence ∧
    ((scrubs [0]).mem.fences.find? (fun y => y.scrubbing.contains 0) = some { aFence with scrubbing := [0] } ∧ diePart 0 (256, 256) = some (256, 256) ∧
      rangeBlocked (scrubs [0]) (256, 256) = false ∧ (scrubs [0]).cfg.regions.any (fun e => entryBit e.2 77) = false) ∧
    ((fenceDies aFence).all (0 :: aFence.scrubbed).contains = true ∧
      (((tenant (scrubs [0]) 3).rstate.set 0 3).all (fun x => decide (x = 3)) = true) ∧
      ((([1, 1] : List Nat).set 0 3).all (fun x => decide (x = 3)) = false)) ∧
    (blocked.mem.fences.find? (fun y => y.scrubbing.contains 0)).isSome ∧ diePart 0 (scratchBase, 256) = some (scratchBase, 256) ∧
    rangeBlocked blocked (scratchBase, 256) = true ∧ blocked.mem.scrubs = [{ base := scratchBase, len := 256, owed := owed }] ∧
    ((scrubs []).mem.scrubs = [{ base := 512, len := 256, owed := owed }] ∧ rangeBlocked (scrubs []) (512, 256) = false) ∧
    (accepts ready (fr 1 scrubPayload) (cmd 0x93) = true ∧ scrubPayload.length = 13 ∧ zeroAt scrubPayload 7 1 = true ∧
      leAt scrubPayload 0 7 % 256 = 0 ∧ leAt scrubPayload 8 5 % 256 = 0 ∧ leAt scrubPayload 8 5 ≠ 0 ∧ stepBusy ready = false ∧
      scrubInside (leAt scrubPayload 0 7, leAt scrubPayload 8 5) = true ∧
      (heldRegions ready 16384).any (fun x => overlaps (leAt scrubPayload 0 7) (leAt scrubPayload 8 5) x.1 x.2) = false) := by decide +kernel

/-! Sheets and tensors. -/

/-- SheetsAreLoadedAndVerified: store 1; the last byte of a sheet that is one chunk long; a sheet that is rejected. -/
def withSheet (st : CueStore) : State := { ready with store1 := st, cfg := { ready.cfg with deviceId := some 1 } }
def loading (chunks : List Nat) (v : Option Owed) : CueStore :=
  { CueStore.reset with st := .loading, size := 64, chunks := chunks, verify := v }
def beginPayload : List Byte := [1] ++ zeros 7 ++ toLE 8 64 ++ zeros 32
def dataPayload : List Byte := [1] ++ zeros 15 ++ zeros 64
theorem test_sheets_meet :
    (accepts (withSheet CueStore.reset) (fr 1 beginPayload) (cmd 0x20) = true ∧ storeNo beginPayload = 1 ∧ storeNamed beginPayload = true ∧
      zeroAt beginPayload 1 7 = true ∧ leAt beginPayload 8 8 % 32 = 0 ∧ 64 ≤ leAt beginPayload 8 8 ∧ leAt beginPayload 8 8 ≤ 2 ^ 30 ∧
      (withSheet CueStore.reset).cfg.deviceId.isSome ∧ (storeAt (withSheet CueStore.reset) 1).st ≠ .verified ∧
      (storeAt (withSheet CueStore.reset) 1).st ≠ .inUse ∧
      (storeAt (withSheet CueStore.reset) 1).verify = none ∧ beginPayload.length = 48) ∧
    (acceptsData (withSheet (loading [] none)) (fr 2 dataPayload) sheetDataInfo = true ∧ 17 ≤ dataPayload.length ∧ storeNamed dataPayload = true ∧ zeroAt dataPayload 1 7 = true ∧
      leAt dataPayload 8 8 % 8128 = 0 ∧ (storeAt (withSheet (loading [] none)) 1).st = .loading ∧
      leAt dataPayload 8 8 < 64 ∧ (dataPayload.drop 16).length = min 8128 (64 - leAt dataPayload 8 8) ∧
      dataWaits .a (withSheet (loading [] none)).fwHeld = false) ∧
    (let s := { withSheet (loading [] none) with fwHeld := [.sheetData (fr 2 dataPayload)] }
     acceptsData s (fr 2 dataPayload) sheetDataInfo = true ∧ dataWaits .a s.fwHeld = true) ∧
    (accepts (withSheet (loading [0] none)) (fr 1 [1]) (cmd 0x22) = true ∧ sheetMissing (storeAt (withSheet (loading [0] none)) 1) = [] ∧
      storeNo [1] = 1 ∧ storeNamed [1] = true) ∧
    (accepts ready (fr 1 []) (cmd 0x23) = true ∧ accepts ready (fr 1 [1]) (cmd 0x24) = true ∧ (storeAt ready 1).st ≠ .inUse) ∧
    (storeAt (withSheet (loading [0] none)) 1).verify = none ∧
    (storeAt (withSheet (loading [0] (some owed))) 1).verify = some owed := by decide +kernel
/-- A sheet of zeros is rejected. -/
theorem test_sheet_rejected : (sheetCheck (withSheet (loading [0] (some owed))) (loading [0] (some owed))).isSome = true := by decide +kernel

/-- TensorTransfersMoveTheirBytes: the last byte below the firmware region; a channel is free, and none is while frames wait. -/
def writePayload (off : Nat) : List Byte := toLE 8 9 ++ toLE 8 off ++ [5]
def openXfer (len : Nat) (chunks : List Nat) : State :=
  { ready with xfers := [{ id := 9, base := fwBase - len, len := len, chunks := chunks, dups := 0, hits := 0, written := 0 }] }
def heldFrame (i : Instr) (s : State) : State := { s with fwHeld := [i] }
def writeOpenPayload : List Byte := toLE 4 9 ++ zeros 4 ++ toLE 7 (fwBase - 1) ++ [0] ++ toLE 5 1
theorem test_tensors_meet :
    (accepts ready (fr 1 writeOpenPayload) (cmd 0x30) = true ∧ writeOpenPayload.length = 21 ∧ zeroAt writeOpenPayload 4 4 = true ∧
      zeroAt writeOpenPayload 15 1 = true ∧ leAt writeOpenPayload 16 5 ≠ 0 ∧ byteAt writeOpenPayload 4 < 2 ∧
      tensorRange (leAt writeOpenPayload 8 7) (leAt writeOpenPayload 16 5) = true ∧ xferLimit ready (xferId writeOpenPayload) = false) ∧
    (acceptsData (openXfer 1 []) (fr 2 (writePayload 0)) { cmd 0x31 with cls := 2, standby := true } = true ∧
      xferId (writePayload 0) ≠ tier3Id ∧ (xferOf (openXfer 1 []) 9).isSome ∧
      (∀ x ∈ xferOf (openXfer 1 []) 9, chunkFits x (writePayload 0) = true) ∧ (openXfer 1 []).fwHeld = [] ∧
      (fwChannel (openXfer 1 []) (dieOf (fwBase - 1))).isSome) ∧
    (heldFrame (.writeData (fr 2 (writePayload 0))) (openXfer 1 [])).fwHeld ≠ [] ∧
    (accepts (openXfer 1 [0]) (fr 1 (toLE 4 9)) (cmd 0x32) = true ∧ heldData 9 [] = false ∧
      (∀ x ∈ xferOf (openXfer 1 [0]) 9, ∀ o ∈ chunkOffsets x.len, o ∈ x.chunks)) ∧
    (accepts ready (fr 1 writeOpenPayload) (cmd 0x33) = true ∧ byteAt writeOpenPayload 4 < 2 ∧ zeroAt writeOpenPayload 5 3 = true ∧
      (fwChannel ready (dieOf (leAt writeOpenPayload 8 7))).isSome) ∧
    (accepts (openXfer 1 []) (fr 1 (toLE 4 9)) (cmd 0x35) = true) ∧
    ((fwChannel (heldFrame (.read (fr 1 writeOpenPayload)) ready) (dieOf (leAt writeOpenPayload 8 7))).isSome ∧
      (fwChannel (heldFrame (.writeClose (fr 1 (toLE 4 9))) (openXfer 1 [0])) 0).isSome ∧
      (fwChannel (heldFrame (.writeData (fr 2 (writePayload 0))) (openXfer 1 [])) (dieOf (fwBase - 1))).isSome ∧
      ([.read (fr 1 []), .writeClose (fr 1 []), .writeData (fr 2 [])] : List Instr).all ofTransfer = true) := by decide +kernel
/-- Every bank takes part while none is down, wherever the completion record stands. -/
theorem banks_take_part (s : State) (h : s.mem.banks = []) (a n : Nat) : bankFault s a n = false := by
  have g : ∀ b, gatedAt s b = false := by
    intro b; unfold gatedAt; split <;> simp [bank, h, Sparse.get, noBank]
  simp [bankFault, g]
theorem test_tensor_banks_meet (k : Nat) : (untilFault ready (fwBase - 1) 1 true).2 = none ∧ (untilFault ready (fwBase - 1) 1 false).2 = none ∧
    bankFault ready (fwRecAt k) 32 = false :=
  ⟨by decide +kernel, by decide +kernel, banks_take_part ready rfl _ _⟩

/-! Peer ports. -/

/-- Port P0 UP, with what a test changes. -/
def upPort (f : Port → Port) : State := setPort ready 0 (f { Port.reset with st := .up })
def aKept (n : Nat) : Kept := { flit := flit 1 2 0 [], resends := n }
def identOf (id : Byte) : IdentBody :=
  { deviceId := id, farPort := 0, serial := 0, expects := 0, echoValid := false, token := 0, echo := 0, hold := 0, fec := [(0, 3)] }
theorem test_ports_meet : (port (portIs .training ready) 0).st = .training ∧ (port (portIs .verify ready) 0).st = .verify ∧
    (port (portIs .up ready) 0).st = .up ∧ (port (portIs .down ready) 0).st = .down ∧ (port (portIs .mismatch ready) 0).st = .mismatch ∧
    (flitsCross (portIs .verify ready) 0 = true ∧ flitsCross (portIs .down ready) 0 = false) ∧
    (own (portIs .verify ready)).cfg.deviceId.isSome ∧ identAgrees (portIs .verify ready) 0 (identOf 0) = true ∧ identAgrees (portIs .verify ready) 0 (identOf 1) = false := by decide +kernel

/-- LinkRetrySendsAgain: 999 NAKs and 1,000 in the last millisecond; a flit sent again 14 times, and 15. -/
theorem test_retry_meets : (port (upPort id) 0).st = .up ∧
    ((port (upPort (fun q => { q with naks := List.replicate 999 0 })) 0).naks.filter (fun t => decide ((0 : Nat) < t + 1000000))).length < 1000 ∧
    1000 ≤ ((port (upPort (fun q => { q with naks := List.replicate 1000 0 })) 0).naks.filter (fun t => decide ((0 : Nat) < t + 1000000))).length ∧
    ((port (upPort (fun q => { q with retry := [aKept 14] })) 0).retry ≠ [] ∧
      (port (upPort (fun q => { q with retry := [aKept 14] })) 0).retry.all (fun k => decide (k.resends < 15)) = true) ∧
    (port (upPort (fun q => { q with retry := [aKept 15] })) 0).retry.any (fun k => decide (15 ≤ k.resends)) = true ∧
    (hd 7 0).port = 0 ∧ flitSound 0 (zeros 256) = false ∧
    (let f := 0x17#8 :: zeros 251; flitSound 0 (f ++ toLE 4 (crc32c f)) = false) ∧ flitSound 0x0F (zeros 256) = false ∧
    flitSound 0xFF (zeros 256) = true ∧
    (port (upPort (fun q => { q with retry := [aKept 14] })) 0).waitq = [] := by decide +kernel

/-- FlitsAreDeliveredInSequence. -/
def headOf (sig : Bool) : HeadBody :=
  { cls := 1, dst := 256, rowBytes := 4, rows := 1, dstStride := 0, op := 0, codec := 0, snap := false, format := 0, codecK := 0, tally := 7,
    inc := 3, sigEn := sig, bytes := 4 }
def aRx (ended : Bool) : RxXfer :=
  { sender := 2, xfer := 0, head := headOf true, data := [1, 2, 3, 4], ended := ended, crcBad := false, clash := [], fenced := [], queued := false }
def receiving (ended : Bool) : State := upPort (fun q => { q with rx := [aRx ended], curXfer := some (2, 0) })
theorem test_flits_meet : nextInSequence (upPort id) (hd 1 2).port (.head (hd 1 2) (headOf true)) ∧ nextInSequence (upPort id) (hd 2 2).port (.resumeFlit (hd 2 2)) ∧
    (nextInSequence (receiving false) 0 (.dataFlit 0 0 ⟨[5], []⟩) ∧ curRx (port (receiving false) 0) = some (aRx false)) ∧
    (nextInSequence (receiving false) (hd 3 2).port (.endFlit (hd 3 2) 4 0) ∧
      (port (receiving false) (hd 3 2).port).rx.find? (fun x => x.sender = (hd 3 2).sender && x.xfer = (hd 3 2).xfer && !x.ended) = some (aRx false)) := by
  decide +kernel
def sending : State := upPort (fun q => { q with tx := [{ xfer := 0, die := 0, chan := 0, bytes := 4 }] })
def aDone : DoneBody := { status := 0, cause := 0, failAddr := 0, failDir := false, bytes := 4, fenceHits := 0 }
theorem test_done_meets : nextInSequence sending (hd 4 1).port (.done (hd 4 1) aDone) ∧
    ((port sending (hd 4 1).port).tx.find? (fun x => x.xfer = (hd 4 1).xfer)).isSome ∧ (port (portIs .verify ready) (hd 4 1).port).st ≠ .up ∧
    32768 ≤ (flitSeq (.dataFlit 0 0xFFFF ⟨[5], []⟩) - (port (upPort id) 0).rxNext).toNat := by decide +kernel
theorem test_ahead_meets : (port (upPort id) 0).st = .up ∧
    1 ≤ (flitSeq (.dataFlit 0 0x7FFF ⟨[5], []⟩) - (port (upPort id) 0).rxNext).toNat ∧
    (flitSeq (.dataFlit 0 0x7FFF ⟨[5], []⟩) - (port (upPort id) 0).rxNext).toNat < 32768 ∧ (port (upPort id) 0).reorder = [] := by decide +kernel

/-- TalliesNoticesAndRelaysAct: a beat away; within 48 cycles; 49 away with a run of 2 and of 3, and of 3 broken by a beat; no beat. -/
def relayPort (run : Nat) (s : State) : State := setPort s 0 { Port.reset with st := .up, skewRun := run, skewBeat := BitVec.allOnes 48 }
theorem test_relays_meet : nextInSequence (upPort id) (hd 5 1).port (.tally (hd 5 1) [⟨16383, 255⟩]) ∧
    nextInSequence (upPort id) (hd 8 0).port (.notice (hd 8 0) 1 1 1) ∧
    (nextInSequence (relayPort 0 running) (hd 6 0).port (.relay (hd 6 0) 1 0) ∧ (relayPort 0 running).beat.lock ≠ .unlocked ∧
      2048 < (relaySkew (relayPort 0 running) (hd 6 0).port 1 0).natAbs ∧ (relaySkew (relayPort 0 running) (hd 6 0).port 0 48).natAbs ≤ 48 ∧
      48 < (relaySkew (relayPort 0 running) (hd 6 0).port 0 49).natAbs ∧ (relaySkew (relayPort 0 running) (hd 6 0).port 0 49).natAbs ≤ 2048 ∧
      (port (relayPort 3 running) (hd 6 0).port).skewRun + 1 = 4 ∧ (0 : BitVec 48) = (port (relayPort 3 running) (hd 6 0).port).skewBeat + 1 ∧
      (1 : BitVec 48) ≠ (port (relayPort 3 running) (hd 6 0).port).skewBeat + 1) ∧
    (upPort id).beat.lock = .unlocked := by decide +kernel

/-- AReceivedTransferBecomesVisible: it lands, with a signal; with a parity detection in its one piece; a snapshot that no window admits. -/
def landed0 (s : State) : State := setPort s 0 { port s 0 with rx := [] }
def aSnap : RxXfer := { aRx true with head := { headOf false with snap := true } }
theorem test_visible_meets : (port (receiving true) 0).rx.find? (fun r => r.xfer = 0 && r.ended) = some (aRx true) ∧
    (aRx true).head.snap = false ∧ (aRx true).head.sigEn = true ∧ ({ aRx true with queued := true }.queued = true ∧ placeFor (receiving true) 0 0 = true) ∧
    (landAll (own (landed0 (receiving true))) 0 (aRx true)).fail = none ∧
    (landAll (landed0 (receiving true)) 0 { aRx true with head := { headOf true with dst := BitVec.ofNat 64 fwBase } }).fail.isSome ∧
    aSnap.head.snap = true ∧ admitSnapshot ready 0 aSnap = false := by decide +kernel

/-! Power, the hold, the guard copies, the TAP. -/

/-- A power state before READY. -/
def powerIs (p : Power → Power) : State := { State.reset with pwr := p { Power.reset with v54 := true } }
def bad : State := { State.reset with nor := { State.reset.nor with badA := [.lifecycle], badB := [.lifecycle] } }
theorem test_start_up_meets : (State.reset.pwr.v54 = false ∧ State.reset.nor.badA = [] ∧ State.reset.nor.badB = [] ∧ State.reset.nor.laterB = []) ∧
    (bad.pwr.v54 = false ∧ NorField.lifecycle ∈ bad.nor.badA ∧ NorField.lifecycle ∈ bad.nor.badB) ∧
    (let s := powerIs (fun p => { p with state := .guard, bulkCharged := true, pwrEn := true })
     s.pwr.state = .guard ∧ s.pwr.v54 = true ∧ s.pwr.pwrEn = true ∧ s.pwr.shutLatched = false ∧ s.pwr.supplyWait = false ∧
      s.pwr.bulkCharged = true ∧ tapHolds s = false) ∧
    (let s := powerIs (fun p => { p with state := .ramp, railsUp := 3 }); s.pwr.state = .ramp ∧ s.pwr.railsUp < 4) ∧
    (let s := powerIs (fun p => { p with state := .ramp, railsUp := 4 }); s.pwr.state = .ramp ∧ s.pwr.railsUp = 4) ∧
    (let s := powerIs (fun p => { p with state := .starting, stage := 1 }); s.pwr.state = .starting ∧ s.pwr.stage = 1 ∧ s.pwr.released = false) ∧
    (let s := powerIs (fun p => { p with state := .starting, stage := 1, released := true })
     s.pwr.released = true ∧ s.pwr.slotsChecked = false ∧ s.guard.zeroising = false) ∧
    (let s := powerIs (fun p => { p with state := .starting, stage := 4 }); s.pwr.state = .starting ∧ s.pwr.stage = 4) ∧
    (let s := powerIs (fun p => { p with state := .starting, stage := 5 }); s.pwr.stage = 5 ∧ s.pwr.hbmInit = false) ∧
    (let s := powerIs (fun p => { p with state := .starting, stage := 5, hbmInit := true }); s.pwr.stage = 5 ∧ s.pwr.hbmInit = true) := by
  decide +kernel
def slotFound : State :=
  { powerIs (fun p => { p with state := .starting, stage := 1, released := true, slotsChecked := true }) with
    guard := { Guard.reset with slot0Valid := true } }
theorem test_firmware_meets : slotFound.pwr.stage = 1 ∧ slotFound.pwr.slotsChecked = true ∧ anySlot slotFound = true ∧
    slotFound.guard.zeroising = false := by decide

/-- PowerIsRemovedAndReset: the last value below RESET. -/
def shut : State := powerIs (fun p => { p with state := .shut, shutLatched := true })
def hbmRamps : State := powerIs (fun p => { p with state := .ramp, railsUp := 4 })
def waiting : State := powerIs (fun p => { p with state := .guard, supplyWait := true, pwrEn := true, bulkCharged := true })
def resetDue : State := { ready with pwr := { ready.pwr with resetDue := true } }
theorem test_power_meets : ready.pwr.state = .ready ∧ (powerIs (fun p => { p with state := .ramp })).pwr.state = .ramp ∧
    (shut.pwr.state ≠ .off ∧ hbmRamps.pwr.state = .ramp ∧ hbmRamps.pwr.railsUp = 4) ∧ (State.reset.pwr.state = .off ∧ diesOn resetDue = true) ∧ diesOn ready = true ∧ 1273 < resetOf ready 0 ∧ resetOf ready 0 = 1274 ∧ supplyHeld.guard.holdSupply = true ∧ supplyHeld.pwr.state = .ready ∧
    waiting.pwr.state ≠ .ready ∧
    (waiting.pwr.supplyWait = true ∧ waiting.pwr.state = .guard ∧ waiting.pwr.v54 = true ∧ waiting.pwr.pwrEn = true ∧
      waiting.pwr.shutLatched = false ∧ waiting.pwr.bulkCharged = true ∧ tapHolds waiting = false) ∧
    resetDue.pwr.resetDue = true := by decide +kernel

/-- TheBrownoutHoldBeginsAndEnds: below WARN, with no hold, in another and in it; the hold of the supply alone. -/
def powerHeld : State := { ready with guard := { ready.guard with holdPower := true } }
def hot : State := { ready with guard := { ready.guard with holdThermal := true } }
theorem test_hold_begins_meets : ready.pwr.state = .ready ∧ ready.pwr.stage = 6 ∧ 1329 < warnOf ready 0 ∧ warnOf ready 0 = 1330 ∧
    ready.guard.holdSupply = false ∧ inHold ready = false ∧ inHold powerHeld = true ∧ powerHeld.guard.holdSupply = false ∧
    running.step.phase = .running ∧ running.step.cause = 0 ∧ supplyHeld.guard.holdSupply = true ∧ supplyHeld.pwr.state = .ready ∧
    supplyHeld.pwr.stage = 6 ∧ (supplyHeld.guard.holdPower = false ∧ supplyHeld.guard.holdThermal = false) := by decide +kernel
/-- PowerAndThermalHoldsBeginAndEnd: an average a microwatt above the cap and at it; THERM_HOLD and THERM_SHUT to the degree, and a degree under. -/
def coolNow : State := { powerHeld with guard := { powerHeld.guard with powerLow := 1000 } }
theorem test_other_holds_meet : (ready.pwr.v54 = true ∧ powerCap ready * 1000000000 < (1498000000001 :: ready.guard.powers).sum ∧
      (1498000000000 :: ready.guard.powers).sum ≤ powerCap ready * 1000000000 ∧ ready.guard.powers.sum ≤ powerCap starting * 1000000000 ∧
      ready.guard.holdPower = false) ∧ (starting.pwr.state = .starting ∧ 4 ≤ starting.pwr.stage) ∧ powerHeld.pwr.state = .ready ∧
    (coolNow.guard.holdPower = true ∧ 1000 ≤ coolNow.guard.powerLow ∧ coolNow.pwr.stage = 6 ∧
      coolNow.guard.holdSupply = false ∧ coolNow.guard.holdThermal = false) ∧
    (hottest (thermShut ready) 0 [99, 100] = none ∧ hottest (thermHold ready) 0 [99, 100] = some (1, 100) ∧ ready.guard.holdThermal = false ∧
      hottest (thermHold ready) 0 [99] = none) ∧ (hottest (thermShut ready) 0 [99, 110] = some (1, 110) ∧ railsLive ready = true) ∧
    (hot.guard.holdThermal = true ∧ hot.pwr.stage = 6 ∧ hot.guard.holdSupply = false ∧ hot.guard.holdPower = false) := by decide +kernel

/-- DisagreementAndZeroisationProtect, TapInstructionsLoadAndHold. -/
def held : State := { powerIs (fun p => { p with state := .guard }) with tap := { Tap.reset with code := 5 } }
theorem test_disagree_meets : ((guardRegister ready 5).map ofLE = some portEnableReset.toNat ∧ portEnableReset.toNat ≠ 3 &&& guardMask 5) ∧
    ((guardRegister ready 8).map ofLE = some 0 ∧ (1 : Nat) % 256 ^ 16 ≠ 0) ∧
    (lanesOn ready 0 = true ∧ bits (protective 5 portEnableReset.toNat (3 &&& guardMask 5)) 15 8 = 0) ∧
    tapWorks held = true ∧ tapWorks ready = false ∧
    zeroing.guard.zero = some { reply := none, counter := 0 } ∧ ready.pwr.state ≠ .off ∧ (held.pwr.state = .guard ∧ tapHolds held = true) ∧
    State.reset.pwr.state = .off := by decide +kernel

/-! The beat. -/

/-- TheBeatLockFollowsItsMarks: a mark of the source good, with a wrong number, none; a mark for a boundary to come. -/
def beatIs (f : Beat → Beat) : State := { running with beat := f { Beat.reset with lock := .locked } }
def aMark (k : MarkKind) : SeenMark := { at_ := 0, kind := k, early := false }
theorem test_beat_meets : running.pwr.v54 = true ∧ (running.beat.awaitA = false ∧ running.beat.awaitB = false) ∧
    (running.beat.lock = .locked ∧ running.ctl.carrier = some .a ∧ portMark running.beat .a 0 = none ∧ lateMark (delayOf running.beat .a) = true) ∧
    (let s := beatIs (fun b => { b with delayA := 5 })
     s.beat.lock = .locked ∧ sourceMark s 0 = none ∧ portMark s.beat .a 0 = none ∧ lateMark (delayOf s.beat .a) = false) ∧
    (let s := beatIs (fun b => { b with awaitA := true }); awaits s.beat .a = true ∧ portMark s.beat .a 1 = none) ∧
    sourceMark (beatIs (fun b => { b with seenA := [aMark .good] })) 0 = some .good ∧
    (let s := beatIs (fun b => { b with seenA := [aMark .wrongNumber], wrongRun := 2 })
     sourceMark s 0 = some .wrongNumber ∧ 2 ≤ s.beat.wrongRun ∧ stepStarted s = true ∧ s.step.cause = 0) ∧
    (let s := beatIs (fun b => { b with lock := .acquiring, seenA := [aMark .good], goodRun := 63 })
     s.beat.lock = .acquiring ∧ sourceMark s 0 = some .good ∧ 63 ≤ s.beat.goodRun) ∧
    sourceMark (beatIs (fun b => { b with lock := .acquiring, seenA := [aMark .wrongNumber] })) 0 ≠ some .good ∧
    (let s := beatIs (fun b => { b with lock := .holdover, seenA := [aMark .good], holdA := 15 })
     s.beat.lock = .holdover ∧ portMark s.beat .a 0 = some (aMark .good) ∧ (aMark .good).early = false ∧ 15 ≤ s.beat.holdA) ∧
    (let s := beatIs (fun b => { b with lock := .holdover, seenA := [aMark .wrongNumber], wrongRun := 2, holdA := 14 })
     portMark s.beat .a 0 = some (aMark .wrongNumber) ∧ s.beat.holdA < 15 ∧ s.beat.holdB < 15) ∧
    (let m : SeenMark := { aMark .good with at_ := 1 }
     let s := beatIs (fun b => { b with seenA := [m] })
     m ∈ seenOf s.beat .a ∧ judged (delayOf s.beat .a) ≤ m.at_) ∧
    (inHold running = false ∧ running.step.frozen = [] ∧ running.step.phase = .running) := by decide +kernel

/-- MarksAreJudged: a mark of beat 1 with its CRC and one without; both edges of the phase; a second mark for the boundary; a beat that is lost. -/
def markOf (beat : Nat) : BitVec 128 :=
  let b := beat * 2 ^ 80
  BitVec.ofNat 128 (b + crc32c (slice (toLE 16 b) 4 12))
theorem test_marks_meet : (kcp ready .a).up = true ∧ (kcp both .b).up = true ∧ firmwareUp ready = true ∧ markCrcOk (markOf 1) = true ∧
    (ready.beat.lock = .unlocked ∧ ready.ctl.carrier = some .a) ∧
    (running.beat.lock = .locked ∧ inPhase (2 - delayOf running.beat .a) = true ∧ inPhase (-2 - delayOf running.beat .b) = true ∧
      markAt (seenOf running.beat .a) (nearBoundary 2) = none) ∧
    (markAt (seenOf (beatIs (fun b => { b with seenA := [aMark .good] })).beat .a) (nearBoundary (-2))).isSome ∧
    (let s := beatIs (fun b => { b with awaitA := true, count := 1 })
     awaits s.beat .a = true ∧ inPhase (-4094 - delayOf s.beat .a) = true ∧ nearBoundary (-4094) = judged (delayOf s.beat .a) - 1 ∧
      markAt (seenOf s.beat .a) (nearBoundary (-4094)) = none ∧ (1 : BitVec 48) = beatAt s.beat (nearBoundary (-4094)) ∧
      (2 : BitVec 48) ≠ beatAt s.beat (nearBoundary (-4094))) ∧ awaits running.beat .a = false ∧
    inPhase (3 - delayOf running.beat .a) = false ∧ lostBeat.beat.lock = .lost ∧ markCrcOk (markOf 1 ^^^ 1) = false ∧
    (let s := beatIs (fun b => { b with lock := .holdover, heldBeats := 4096 }); s.beat.lock = .holdover ∧ 4096 ≤ s.beat.heldBeats) := by
  decide +kernel

/-! Telemetry. -/

/-- TelemetryCommandsAnswer: the last place, the last register, the end of the table image, the last channel. -/
theorem test_telemetry_meets : accepts ready (fr 1 []) (cmdEarly 0x71) = true ∧ accepts ready (fr 1 [5]) (cmdEarly 0x74) = true ∧
    (accepts ready (fr 1 [0, 0, 0, 0, 1, 1, 255]) (cmdEarly 0x75) = true ∧ (0 : Byte) < 1 ∧ (1 : Byte) ≤ 255) ∧
    accepts ready (fr 1 [1, 0]) (cmdEarly 0x76) = true ∧
    (accepts ready (fr 1 [10, 0]) (cmdEarly 0x81) = true ∧ (guardRegister ready 10).isSome ∧ guardRegister ready 11 = none) ∧
    accepts ready (fr 1 []) (cmdEarly 0x90) = true ∧
    (accepts ready (fr 1 (toLE 4 65632 ++ toLE 4 8096)) (cmdEarly 0x91) = true ∧
      leAt (toLE 4 65632 ++ toLE 4 8096) 0 4 + leAt (toLE 4 65632 ++ toLE 4 8096) 4 4 ≤ 73728) ∧
    accepts ready (fr 1 [3, 127]) (cmdEarly 0x92) = true := by decide +kernel

/-- AlarmsAndTracesLeave. -/
def aMsg (need : Bool) : AlarmMsg :=
  { id := 1, alarm := { kind := 0x46, place := 5, unit := 0, inst := 0, cue := 0, beat := 0, cycle := 0, alarm := true, replay := false, folded := false,
                        d0 := 0, d1 := 0, recno := 0, wall := 0 }, needA := need, needB := false, taken := false, seq := none, sent := false }
def alarmed (w : List AlarmMsg) (x : Option AlarmMsg) : State :=
  { ready with alarms := { ready.alarms with places := [(5, { noAlarms 5 with waiting := w, sending := x })] } }
def traced : State :=
  { ready with trace := { ready.trace with ring := [{ kind := 1, place := 0, unit := 0, inst := 0, cue := 7, beat := 0, cycle := 0, addr := 0, count := 0 }] } }
theorem test_alarms_meet : (sendingDone (alarmed [aMsg true] none) (Sparse.get noAlarms (alarmed [aMsg true] none).alarms.places 5) = true ∧
      ((alarmed [aMsg true] none).ctl.a.up || (alarmed [aMsg true] none).ctl.b.up) = true ∧
      (Sparse.get noAlarms (alarmed [aMsg true] none).alarms.places 5).waiting = [aMsg true]) ∧
    ((kcp (alarmed [] (some (aMsg true))) .a).up = true ∧ (kcp (alarmed [] (some (aMsg true))) .a).queue0.length < 3 ∧
      nextPlace (alarmed [] (some (aMsg true))) .a = some (5, aMsg true)) ∧
    (traced.ctl.carrier = some .a ∧ (kcp traced .a).up = true ∧ traced.trace.ring ≠ [] ∧ traced.trace.both = false ∧ (kcp traced .a).queue0 = []) := by
  decide +kernel

/-! Signed guard commands and firmware slots. The signatures are of the private key 1 with the nonce 1: both keys are the base point, r is
its x and s is the digest plus r. -/

def signOne (m : List Byte) : List Byte := toBE 32 gx256 ++ toBE 32 ((sha256 m + gx256) % n256)
def keyOne : List Byte := 0x04#8 :: (toBE 32 gx256 ++ toBE 32 gy256)
/-- A module with the serial 1, both keys the base point, in a lifecycle state. -/
def signable (l : Lifecycle) : State :=
  { ready with guard := { ready.guard with lifecycle := l, operatorPub := keyOne, makerPub := keyOne, serial := 1, svRunning := 9,
                                           deviceKey := some 1 } }
/-- An envelope with COUNTER 1 and its signature. -/
def envelope (kind : Byte) (body : List Byte) : List Byte :=
  let m := [1, 0, kind, 0] ++ toLE 4 body.length ++ toLE 8 1 ++ zeros 11 ++ [1] ++ zeros 4 ++ sha256Bytes keyOne ++ body
  m ++ signOne m
def passes (l : Lifecycle) (kind : Byte) (b : GuardBody) (body : List Byte) : Bool :=
  let s := signable l
  let f := fr 1 (envelope kind body)
  accepts s f (cmdEarly 0x80) && decide (129 ≤ f.payload.length ∧ f.payload.length = 128 + envBodyLen f.payload) &&
    (envelopeFault (afterAccept s f) f.payload b).isNone
theorem test_set_limits_meets : passes .field 1 setLimitsBody
    ([1, 0, 0, 0] ++ toLE 8 (600 * 2 ^ 52 + 99 * 2 ^ 44 + 100 * 2 ^ 36 + 110 * 2 ^ 28)) = true := by decide +kernel
theorem test_set_ports_meets : passes .provisioned 1 setPortsBody ([2, 0, 0, 0] ++ toLE 8 1) = true := by decide +kernel
theorem test_fw_min_sv_meets : passes .field 1 setFwMinSvBody [3, 0, 0, 0, 9, 0] = true := by decide +kernel
theorem test_rotate_meets : passes .field 1 rotateBody ([4, 0, 0, 0] ++ keyOne) = true := by decide +kernel
theorem test_enter_field_meets : passes .provisioned 1 enterFieldBody [5, 0, 0, 0] = true := by decide +kernel
theorem test_scrap_meets : passes .field 2 scrapBody [6, 0, 0, 0] = true := by decide +kernel
theorem test_enter_maker_meets : passes .field 2 enterMakerBody [7, 0, 0, 0] = true := by decide +kernel
theorem test_generate_meets : passes .makerAnalysis 2 generateBody [8, 0, 0, 0] = true := by decide +kernel
theorem test_complete_meets_provision : passes .manufacture 2 completeBody
    ([9, 0, 0, 0] ++ keyOne ++ zeros 3 ++ toLE 2 69 ++ zeros 6 ++ ([0x30, 0x82, 0, 65] ++ keyOne)) = true := by decide +kernel
theorem test_set_register_meets : passes .manufacture 2 setRegisterBody
    ([10, 0, 0, 0, 1, 0, 0, 0] ++ toLE 4 (1330 * 2 ^ 20 + 1274 * 2 ^ 8)) = true := by decide +kernel
theorem test_guard_refused_meets : passes .field 2 setLimitsBody ([1, 0, 0, 0] ++ toLE 8 0) = false ∧
    (envelopeFault (afterAccept (signable .field) (fr 1 (envelope 2 [6, 0, 0, 0]))) (envelope 2 [6, 0, 0, 0]) setLimitsBody).isSome = true ∧
    accepts { signable .field with guard := { (signable .field).guard with agree := false } } (fr 1 (envelope 2 [6, 0, 0, 0])) (cmdEarly 0x80) = true ∧
    129 ≤ (envelope 2 [6, 0, 0, 0]).length ∧ (envelope 2 [6, 0, 0, 0]).length = 128 + envBodyLen (envelope 2 [6, 0, 0, 0]) := by
  decide +kernel

/-- FirmwareSlotsAreWrittenAndCommitted: slot 1; the last chunk of the slot; an image that is good, one whose signature is not, one too short. -/
def slotImage (good : Bool) : List Byte :=
  let h := [0x42, 0x56, 0x46, 0x57] ++ [3, 0, 0, 0] ++ [9, 0, 0, 0] ++ toLE 4 1 ++ sha256Bytes [0xAB]
  h ++ (if good then signOne h else signOne []) ++ [0xAB]
def slotState (good : Bool) (chunks : List Nat) : State :=
  setFwSlot (signable .field) true { FwSlot.reset with bytes := Sparse.put erased [] 0 (slotImage good), chunks := chunks, commit := some (owed, 113) }
def fwData : List Byte := [1] ++ zeros 7 ++ toLE 8 (8128 * 3690) ++ [0xAB]
theorem test_slots_meet :
    (acceptsData ready (fr 2 fwData) (cmdNoFw 0x94 2) = true ∧ 17 ≤ fwData.length ∧ fwData.length ≤ 8144 ∧ byteAt fwData 0 < 2 ∧
      zeroAt fwData 1 7 = true ∧ leAt fwData 8 8 % 8128 = 0 ∧ leAt fwData 8 8 + (fwData.length - 16) ≤ 30000000 ∧
      ready.guard.running ≠ some true ∧ (fwSlot ready true).commit = none ∧ dataWaits .a ready.fwHeld = false) ∧
    (acceptsData (heldFrame (.writeData (fr 2 [])) ready) (fr 2 fwData) (cmdNoFw 0x94 2) = true ∧
      dataWaits .a (heldFrame (.writeData (fr 2 [])) ready).fwHeld = true) ∧
    (accepts ready (fr 1 ([1] ++ zeros 7 ++ toLE 8 113)) (cmdNoFw 0x95 1) = true ∧
      leAt ([1] ++ zeros 7 ++ toLE 8 113) 8 8 ≠ 0 ∧ leAt ([1] ++ zeros 7 ++ toLE 8 113) 8 8 ≤ 30000000) ∧
    (fwSlot (slotState true []) true).commit = some (owed, 113) ∧ missingChunks 113 (fwSlot (slotState true []) true).chunks ≠ [] ∧
    missingChunks 113 (fwSlot (slotState true [0]) true).chunks = [] ∧ accepts ready (fr 1 [1]) (cmdNoFw 0x96 1) = true := by decide +kernel
theorem test_slot_good : slotFault (slotState true [0]).guard (fwSlot (slotState true [0]) true) = 0 ∧
    113 = 112 + slotBodyLen (fwSlot (slotState true [0]) true) := by decide +kernel
theorem test_slot_signature : slotFault (slotState false [0]).guard (fwSlot (slotState false [0]) true) = 4 := by decide +kernel
theorem test_slot_erased : slotFault (signable .field).guard FwSlot.reset ≠ 4 ∧ slotFault (signable .field).guard FwSlot.reset ≠ 0 := by
  decide +kernel

/-! Securing and restore. -/

/-- SecuringCommandsTakeEffect: a valid region, a busy step, an idle one; a window, and none; an image sent whole, of one tier and of two. -/
def anImage (l : List Nat) : Image :=
  { id := 5, sections := 0, done := [], commit := false, hash := 0, tiers := l, sent1 := 256, sent2 := 256, sent3 := 256 }
def secured (l : List Nat) : State := { ready with secure := { ready.secure with st := .draining, image := some (anImage l) } }
def aJournal : JournalEntry :=
  { step := 1, startBeat := 0, endState := 0, cause := 0, commit := true, replay := false, matched := false, froze := 0, hash := 0, manifest := 0,
    seed := 0, endBeat := 1, tenants := [] }
def mirrored : State := { ready with journal := { ready.journal with toMirror := [aJournal] } }
def windowPayload (e : Nat) : List Byte := zeros 16 ++ toLE 16 e
def windowOk (s : State) (p : List Byte) : Bool :=
  let e := taken128 (entryOf p) understudyFields
  accepts s (fr 1 p) (cmd 0x62) && decide (p.length = 32) && zeroAt p 0 16 && decide (wLength e ≤ 6144) && decide (uPort e ≤ 5) &&
    !snapshotComing s &&
    (decide (wLength e = 0) || (decide (eBase e + wLength e ≤ 48896) && !windowClash s e))
theorem test_securing_meets :
    (accepts (oneRegion ready) (fr 1 [3]) (cmd 0x60) = true ∧ (validRegions (oneRegion ready)).isEmpty = false ∧
      secureLater (oneRegion ready) = false ∧ (oneRegion ready).step.dirty = false ∧ (oneRegion ready).fwHeld = [] ∧
      (fwChannel (oneRegion ready) (regionsHome (oneRegion ready))).isSome) ∧
    (secureLater (oneRegion running) = true ∧ accepts (oneRegion running) (fr 1 [3]) (cmd 0x60) = true) ∧
    (heldFrame (.read (fr 1 [])) (oneRegion ready)).fwHeld ≠ [] ∧
    accepts ready (fr 1 (toLE 4 7)) (cmd 0x61) = true ∧ windowOk ready (windowPayload 0) = true ∧
    windowOk ready (windowPayload (6144 * 2 ^ 96 + 1)) = true ∧ accepts ready (fr 1 []) (cmd 0x63) = true ∧
    accepts ready (fr 1 (zeros 12)) (cmd 0x64) = true ∧ mirrored.journal.toMirror = [aJournal] := by decide +kernel
theorem test_image_meets : tierSent (secured [1]) 1 = some (anImage [1]) ∧ (anImage [1]).tiers.filter (· ≠ 1) = [] ∧
    tierSent (secured [1, 2]) 2 = some (anImage [1, 2]) ∧ (anImage [1, 2]).tiers.filter (· ≠ 2) ≠ [] := by decide +kernel

/-- RestoresWriteTheirImage: each tier, with a channel free; an image whose header and one section are good, one that is not, one that the understudy sends. -/
def sec : List Byte := [1, 2, 3, 4]
def restoreTail : List Byte :=
  toLE 32 (96 * 2 ^ 120 + 4 * 2 ^ 160 + crc32c sec)
def restoreHead (crc : Nat) : List Byte := toLE 64 (0x0014 * 2 ^ 496 + 1 * 2 ^ 479 + 5 * 2 ^ 416 + crc)
def restoreHeadTail : List Byte := restoreHead (crc32c ((restoreHead 0 ++ restoreTail).drop 4)) ++ restoreTail
def restoreBytes : List Byte := restoreHeadTail ++ sec
def aRestore (sends : List (BitVec 16)) (b : List Byte) : Restore :=
  { tier := 3, id := 5, bytes := Sparse.put zeroByte [] 0 b, sends := sends, worst := 0, owed := owed }
def restoring (r : Restore) : State := { oneRegion ready with restore := some r }
def restorePayload (t : Nat) : List Byte := BitVec.ofNat 8 t :: zeros 7 ++ toLE 8 5
def inNand : State := { ready with nand := { ready.nand with slot1 := { valid := some 5, bytes := [] } } }
theorem test_restore_meets :
    (accepts ready (fr 1 (restorePayload 3)) (cmd 0x65) = true ∧
      (stepBusy ready || ready.restore.isSome || ready.fwHeld.any isHeldRestore) = false ∧
      (stepBusy running || running.restore.isSome || running.fwHeld.any isHeldRestore) = true ∧ accepts running (fr 1 (restorePayload 3)) (cmd 0x65) = true ∧
      (5 : BitVec 64).toNat / 2 ^ 56 = ownId ready ∧ (nandHolding inNand 5).isSome ∧ (nandHolding ready 5).isNone) ∧
    ((fwChannel (restoring (aRestore [] restoreBytes)) 0).isSome ∧ nandReadFails (restoring (aRestore [] restoreBytes)) (aRestore [] restoreBytes) = false ∧ (restoring (aRestore [] restoreBytes)).mem.banks = [] ∧
      headerGood (restoreRead (aRestore [] restoreBytes)) 5 = true ∧
      (restoreEntries (aRestore [] restoreBytes)).all (entryInside (restoring (aRestore [] restoreBytes))) = true ∧
      (restoreEntries (aRestore [] restoreBytes)).all (fun e => decide (crc32c (entrySection (aRestore [] restoreBytes) e) = ihCrc e)) = true) ∧
    ((restoreEntries (aRestore [] (restoreHeadTail ++ [1]))).all (entryInside (restoring (aRestore [] (restoreHeadTail ++ [1])))) = true ∧
      headerGood (restoreRead (aRestore [] (restoreHeadTail ++ [1]))) 5 = true ∧
      (restoreEntries (aRestore [] (restoreHeadTail ++ [1]))).all
        (fun e => decide (crc32c (entrySection (aRestore [] (restoreHeadTail ++ [1])) e) = ihCrc e)) = false) ∧
    headerGood (restoreRead (aRestore [] [])) 5 = false ∧ (aRestore [9] []).sends ≠ [] ∧
    (port ready 0).st ≠ .up ∧
    (let q := port (setPort (restoring (aRestore [9] [])) 0 { Port.reset with st := .up, tx := [{ xfer := 9, die := 0, chan := 0, bytes := 4 }] }) 0
     q.st = .up ∧ q.tx.any (fun x => [9].contains x.xfer) = true) ∧
    (let q := port (setPort (restoring (aRestore [9] [])) 0 { Port.reset with st := .up }) 0
     q.st = .up ∧ q.tx.any (fun x => [9].contains x.xfer) = false) := by decide +kernel
end Sys2Proof.Tests
end

section
/-! The bare reference cycle (sp. 00 R10; log 2): the clocks move, marks that have not come are judged missing, the alarm frames due leave. Each
shared operation is shown once to keep a projection of State; the fields follow from it. -/

namespace Sys2Proof.Machine

/-! ## What a judgement of marks leaves alone -/

/-- Of the beat, whether the marks of the boundary just passed are still awaited. -/
def Beat.awaited (b : Beat) : Beat := { Beat.reset with awaitA := b.awaitA, awaitB := b.awaitB }

/-- State without what a judgement of marks may touch: the lock and its runs, the step that LOST ends, records and frames of a move of control. -/
def butJudged (s : State) : State :=
  { butFrames (butEvents s) with beat := s.beat.awaited, step := StepSt.reset, stage := Stage.reset }

theorem butJudged_of_events {s t : State} (h : butEvents s = butEvents t) : butJudged s = butJudged t := by
  change butJudged (butEvents s) = butJudged (butEvents t)
  rw [h]

theorem butJudged_of_frames {s t : State} (h : butFrames s = butFrames t) : butJudged s = butJudged t := by
  change butJudged (butFrames s) = butJudged (butFrames t)
  rw [h]

/-- What both branches leave alone, a choice between them leaves alone. -/
theorem ite_field {γ : Type} {π : State → γ} {c : Prop} [Decidable c] {a b : State} {x : γ} (ha : π a = x) (hb : π b = x) :
    π (if c then a else b) = x := by
  split
  · exact ha
  · exact hb

theorem stopFiring_only (s : State) (cause : Byte) (failed : Bool) (at_ : Nat) :
    butJudged (stopFiring s cause failed at_) = butJudged s := by
  unfold stopFiring
  exact ite_field rfl rfl

theorem stepLost_only (s : State) : butJudged (stepLost s) = butJudged s := by
  unfold stepLost
  exact ite_field (stopFiring_only s 4 true s.now) rfl

theorem setLock_only (s : State) (n : Lock) : butJudged (setLock s n) = butJudged s := by
  unfold setLock
  dsimp only
  refine ite_field rfl (ite_field ?_ ?_)
  · rw [stepLost_only, butJudged_of_events (raise_only _ _)]; rfl
  · rw [butJudged_of_events (raise_only _ _)]; rfl

theorem moveSource_only (s : State) (k : Kcp) : butJudged (moveSource s k) = butJudged s := by
  unfold moveSource
  dsimp only
  split
  case h_1 => exact ite_field rfl (setLock_only _ _)
  case h_2 => exact setLock_only _ _
  case h_3 => rfl

theorem controlMoved_only (s : State) (k : Kcp) (cause : Nat) : butJudged (controlMoved s k cause) = butJudged s := by
  rw [controlMoved, butJudged_of_frames (sendReport_only _ _ _ _), butJudged_of_events (raise_only _ _)]

theorem takeControl_only (s : State) (k : Kcp) (cause : Nat) : butJudged (takeControl s k cause) = butJudged s := by
  have moved : butJudged (moveSource { s with ctl := { s.ctl with carrier := some k, lost := none } } k) = butJudged s :=
    moveSource_only _ k
  unfold takeControl
  dsimp only
  split
  · split
    · exact ite_field moved ((controlMoved_only _ _ _).trans moved)
    · exact moved
  · exact ite_field rfl ((controlMoved_only _ _ _).trans moved)

theorem holdoverJudge_only (s : State) (j : Int) (g : Judges) : butJudged (holdoverJudge s j g) = butJudged s := by
  unfold holdoverJudge
  dsimp only
  split
  · exact (takeControl_only _ _ _).trans (setLock_only _ _)
  · exact ite_field (setLock_only _ _) rfl

theorem sourceJudge_only (s : State) (j : Int) : butJudged (sourceJudge s j) = butJudged s := by
  unfold sourceJudge
  dsimp only
  split
  case h_1 => exact ite_field (ite_field (setLock_only s _) rfl) rfl
  case h_2 =>
    split
    · exact setLock_only s _
    · rfl
    · exact ite_field (setLock_only s _) rfl
  case h_3 => rfl

theorem lockJudge_only (s : State) (j : Int) (g : Judges) : butJudged (lockJudge s j g) = butJudged s := by
  unfold lockJudge
  split
  · exact holdoverJudge_only s j g
  · exact ite_field (sourceJudge_only s j) rfl

/-- A judgement touches nothing else but that the ports judged are awaited no more. -/
theorem judge_only (s : State) (j : Int) (g : Judges) :
    butJudged (judge s j g) =
      butJudged { s with beat := { s.beat with awaitA := s.beat.awaitA && !g.a, awaitB := s.beat.awaitB && !g.b } } := by
  rw [judge, lockJudge_only]; rfl

/-- Judging the rest leaves no mark awaited. -/
theorem judgeRest_only (s : State) :
    butJudged (judgeRest s) = butJudged { s with beat := { s.beat with awaitA := false, awaitB := false } } := by
  unfold judgeRest
  split
  · rw [judge_only]; simp
  case isFalse h =>
    obtain ⟨ha, hb⟩ : s.beat.awaitA = false ∧ s.beat.awaitB = false := by simpa using h
    simp only [butJudged, Beat.awaited, ha, hb]
    rfl

/-- With no mark awaited nothing is judged. -/
theorem judgeRest_of_none_awaited {s : State} (ha : s.beat.awaitA = false) (hb : s.beat.awaitB = false) : judgeRest s = s := by
  simp [judgeRest, ha, hb]

/-! ## What the timeout of marks leaves alone -/

/-- Up to 2 cycles after a boundary, and with no mark awaited, none is found missing (sp. 02 R33). -/
theorem markTimeout_unchanged {s : State} (h : s.cycle.toNat < 3 ∨ (s.beat.awaitA = false ∧ s.beat.awaitB = false)) :
    markTimeout s = s := by
  unfold markTimeout
  split
  case isTrue => rfl
  case isFalse hc =>
    obtain ⟨ha, hb⟩ := h.resolve_left hc
    exact judgeRest_of_none_awaited ha hb

/-- Later no mark is awaited any more. -/
theorem markTimeout_none_awaited {s : State} (h : 3 ≤ s.cycle.toNat) :
    (markTimeout s).beat.awaitA = false ∧ (markTimeout s).beat.awaitB = false := by
  have e := judgeRest_only s
  rw [markTimeout, if_neg (by omega)]
  exact ⟨field_of (fun u => u.beat.awaitA) e (fun _ => rfl), field_of (fun u => u.beat.awaitB) e (fun _ => rfl)⟩

/-- What a judgement and the awaits themselves leave alone, the timeout of marks leaves alone. -/
theorem markTimeout_field {δ : Type} (f : State → δ) (hj : ∀ u, f (butJudged u) = f u)
    (hb : ∀ u b, f { u with beat := b } = f u) (s : State) : f (markTimeout s) = f s := by
  unfold markTimeout
  split
  · rfl
  · exact (field_of f (judgeRest_only s) hj).trans (hb s _)

@[simp] theorem markTimeout_pending (s : State) : (markTimeout s).pending = s.pending :=
  markTimeout_field State.pending (fun _ => rfl) (fun _ _ => rfl) s
@[simp] theorem markTimeout_now (s : State) : (markTimeout s).now = s.now :=
  markTimeout_field State.now (fun _ => rfl) (fun _ _ => rfl) s
@[simp] theorem markTimeout_ref (s : State) : (markTimeout s).ref = s.ref :=
  markTimeout_field State.ref (fun _ => rfl) (fun _ _ => rfl) s
@[simp] theorem markTimeout_half (s : State) : (markTimeout s).half = s.half :=
  markTimeout_field State.half (fun _ => rfl) (fun _ _ => rfl) s
@[simp] theorem markTimeout_cycle (s : State) : (markTimeout s).cycle = s.cycle :=
  markTimeout_field State.cycle (fun _ => rfl) (fun _ _ => rfl) s

/-! ## An ALARM frame that leaves touches the control ports, the session and the alarms -/

/-- State without what an ALARM frame that leaves may touch. -/
def butQueued (s : State) : State := { butFrames s with alarms := { places := [], nextId := 1 } }

theorem butQueued_of_frames {s t : State} (h : butFrames s = butFrames t) : butQueued s = butQueued t := by
  change butQueued (butFrames s) = butQueued (butFrames t)
  rw [h]
theorem markSent_only (s : State) (p id : Nat) (q : Option (BitVec 32)) : butQueued (markSent s p id q) = butQueued s := rfl
theorem alarmLeft_only (s : State) (p id : Nat) : butQueued (alarmLeft s p id) = butQueued s := rfl

/-- A port that sends the head of its class 0 queue touches nothing else. -/
theorem sendQueued0_only (s : State) (k : Kcp) : butQueued (sendQueued0 s k) = butQueued s := by
  have hk (r : KcpSt) : butQueued (setKcp s k r) = butQueued s := butQueued_of_frames (setKcp_only s k r)
  have told {t : State} (ht : butQueued t = butQueued s) (p id : Nat) (q : Option (BitVec 32)) :
      butQueued (if s.ctl.carrier = some k then alarmLeft (markSent t p id q) p id else markSent t p id q) = butQueued s :=
    ite_field (by rw [alarmLeft_only, markSent_only, ht]) (by rw [markSent_only, ht])
  unfold sendQueued0
  dsimp only
  split
  · rfl
  · refine ite_field rfl (told ?_ _ _ _)
    split
    · exact (butQueued_of_frames (emit_only _ _ _ _)).trans (hk _)
    · exact (butQueued_of_frames (sendOn_only _ _ _)).trans (hk _)

/-! ## The clock of one cycle -/

/-- With input power a cycle moves the two clocks and the cycle in the beat. -/
theorem cyclePass_powered {s : State} (h : s.pwr.v54 = true) :
    cyclePass s = { refPass s 1 with cycle := if s.cycle = 4095 then 4095 else s.cycle + 1 } := by
  simp [cyclePass, h]

theorem cyclePass_only (s : State) : butClock (cyclePass s) = butClock s := by
  unfold cyclePass
  split
  · rfl
  · exact refPass_only s 1

@[simp] theorem cyclePass_pending (s : State) : (cyclePass s).pending = s.pending :=
  field_of State.pending (cyclePass_only s) (fun _ => rfl)
@[simp] theorem cyclePass_beat (s : State) : (cyclePass s).beat = s.beat := field_of State.beat (cyclePass_only s) (fun _ => rfl)

@[simp] theorem refPass_ref (s : State) (n : Nat) : (refPass s n).ref = s.ref + n := by
  unfold refPass; split <;> rfl

theorem b01_odd (t : Nat) : b01 (decide (t % 2 = 1)) = t % 2 := by
  rcases Nat.mod_two_eq_zero_or_one t with h | h <;> simp [b01, h]

/-- Out of a brownout hold the arithmetic clock counts the reference cycles. -/
theorem refPass_now {s : State} (n : Nat) (h : inHold s = false) : (refPass s n).now = s.now + n := by
  simp [refPass, h]

/-- In a brownout hold it is the reference clock divided by two: `half` tells the odd reference cycle. -/
theorem refPass_now_held {s : State} (n : Nat) (h : inHold s = true) :
    2 * (refPass s n).now + b01 (refPass s n).half = 2 * s.now + b01 s.half + n := by
  unfold refPass
  rw [if_pos h]
  dsimp only
  rw [b01_odd]
  omega

/-- A cycle that passes takes the beat to more than 2 cycles after its boundary exactly from cycle 2 on. -/
theorem nextCycle_toNat_lt_three (c : BitVec 12) :
    (if c = 4095 then 4095 else c + 1 : BitVec 12).toNat < 3 ↔ c.toNat < 2 := by
  split
  · subst_vars; decide
  · bv_omega

/-! ## One reference cycle -/

/-- After the clock and the marks, a cycle touches only what the ALARM frames that leave touch. -/
theorem tick_only (s : State) : butQueued (tick s) = butQueued (markTimeout (cyclePass s)) := by
  rw [tick, sendQueued0_only, sendQueued0_only]

/-- What neither the marks' judgement nor the frames touch is in a cycle as the clock leaves it. -/
theorem tick_field {δ : Type} (f : State → δ) (hq : ∀ u, f (butQueued u) = f u) (hm : ∀ u, f (markTimeout u) = f u) (s : State) :
    f (tick s) = f (cyclePass s) :=
  (field_of f (tick_only s) hq).trans (hm _)

@[simp] theorem tick_pending (s : State) : (tick s).pending = s.pending :=
  (tick_field State.pending (fun _ => rfl) markTimeout_pending s).trans (cyclePass_pending s)
@[simp] theorem tick_beat (s : State) : (tick s).beat = (markTimeout (cyclePass s)).beat :=
  field_of State.beat (tick_only s) (fun _ => rfl)

/-- States that agree but for the clock and what ALARM frames touch: one is the other with its own clock, ports, session and alarms. -/
theorem eq_of_butClock_butQueued {s t : State} (h : butClock (butQueued t) = butClock (butQueued s)) :
    t = { s with now := t.now, ref := t.ref, half := t.half, cycle := t.cycle, ctl := t.ctl, ses := t.ses, alarms := t.alarms } :=
  congrArg (fun u : State => { u with now := t.now, ref := t.ref, half := t.half, cycle := t.cycle, ctl := t.ctl, ses := t.ses,
                                      alarms := t.alarms }) h

section Powered
variable {s : State} (h : s.pwr.v54 = true)
include h

theorem tick_ref : (tick s).ref = s.ref + 1 := by
  rw [tick_field State.ref (fun _ => rfl) markTimeout_ref, cyclePass_powered h]
  exact refPass_ref s 1

theorem tick_now : (tick s).now = (refPass s 1).now := by
  rw [tick_field State.now (fun _ => rfl) markTimeout_now, cyclePass_powered h]

theorem tick_half : (tick s).half = (refPass s 1).half := by
  rw [tick_field State.half (fun _ => rfl) markTimeout_half, cyclePass_powered h]

theorem cyclePass_cycle : (cyclePass s).cycle = if s.cycle = 4095 then 4095 else s.cycle + 1 := by
  rw [cyclePass_powered h]

theorem tick_cycle : (tick s).cycle = if s.cycle = 4095 then 4095 else s.cycle + 1 := by
  rw [tick_field State.cycle (fun _ => rfl) markTimeout_cycle, cyclePass_cycle h]

/-- Where no mark is found missing, a cycle changes the clock, the control ports, the session and the alarms alone. -/
theorem tick_unchanged (hm : s.cycle.toNat < 2 ∨ (s.beat.awaitA = false ∧ s.beat.awaitB = false)) :
    tick s = { s with now := (tick s).now, ref := (tick s).ref, half := (tick s).half, cycle := (tick s).cycle, ctl := (tick s).ctl,
                      ses := (tick s).ses, alarms := (tick s).alarms } := by
  have marks : markTimeout (cyclePass s) = cyclePass s := by
    apply markTimeout_unchanged
    rwa [cyclePass_cycle h, nextCycle_toNat_lt_three, cyclePass_beat]
  have frames : butQueued (tick s) = butQueued (cyclePass s) := by rw [tick_only, marks]
  have clock : butClock (butQueued (tick s)) = butClock (butQueued s) := by
    rw [frames]
    exact congrArg butQueued (cyclePass_only s)
  exact eq_of_butClock_butQueued clock

/-- A cycle that takes the beat to more than 2 cycles after its boundary leaves no mark awaited. -/
theorem tick_none_awaited (hc : 2 ≤ s.cycle.toNat) : (tick s).beat.awaitA = false ∧ (tick s).beat.awaitB = false := by
  rw [tick_beat]
  apply markTimeout_none_awaited
  rw [cyclePass_cycle h]
  exact Nat.le_of_not_lt (mt (nextCycle_toNat_lt_three s.cycle).1 (by omega))

end Powered

/-! ## What a step on an empty queue does -/

theorem step_idle {s : State} (hp : s.pending = []) (hw : nextWaiting s = none) : step s = .next (tick s) := by
  simp [step, hp, hw]

/-- The turn of the first waiting command comes when no class 1 command is open (sp. 13 R373; log 93). -/
theorem nextWaiting_turn {s : State} {c : Instr} {o : Owed} {r : List (Instr × Owed)} (hw : s.waiting1 = (c, o) :: r)
    (ho : class1Open s = false) : nextWaiting s = some (c, { s with waiting1 := r, taking := some o }) := by
  simp [nextWaiting, hw, ho]

theorem step_waiting {s t : State} {c : Instr} (hp : s.pending = []) (hw : nextWaiting s = some (c, t)) : step s = exec c t := by
  simp [step, hp, hw]

/-- Settles O2: a step on an empty queue is the waiting command whose turn has come, or else one cycle, whose parts `tick_ref` to
`tick_none_awaited` tell. -/
theorem idleStepIsOneCycle : Obligations.IdleStepIsOneCycle := by
  intro s hp
  refine ⟨fun hw hv => ⟨tick s, step_idle hp hw, tick_ref hv, tick_cycle hv, tick_mem s, (tick_pending s).trans hp, ?_, ?_,
    tick_unchanged hv, tick_none_awaited hv⟩, fun c o r hw ho => step_waiting hp (nextWaiting_turn hw ho)⟩
  · intro hh
    rw [tick_now hv, refPass_now 1 hh]
  · intro hh
    rw [tick_now hv, tick_half hv, refPass_now_held 1 hh]

end Sys2Proof.Machine
end

section
/-! Sp. 02 R44-R51: the way to a cue's start. The clock, the increments that fall due and the signals touch few parts of State; each operation is
shown once to keep a projection of it, and the fields follow. -/

namespace Sys2Proof.Machine

/-! ## Reads of a sparse map that is mapped, key by key -/

/-- What relates each entry to its image relates what a key reads before and after. -/
theorem Sparse.get_map_rel {α : Type} {d : Nat → α} {R : α → α → Prop} {f : Nat × α → Nat × α} (hd : ∀ k, R (d k) (d k))
    (hk : ∀ e, (f e).1 = e.1) (hr : ∀ e, R e.2 (f e).2) (m : Sparse α) (k : Nat) :
    R (Sparse.get d m k) (Sparse.get d (m.map f) k) := by
  induction m with
  | nil => exact hd k
  | cons e r ih =>
    simp only [List.map_cons, Sparse.get, hk]
    split
    · exact hr e
    · exact ih

/-! ## What the way to a start may touch -/

/-- State without what the way to a start may touch: clock, tallies and the waits on them, lane, increments to come, trace records. -/
def butReady (s : State) : State :=
  { butClock (butSignals s) with stage := { (butSignals s).stage with later := [] }, trace := { State.reset.trace with on := s.trace.on } }

theorem butReady_of_signals {s t : State} (h : butSignals s = butSignals t) : butReady s = butReady t := by
  change butReady (butSignals s) = butReady (butSignals t)
  rw [h]

theorem butReady_of_clock {s t : State} (h : butClock s = butClock t) : butReady s = butReady t := by
  change butReady (butClock s) = butReady (butClock t)
  rw [h]

theorem butReady_of_events {s t : State} (h : butEvents s = butEvents t) : butReady s = butReady t :=
  butReady_of_signals (butSignals_of h)

theorem clockTo_ready (s : State) (t : Nat) : butReady (clockTo s t) = butReady s := butReady_of_clock (clockTo_only s t)

theorem signalOpt_ready (s : State) (d : Die) (c : Nat) (o : Option (Nat × Nat)) : butReady (signalOpt s d c o) = butReady s :=
  butReady_of_signals (signalOpt_only s d c o)

theorem signalTally_ready (s : State) (d : Die) (i n c : Nat) : butReady (signalTally s d i n c) = butReady s :=
  butReady_of_signals (signalTally_only s d i n c)

theorem setUnit_ready (s : State) (u : UnitId) (v : UnitSt) : butReady (setUnit s u v) = butReady s := rfl

theorem settle_ready (s : State) : butReady (settle s) = butReady s := by
  unfold settle
  refine ite_field rfl ?_
  exact foldl_field butReady _ (fun t (x : LaterTally) => signalTally_ready t x.die x.tally x.inc x.at_) _ _

theorem traceAdd_ready (s : State) (r : TraceRec) : butReady (traceAdd s r) = butReady s := by
  unfold traceAdd
  refine ite_field rfl ?_
  split <;> rfl

theorem traceOn_ready (s : State) (kind : Byte) (p : Place) (unit inst cue addr count : Nat) :
    butReady (traceOn s kind p unit inst cue addr count) = butReady s := by
  unfold traceOn
  exact ite_field (traceAdd_ready _ _) rfl

theorem traceOn_on (s : State) (kind : Byte) (p : Place) (unit inst cue addr count : Nat) :
    (traceOn s kind p unit inst cue addr count).trace.on = s.trace.on :=
  field_of (fun t => t.trace.on) (traceOn_ready s kind p unit inst cue addr count) (fun _ => rfl)

theorem traceAt_on (s : State) (c : Nat) (kind : Byte) (p : Place) (unit inst cue addr count : Nat) :
    (traceAt s c kind p unit inst cue addr count).trace.on = s.trace.on :=
  traceOn_on { s with cycle := _, beat := _ } kind p unit inst cue addr count

theorem traceAt_ready (s : State) (c : Nat) (kind : Byte) (p : Place) (unit inst cue addr count : Nat) :
    butReady (traceAt s c kind p unit inst cue addr count) = butReady s := by
  have h := traceAt_on s c kind p unit inst cue addr count
  exact congrArg (fun b => { butReady s with trace := { State.reset.trace with on := b } }) h

theorem leavePending_ready (s : State) (u : UnitId) (p : Pending) (c : Nat) : butReady (leavePending s u p c) = butReady s :=
  (signalOpt_ready _ _ _ _).trans (traceAt_ready _ _ _ _ _ _ _ _ _)

/-- The clock goes on to the start of the pending cue of `u`, when there is one. -/
def goStart (u : UnitId) (t : State) : State :=
  match pendingOf t u with
  | none => t
  | some p => clockTo t ((startCycle t u p).getD 0)

/-- `readyAt` settles and goes on to the start once, or once more where a later increment may let the cue start. -/
theorem readyAt_cases (s : State) (u : UnitId) :
    readyAt s u = goStart u (settle s) ∨ ∃ c, readyAt s u = goStart u (settle (clockTo (goStart u (settle s)) c)) := by
  unfold readyAt
  dsimp only
  split
  · exact .inl rfl
  · next x _ _ =>
    split
    · exact .inl rfl
    · exact .inr ⟨x.at_, rfl⟩

/-- What settling and the clock keep, `readyAt` keeps. -/
theorem readyAt_field {γ : Type} (π : State → γ) (hs : ∀ t, π (settle t) = π t) (hc : ∀ t n, π (clockTo t n) = π t) (s : State)
    (u : UnitId) : π (readyAt s u) = π s := by
  have go (t : State) : π (goStart u t) = π t := by
    unfold goStart
    split
    · rfl
    · exact hc t _
  obtain h | ⟨c, h⟩ := readyAt_cases s u
  · rw [h, go, hs]
  · rw [h, go, hs, hc, go, hs]

theorem readyAt_ready (s : State) (u : UnitId) : butReady (readyAt s u) = butReady s :=
  readyAt_field butReady settle_ready clockTo_ready s u

theorem leftAt_ready (s : State) (u : UnitId) (p : Pending) (c : Nat) : butReady (leftAt s u p c) = butReady s :=
  (leavePending_ready _ u p c).trans (readyAt_ready s u)

/-! ## What is kept, from the projection -/

/-- What stands outside the step and its work, field by field. -/
def outsideOf (s : State) : Power × Guard × Nor × Session × Control × Cfg × Beat × CueStore × CueStore × List Instr :=
  (s.pwr, s.guard, s.nor, s.ses, s.ctl, s.cfg, s.beat, s.store0, s.store1, s.pending)

theorem outsideKept_iff (s t : State) : outsideKept s t ↔ outsideOf t = outsideOf s := by
  simp [outsideKept, outsideOf]

theorem outsideOf_of_ready {s t : State} (h : butReady t = butReady s) : outsideOf t = outsideOf s :=
  field_of outsideOf h (fun _ => rfl)

/-- Memory without the counts of waits for a stream or an operation. -/
def butWaits (m : Mem) : Mem := { m with counters := { m.counters with streamWaits := [], opWaits := [] } }

theorem memKept_iff (s t : State) : memKept s t ↔ butWaits t.mem = butWaits s.mem := by
  unfold memKept
  constructor
  · intro h
    exact (congrArg butWaits h).trans rfl
  · intro h
    exact congrArg (fun m : Mem => { m with counters :=
      { m.counters with streamWaits := t.mem.counters.streamWaits, opWaits := t.mem.counters.opWaits } }) h

theorem memKept_of_ready {s t : State} (h : butReady t = butReady s) : memKept s t :=
  (memKept_iff s t).2 (field_of (fun u => butWaits u.mem) h (fun _ => rfl))

theorem bytes_of_memKept {s t : State} (h : memKept s t) : t.mem.bytes = s.mem.bytes := by
  unfold memKept at h
  rw [h]

/-! ## Units on that way: only when the wait of a pending cue was met -/

/-- A unit but for when the wait of its pending cue was met. -/
def UnitSt.unmet (v : UnitSt) : UnitSt := { v with pending := v.pending.map (fun p => { p with metAt := none }) }

theorem plainUnit_unmet (v : UnitSt) : plainUnit v.unmet = plainUnit v := by
  obtain ⟨r, p, l, f⟩ := v
  cases p <;> rfl

theorem plainUnit_of_unmet {v w : UnitSt} (h : v.unmet = w.unmet) : plainUnit v = plainUnit w := by
  rw [← plainUnit_unmet v, h, plainUnit_unmet]

theorem running_of_unmet {v w : UnitSt} (h : v.unmet = w.unmet) : v.running = w.running := congrArg (fun x => x.running) h
theorem tail_of_unmet {v w : UnitSt} (h : v.unmet = w.unmet) : v.tail = w.tail := congrArg (fun x => x.tail) h
theorem freeAt_of_unmet {v w : UnitSt} (h : v.unmet = w.unmet) : v.freeAt = w.freeAt := congrArg (fun x => x.freeAt) h
theorem pending_of_unmet {v w : UnitSt} (h : v.unmet = w.unmet) :
    v.pending.map (fun p => { p with metAt := none }) = w.pending.map (fun p => { p with metAt := none }) :=
  congrArg (fun x => x.pending) h

theorem pending_none_of_unmet {v w : UnitSt} (h : v.unmet = w.unmet) : v.pending = none ↔ w.pending = none := by
  have e := pending_of_unmet h
  rw [← Option.map_eq_none_iff, e, Option.map_eq_none_iff]

theorem pending_isSome_of_unmet {v w : UnitSt} (h : v.unmet = w.unmet) : v.pending.isSome = w.pending.isSome := by
  have e := congrArg Option.isSome (pending_of_unmet h)
  rwa [Option.isSome_map, Option.isSome_map] at e

/-- Every unit but for when the wait of its pending cue was met. -/
def unmetUnits (s : State) (v : UnitId) : UnitSt := (unit s v).unmet

theorem unmetUnits_of_units {s t : State} (h : t.stage.units = s.stage.units) : unmetUnits t = unmetUnits s := by
  funext v
  unfold unmetUnits unit
  rw [h]

theorem noteWait_unmet (now k c v : Nat) (u : UnitSt) (p : Pending) :
    { noteWait now k c v u p with metAt := none } = { p with metAt := none } := by
  unfold noteWait
  split
  · rfl
  · split
    · split <;> rfl
    · rfl

theorem noteWaits_units (s : State) (d : Die) (i c : Nat) : unmetUnits (noteWaits s d i c) = unmetUnits s := by
  funext v
  refine Eq.symm (Sparse.get_map_rel (R := fun a b : UnitSt => a.unmet = b.unmet) (fun _ => rfl) ?_ ?_ s.stage.units (unitKey v))
  · intro e
    dsimp only
    split
    · split <;> rfl
    · rfl
  · intro e
    dsimp only
    split
    · next p hp =>
      split
      · simp only [UnitSt.unmet, hp, Option.map_some, noteWait_unmet]
      · rfl
    · rfl

theorem keepBefore_units (s : State) (k v c : Nat) : (keepBefore s k v c).stage.units = s.stage.units := by
  unfold keepBefore
  dsimp only
  (repeat' split) <;> rfl

theorem sendCopies_units (s : State) (i c : Nat) : (sendCopies s i c).stage.units = s.stage.units := rfl

theorem putTally_units (s : State) (i : Nat) (v : BitVec 32) (c : Nat) : unmetUnits (putTally s i v c) = unmetUnits s := by
  unfold putTally
  refine ite_field rfl ?_
  rw [unmetUnits_of_units (sendCopies_units _ _ _), noteWaits_units]
  exact unmetUnits_of_units (keepBefore_units s i _ c)

theorem satTally_units (s : State) (i v c : Nat) : unmetUnits (satTally s i v c) = unmetUnits s := by
  unfold satTally
  refine ite_field ?_ (putTally_units _ _ _ _)
  rw [unmetUnits_of_units (congrArg Stage.units (raise_stage _ _)), putTally_units]

theorem applyTallyAt_units (s : State) (i n c : Nat) : unmetUnits (applyTallyAt s i n c) = unmetUnits s :=
  (satTally_units _ _ _ _).trans (unmetUnits_of_units (keepBefore_units s i _ c))

theorem setTally_units (s : State) (i v cue c : Nat) : unmetUnits (setTally s i v cue c) = unmetUnits s := by
  have kept := unmetUnits_of_units (keepBefore_units s i (tallyOf s i).toNat c)
  unfold setTally
  exact ite_field ((satTally_units _ _ _ _).trans kept) (ite_field kept ((satTally_units _ _ _ _).trans kept))

theorem countWait_stage (s : State) (d : Die) (stream : Bool) : (countWait s d stream).stage = s.stage := rfl

theorem signalTally_units (s : State) (d : Die) (i n c : Nat) : unmetUnits (signalTally s d i n c) = unmetUnits s := by
  unfold signalTally
  refine ite_field (applyTallyAt_units _ _ _ _) ?_
  dsimp only
  exact unmetUnits_of_units (by split <;> rfl)

theorem signalOpt_units (s : State) (d : Die) (c : Nat) (o : Option (Nat × Nat)) : unmetUnits (signalOpt s d c o) = unmetUnits s := by
  cases o with
  | none => rfl
  | some x => exact signalTally_units s d x.1 x.2 c

theorem clockTo_unit (s : State) (t : Nat) (v : UnitId) : unit (clockTo s t) v = unit s v := by
  unfold unit; rw [clockTo_stage]

theorem clockTo_units (s : State) (t : Nat) : unmetUnits (clockTo s t) = unmetUnits s :=
  unmetUnits_of_units (congrArg Stage.units (clockTo_stage s t))

theorem settle_units (s : State) : unmetUnits (settle s) = unmetUnits s := by
  unfold settle
  refine ite_field rfl ?_
  exact foldl_field unmetUnits _ (fun t (x : LaterTally) => signalTally_units t x.die x.tally x.inc x.at_) _ _

theorem readyAt_units (s : State) (u : UnitId) : unmetUnits (readyAt s u) = unmetUnits s :=
  readyAt_field unmetUnits settle_units clockTo_units s u

/-- A cue that leaves its pending place leaves it free. -/
theorem leavePending_pending (s : State) (u : UnitId) (p : Pending) (c : Nat) : (unit (leavePending s u p c) u).pending = none := by
  have h : (unit (leavePending s u p c) u).unmet = { unit s u with pending := none } :=
    (congrFun (signalOpt_units _ _ _ _) u).trans (congrArg UnitSt.unmet (unit_setUnit s u { unit s u with pending := none }))
  exact Option.map_eq_none_iff.1 (congrArg UnitSt.pending h)

/-- Its unit is otherwise as it was. -/
theorem leavePending_self (s : State) (u : UnitId) (p : Pending) (c : Nat) :
    unit (leavePending s u p c) u = { unit s u with pending := none } := by
  have h : (unit (leavePending s u p c) u).unmet = { unit s u with pending := none } :=
    (congrFun (signalOpt_units _ _ _ _) u).trans (congrArg UnitSt.unmet (unit_setUnit s u { unit s u with pending := none }))
  rw [← h, UnitSt.unmet, leavePending_pending]
  simp only [Option.map_none]
  rw [← leavePending_pending s u p c]

theorem leavePending_other (s : State) {u v : UnitId} (p : Pending) (c : Nat) (h : v ≠ u) :
    unmetUnits (leavePending s u p c) v = unmetUnits s v :=
  (congrFun (signalOpt_units _ _ _ _) v).trans (congrArg UnitSt.unmet (unit_setUnit_ne s { unit s u with pending := none } h))

theorem leftAt_other (s : State) {u v : UnitId} (p : Pending) (c : Nat) (h : v ≠ u) : unmetUnits (leftAt s u p c) v = unmetUnits s v :=
  (leavePending_other _ p c h).trans (congrFun (readyAt_units s u) v)

theorem leftAt_pending (s : State) (u : UnitId) (p : Pending) (c : Nat) : (unit (leftAt s u p c) u).pending = none :=
  leavePending_pending _ u p c

/-! ## Counts of events on that way: a saturation is all that a signal records -/

/-- Kinds that differ below 128 are sources of their own at any two places. -/
theorem sourceKey_ne {k k' : Byte} (p q : Nat) (h : k.toNat % 128 ≠ k'.toNat % 128) : sourceKey k p ≠ sourceKey k' q := by
  unfold sourceKey; omega

theorem countOf_raise_ne (s : State) (e : Event) {kind : Byte} (p : Place) (h : kind.toNat % 128 ≠ e.kind.toNat % 128) :
    countOf (raise s e) kind p = countOf s kind p := countOf_raise_other s e kind p (sourceKey_ne _ _ h)

theorem keepBefore_err (s : State) (k v c : Nat) : (keepBefore s k v c).err = s.err := by
  unfold keepBefore; dsimp only; (repeat' split) <;> rfl

theorem putTally_err (s : State) (i : Nat) (v : BitVec 32) (c : Nat) : (putTally s i v c).err = s.err := by
  unfold putTally
  exact ite_field (π := State.err) rfl (keepBefore_err _ _ _ _)

theorem countOf_clockTo (s : State) (t : Nat) (kind : Byte) (p : Place) : countOf (clockTo s t) kind p = countOf s kind p := countOf_congr (by simp) _ _

section Counts
variable {kind : Byte} (h : kind.toNat % 128 ≠ 5) (p : Place)
include h

theorem countOf_satTally (s : State) (i v c : Nat) : countOf (satTally s i v c) kind p = countOf s kind p := by
  unfold satTally
  refine ite_field (π := fun t => countOf t kind p) ?_ (countOf_congr (putTally_err _ _ _ _) _ _)
  rw [countOf_raise_ne _ _ _ h, countOf_congr (putTally_err _ _ _ _)]

theorem countOf_applyTallyAt (s : State) (i n c : Nat) : countOf (applyTallyAt s i n c) kind p = countOf s kind p :=
  (countOf_satTally h p _ _ _ _).trans (countOf_congr (keepBefore_err s i _ c) _ _)

theorem countOf_signalTally (s : State) (d : Die) (i n c : Nat) : countOf (signalTally s d i n c) kind p = countOf s kind p := by
  unfold signalTally
  refine ite_field (π := fun t => countOf t kind p) (countOf_applyTallyAt h p _ _ _ _) (countOf_congr ?_ _ _)
  dsimp only
  split <;> rfl

theorem countOf_signalOpt (s : State) (d : Die) (c : Nat) (o : Option (Nat × Nat)) :
    countOf (signalOpt s d c o) kind p = countOf s kind p := by
  cases o with
  | none => rfl
  | some x => exact countOf_signalTally h p s d x.1 x.2 c

theorem countOf_settle (s : State) : countOf (settle s) kind p = countOf s kind p := by
  unfold settle
  refine ite_field (π := fun t => countOf t kind p) rfl ?_
  exact foldl_field (fun t => countOf t kind p) _ (fun t (x : LaterTally) => countOf_signalTally h p t x.die x.tally x.inc x.at_) _ _

theorem countOf_readyAt (s : State) (u : UnitId) : countOf (readyAt s u) kind p = countOf s kind p :=
  readyAt_field (fun t => countOf t kind p) (countOf_settle h p) (fun t n => countOf_clockTo t n kind p) s u

theorem countOf_leftAt (s : State) (u : UnitId) (q : Pending) (c : Nat) : countOf (leftAt s u q c) kind p = countOf s kind p :=
  (countOf_signalOpt h p _ _ _ _).trans (countOf_readyAt h p s u)

end Counts

/-! ## Tallies -/

theorem keepBefore_tallies (s : State) (k v c : Nat) : (keepBefore s k v c).stage.tallies = s.stage.tallies := by
  unfold keepBefore; dsimp only; (repeat' split) <;> rfl

theorem tallyOf_congr {s t : State} (h : t.stage.tallies = s.stage.tallies) (i : Nat) : tallyOf t i = tallyOf s i := by
  unfold tallyOf; rw [h]

theorem putTally_tallies (s : State) (i : Nat) (v : BitVec 32) (c : Nat) (h : tallyOf s i ≠ v) :
    (putTally s i v c).stage.tallies = Sparse.set noTally s.stage.tallies i v := by
  unfold putTally
  rw [if_neg h]
  exact congrArg (fun m => Sparse.set noTally m i v) (keepBefore_tallies s i _ c)

theorem tallyOf_putTally_self (s : State) (i : Nat) (v : BitVec 32) (c : Nat) : tallyOf (putTally s i v c) i = v := by
  by_cases h : tallyOf s i = v
  · rw [putTally, if_pos h, h]
  · rw [tallyOf, putTally_tallies s i v c h, Sparse.get_set_self]

theorem tallyOf_putTally_other (s : State) {i j : Nat} (v : BitVec 32) (c : Nat) (hj : j ≠ i) :
    tallyOf (putTally s i v c) j = tallyOf s j := by
  by_cases h : tallyOf s i = v
  · rw [putTally, if_pos h]
  · rw [tallyOf, putTally_tallies s i v c h, Sparse.get_set_other _ _ _ hj, tallyOf]

/-- A value stored stops at the largest one (sp. 02 R50). -/
theorem tallyOf_satTally_self (s : State) (i v c : Nat) : tallyOf (satTally s i v c) i = BitVec.ofNat 32 (min 0xFFFFFFFF v) := by
  unfold satTally
  split
  · next h =>
    rw [tallyOf_congr (congrArg Stage.tallies (raise_stage _ _)), tallyOf_putTally_self, Nat.min_eq_left (Nat.le_of_lt h)]
    rfl
  · next h => rw [tallyOf_putTally_self, Nat.min_eq_right (Nat.le_of_not_lt h)]

theorem tallyOf_satTally_other (s : State) {i j : Nat} (v c : Nat) (hj : j ≠ i) : tallyOf (satTally s i v c) j = tallyOf s j := by
  unfold satTally
  refine ite_field (π := fun t => tallyOf t j) ?_ (tallyOf_putTally_other s _ c hj)
  rw [tallyOf_congr (congrArg Stage.tallies (raise_stage _ _)), tallyOf_putTally_other s _ c hj]

/-- An increment adds up to the largest value (sp. 02 R49, R50). -/
theorem tallyOf_applyTallyAt_self (s : State) (i n c : Nat) :
    tallyOf (applyTallyAt s i n c) i = BitVec.ofNat 32 (min 0xFFFFFFFF ((tallyOf s i).toNat + n)) := tallyOf_satTally_self _ _ _ _

theorem tallyOf_applyTallyAt_other (s : State) {i j : Nat} (n c : Nat) (hj : j ≠ i) : tallyOf (applyTallyAt s i n c) j = tallyOf s j :=
  (tallyOf_satTally_other _ _ c hj).trans (tallyOf_congr (keepBefore_tallies s i _ c) j)

/-- A signal moves no tally but its own. -/
theorem tallyOf_signalOpt_other (s : State) (d : Die) (c : Nat) {o : Option (Nat × Nat)} {j : Nat} (h : ∀ n, o ≠ some (j, n)) :
    tallyOf (signalOpt s d c o) j = tallyOf s j := by
  cases o with
  | none => rfl
  | some x =>
    obtain ⟨i, n⟩ := x
    have hj : j ≠ i := fun e => h n (by rw [e])
    change tallyOf (signalTally s d i n c) j = _
    unfold signalTally
    refine ite_field (π := fun t => tallyOf t j) (tallyOf_applyTallyAt_other s n c hj) (tallyOf_congr ?_ j)
    dsimp only
    split <;> rfl

end Sys2Proof.Machine
end

section
/-! Sp. 02 R48-R51: increments saturate; the messages of the tally lane arrive in order. -/

namespace Sys2Proof.Machine

/-! ## An increment -/

/-- An increment that would pass the largest value is one more TALLY_SATURATE at the home die (sp. 02 R50). -/
theorem applyTally_saturates {s : State} {i n : Nat} (h : 0xFFFFFFFF < (tallyOf s i).toNat + n) :
    oneMore s (applyTally s i n) 0x05 (dieplace (homeDie i)) := by
  unfold applyTally applyTallyAt satTally
  rw [if_pos h]
  exact oneMore_congr (oneMore_raise _ (ev 0x05 (dieplace (homeDie i)) 0 0 i 0 .never))
    (by rw [putTally_err]; exact (congrArg Errors.sources (keepBefore_err s i _ s.now)).symm) rfl

/-- One that fits records nothing. -/
theorem applyTally_fits {s : State} {i n : Nat} (h : (tallyOf s i).toNat + n ≤ 0xFFFFFFFF) : (applyTally s i n).err = s.err := by
  unfold applyTally applyTallyAt satTally
  rw [if_neg (Nat.not_lt.2 h), putTally_err]
  exact keepBefore_err s i _ s.now

/-! ## A message of the lane -/

/-- The state in which message `pos` has left the lane, in cycle `c`. -/
def laneTaken (s : State) (pos c : Nat) : State :=
  { clockTo s c with stage := { (clockTo s c).stage with lane := (clockTo s c).stage.lane.eraseIdx pos } }

theorem laneTaken_stage (s : State) (pos c : Nat) :
    (laneTaken s pos c).stage = { s.stage with lane := s.stage.lane.eraseIdx pos } := by
  simp [laneTaken]

theorem laneTaken_ready (s : State) (pos c : Nat) : butReady (laneTaken s pos c) = butReady s := clockTo_ready s c

section Arrival
variable {s : State} {pos : Nat} {m : LaneMsg} (hm : s.stage.lane[pos]? = some m)
include hm

theorem tallyLane_waits (h : (s.stage.lane.take pos).any (fun x => x.origin = m.origin && x.dest = m.dest) = true ∨
    reaches s (m.sentAt + 40 * hops m.origin.val m.dest.val) = false ∨ (m.queued = true ∧ placeFor s m.origin.val 0 = false)) :
    exec (.tallyLaneMessage pos) s = .next s := by
  change execTallyLaneMessage pos s = _
  unfold execTallyLaneMessage
  rw [hm]
  dsimp only
  refine if_pos ?_
  obtain h | h | ⟨hq, hp⟩ := h
  · rw [h]; rfl
  · rw [h]; simp
  · rw [hq, hp]; simp

theorem tallyLane_arrives (hf : (s.stage.lane.take pos).any (fun x => x.origin = m.origin && x.dest = m.dest) = false)
    (hr : reaches s (m.sentAt + 40 * hops m.origin.val m.dest.val) = true) (hq : m.queued = true → placeFor s m.origin.val 0 = true) :
    exec (.tallyLaneMessage pos) s =
      .next (laneArrive (laneTaken s pos (m.sentAt + 40 * hops m.origin.val m.dest.val)) m
        (max (m.sentAt + 40 * hops m.origin.val m.dest.val) s.now)) := by
  change execTallyLaneMessage pos s = _
  unfold execTallyLaneMessage
  rw [hm]
  dsimp only
  refine if_neg ?_
  rw [hf, hr]
  cases h : m.queued
  · simp
  · simp [hq h]

end Arrival

theorem keepBefore_copies (s : State) (k v c : Nat) : (keepBefore s k v c).stage.copies = s.stage.copies := by
  unfold keepBefore; dsimp only; (repeat' split) <;> rfl
theorem keepBefore_lane (s : State) (k v c : Nat) : (keepBefore s k v c).stage.lane = s.stage.lane := by
  unfold keepBefore; dsimp only; (repeat' split) <;> rfl

/-- A copy takes its value; the lane and the tallies stay. -/
theorem laneArrive_copy {s : State} {m : LaneMsg} (c : Nat) (h : m.copy = true) :
    (laneArrive s m c).stage.copies = Sparse.set noTally s.stage.copies (copyKey m.dest m.tally) m.value ∧
      (laneArrive s m c).stage.lane = s.stage.lane ∧ (laneArrive s m c).stage.tallies = s.stage.tallies := by
  unfold laneArrive
  rw [if_pos h]
  exact ⟨congrArg (fun l => Sparse.set noTally l _ m.value) (keepBefore_copies _ _ _ c), keepBefore_lane _ _ _ c, keepBefore_tallies _ _ _ c⟩

theorem laneArrive_increment {s : State} {m : LaneMsg} (c : Nat) (h : m.copy = false) :
    laneArrive s m c = applyTallyAt s m.tally m.value.toNat c := by
  unfold laneArrive; rw [if_neg (by simp [h])]

/-- An arrival records at most a saturation and touches no memory. -/
theorem laneArrive_signals (s : State) (m : LaneMsg) (c : Nat) : butSignals (laneArrive s m c) = butSignals s := by
  unfold laneArrive
  refine ite_field ?_ (applyTallyAt_only _ _ _ _)
  rw [noteWaits_only]
  exact keepBefore_only s _ _ c

theorem satTally_copies (s : State) (i v c : Nat) : (satTally s i v c).stage.copies = s.stage.copies := by
  have put (w : BitVec 32) : (putTally s i w c).stage.copies = s.stage.copies := by
    unfold putTally
    exact ite_field (π := fun t : State => t.stage.copies) rfl (keepBefore_copies s i _ c)
  unfold satTally
  exact ite_field (π := fun t : State => t.stage.copies) ((congrArg Stage.copies (raise_stage _ _)).trans (put _)) (put _)

theorem applyTallyAt_copies (s : State) (i n c : Nat) : (applyTallyAt s i n c).stage.copies = s.stage.copies :=
  (satTally_copies _ _ _ _).trans (keepBefore_copies s i _ c)

/-- Settles O20: a value stored stops at the largest one; the lane's oldest message of its pair is applied where it arrives. -/
theorem talliesSaturateAndLanesDeliver : Obligations.TalliesSaturateAndLanesDeliver := by
  refine ⟨fun s i n => ⟨tallyOf_applyTallyAt_self s i n s.now, fun h => ⟨applyTally_saturates h, by simp, by simp⟩, applyTally_fits,
    fun j hj => tallyOf_applyTallyAt_other s n s.now hj⟩, fun s pos m hm => ⟨fun h => tallyLane_waits hm (.inl h), ?_, ?_⟩⟩
  · intro hf hr hq
    have ready (c n : Nat) : butReady (laneArrive (laneTaken s pos n) m c) = butReady s :=
      (butReady_of_signals (laneArrive_signals _ m c)).trans (laneTaken_ready s pos n)
    have out (c n : Nat) : outsideKept s (laneArrive (laneTaken s pos n) m c) :=
      (outsideKept_iff _ _).2 (outsideOf_of_ready (ready c n))
    have mem (c n : Nat) : (laneArrive (laneTaken s pos n) m c).mem = s.mem := by
      rw [laneArrive_mem]; exact clockTo_mem s n
    rw [tallyLane_arrives hm hf hr hq]
    constructor
    · intro hc
      obtain ⟨copies, lane, tallies⟩ := laneArrive_copy (s := laneTaken s pos (m.sentAt + 40 * hops m.origin.val m.dest.val))
        (max (m.sentAt + 40 * hops m.origin.val m.dest.val) s.now) hc
      refine ⟨_, rfl, ?_, ?_, ?_, mem _ _, out _ _⟩
      · rw [copies, Sparse.get_set_self]
      · rw [lane, laneTaken_stage]
      · rw [tallies, laneTaken_stage]
    · intro hc
      refine ⟨_, rfl, ?_, ?_, mem _ _, out _ _⟩
      · rw [laneArrive_increment _ hc, tallyOf_applyTallyAt_self, tallyOf_congr (s := s) (by rw [laneTaken_stage])]
      · rw [laneArrive_increment _ hc, applyTallyAt_copies, laneTaken_stage]
  · intro h
    exact tallyLane_waits hm (.inr h)

end Sys2Proof.Machine
end

section
/-! Sp. 02 R36, R44-R47: where the beat runs, cues fire in list order at their position, or are late. -/

namespace Sys2Proof.Machine

/-! ## The beat runs -/

theorem beatRuns_iff (s : State) : beatRuns s = true ↔ s.beat.lock = .locked ∨ s.beat.lock = .holdover := by
  unfold beatRuns
  cases s.beat.lock <;> simp

/-- In UNLOCKED, ACQUIRING and LOST the beat does not run (sp. 02 R36). -/
theorem beatRuns_off {s : State} (h : s.beat.lock = .unlocked ∨ s.beat.lock = .acquiring ∨ s.beat.lock = .lost) : beatRuns s = false := by
  unfold beatRuns
  obtain h | h | h := h <;> rw [h]

theorem canStart_beat {s : State} {d : Die} {c : Nat} (h : beatRuns s = false) : canStart s d c = false := by
  simp [canStart, h]

theorem canStart_phase {s : State} {d : Die} {c : Nat} (h : s.step.phase ≠ .running) : canStart s d c = false := by
  simp [canStart, h]

/-- HOLDOVER runs cues as LOCKED does: the counter counts in both. -/
theorem canStart_holdover {s : State} (d : Die) (c : Nat) (h : s.beat.lock = .holdover) :
    canStart s d c = canStart { s with beat := { s.beat with lock := .locked } } d c := by
  have runs : beatRuns s = beatRuns { s with beat := { s.beat with lock := .locked } } := by simp [beatRuns, h]
  have now : beatNow s = beatNow { s with beat := { s.beat with lock := .locked } } := by simp [beatNow, h]
  have edge : holdEdge s = holdEdge { s with beat := { s.beat with lock := .locked } } := by
    unfold holdEdge
    rw [now]
  unfold canStart
  rw [runs, edge]

/-- Settles O22: what the lock must be for a cue to fire stands in `canStart`, for a step to start in START_AT_BEAT's own checks. -/
theorem noCueFiresUnlessTheBeatRuns : Obligations.NoCueFiresUnlessTheBeatRuns := by
  intro s
  refine ⟨fun h d => ?_, fun f h ha hl hp => ?_, fun d c h => canStart_holdover d c h⟩
  · change execCueFire d s = _
    unfold execCueFire
    dsimp only
    rw [canStart_beat (beatRuns_off h)]
    rfl
  · change Host.Outcome.next (runCommand s f (.startAtBeat f) (cmd 0x41) (fun s _ => startBody f s)) = _
    have body : startBody f (afterAccept s f) = no (afterAccept s f) stNotLocked := by
      have hb : beatRuns (afterAccept s f) = false := beatRuns_off (by simpa using h)
      simp [startBody, hl, hp, hb]
    rw [runCommand_accepts _ _ ha (by decide), body]
    rfl

/-! ## A cue fires -/

/-- Sp. 02 R44: the next cue of die `d`. -/
def nextCue (s : State) (d : Die) : Nat := Sparse.get (fun _ => 0) s.step.next d.val

/-- The state in which the stage manager of die `d` has passed its next cue, in cycle `f`. -/
def pastNext (s : State) (d : Die) (f : Nat) : State :=
  { settle (clockTo s f) with step := { (settle (clockTo s f)).step with
      next := Sparse.set (fun _ => 0) (settle (clockTo s f)).step.next d.val (nextCue s d + 1) } }

theorem settled_ready (s : State) (f : Nat) : butReady (settle (clockTo s f)) = butReady s := (settle_ready _).trans (clockTo_ready s f)
theorem settled_units (s : State) (f : Nat) : unmetUnits (settle (clockTo s f)) = unmetUnits s := (settle_units _).trans (clockTo_units s f)

/-- State without the list positions too. -/
def butNext (s : State) : State := { butReady s with step := { (butReady s).step with next := [] } }

theorem pastNext_only (s : State) (d : Die) (f : Nat) : butNext (pastNext s d f) = butNext s :=
  congrArg (fun u : State => { u with step := { u.step with next := [] } }) (settled_ready s f)

theorem sheet_of_ready {s t : State} (h : butReady t = butReady s) : sheet t = sheet s := field_of sheet h (fun _ => rfl)

theorem pastNext_sheet (s : State) (d : Die) (f : Nat) : sheet (pastNext s d f) = sheet s :=
  field_of sheet (pastNext_only s d f) (fun _ => rfl)

theorem pastNext_next (s : State) (d : Die) (f : Nat) :
    Sparse.get (fun _ => 0) (pastNext s d f).step.next d.val = nextCue s d + 1 := Sparse.get_set_self _ _ _ _

/-- A stage manager may fire cue `k` of its list, `w`, in cycle `f`: the cue is the next one and its beat is the present one; no hold of cause power
or thermal stands. -/
structure FiresAt (d : Die) (s : State) (k f : Nat) (w : BitVec 256) : Prop where
  next : k = nextCue s d
  word : w = (sheet s).cue d.val k
  at_ : f = positionAt s (cCycle w)
  runs : canStart s d f = true
  power : s.guard.holdPower = false
  thermal : s.guard.holdThermal = false
  listed : k < (sheet s).count d.val
  beat : cBeat w = s.step.relBeat

/-- The pending cue that a firing leaves. -/
def firedCue (s : State) (d : Die) (k f : Nat) (w : BitVec 256) (u : UnitId) : Pending :=
  { cue := k, raw := w, firedAt := f, metAt := metFrom s d w f (freeSince (unitKey u) (unit s u)) }

/-- The cue takes the pending place of its unit, or is late where that is taken (sp. 02 R46). -/
def placeCue (s : State) (d : Die) (k f : Nat) (w : BitVec 256) : Result :=
  match (unit s (targetOf (sheet s) w)).pending with
  | some _ => .next (lateCue s (targetOf (sheet s) w) k 2 0 f)
  | none => .next (setUnit (loadShadow s (targetOf (sheet s) w) (leAt ((sheet s).desc (cDesc w) 64) 0 64)) (targetOf (sheet s) w)
      { unit s (targetOf (sheet s) w) with pending := some (firedCue s d k f w (targetOf (sheet s) w)) })

theorem execCueFire_eq {d : Die} {s : State} {k f : Nat} {w : BitVec 256} (h : FiresAt d s k f w) :
    exec (.cueFire d) s = placeCue (pastNext s d f) d k f w := by
  obtain ⟨rfl, rfl, rfl, hr, hp, ht, hl, hb⟩ := h
  change execCueFire d s = _
  unfold execCueFire
  dsimp only
  rw [if_pos (by simp only [nextCue] at *; simp [hr, hp, ht, hl, hb])]
  rfl

end Sys2Proof.Machine
end

section
/-! Sp. 02 R46, R47, R493: firing stops; a late cue. -/

namespace Sys2Proof.Machine

/-! ## Firing stops -/

/-- State without what the stop of firing may touch. -/
def butStops (s : State) : State :=
  { s with step := { s.step with cause := 0, failed := false, stopped := false, stopAt := 0, resume := none },
           stage := { s.stage with units := [] } }

/-- The step when firing stops from cycle `at_` (sp. 02 R493): the first cause and the first stop cycle stay. -/
def stepStops (t : StepSt) (cause : Byte) (failed : Bool) (at_ : Nat) : StepSt :=
  { (if t.cause = 0 then { t with cause := cause, failed := failed } else t) with
    stopped := true, stopAt := (if t.stopped then min t.stopAt at_ else at_), resume := none }

theorem stopFiring_step (s : State) (cause : Byte) (failed : Bool) (at_ : Nat) :
    (stopFiring s cause failed at_).step = stepStops s.step cause failed at_ := by
  unfold stopFiring
  exact ite_field (π := State.step) rfl rfl

theorem stepStops_only (t : StepSt) (cause : Byte) (failed : Bool) (at_ : Nat) :
    { stepStops t cause failed at_ with cause := 0, failed := false, stopped := false, stopAt := 0, resume := none } =
      { t with cause := 0, failed := false, stopped := false, stopAt := 0, resume := none } := by
  unfold stepStops
  split <;> rfl

theorem stopFiring_stops (s : State) (cause : Byte) (failed : Bool) (at_ : Nat) :
    butStops (stopFiring s cause failed at_) = butStops s := by
  have step := stepStops_only s.step cause failed at_
  rw [← stopFiring_step] at step
  have rest : butStops { stopFiring s cause failed at_ with step := s.step } = butStops s := by
    unfold stopFiring
    exact ite_field (π := fun t : State => butStops { t with step := s.step }) rfl rfl
  rw [← rest]
  exact congrArg (fun x => { butStops { stopFiring s cause failed at_ with step := s.step } with step := x }) step

section Stops
variable (s : State) (cause : Byte) (failed : Bool) (at_ : Nat)

@[simp] theorem stopFiring_stopped : (stopFiring s cause failed at_).step.stopped = true := by rw [stopFiring_step]; rfl

/-- The first cause stays (sp. 02 R64). -/
theorem stopFiring_first (h : s.step.cause = 0) :
    (stopFiring s cause failed at_).step.cause = cause ∧ (stopFiring s cause failed at_).step.failed = failed := by
  rw [stopFiring_step]; unfold stepStops; rw [if_pos h]; exact ⟨rfl, rfl⟩

theorem stopFiring_later (h : s.step.cause ≠ 0) :
    (stopFiring s cause failed at_).step.cause = s.step.cause ∧ (stopFiring s cause failed at_).step.failed = s.step.failed := by
  rw [stopFiring_step]; unfold stepStops; rw [if_neg h]; exact ⟨rfl, rfl⟩

theorem stopFiring_outside : outsideOf (stopFiring s cause failed at_) = outsideOf s :=
  field_of outsideOf (stopFiring_stops s cause failed at_) (fun _ => rfl)

theorem stopFiring_err : (stopFiring s cause failed at_).err = s.err :=
  field_of State.err (stopFiring_stops s cause failed at_) (fun _ => rfl)

theorem stopFiring_stage : { (stopFiring s cause failed at_).stage with units := [] } = { s.stage with units := [] } :=
  field_of (fun t : State => { t.stage with units := [] }) (stopFiring_stops s cause failed at_) (fun _ => rfl)

theorem stopFiring_lateCues : (stopFiring s cause failed at_).step.lateCues = s.step.lateCues :=
  field_of (fun t : State => t.step.lateCues) (stopFiring_stops s cause failed at_) (fun _ => rfl)

theorem stopFiring_next : (stopFiring s cause failed at_).step.next = s.step.next :=
  field_of (fun t : State => t.step.next) (stopFiring_stops s cause failed at_) (fun _ => rfl)

end Stops

/-- With every die's pending cues discarded no unit has one. -/
theorem discardAll_pending (s : State) (u : UnitId) : (unit (discardPending s (fun _ => true)) u).pending = none := by
  have key (l : Sparse UnitSt) : (Sparse.get noUnit ((l.map (fun e => if true = true then (e.1, e.2.dropPending) else e)).filter
      (fun e => decide (e.2 ≠ noUnit e.1))) (unitKey u)).pending = none := by
    induction l with
    | nil => rfl
    | cons e r ih =>
      simp only [if_true, List.map_cons, List.filter_cons] at ih ⊢
      split
      · simp only [Sparse.get]
        split
        · rfl
        · exact ih
      · exact ih
  exact key s.stage.units

/-- A pending place that is free stays free as firing stops. -/
theorem stopFiring_pending {s : State} (cause : Byte) (failed : Bool) (at_ : Nat) {u : UnitId} (h : (unit s u).pending = none) :
    (unit (stopFiring s cause failed at_) u).pending = none := by
  unfold stopFiring
  exact ite_field (π := fun t => (unit t u).pending) (discardAll_pending _ u) h

/-! ## A late cue -/

/-- One late cue more. -/
def countLate (t : State) : State := { t with step := { t.step with lateCues := t.step.lateCues + 1 } }

theorem countLate_outside (t : State) : outsideOf (countLate t) = outsideOf t := rfl
theorem countLate_unit (t : State) (v : UnitId) : unit (countLate t) v = unit t v := rfl
theorem countLate_lateCues (t : State) : (countLate t).step.lateCues = t.step.lateCues + 1 := rfl
theorem countLate_next (t : State) : (countLate t).step.next = t.step.next := rfl
theorem countLate_cause (t : State) : (countLate t).step.cause = t.step.cause := rfl
theorem countLate_failed (t : State) : (countLate t).step.failed = t.step.failed := rfl
theorem countLate_err (t : State) : (countLate t).err = t.err := rfl

theorem lateCue_eq (s : State) (u : UnitId) (cue cause d1 c : Nat) :
    lateCue s u cue cause d1 c = stopFiring (countLate (raise s (cueEvent u cue 0x03 cause d1 .every))) 1 true (c + 1) := rfl

theorem raise_outside (s : State) (e : Event) : outsideOf (raise s e) = outsideOf s :=
  outsideOf_of_ready (butReady_of_events (raise_only s e))

theorem unit_of_stage {s t : State} (h : t.stage = s.stage) (v : UnitId) : unit t v = unit s v := by unfold unit; rw [h]

section Late
variable (s : State) (u : UnitId) (cue cause d1 c : Nat)

theorem lateCue_counted : oneMore s (lateCue s u cue cause d1 c) 0x03 (dieplace (unitDie u)) := by
  rw [lateCue_eq]
  refine oneMore_congr (oneMore_raise s (cueEvent u cue 0x03 cause d1 .every)) rfl ?_
  rw [stopFiring_err, countLate_err]

theorem lateCue_stopped : (lateCue s u cue cause d1 c).step.stopped = true := by rw [lateCue_eq, stopFiring_stopped]

theorem lateCue_lateCues : (lateCue s u cue cause d1 c).step.lateCues = s.step.lateCues + 1 := by
  rw [lateCue_eq, stopFiring_lateCues, countLate_lateCues, raise_step_lateCues]

theorem lateCue_next : (lateCue s u cue cause d1 c).step.next = s.step.next := by
  rw [lateCue_eq, stopFiring_next, countLate_next, raise_step_next]

theorem lateCue_outside : outsideOf (lateCue s u cue cause d1 c) = outsideOf s := by
  rw [lateCue_eq, stopFiring_outside, countLate_outside, raise_outside]

theorem lateCue_pending (h : (unit s u).pending = none) : (unit (lateCue s u cue cause d1 c) u).pending = none := by
  rw [lateCue_eq]
  apply stopFiring_pending
  rw [countLate_unit, unit_of_stage (raise_stage s _), h]

theorem lateCue_first (h : s.step.cause = 0) :
    (lateCue s u cue cause d1 c).step.cause = 1 ∧ (lateCue s u cue cause d1 c).step.failed = true := by
  rw [lateCue_eq]
  exact stopFiring_first _ _ _ _ (by rw [countLate_cause, raise_step_cause, h])

theorem lateCue_later (h : s.step.cause ≠ 0) :
    (lateCue s u cue cause d1 c).step.cause = s.step.cause ∧ (lateCue s u cue cause d1 c).step.failed = s.step.failed := by
  rw [lateCue_eq]
  have kept := countLate_cause (raise s (cueEvent u cue 0x03 cause d1 .every))
  rw [raise_step_cause] at kept
  have later := stopFiring_later (countLate (raise s (cueEvent u cue 0x03 cause d1 .every))) 1 true (c + 1) (by rw [kept]; exact h)
  rwa [kept, countLate_failed, raise_step_failed] at later

end Late

/-! ## A cue fires: its wait -/

/-- A condition that the tallies meet is met in some cycle. -/
theorem metFrom_isSome {s : State} {d : Die} {w : BitVec 256} (f : Nat) (free : Option Nat)
    (h : cWaitEn w = true → cWaitValue w ≤ seenValue s d (cWaitTally w)) : (metFrom s d w f free).isSome := by
  unfold metFrom
  by_cases he : cWaitEn w = true
  · rw [if_neg (by simp [he]), if_neg (Nat.not_lt.2 (h he))]
    generalize (if homeDie (cWaitTally w) = d then _ else _ : Nat) = k
    split <;> rfl
  · rw [if_pos (by simpa using he)]; rfl

/-- One that is met with no tally changed since the firing is one that the tallies meet. -/
theorem metFrom_seen {s : State} {d : Die} {w : BitVec 256} {f : Nat} {free : Option Nat} (hc : s.stage.changedAt < f)
    (hm : (metFrom s d w f free).isSome) (he : cWaitEn w = true) : cWaitValue w ≤ seenValue s d (cWaitTally w) := by
  by_contra h
  unfold metFrom at hm
  rw [if_neg (by simp [he]), if_pos (Nat.lt_of_not_le h), if_neg (by omega)] at hm
  exact Bool.noConfusion hm

theorem loadShadow_only (s : State) (u : UnitId) (desc : Nat) : { loadShadow s u desc with dma := s.dma } = s := by
  unfold loadShadow
  split <;> rfl

/-- The shadow set of a channel touches no other part of State. -/
theorem loadShadow_field {γ : Type} (π : State → γ) (h : ∀ (t : State) x, π { t with dma := x } = π t) (s : State) (u : UnitId) (desc : Nat) :
    π (loadShadow s u desc) = π s := by
  rw [← h (loadShadow s u desc) s.dma, loadShadow_only]

end Sys2Proof.Machine
end

section
/-! Sp. 02 R44-R47: a cue fires or is late. -/

namespace Sys2Proof.Machine

/-! ## A cue fires -/

theorem pastNext_units (s : State) (d : Die) (f : Nat) : unmetUnits (pastNext s d f) = unmetUnits s :=
  (unmetUnits_of_units (s := settle (clockTo s f)) rfl).trans (settled_units s f)

theorem pastNext_outside (s : State) (d : Die) (f : Nat) : outsideOf (pastNext s d f) = outsideOf s :=
  outsideOf_of_ready (s := s) (t := settle (clockTo s f)) (settled_ready s f)

theorem pastNext_memKept (s : State) (d : Die) (f : Nat) : memKept s (pastNext s d f) :=
  memKept_of_ready (t := settle (clockTo s f)) (settled_ready s f)

theorem pastNext_lateCues (s : State) (d : Die) (f : Nat) : (pastNext s d f).step.lateCues = s.step.lateCues :=
  field_of (fun t : State => t.step.lateCues) (pastNext_only s d f) (fun _ => rfl)

theorem countOf_settled {kind : Byte} (h : kind.toNat % 128 ≠ 5) (p : Place) (s : State) (f : Nat) :
    countOf (settle (clockTo s f)) kind p = countOf s kind p := (countOf_settle h p _).trans (countOf_clockTo s f kind p)

/-- The cue of `w` that has fired stands in the pending place of its unit. -/
def placed (s : State) (d : Die) (k f : Nat) (w : BitVec 256) (u : UnitId) : State :=
  setUnit (loadShadow s u (leAt ((sheet s).desc (cDesc w) 64) 0 64)) u { unit s u with pending := some (firedCue s d k f w u) }

theorem placeCue_free {s : State} {d : Die} {k f : Nat} {w : BitVec 256} (h : (unit s (targetOf (sheet s) w)).pending = none) :
    placeCue s d k f w = .next (placed s d k f w (targetOf (sheet s) w)) := by
  unfold placeCue; rw [h]; rfl

theorem placeCue_taken {s : State} {d : Die} {k f : Nat} {w : BitVec 256} (h : (unit s (targetOf (sheet s) w)).pending.isSome) :
    placeCue s d k f w = .next (lateCue s (targetOf (sheet s) w) k 2 0 f) := by
  obtain ⟨q, hq⟩ := Option.isSome_iff_exists.1 h
  unfold placeCue; rw [hq]

/-- What units, waits and a channel's shadow set do not reach is as before. -/
theorem placed_field {γ : Type} (π : State → γ) (hu : ∀ t v x, π (setUnit t v x) = π t) (hd : ∀ (t : State) x, π { t with dma := x } = π t)
    (s : State) (d : Die) (k f : Nat) (w : BitVec 256) (u : UnitId) : π (placed s d k f w u) = π s :=
  (hu _ _ _).trans (loadShadow_field π hd s u _)

theorem placed_self (s : State) (d : Die) (k f : Nat) (w : BitVec 256) (u : UnitId) :
    unit (placed s d k f w u) u = { unit s u with pending := some (firedCue s d k f w u) } := unit_setUnit _ _ _

theorem placed_other (s : State) (d : Die) (k f : Nat) (w : BitVec 256) {u v : UnitId} (h : v ≠ u) :
    unit (placed s d k f w u) v = unit s v :=
  (unit_setUnit_ne _ _ h).trans (loadShadow_field (fun t => unit t v) (fun _ _ => rfl) s u _)

/-- One late cue more, counted from a state with the same count. -/
theorem lateCue_counted_from {s t : State} (u : UnitId) (cue cause d1 c : Nat)
    (h : countOf t 0x03 (dieplace (unitDie u)) = countOf s 0x03 (dieplace (unitDie u))) :
    oneMore s (lateCue t u cue cause d1 c) 0x03 (dieplace (unitDie u)) := by
  have counted := lateCue_counted t u cue cause d1 c
  unfold oneMore at counted ⊢
  rw [counted, h]

section Fires
variable {d : Die} {s : State} {k f : Nat} {w : BitVec 256} (h : FiresAt d s k f w)
include h

theorem cueFire_free (hp : (unit s (targetOf (sheet s) w)).pending = none) :
    exec (.cueFire d) s = .next (placed (pastNext s d f) d k f w (targetOf (sheet s) w)) := by
  have hp' : (unit (pastNext s d f) (targetOf (sheet (pastNext s d f)) w)).pending = none := by
    rw [pastNext_sheet]
    exact (pending_none_of_unmet (congrFun (pastNext_units s d f) _)).2 hp
  rw [execCueFire_eq h, placeCue_free hp', pastNext_sheet]

theorem cueFire_taken (hp : (unit s (targetOf (sheet s) w)).pending.isSome) :
    exec (.cueFire d) s = .next (lateCue (pastNext s d f) (targetOf (sheet s) w) k 2 0 f) := by
  have hp' : (unit (pastNext s d f) (targetOf (sheet (pastNext s d f)) w)).pending.isSome := by
    rw [pastNext_sheet, pending_isSome_of_unmet (congrFun (pastNext_units s d f) _)]
    exact hp
  rw [execCueFire_eq h, placeCue_taken hp', pastNext_sheet]

/-- A cue whose pending place is free takes it. -/
theorem cueFire_takes_place (hp : (unit s (targetOf (sheet s) w)).pending = none) :
    ∃ t m, exec (.cueFire d) s = .next t ∧ t.now = (settle (clockTo s f)).now ∧
      (unit t (targetOf (sheet s) w)).pending = some { cue := k, raw := w, firedAt := f, metAt := m } ∧
      (unit t (targetOf (sheet s) w)).running = (unit s (targetOf (sheet s) w)).running ∧
      ((cWaitEn w = true → cWaitValue w ≤ seenValue (settle (clockTo s f)) d (cWaitTally w)) → m.isSome) ∧
      ((settle (clockTo s f)).stage.changedAt < f → m.isSome → cWaitEn w = true →
        cWaitValue w ≤ seenValue (settle (clockTo s f)) d (cWaitTally w)) ∧
      Sparse.get (fun _ => 0) t.step.next d.val = k + 1 ∧ (∀ v, v ≠ targetOf (sheet s) w → unitKept s t v) ∧
      t.stage.tallies = (settle (clockTo s f)).stage.tallies ∧ memKept s t ∧ t.err = (settle (clockTo s f)).err ∧ outsideKept s t := by
  have next : nextCue s d = k := h.next.symm
  have kept {γ : Type} (π : State → γ) (hu : ∀ t v x, π (setUnit t v x) = π t) (hd : ∀ (t : State) x, π { t with dma := x } = π t) :=
    placed_field π hu hd (pastNext s d f) d k f w (targetOf (sheet s) w)
  refine ⟨_, metFrom (settle (clockTo s f)) d w f (freeSince (unitKey (targetOf (sheet s) w)) (unit (settle (clockTo s f)) (targetOf (sheet s) w))),
    cueFire_free h hp, kept State.now (fun _ _ _ => rfl) (fun _ _ => rfl), ?_, ?_, metFrom_isSome f _,
    fun hc hm he => metFrom_seen hc hm he, ?_, fun v hv => ?_,
    kept (fun t => t.stage.tallies) (fun _ _ _ => rfl) (fun _ _ => rfl), ?_, kept State.err (fun _ _ _ => rfl) (fun _ _ => rfl), ?_⟩
  · rw [placed_self]; rfl
  · rw [placed_self]
    exact running_of_unmet (v := unit (pastNext s d f) _) (congrFun (pastNext_units s d f) _)
  · rw [kept (fun t => t.step.next) (fun _ _ _ => rfl) (fun _ _ => rfl), pastNext_next, next]
  · unfold unitKept
    rw [placed_other _ _ _ _ _ hv]
    exact plainUnit_of_unmet (congrFun (pastNext_units s d f) v)
  · rw [memKept_iff, kept State.mem (fun _ _ _ => rfl) (fun _ _ => rfl), ← memKept_iff]
    exact pastNext_memKept s d f
  · rw [outsideKept_iff, kept outsideOf (fun _ _ _ => rfl) (fun _ _ => rfl), pastNext_outside]

/-- A cue that finds the pending place taken is late. -/
theorem cueFire_late (hp : (unit s (targetOf (sheet s) w)).pending.isSome) :
    ∃ t, exec (.cueFire d) s = .next t ∧ oneMore s t 0x03 (dieplace (unitDie (targetOf (sheet s) w))) ∧ t.step.stopped = true ∧
      t.step.lateCues = s.step.lateCues + 1 ∧ Sparse.get (fun _ => 0) t.step.next d.val = k + 1 ∧ memKept s t ∧ outsideKept s t := by
  refine ⟨_, cueFire_taken h hp, ?_, lateCue_stopped _ _ _ _ _ _, ?_, ?_, ?_, ?_⟩
  · exact lateCue_counted_from _ _ _ _ _ (countOf_settled (by decide) _ s f)
  · rw [lateCue_lateCues, pastNext_lateCues]
  · rw [lateCue_next, pastNext_next, ← h.next]
  · rw [memKept_iff, lateCue_mem, ← memKept_iff]
    exact pastNext_memKept s d f
  · rw [outsideKept_iff, lateCue_outside, pastNext_outside]

end Fires

/-! ## A pending cue that cannot start in time -/

/-- DETAIL1 of a late cue: the tally it waits for, and its value. -/
def lateDetail (t : State) (u : UnitId) (p : Pending) (e : Nat) : Nat :=
  if lateCause t u p e = 1 ∧ cWaitEn p.raw then cWaitTally p.raw * 2 ^ 32 + waitValue t (unitDie u) (cWaitTally p.raw) else 0

/-- The unit's pending place is empty. -/
def unpend (s : State) (u : UnitId) : State := setUnit s u { unit s u with pending := none }

theorem unpend_pending (s : State) (u : UnitId) : (unit (unpend s u) u).pending = none := by
  unfold unpend; rw [unit_setUnit]
theorem unpend_step (s : State) (u : UnitId) : (unpend s u).step = s.step := rfl
theorem unpend_mem (s : State) (u : UnitId) : (unpend s u).mem = s.mem := rfl
theorem unpend_outside (s : State) (u : UnitId) : outsideOf (unpend s u) = outsideOf s := rfl
theorem countOf_unpend (s : State) (u : UnitId) (kind : Byte) (p : Place) : countOf (unpend s u) kind p = countOf s kind p := rfl

section Late
variable {s : State} {u : UnitId} {p q : Pending} {e : Nat} (hp : (unit s u).pending = some p) (he : e = p.firedAt + cSlack p.raw)
  (hr : reaches s e = true)
include hp he hr

/-- It leaves its place as a late cue. -/
theorem execCueLate_late (hs : canStart (settle (clockTo s e)) (unitDie u) e = true)
    (hq : (unit (settle (clockTo s e)) u).pending = some q) (hc : ∀ c, startCycle (settle (clockTo s e)) u q = some c → e < c) :
    exec (.cueLate u) s = .next (lateCue (unpend (settle (clockTo s e)) u) u q.cue (lateCause (settle (clockTo s e)) u q e)
      (lateDetail (settle (clockTo s e)) u q e) e) := by
  subst he
  have none_in_time : (startCycle (settle (clockTo s (p.firedAt + cSlack p.raw))) u q).any
      (fun c => decide (c ≤ p.firedAt + cSlack p.raw)) = false := by
    cases h : startCycle (settle (clockTo s (p.firedAt + cSlack p.raw))) u q with
    | none => rfl
    | some c => simpa using hc c h
  change execCueLate u s = _
  unfold execCueLate
  rw [show pendingOf s u = some p from hp]
  dsimp only
  rw [if_neg (by simp [hr]), show pendingOf (settle (clockTo s _)) u = some q from hq]
  dsimp only
  rw [if_neg (by rw [hs, none_in_time]; decide)]
  rfl

end Late

/-- Settles O21: firing goes to the pending place or to the late cue; a late cue is `lateCue`, whose parts the lemmas above tell. -/
theorem cuesFireInOrderOrAreLate : Obligations.CuesFireInOrderOrAreLate := by
  refine ⟨?_, ?_⟩
  · intro d s s1 k f w u hk hw hu hf hr hp ht hl hb h1
    subst hu h1
    have fires : FiresAt d s k f w := ⟨hk, hw, hf, hr, hp, ht, hl, hb⟩
    exact ⟨fun h => cueFire_takes_place fires h, fun h => cueFire_late fires h⟩
  · intro s s1 u p q e hp he hr h1 hs hq hc
    subst h1
    have step {γ : Type} (f : StepSt → γ) (hf : ∀ t : State, f (butReady t).step = f t.step) : f (settle (clockTo s e)).step = f s.step :=
      field_of (fun t : State => f t.step) (settled_ready s e) hf
    have cause : (settle (clockTo s e)).step.cause = s.step.cause := step StepSt.cause (fun _ => rfl)
    have failed : (settle (clockTo s e)).step.failed = s.step.failed := step StepSt.failed (fun _ => rfl)
    refine ⟨_, execCueLate_late hp he hr hs hq hc, lateCue_pending _ _ _ _ _ _ (unpend_pending _ _), ?_, ?_, lateCue_stopped _ _ _ _ _ _,
      ?_, ?_, ?_, ?_⟩
    · exact lateCue_counted_from _ _ _ _ _ (by rw [countOf_unpend, countOf_settled (by decide)])
    · rw [lateCue_lateCues, unpend_step]
      exact congrArg (· + 1) (step StepSt.lateCues (fun _ => rfl))
    · intro h0
      exact lateCue_first _ _ _ _ _ _ (by rw [unpend_step, cause, h0])
    · intro h0
      have later := lateCue_later (unpend (settle (clockTo s e)) u) u q.cue (lateCause (settle (clockTo s e)) u q e)
        (lateDetail (settle (clockTo s e)) u q e) e (by rw [unpend_step, cause]; exact h0)
      rwa [unpend_step, cause, failed] at later
    · rw [memKept_iff, lateCue_mem, unpend_mem, ← memKept_iff]
      exact memKept_of_ready (settled_ready s e)
    · rw [outsideKept_iff, lateCue_outside, unpend_outside]
      exact outsideOf_of_ready (settled_ready s e)

end Sys2Proof.Machine
end

section
/-! Sp. 02 R32-R34: the beat lock. A move of the lock, and what a judgement of a boundary's marks does in each state of the lock. -/

namespace Sys2Proof.Machine

/-! ## A move of the lock -/

/-- The beat as its lock moves: the runs start again; into HOLDOVER the marks seen so far are early (sp. 02 R34). -/
def Beat.moved (b : Beat) (n : Lock) : Beat :=
  { b with lock := n, goodRun := 0, wrongRun := 0, heldBeats := 0, holdA := 0, holdB := 0,
           seenA := (if n = .holdover then b.seenA.map (fun m => { m with early := true }) else b.seenA),
           seenB := (if n = .holdover then b.seenB.map (fun m => { m with early := true }) else b.seenB) }

/-- The BEAT_LOCK event of that move. -/
def lockEvent (s : State) (n : Lock) : Event :=
  ev 0x01 (guardPlace s) 21 0 (n.code + 8 * s.beat.lock.code) s.beat.source.toNat (if n = .holdover ∨ n = .lost then .every else .never)

/-- The lock moved and recorded. -/
def lockMoved (s : State) (n : Lock) : State := raise { s with beat := s.beat.moved n } (lockEvent s n)

theorem setLock_same {s : State} {n : Lock} (h : s.beat.lock = n) : setLock s n = s := by
  unfold setLock; dsimp only; rw [if_pos h]

theorem setLock_kept {s : State} {n : Lock} (h : s.beat.lock ≠ n) (hn : n ≠ .lost) : setLock s n = lockMoved s n := by
  unfold setLock; dsimp only; rw [if_neg h, if_neg hn]
  unfold lockMoved lockEvent Beat.moved
  split <;> rfl

theorem setLock_lost {s : State} (h : s.beat.lock ≠ .lost) : setLock s .lost = stepLost (lockMoved s .lost) := by
  unfold setLock; dsimp only; rw [if_neg h, if_pos rfl]; rfl

theorem stopFiring_beat (s : State) (cause : Byte) (failed : Bool) (at_ : Nat) : (stopFiring s cause failed at_).beat = s.beat :=
  field_of State.beat (stopFiring_stops s cause failed at_) (fun _ => rfl)

theorem stopFiring_ctl (s : State) (cause : Byte) (failed : Bool) (at_ : Nat) : (stopFiring s cause failed at_).ctl = s.ctl :=
  field_of State.ctl (stopFiring_stops s cause failed at_) (fun _ => rfl)

/-- What a stop of firing leaves alone, the loss of the beat leaves alone. -/
theorem stepLost_field {γ : Type} (π : State → γ) (h : ∀ t, π (butStops t) = π t) (s : State) : π (stepLost s) = π s := by
  unfold stepLost
  exact ite_field (field_of π (stopFiring_stops s 4 true s.now) h) rfl

theorem lockMoved_beat (s : State) (n : Lock) : (lockMoved s n).beat = s.beat.moved n := raise_beat _ _

/-- What a move of the lock leaves alone: neither firing nor records nor the beat. -/
theorem setLock_field {γ : Type} (π : State → γ) (hs : ∀ t, π (butStops t) = π t) (he : ∀ t, π (butEvents t) = π t)
    (hb : ∀ t n, π { t with beat := t.beat.moved n } = π t) (s : State) (n : Lock) : π (setLock s n) = π s := by
  have moved : π (lockMoved s n) = π s := (field_of π (raise_only _ _) he).trans (hb s _)
  by_cases h : s.beat.lock = n
  · rw [setLock_same h]
  by_cases hn : n = .lost
  · subst hn; rw [setLock_lost h, stepLost_field π hs, moved]
  · rw [setLock_kept h hn, moved]

theorem setLock_beat {s : State} {n : Lock} (h : s.beat.lock ≠ n) : (setLock s n).beat = s.beat.moved n := by
  by_cases hn : n = .lost
  · subst hn; rw [setLock_lost h, stepLost_field State.beat (fun _ => rfl), lockMoved_beat]
  · rw [setLock_kept h hn, lockMoved_beat]

@[simp] theorem setLock_lock (s : State) (n : Lock) : (setLock s n).beat.lock = n := by
  by_cases h : s.beat.lock = n
  · rw [setLock_same h, h]
  · rw [setLock_beat h]; rfl

@[simp] theorem setLock_ctl (s : State) (n : Lock) : (setLock s n).ctl = s.ctl :=
  setLock_field State.ctl (fun _ => rfl) (fun _ => rfl) (fun _ _ => rfl) s n

/-- A move of the lock is one more BEAT_LOCK (sp. 02 R34). -/
theorem setLock_counted {s : State} {n : Lock} (h : s.beat.lock ≠ n) : oneMore s (setLock s n) 0x01 (guardPlace s) := by
  have moved : oneMore s (lockMoved s n) 0x01 (guardPlace s) :=
    oneMore_congr (oneMore_raise { s with beat := s.beat.moved n } (lockEvent s n)) rfl rfl
  by_cases hn : n = .lost
  · subst hn
    rw [setLock_lost h]
    exact oneMore_congr moved rfl (congrArg Errors.sources (stepLost_field State.err (fun _ => rfl) _))
  · rw [setLock_kept h hn]; exact moved

/-- A loss of the beat stops the firing of a started step, with cause 4 where there was none before (sp. 02 R34, R64). -/
theorem setLock_lost_stops {s : State} (h : s.beat.lock ≠ .lost) (hs : stepStarted s = true) (hc : s.step.cause = 0) :
    (setLock s .lost).step.stopped = true ∧ (setLock s .lost).step.cause = 4 ∧ (setLock s .lost).step.failed = true := by
  have started : stepStarted (lockMoved s .lost) = true := by
    unfold stepStarted lockMoved; rw [raise_step_phase]; exact hs
  rw [setLock_lost h, stepLost, if_pos started]
  exact ⟨stopFiring_stopped _ _ _ _, stopFiring_first _ _ _ _ (by rw [lockMoved, raise_step_cause]; exact hc)⟩

/-- A BEAT_LOCK of a move to another state than LOST marks no step. -/
theorem stepMark_of_unmarked {s : State} {e : Event} (hf : failKind e.kind e.d0 = false) (hr : replayKind e.kind = false) :
    (stepMark s e).step = s.step := by
  unfold stepMark
  split
  · rfl
  · simp [hf, hr]

theorem raise_step_of_unmarked {s : State} {e : Event} (hf : failKind e.kind e.d0 = false) (hr : replayKind e.kind = false)
    (ha : e.alarm ≠ .first) : (raise s e).step = s.step := by
  have latched (t : State) (p : Nat) (r : ErrRec) : (latchAlarm t p r).step = t.step := by
    unfold latchAlarm; dsimp only; (repeat' split) <;> rfl
  have entered (t : State) (r : ErrRec) : (fifoEnter t e r).step = t.step := by
    unfold fifoEnter; dsimp only; (repeat' split) <;> rfl
  have marked (t : State) : (markFirst t e).step = t.step := by unfold markFirst; rw [if_neg (by simp [ha])]
  have told (t : State) : (healthEvent t e).step = t.step := by unfold healthEvent; split <;> rfl
  unfold raise
  dsimp only
  rw [stepMark_of_unmarked hf hr]
  split
  · rw [latched, told, marked, entered]; rfl
  · rw [told, marked, entered]; rfl

/-! ## A judgement of marks -/

/-- State as the ports in `g` are judged: they await the boundary's mark no more and their runs go on. -/
def portsJudged (s : State) (j : Int) (g : Judges) : State :=
  runsJudge { s with beat := { s.beat with awaitA := s.beat.awaitA && !g.a, awaitB := s.beat.awaitB && !g.b } } j g

theorem judge_eq (s : State) (j : Int) (g : Judges) : judge s j g = lockJudge (portsJudged s j g) j g := rfl

section Judged
variable (s : State) (j : Int) (g : Judges)

theorem portsJudged_sourceMark (i : Int) : sourceMark (portsJudged s j g) i = sourceMark s i := rfl
theorem portsJudged_lock : (portsJudged s j g).beat.lock = s.beat.lock := rfl
theorem portsJudged_source : g.source (portsJudged s j g) = g.source s := rfl
theorem portsJudged_awaits (k : Kcp) : awaits (portsJudged s j g).beat k = (awaits s.beat k && !g.has k) := by cases k <;> rfl

end Judged

theorem source_of_carrier {s : State} {g : Judges} {k : Kcp} (hk : s.ctl.carrier = some k) : g.source s = g.has k := by
  unfold Judges.source; rw [hk]; rfl

theorem lockJudge_source {s : State} {j : Int} {g : Judges} (hl : s.beat.lock ≠ .holdover) (hg : g.source s = true) :
    lockJudge s j g = sourceJudge s j := by
  unfold lockJudge
  split
  · contradiction
  · rw [if_pos hg]

theorem lockJudge_unjudged {s : State} {j : Int} {g : Judges} (hl : s.beat.lock ≠ .holdover) (hg : g.source s = false) :
    lockJudge s j g = s := by
  unfold lockJudge
  split
  · contradiction
  · rw [if_neg (by rw [hg]; exact Bool.false_ne_true)]

theorem lockJudge_holdover {s : State} {j : Int} {g : Judges} (hl : s.beat.lock = .holdover) : lockJudge s j g = holdoverJudge s j g := by
  simp only [lockJudge, hl]

/-! ## HOLDOVER (sp. 02 R34) -/

/-- The run of a port's good marks since the entry into HOLDOVER. -/
def holdOf (b : Beat) : Kcp → Nat
  | .a => b.holdA
  | .b => b.holdB

/-- That run after a judgement. -/
def holdNext (s : State) (j : Int) (g : Judges) (k : Kcp) : Nat :=
  if g.has k then nextHold (holdOf s.beat k) (portMark s.beat k j) else holdOf s.beat k

/-- The source's wrong numbers in a row after a judgement in HOLDOVER. -/
def wrongNext (s : State) (j : Int) (g : Judges) : Nat :=
  if !g.source s then s.beat.wrongRun else if sourceMark s j = some .wrongNumber then s.beat.wrongRun + 1 else 0

/-- State with both counts. -/
def holdCounted (s : State) (j : Int) (g : Judges) : State :=
  { s with beat := { s.beat with holdA := holdNext s j g .a, holdB := holdNext s j g .b, wrongRun := wrongNext s j g } }

/-- The port that locks again, if one does: 16 good marks in a row, the present source first (log 78). -/
def holdFirst (s : State) (j : Int) (g : Judges) : Option (Kcp × Nat) :=
  (if s.ctl.carrier = some .b then [(Kcp.b, holdNext s j g .b), (Kcp.a, holdNext s j g .a)]
    else [(Kcp.a, holdNext s j g .a), (Kcp.b, holdNext s j g .b)]).find? (fun x => decide (16 ≤ x.2))

theorem holdoverJudge_eq (s : State) (j : Int) (g : Judges) :
    holdoverJudge s j g = match holdFirst s j g with
      | some (k, _) => takeControl (setLock (holdCounted s j g) .locked) k 4
      | none => if 3 ≤ wrongNext s j g then setLock (holdCounted s j g) .lost else holdCounted s j g := rfl

theorem takeControl_carrier {s : State} {k : Kcp} (h : s.ctl.carrier = some k) (cause : Nat) : takeControl s k cause = s := by
  simp only [takeControl, h, if_true]

section Holdover
variable {s : State} {j : Int} {g : Judges}

theorem holdFirst_carrier {k : Kcp} (hk : s.ctl.carrier = some k) (h : 16 ≤ holdNext s j g k) : holdFirst s j g = some (k, holdNext s j g k) := by
  unfold holdFirst
  cases k
  · rw [if_neg (by rw [hk]; decide), List.find?_cons_of_pos (by exact decide_eq_true h)]
  · rw [if_pos hk, List.find?_cons_of_pos (by exact decide_eq_true h)]

theorem holdFirst_none (ha : holdNext s j g .a < 16) (hb : holdNext s j g .b < 16) : holdFirst s j g = none := by
  have short : ∀ x ∈ [(Kcp.a, holdNext s j g .a), (Kcp.b, holdNext s j g .b)], ¬ decide (16 ≤ x.2) = true := by simpa using ⟨ha, hb⟩
  unfold holdFirst
  rw [List.find?_eq_none]
  split
  · exact fun x hx => short x (by simp at hx ⊢; exact hx.symm)
  · exact short

/-- 16 good marks in a row on the carrying port lock again. -/
theorem holdoverJudge_locks {k : Kcp} (hk : s.ctl.carrier = some k) (h : 16 ≤ holdNext s j g k) :
    holdoverJudge s j g = setLock (holdCounted s j g) .locked := by
  rw [holdoverJudge_eq, holdFirst_carrier hk h]
  exact takeControl_carrier (by rw [setLock_ctl]; exact hk) 4

theorem holdoverJudge_short (ha : holdNext s j g .a < 16) (hb : holdNext s j g .b < 16) :
    holdoverJudge s j g = if 3 ≤ wrongNext s j g then setLock (holdCounted s j g) .lost else holdCounted s j g := by
  rw [holdoverJudge_eq, holdFirst_none ha hb]

theorem holdNext_le (k : Kcp) : holdNext s j g k ≤ holdOf s.beat k + 1 := by
  unfold holdNext nextHold
  (repeat' split) <;> omega

theorem wrongNext_le : wrongNext s j g ≤ s.beat.wrongRun + 1 := by
  unfold wrongNext
  (repeat' split) <;> omega

end Holdover

/-! ## What a judgement leaves alone of the beat and the step -/

section Reads
variable {γ : Type} (π : State → γ) (hs : ∀ t, π (butStops t) = π t) (he : ∀ t, π (butEvents t) = π t) (hf : ∀ t, π (butFrames t) = π t)
  (hm : ∀ t n, π { t with beat := t.beat.moved n } = π t)
  (hr : ∀ t g w a b, π { t with beat := { t.beat with goodRun := g, wrongRun := w, holdA := a, holdB := b } } = π t)
include hs he hf hm hr

theorem takeControl_reads (s : State) (k : Kcp) (cause : Nat) : π (takeControl s k cause) = π s := by
  have source (t : State) : π (moveSource t k) = π t := by
    have start := hr t t.beat.goodRun 0 t.beat.holdA t.beat.holdB
    unfold moveSource
    dsimp only
    split
    · exact ite_field start ((setLock_field π hs he hm _ _).trans start)
    · exact (setLock_field π hs he hm _ _).trans start
    · exact start
  have moved (c : Control) : π (moveSource { s with ctl := c } k) = π s := by
    rw [source, ← hf { s with ctl := c }, ← hf s]; rfl
  have told (t : State) (w : Nat) : π (controlMoved t k w) = π t := by
    unfold controlMoved
    exact (field_of π (sendReport_only _ _ _ _) hf).trans (field_of π (raise_only _ _) he)
  unfold takeControl
  dsimp only
  split
  · split
    · exact ite_field (moved _) ((told _ _).trans (moved _))
    · exact moved _
  · exact ite_field rfl ((told _ _).trans (moved _))

theorem lockJudge_reads (s : State) (j : Int) (g : Judges) : π (lockJudge s j g) = π s := by
  have locks (t : State) (n : Lock) := setLock_field π hs he hm t n
  have held : π (holdCounted s j g) = π s := hr s s.beat.goodRun (wrongNext s j g) (holdNext s j g .a) (holdNext s j g .b)
  have good (n : Nat) : π { s with beat := { s.beat with goodRun := n } } = π s := hr s n s.beat.wrongRun s.beat.holdA s.beat.holdB
  have wrong (n : Nat) : π { s with beat := { s.beat with wrongRun := n } } = π s := hr s s.beat.goodRun n s.beat.holdA s.beat.holdB
  unfold lockJudge
  split
  · rw [holdoverJudge_eq]
    split
    · exact (takeControl_reads π hs he hf hm hr _ _ _).trans ((locks _ _).trans held)
    · exact ite_field ((locks _ _).trans held) held
  · refine ite_field ?_ rfl
    unfold sourceJudge
    dsimp only
    split
    · exact ite_field (ite_field (locks s _) (good _)) (good _)
    · split
      · exact locks s _
      · exact wrong _
      · exact ite_field (locks s _) (wrong _)
    · rfl

end Reads

/-- The marks seen, without whether they were early. -/
def marksOf (l : List SeenMark) : List (Int × MarkKind) := l.map (fun m => (m.at_, m.kind))

theorem marksOf_moved (b : Beat) (n : Lock) (k : Kcp) : marksOf (seenOf (b.moved n) k) = marksOf (seenOf b k) := by
  have early (l : List SeenMark) : marksOf (if n = .holdover then l.map (fun m => { m with early := true }) else l) = marksOf l := by
    split
    · simp [marksOf]
    · rfl
  cases k
  · exact early b.seenA
  · exact early b.seenB

/-! ## The source's mark, in each state of the lock (sp. 02 Table 2-2) -/

section Source
variable {s : State} {j : Int}

theorem sourceJudge_locked_good (hl : s.beat.lock = .locked) (hm : sourceMark s j = some .good) :
    sourceJudge s j = { s with beat := { s.beat with wrongRun := 0 } } := by
  simp only [sourceJudge, hl, hm]

theorem sourceJudge_locked_missing (hl : s.beat.lock = .locked) (hm : sourceMark s j = none) :
    sourceJudge s j = setLock s .holdover := by
  simp only [sourceJudge, hl, hm]

theorem sourceJudge_locked_wrong (hl : s.beat.lock = .locked) (hm : sourceMark s j = some .wrongNumber) (h : s.beat.wrongRun < 2) :
    sourceJudge s j = { s with beat := { s.beat with wrongRun := s.beat.wrongRun + 1 } } := by
  simp only [sourceJudge, hl, hm]
  rw [if_neg (by omega)]

theorem sourceJudge_locked_third (hl : s.beat.lock = .locked) (hm : sourceMark s j = some .wrongNumber) (h : 2 ≤ s.beat.wrongRun) :
    sourceJudge s j = setLock s .lost := by
  simp only [sourceJudge, hl, hm]
  rw [if_pos (by omega)]

theorem sourceJudge_acquiring_locks (hl : s.beat.lock = .acquiring) (hm : sourceMark s j = some .good) (h : 63 ≤ s.beat.goodRun) :
    sourceJudge s j = setLock s .locked := by
  simp only [sourceJudge, hl, hm, if_true]
  rw [if_pos (by omega)]

theorem sourceJudge_acquiring_other (hl : s.beat.lock = .acquiring) (hm : sourceMark s j ≠ some .good) :
    sourceJudge s j = { s with beat := { s.beat with goodRun := 0 } } := by
  simp only [sourceJudge, hl]
  rw [if_neg hm]

theorem sourceJudge_other (h : s.beat.lock = .unlocked ∨ s.beat.lock = .lost) : sourceJudge s j = s := by
  rcases h with h | h <;> simp only [sourceJudge, h]

end Source

end Sys2Proof.Machine
end

section
/-! Sp. 02 R32-R34: a beat mark arrives. -/

namespace Sys2Proof.Machine

/-! ## A mark is taken -/

theorem next_congr {a b : State} (h : a = b) : (.next a : Result) = .next b := congrArg _ h

/-- State with the source field of a mark of the carrying port. -/
def sourced (s : State) (k : Kcp) (w : BitVec 128) : State :=
  if s.ctl.carrier = some k then { s with beat := { s.beat with source := BitVec.ofNat 8 (bits w.toNat 79 72) } } else s

/-- The mark of number `n`, compensated to `y`, as it is kept. -/
def seenMark (b : Beat) (n : BitVec 48) (y : Int) : SeenMark :=
  { at_ := nearBoundary y, kind := (if n = beatAt b (nearBoundary y) then .good else .wrongNumber), early := false }

/-- State with that mark kept for its boundary. -/
def markKept (s : State) (k : Kcp) (w : BitVec 128) (m : SeenMark) : State :=
  { sourced s k w with beat := seeMark (sourced s k w).beat k m }

/-- The judgement of one port alone. -/
def onlyPort (k : Kcp) : Judges := { a := decide (k = .a), b := decide (k = .b) }

theorem onlyPort_has (k : Kcp) : (onlyPort k).has k = true := by cases k <;> rfl

theorem seenOf_seeMark (b : Beat) (k : Kcp) (m : SeenMark) :
    seenOf (seeMark b k m) k = if (markAt (seenOf b k) m.at_).isSome then seenOf b k else seenOf b k ++ [m] := by
  cases k <;> rfl

theorem seenOf_seeMark_other (b : Beat) (k : Kcp) (m : SeenMark) : seenOf (seeMark b k m) (otherKcp k) = seenOf b (otherKcp k) := by
  cases k <;> rfl

/-- A kept mark touches only the marks seen. -/
theorem seeMark_else (b : Beat) (k : Kcp) (m : SeenMark) : { seeMark b k m with seenA := b.seenA, seenB := b.seenB } = b := by
  cases k <;> rfl

section Mark
variable (s : State) (k : Kcp) (w : BitVec 128) (m : SeenMark)

theorem sourced_else : { sourced s k w with beat := s.beat } = s := by
  unfold sourced; split <;> rfl

theorem sourced_beat : { (sourced s k w).beat with source := s.beat.source } = s.beat := by
  unfold sourced; split <;> rfl

theorem sourced_only : sourced s k w = { s with beat := (sourced s k w).beat } :=
  (congrArg (fun t : State => { t with beat := (sourced s k w).beat }) (sourced_else s k w) :)

/-- The source field aside, the beat reads as it did. -/
theorem sourced_reads {γ : Type} (f : Beat → γ) (h : ∀ b x, f { b with source := x } = f b) : f (sourced s k w).beat = f s.beat := by
  rw [← h (sourced s k w).beat s.beat.source, sourced_beat]

theorem markKept_only : markKept s k w m = { s with beat := (markKept s k w m).beat } :=
  congrArg (fun t : State => { t with beat := (markKept s k w m).beat }) (sourced_else s k w)

/-- The marks seen and the source field aside, too. -/
theorem markKept_reads {γ : Type} (f : Beat → γ) (h : ∀ b x y z, f { b with source := x, seenA := y, seenB := z } = f b) :
    f (markKept s k w m).beat = f s.beat := by
  have seen : f (markKept s k w m).beat = f (sourced s k w).beat := by
    rw [← h (markKept s k w m).beat (sourced s k w).beat.source (sourced s k w).beat.seenA (sourced s k w).beat.seenB]
    exact congrArg (fun b : Beat => f { b with source := (sourced s k w).beat.source }) (seeMark_else (sourced s k w).beat k m)
  exact seen.trans (sourced_reads s k w f (fun b x => h b x b.seenA b.seenB))

theorem markKept_ctl : (markKept s k w m).ctl = s.ctl :=
  (congrArg State.ctl (markKept_only s k w m) :)

theorem markKept_seen :
    seenOf (markKept s k w m).beat k = if (markAt (seenOf s.beat k) m.at_).isSome then seenOf s.beat k else seenOf s.beat k ++ [m] := by
  have seen : seenOf (sourced s k w).beat k = seenOf s.beat k := sourced_reads s k w (seenOf · k) (fun _ _ => by cases k <;> rfl)
  rw [markKept, seenOf_seeMark, seen]

theorem markKept_other : seenOf (markKept s k w m).beat (otherKcp k) = seenOf s.beat (otherKcp k) := by
  rw [markKept, seenOf_seeMark_other]
  exact sourced_reads s k w (seenOf · (otherKcp k)) (fun _ _ => by cases k <;> rfl)

theorem markKept_delay : delayOf (markKept s k w m).beat k = delayOf s.beat k :=
  markKept_reads s k w m (delayOf · k) (fun _ _ _ _ => by cases k <;> rfl)

end Mark

/-- Kept for the boundary just passed, the carrying port's first mark is the source's mark. -/
theorem markKept_sourceMark {s : State} {k : Kcp} {w : BitVec 128} {m : SeenMark} (hk : s.ctl.carrier = some k)
    (hm : markAt (seenOf s.beat k) m.at_ = none) (hj : m.at_ = judged (delayOf s.beat k) - 1) :
    sourceMark (markKept s k w m) 1 = some m.kind := by
  have seen : seenOf (markKept s k w m).beat k = seenOf s.beat k ++ [m] := by
    rw [markKept_seen, hm]; rfl
  have found : markAt (seenOf s.beat k ++ [m]) m.at_ = some m := by
    unfold markAt at hm ⊢
    rw [List.find?_append, hm, List.find?_cons_of_pos (by simp)]
    rfl
  unfold sourceMark
  rw [markKept_ctl, hk]
  dsimp only
  rw [portMark, seen, markKept_delay, ← hj, found]
  rfl

/-! ## What the mark does, by the state of the lock -/

section Arrives
variable {s : State} {k : Kcp} {w : BitVec 128} {x : Int}

theorem execBeatMark_bad (h : markCrcOk w = false) : execBeatMark k w x s = .next s := by
  unfold execBeatMark; rw [if_pos (by simp [h])]

variable (hup : (kcp s k).up = true) (hfw : firmwareUp s = true) (hcrc : markCrcOk w = true)
include hup hfw hcrc

theorem execBeatMark_unlocked (hl : s.beat.lock = .unlocked) (hk : s.ctl.carrier = some k) :
    execBeatMark k w x s =
      .next (loadBeat (setLock (sourced s k w) .acquiring) (BitVec.ofNat 48 (bits w.toNat 127 80)) (delayOf s.beat k)) := by
  unfold execBeatMark
  rw [if_neg (by simp [hup, hfw, hcrc]), sourced, if_pos hk]
  simp only [hl, hk, if_true]

theorem execBeatMark_unkept (hl : s.beat.lock ≠ .unlocked) (h : s.beat.lock = .lost ∨ inPhase (x - delayOf s.beat k) = false) :
    execBeatMark k w x s = .next (sourced s k w) := by
  unfold execBeatMark
  rw [if_neg (by simp [hup, hfw, hcrc])]
  dsimp only
  split
  · contradiction
  · rfl
  · next hlost => rw [if_neg (by simp [h.resolve_left hlost])]; rfl

theorem execBeatMark_kept (hl : s.beat.lock = .acquiring ∨ s.beat.lock = .locked ∨ s.beat.lock = .holdover)
    (hp : inPhase (x - delayOf s.beat k) = true) :
    execBeatMark k w x s = .next (
      let t := markKept s k w (seenMark s.beat (BitVec.ofNat 48 (bits w.toNat 127 80)) (x - delayOf s.beat k))
      if awaits s.beat k && (nearBoundary (x - delayOf s.beat k) = judged (delayOf s.beat k) - 1) then judge t 1 (onlyPort k) else t) := by
  unfold execBeatMark
  rw [if_neg (by simp [hup, hfw, hcrc])]
  dsimp only
  split
  · next h => simp [h] at hl
  · next h => simp [h] at hl
  · rw [if_pos hp]
    split <;> rfl

end Arrives

/-- Of an unlocked beat the first mark makes it ACQUIRING, and marks no step. -/
theorem setLock_acquiring_step {s : State} (h : s.beat.lock = .unlocked) : (setLock s .acquiring).step = s.step := by
  have other : s.beat.lock ≠ .acquiring := by rw [h]; decide
  rw [setLock_kept other (by decide), lockMoved, raise_step_of_unmarked]
  · rw [lockEvent, h]; rfl
  · rfl
  · simp [lockEvent, ev]

/-- What a judgement of the source's mark starts from, after a mark of the carrying port. -/
theorem judge_markKept {s : State} {k : Kcp} {w : BitVec 128} {m : SeenMark} (hk : s.ctl.carrier = some k) (hl : s.beat.lock ≠ .holdover) :
    judge (markKept s k w m) 1 (onlyPort k) = sourceJudge (portsJudged (markKept s k w m) 1 (onlyPort k)) 1 := by
  have lock : (markKept s k w m).beat.lock = s.beat.lock := markKept_reads s k w m Beat.lock (fun _ _ _ _ => rfl)
  have judges : (onlyPort k).source (portsJudged (markKept s k w m) 1 (onlyPort k)) = true := by
    rw [portsJudged_source, source_of_carrier (by rw [markKept_ctl]; exact hk)]; exact onlyPort_has k
  rw [judge_eq, lockJudge_source (by rw [portsJudged_lock, lock]; exact hl) judges]

/-- A mark that is judged as it comes: the ports judged, with the mark kept. -/
def markJudged (s : State) (k : Kcp) (w : BitVec 128) (m : SeenMark) : State := portsJudged (markKept s k w m) 1 (onlyPort k)

section MarkJudged
variable (s : State) (k : Kcp) (w : BitVec 128) (m : SeenMark)

theorem markJudged_only : markJudged s k w m = { s with beat := (markJudged s k w m).beat } :=
  congrArg (fun t : State => { t with beat := (markJudged s k w m).beat }) (markKept_only s k w m)

theorem markJudged_with (b : Beat) : { markJudged s k w m with beat := b } = { s with beat := b } :=
  (congrArg (fun t : State => { t with beat := b }) (markJudged_only s k w m) :)

theorem markJudged_lock : (markJudged s k w m).beat.lock = s.beat.lock := markKept_reads s k w m Beat.lock (fun _ _ _ _ => rfl)
theorem markJudged_count : (markJudged s k w m).beat.count = s.beat.count := markKept_reads s k w m Beat.count (fun _ _ _ _ => rfl)
theorem markJudged_wrongRun : (markJudged s k w m).beat.wrongRun = s.beat.wrongRun :=
  markKept_reads s k w m Beat.wrongRun (fun _ _ _ _ => rfl)
theorem markJudged_goodRun : (markJudged s k w m).beat.goodRun = s.beat.goodRun :=
  markKept_reads s k w m Beat.goodRun (fun _ _ _ _ => rfl)

theorem markJudged_awaits : awaits (markJudged s k w m).beat k = false := by
  rw [markJudged, portsJudged_awaits, onlyPort_has]; simp

theorem markJudged_mem : (markJudged s k w m).mem = s.mem := (congrArg State.mem (markJudged_only s k w m) :)
theorem markJudged_err : (markJudged s k w m).err = s.err := (congrArg State.err (markJudged_only s k w m) :)
theorem markJudged_guardPlace : guardPlace (markJudged s k w m) = guardPlace s := (congrArg guardPlace (markJudged_only s k w m) :)

/-- A move of the lock at the mark is one more BEAT_LOCK and moves no byte. -/
theorem markJudged_moves {n : Lock} (h : s.beat.lock ≠ n) :
    (setLock (markJudged s k w m) n).mem = s.mem ∧ oneMore s (setLock (markJudged s k w m) n) 0x01 (guardPlace s) := by
  constructor
  · rw [field_of State.mem (setLock_only _ _) (fun _ => rfl), markJudged_mem]
  · rw [← markJudged_guardPlace s k w m]
    exact oneMore_congr (setLock_counted (by rw [markJudged_lock]; exact h)) (by rw [markJudged_err]) rfl

end MarkJudged

theorem seenMark_good {b : Beat} {n : BitVec 48} {y : Int} (h : n = beatAt b (nearBoundary y)) : (seenMark b n y).kind = .good := if_pos h
theorem seenMark_wrong {b : Beat} {n : BitVec 48} {y : Int} (h : n ≠ beatAt b (nearBoundary y)) : (seenMark b n y).kind = .wrongNumber := if_neg h

/-- Settles O54: a mark is kept and judged by its number, by the state of the lock. -/
theorem marksAreJudged : Obligations.MarksAreJudged := by
  intro k w x y n s hup hfw hy hn
  subst hy hn
  refine ⟨fun hcrc hl hk => ?loads, fun hcrc hl hp ha => ?kept, fun hcrc hk hp ha hj hm => ?judged, fun hcrc hl h => ?unkept,
    fun hcrc => execBeatMark_bad hcrc, fun hl hb => ?timeout⟩
  case loads =>
    have lock : (sourced s k w).beat.lock = .unlocked := (sourced_reads s k w Beat.lock (fun _ _ => rfl)).trans hl
    have source := sourced_only s k w
    have moves : (sourced s k w).beat.lock ≠ .acquiring := by rw [lock]; decide
    refine ⟨_, execBeatMark_unlocked hup hfw hcrc hl hk, setLock_lock _ _, rfl, rfl, ?_, ?_, ?_⟩
    · have place : guardPlace (sourced s k w) = guardPlace s := (congrArg guardPlace source :)
      exact place ▸ oneMore_congr (setLock_counted moves) (congrArg (fun t => t.err.sources) source.symm) rfl
    · exact (field_of State.mem (setLock_only _ _) (fun _ => rfl)).trans (congrArg State.mem source :)
    · exact (setLock_acquiring_step lock).trans (congrArg State.step source :)
  case kept =>
    have exec_eq := execBeatMark_kept hup hfw hcrc hl hp
    dsimp only at exec_eq
    rw [if_neg (by rcases ha with ha | ha <;> simp [ha])] at exec_eq
    refine ⟨_, exec_eq, markKept_only s k w _, markKept_reads s k w _ Beat.lock (fun _ _ _ _ => rfl),
      markKept_reads s k w _ Beat.count (fun _ _ _ _ => rfl), markKept_other s k w _, fun h => ?_, fun h => ?_⟩
    · rw [markKept_seen]; exact if_pos h
    · rw [markKept_seen, seenMark]; dsimp only; rw [if_neg (by simp [h])]; rfl
  case judged =>
    have exec_eq (hl : s.beat.lock = .acquiring ∨ s.beat.lock = .locked) := execBeatMark_kept hup hfw hcrc (hl.imp_right .inl) hp
    dsimp only at exec_eq
    rw [if_pos (by simp [ha, hj])] at exec_eq
    have mark := markKept_sourceMark (w := w) (m := seenMark s.beat (BitVec.ofNat 48 (bits w.toNat 127 80)) (x - delayOf s.beat k)) hk hm hj
    generalize hmm : seenMark s.beat (BitVec.ofNat 48 (bits w.toNat 127 80)) (x - delayOf s.beat k) = m at *
    have runs (hl : s.beat.lock = .acquiring ∨ s.beat.lock = .locked) :
        exec (.beatMark k w x) s = .next (sourceJudge (markJudged s k w m) 1) := by
      refine (exec_eq hl).trans (next_congr (judge_markKept hk ?_))
      rcases hl with hl | hl <;> (rw [hl]; decide)
    have good (hn) : sourceMark (markJudged s k w m) 1 = some .good := mark.trans (congrArg some (hmm ▸ seenMark_good hn))
    have wrong (hn) : sourceMark (markJudged s k w m) 1 = some .wrongNumber := mark.trans (congrArg some (hmm ▸ seenMark_wrong hn))
    refine ⟨fun hl hn => ?_, fun hl hn hw => ?_, fun hl hn hw => ?_, fun hl hn hg => ?_⟩
    all_goals have lock := (markJudged_lock s k w m).trans hl
    · refine ⟨_, (runs (.inr hl)).trans (next_congr (sourceJudge_locked_good lock (good hn))), ?_, lock, rfl,
        markJudged_awaits s k w m, markJudged_count s k w m⟩
      exact markJudged_with s k w m _
    · refine ⟨_, (runs (.inr hl)).trans (next_congr (sourceJudge_locked_wrong lock (wrong hn) (by rw [markJudged_wrongRun]; exact hw))),
        ?_, lock, ?_, markJudged_awaits s k w m⟩
      · exact markJudged_with s k w m _
      · exact congrArg (· + 1) (markJudged_wrongRun s k w m)
    · exact ⟨_, (runs (.inr hl)).trans (next_congr (sourceJudge_locked_third lock (wrong hn) (by rw [markJudged_wrongRun]; exact hw))),
        setLock_lock _ _, markJudged_moves s k w m (by rw [hl]; decide)⟩
    · exact ⟨_, (runs (.inl hl)).trans (next_congr (sourceJudge_acquiring_locks lock (good hn) (by rw [markJudged_goodRun]; exact hg))),
        setLock_lock _ _, markJudged_moves s k w m (by rw [hl]; decide)⟩
  case unkept =>
    exact ⟨_, execBeatMark_unkept hup hfw hcrc hl h, sourced_only s k w, sourced_reads s k w Beat.lock (fun _ _ => rfl),
      sourced_reads s k w Beat.count (fun _ _ => rfl), sourced_reads s k w Beat.seenA (fun _ _ => rfl),
      sourced_reads s k w Beat.seenB (fun _ _ => rfl)⟩
  case timeout =>
    have moves : s.beat.lock ≠ .lost := by rw [hl]; decide
    exact ⟨setLock s .lost, if_pos ⟨hl, hb⟩, setLock_lock _ _, field_of State.mem (setLock_only _ _) (fun _ => rfl), setLock_counted moves,
      fun hs hc => setLock_lost_stops moves hs hc⟩

end Sys2Proof.Machine
end

section
/-! Sp. 02 R32-R34, R44: a local beat boundary. -/

namespace Sys2Proof.Machine

/-! ## What follows the judgement at a boundary -/

/-- The step-relative beat, the relays, the health score and the drop summary. -/
def boundaryEnd (s : State) : State := traceBoundary (healthBoundary (relayAll (stepBoundary (passMarks s))))

section Told
variable {γ : Type} (π : State → γ) (he : ∀ t, π (butEvents t) = π t) (hp : ∀ t x, π { t with ports := x } = π t)
  (ht : ∀ t x, π { t with trace := x } = π t)

include hp in
theorem relayAll_field (s : State) : π (relayAll s) = π s := by
  unfold relayAll
  refine ite_field (foldl_field π _ (fun t p => ?_) _ _) rfl
  unfold relayOne setPort
  exact ite_field (hp t _) rfl

/-- The health monitor records HEALTH events alone. -/
theorem healthBoundary_raises (hh : ∀ t x, π { t with health := x } = π t) (hr : ∀ t e, e.kind = 0x17 → π (raise t e) = π t) (s : State) :
    π (healthBoundary s) = π s := by
  have alarm (old new : Nat) (t : State) (n : Nat × Nat) : π (healthAlarm old new t n) = π t := by
    unfold healthAlarm
    exact ite_field ((hr _ _ rfl).trans (hh t _)) rfl
  unfold healthBoundary
  exact (foldl_field π _ (alarm _ _) _ _).trans ((hh _ _).trans (hh s _))

include he in
theorem healthBoundary_field (s : State) : π (healthBoundary s) = π s :=
  healthBoundary_raises π (fun t x => by rw [← he, ← he t]; rfl) (fun t e _ => field_of π (raise_only t e) he) s

include ht in
theorem traceBoundary_field (s : State) : π (traceBoundary s) = π s := by
  have added (t : State) (r : TraceRec) : π (traceAdd t r) = π t := by
    unfold traceAdd
    dsimp only
    refine ite_field (ht t _) ?_
    split
    · rfl
    · exact ht t _
  unfold traceBoundary
  dsimp only
  exact ite_field rfl ((ht _ _).trans (ite_field (added s _) rfl))

include he hp ht in
theorem boundaryEnd_told (s : State) : π (boundaryEnd s) = π (stepBoundary (passMarks s)) :=
  (traceBoundary_field π ht _).trans ((healthBoundary_field π he _).trans (relayAll_field π hp _))

variable (hn : ∀ t n, π { t with step := { t.step with relBeat := n } } = π t)
  (hs : ∀ t a b, π { t with beat := { t.beat with seenA := a, seenB := b } } = π t)

include he hp ht hn hs in
/-- The step-relative beat and the marks seen aside, too. -/
theorem boundaryEnd_field (s : State) : π (boundaryEnd s) = π s := by
  rw [boundaryEnd_told π he hp ht]
  unfold stepBoundary
  exact ite_field ((hn _ _).trans (hs s _ _)) (hs s _ _)

end Told

/-- A boundary's BEAT_LOCK events are those of its judgement: what follows records HEALTH events alone. -/
theorem boundaryEnd_counted (s : State) (p : Place) : countOf (boundaryEnd s) 0x01 p = countOf s 0x01 p := by
  have traced := traceBoundary_field State.err (fun _ _ => rfl) (healthBoundary (relayAll (stepBoundary (passMarks s))))
  have told := healthBoundary_raises (countOf · 0x01 p) (fun _ _ => countOf_congr rfl _ _)
    (fun t e h => countOf_raise_ne t e p (by rw [h]; decide)) (relayAll (stepBoundary (passMarks s)))
  have relayed := relayAll_field State.err (fun _ _ => rfl) (stepBoundary (passMarks s))
  have counted : (stepBoundary (passMarks s)).err = s.err := by
    unfold stepBoundary; exact ite_field (π := State.err) rfl rfl
  exact (countOf_congr traced _ _).trans (told.trans (countOf_congr (relayed.trans counted) _ _))

/-- The marks seen are counted from the next boundary. -/
theorem boundaryEnd_seen (s : State) (k : Kcp) : seenOf (boundaryEnd s).beat k =
    ((seenOf s.beat k).map (fun m => { m with at_ := m.at_ - 1 })).filter (fun m => decide (judged (delayOf s.beat k) - 1 ≤ m.at_)) := by
  rw [boundaryEnd_told (fun t => seenOf t.beat k) (fun _ => rfl) (fun _ _ => rfl) (fun _ _ => rfl)]
  have kept : (stepBoundary (passMarks s)).beat = (passMarks s).beat := by
    unfold stepBoundary; exact ite_field (π := State.beat) rfl rfl
  rw [kept]
  cases k <;> rfl

/-! ## The boundary itself, before its marks are judged -/

/-- A port whose mark has not come and may still come. -/
def comesLate (b : Beat) (k : Kcp) : Bool := (portMark b k 0).isNone && lateMark (delayOf b k)

/-- The ports judged as the boundary passes. -/
def boundaryJudges (b : Beat) : Judges := { a := !comesLate b .a, b := !comesLate b .b }

theorem boundaryJudges_has (b : Beat) (k : Kcp) : (boundaryJudges b).has k = !comesLate b k := by cases k <;> rfl

/-- The counter steps in ACQUIRING, LOCKED and HOLDOVER (sp. 02 Table 2-2). -/
def Beat.counted (b : Beat) : Beat :=
  match b.lock with
  | .acquiring | .locked => { b with count := b.count + 1 }
  | .holdover => { b with count := b.count + 1, heldBeats := b.heldBeats + 1 }
  | _ => b

/-- A boundary up to the judgement of the lock: what comes late is awaited, the other ports' runs go on. -/
def passing (s : State) : State :=
  let c := s.beat.counted
  portsJudged { clockBoundary s with beat := { c with awaitA := comesLate c .a, awaitB := comesLate c .b } } 0 (boundaryJudges c)

theorem clockBoundary_only (s : State) : butClock (clockBoundary s) = butClock s :=
  (refPass_only s (4096 - s.cycle.toNat) :)

/-- The count aside, the counted beat reads as it did. -/
theorem Beat.counted_reads {γ : Type} (f : Beat → γ) (h : ∀ b n k, f { b with count := n, heldBeats := k } = f b) (b : Beat) :
    f b.counted = f b := by
  unfold Beat.counted
  split
  · exact h b _ b.heldBeats
  · exact h b _ b.heldBeats
  · exact h b _ _
  · rfl

theorem countBoundary_eq (s : State) : countBoundary s = { s with beat := s.beat.counted } := by
  unfold countBoundary Beat.counted
  split <;> simp [*]

theorem comesLate_counted (b : Beat) (k : Kcp) : comesLate b.counted k = comesLate b k :=
  Beat.counted_reads (comesLate · k) (fun _ _ _ => by cases k <;> rfl) b

theorem boundaryJudges_counted (b : Beat) : boundaryJudges b.counted = boundaryJudges b := by
  unfold boundaryJudges; rw [comesLate_counted, comesLate_counted]

/-- At a boundary the lock is judged of that state. -/
theorem judgeBoundary_eq (s : State) :
    judgeBoundary (countBoundary (clockBoundary s)) = lockJudge (passing s) 0 (boundaryJudges s.beat) := by
  have beat : (clockBoundary s).beat = s.beat := field_of State.beat (clockBoundary_only s) (fun _ => rfl)
  rw [countBoundary_eq, beat, ← boundaryJudges_counted]
  rfl

section Passing
variable (s : State)

/-- The count, the runs and the awaits aside, the beat reads as it did. -/
theorem passing_reads {γ : Type} (f : Beat → γ)
    (h : ∀ b n k x y p q, f { b with count := n, heldBeats := k, runA := x, runB := y, awaitA := p, awaitB := q } = f b) :
    f (passing s).beat = f s.beat :=
  (h s.beat.counted s.beat.counted.count s.beat.counted.heldBeats _ _ _ _).trans
    (Beat.counted_reads f (fun b n k => h b n k b.runA b.runB b.awaitA b.awaitB) s.beat)

theorem passing_awaits (k : Kcp) : awaits (passing s).beat k = comesLate s.beat k := by
  have late : awaits (passing s).beat k = (comesLate s.beat.counted k && !(boundaryJudges s.beat.counted).has k) := by cases k <;> rfl
  rw [late, boundaryJudges_has, comesLate_counted]
  simp

theorem passing_count : (passing s).beat.count = s.beat.counted.count := rfl

/-- The clocks and the beat aside, nothing is touched. -/
theorem passing_field {γ : Type} (π : State → γ) (hc : ∀ t, π (butClock t) = π t) (hb : ∀ t b, π { t with beat := b } = π t) :
    π (passing s) = π s := (hb (clockBoundary s) _).trans (field_of π (clockBoundary_only s) hc)

end Passing

end Sys2Proof.Machine
end

section
/-! Sp. 02 R33, R34: the lock at a boundary. -/

namespace Sys2Proof.Machine

/-! ## The lock judged at a boundary -/

/-- State at a boundary with the lock judged. -/
def judgedBoundary (r : State) : State := lockJudge (passing r) 0 (boundaryJudges r.beat)

theorem execBeatBoundary_eq {s : State} (h : s.pwr.v54 = true) :
    exec .beatBoundary s = .next (boundaryEnd (judgedBoundary (judgeRest s))) := by
  refine (if_neg (by simp [h])).trans ?_
  rw [judgeBoundary_eq]
  rfl

theorem boundaryEnd_beat {γ : Type} (f : Beat → γ) (h : ∀ b x y, f { b with seenA := x, seenB := y } = f b) (s : State) :
    f (boundaryEnd s).beat = f s.beat :=
  boundaryEnd_field (fun t => f t.beat) (fun _ => rfl) (fun _ _ => rfl) (fun _ _ => rfl) (fun _ _ => rfl) (fun t _ _ => h t.beat _ _) s

theorem boundaryEnd_step {γ : Type} (f : StepSt → γ) (hu : ∀ x : StepSt, f x.unmarked = f x) (hn : ∀ (x : StepSt) n, f { x with relBeat := n } = f x)
    (s : State) : f (boundaryEnd s).step = f s.step :=
  boundaryEnd_field (fun t => f t.step) (fun t => hu t.step) (fun _ _ => rfl) (fun _ _ => rfl) (fun t _ => hn t.step _) (fun _ _ _ => rfl) s

theorem boundaryEnd_ctl (s : State) : (boundaryEnd s).ctl = s.ctl :=
  boundaryEnd_field State.ctl (fun _ => rfl) (fun _ _ => rfl) (fun _ _ => rfl) (fun _ _ => rfl) (fun _ _ _ => rfl) s

/-- What a judgement, the beat's own fields and the clocks leave alone, a boundary leaves alone. -/
theorem boundary_field {γ : Type} (π : State → γ) (hj : ∀ t, π (butJudged t) = π t) (hp : ∀ t x, π { t with ports := x } = π t)
    (ht : ∀ t x, π { t with trace := x } = π t) (hc : ∀ t, π (butClock t) = π t) (hb : ∀ t b, π { t with beat := b } = π t) (s : State) :
    π (boundaryEnd (judgedBoundary (judgeRest s))) = π s := by
  have events (t : State) : π (butEvents t) = π t := by rw [← hj, ← hj t]; rfl
  have steps (t : State) (x : StepSt) : π { t with step := x } = π t := by rw [← hj, ← hj t]; rfl
  rw [boundaryEnd_field π events hp ht (fun t n => steps t _) (fun t a b => hb t _), judgedBoundary,
    field_of π (lockJudge_only _ _ _) hj, passing_field _ π hc hb, field_of π (judgeRest_only s) hj, hb]

section Judge
variable {γ : Type} (π : State → γ) (hs : ∀ t, π (butStops t) = π t) (he : ∀ t, π (butEvents t) = π t) (hf : ∀ t, π (butFrames t) = π t)
  (hm : ∀ t n, π { t with beat := t.beat.moved n } = π t)
  (hr : ∀ t g w a b x y p q, π { t with
    beat := { t.beat with goodRun := g, wrongRun := w, holdA := a, holdB := b, runA := x, runB := y, awaitA := p, awaitB := q } } = π t)
include hs he hf hm hr

/-- What the end of the awaits leaves alone of the beat and the step. -/
theorem judgeRest_reads (s : State) : π (judgeRest s) = π s := by
  have judged (j : Int) (g : Judges) : π (judge s j g) = π s := by
    rw [judge_eq, lockJudge_reads π hs he hf hm (fun t g w a b => hr t g w a b t.beat.runA t.beat.runB t.beat.awaitA t.beat.awaitB)]
    exact hr s s.beat.goodRun s.beat.wrongRun s.beat.holdA s.beat.holdB _ _ _ _
  unfold judgeRest
  exact ite_field (judged _ _) rfl

/-- What a judgement at a boundary leaves alone of them. -/
theorem judgedBoundary_reads (s : State) : π (judgedBoundary s) = π (passing s) :=
  lockJudge_reads π hs he hf hm (fun t g w a b => hr t g w a b t.beat.runA t.beat.runB t.beat.awaitA t.beat.awaitB) _ _ _

end Judge

/-! ## What the judgement sees -/

section Sees
variable (r : State)

theorem passing_step : (passing r).step = r.step := passing_field r State.step (fun _ => rfl) (fun _ _ => rfl)
theorem passing_ctl : (passing r).ctl = r.ctl := passing_field r State.ctl (fun _ => rfl) (fun _ _ => rfl)
theorem passing_err : (passing r).err = r.err := passing_field r State.err (fun _ => rfl) (fun _ _ => rfl)
theorem passing_lock : (passing r).beat.lock = r.beat.lock := passing_reads r Beat.lock (fun _ _ _ _ _ _ _ => rfl)
theorem passing_goodRun : (passing r).beat.goodRun = r.beat.goodRun := passing_reads r Beat.goodRun (fun _ _ _ _ _ _ _ => rfl)
theorem passing_wrongRun : (passing r).beat.wrongRun = r.beat.wrongRun := passing_reads r Beat.wrongRun (fun _ _ _ _ _ _ _ => rfl)
theorem passing_holdOf (k : Kcp) : holdOf (passing r).beat k = holdOf r.beat k :=
  passing_reads r (holdOf · k) (fun _ _ _ _ _ _ _ => by cases k <;> rfl)
theorem passing_portMark (k : Kcp) (j : Int) : portMark (passing r).beat k j = portMark r.beat k j :=
  passing_reads r (portMark · k j) (fun _ _ _ _ _ _ _ => by cases k <;> rfl)

theorem passing_sourceMark (j : Int) : sourceMark (passing r) j = sourceMark r j := by
  unfold sourceMark
  rw [passing_ctl]
  simp only [passing_portMark]

theorem passing_guardPlace : guardPlace (passing r) = guardPlace r := by unfold guardPlace; rw [passing_ctl]

end Sees

section Boundary
variable {r : State}

/-- A port that brought its mark does not come late. -/
theorem comesLate_of_mark {b : Beat} {k : Kcp} (h : (portMark b k 0).isSome) : comesLate b k = false := by
  unfold comesLate; rw [Option.isNone_eq_false_iff.2 h]; rfl

/-- Where the source brought its mark, it is judged now. -/
theorem notLate_of_sourceMark {x : MarkKind} (h : sourceMark r 0 = some x) (k : Kcp) (hk : r.ctl.carrier = some k) : comesLate r.beat k = false := by
  unfold sourceMark at h
  rw [hk] at h
  dsimp only at h
  exact comesLate_of_mark (by cases hm : portMark r.beat k 0 <;> simp [hm] at h ⊢)

theorem boundary_source (h : ∀ k, r.ctl.carrier = some k → comesLate r.beat k = false) : (boundaryJudges r.beat).source (passing r) = true := by
  unfold Judges.source
  rw [passing_ctl]
  cases hk : r.ctl.carrier with
  | none => rfl
  | some k => rw [Option.all_some, boundaryJudges_has, h k hk]; rfl

theorem judgedBoundary_source (hl : r.beat.lock ≠ .holdover) (h : ∀ k, r.ctl.carrier = some k → comesLate r.beat k = false) :
    judgedBoundary r = sourceJudge (passing r) 0 :=
  lockJudge_source (by rw [passing_lock]; exact hl) (boundary_source h)

/-- A source that comes late is not judged yet. -/
theorem judgedBoundary_late {k : Kcp} (hl : r.beat.lock ≠ .holdover) (hk : r.ctl.carrier = some k) (h : comesLate r.beat k = true) :
    judgedBoundary r = passing r :=
  lockJudge_unjudged (by rw [passing_lock]; exact hl)
    (by rw [source_of_carrier (by rw [passing_ctl]; exact hk), boundaryJudges_has, h]; rfl)

theorem judgedBoundary_holdover (hl : r.beat.lock = .holdover) :
    judgedBoundary r = holdoverJudge (passing r) 0 (boundaryJudges r.beat) := lockJudge_holdover (by rw [passing_lock]; exact hl)

/-- In UNLOCKED and LOST there is nothing to judge. -/
theorem judgedBoundary_off (h : r.beat.lock = .unlocked ∨ r.beat.lock = .lost) : judgedBoundary r = passing r := by
  have off : (passing r).beat.lock = .unlocked ∨ (passing r).beat.lock = .lost := by rw [passing_lock]; exact h
  by_cases hs : (boundaryJudges r.beat).source (passing r) = true
  · exact (lockJudge_source (by rcases off with h | h <;> (rw [h]; decide)) hs).trans (sourceJudge_other off)
  · exact lockJudge_unjudged (by rcases off with h | h <;> (rw [h]; decide)) (by simpa using hs)

end Boundary

end Sys2Proof.Machine
end

section
/-! Sp. 02 R33, R34, R44: the beat boundary's lock, count and marks. -/

namespace Sys2Proof.Machine

/-- A mark awaited since the boundary before is missing: LOCKED goes to HOLDOVER, whose counts start at none. -/
theorem judgeRest_missing {s : State} {k : Kcp} (hl : s.beat.lock = .locked) (hk : s.ctl.carrier = some k) (ha : awaits s.beat k = true)
    (hm : portMark s.beat k 1 = none) :
    (judgeRest s).beat.lock = .holdover ∧ (judgeRest s).beat.holdA = 0 ∧ (judgeRest s).beat.holdB = 0 ∧ (judgeRest s).beat.wrongRun = 0 := by
  let g : Judges := { a := s.beat.awaitA, b := s.beat.awaitB }
  have judged : judgeRest s = judge s 1 g := if_pos (by cases k <;> simp_all [awaits])
  have source : g.source (portsJudged s 1 g) = true := by
    rw [portsJudged_source, source_of_carrier hk]; cases k <;> exact ha
  have mark : sourceMark (portsJudged s 1 g) 1 = none := by
    rw [portsJudged_sourceMark, sourceMark, hk]; simp [hm]
  have lock : (portsJudged s 1 g).beat.lock = .locked := by rw [portsJudged_lock, hl]
  rw [judged, judge_eq, lockJudge_source (by rw [lock]; decide) source, sourceJudge_locked_missing lock mark,
    setLock_beat (by rw [lock]; decide)]
  exact ⟨rfl, rfl, rfl, rfl⟩

section Holdover
variable {r : State} (hl : r.beat.lock = .holdover)
include hl

theorem judgedBoundary_stays (ha : holdOf r.beat .a = 0) (hb : holdOf r.beat .b = 0) (hw : r.beat.wrongRun = 0) :
    (judgedBoundary r).beat.lock = .holdover := by
  have port (k : Kcp) (h : holdOf r.beat k = 0) : holdNext (passing r) 0 (boundaryJudges r.beat) k < 16 := by
    have le := holdNext_le (s := passing r) (j := 0) (g := boundaryJudges r.beat) k
    rw [passing_holdOf, h] at le; omega
  have wrong := wrongNext_le (s := passing r) (j := 0) (g := boundaryJudges r.beat)
  rw [passing_wrongRun, hw] at wrong
  rw [judgedBoundary_holdover hl, holdoverJudge_short (port .a ha) (port .b hb), if_neg (by omega)]
  exact (passing_lock r).trans hl

/-- The 16th good mark in a row on the carrying port locks again, and control stays there. -/
theorem judgedBoundary_locks {k : Kcp} {m : SeenMark} (hk : r.ctl.carrier = some k) (hm : portMark r.beat k 0 = some m) (hg : m.kind = .good)
    (he : m.early = false) (h : 15 ≤ holdOf r.beat k) :
    (judgedBoundary r).beat.lock = .locked ∧ (judgedBoundary r).ctl.carrier = some k := by
  have carrier : (passing r).ctl.carrier = some k := by rw [passing_ctl, hk]
  have sixteen : 16 ≤ holdNext (passing r) 0 (boundaryJudges r.beat) k := by
    rw [holdNext, boundaryJudges_has, comesLate_of_mark (by rw [hm]; rfl), passing_portMark, hm, passing_holdOf]
    simp [nextHold, hg, he]; omega
  rw [judgedBoundary_holdover hl, holdoverJudge_locks carrier sixteen]
  exact ⟨setLock_lock _ _, by rw [setLock_ctl]; exact carrier⟩

/-- The third wrong number in a row on the source loses the beat, where no port has 16 good marks. -/
theorem judgedBoundary_loses {k : Kcp} {m : SeenMark} (hk : r.ctl.carrier = some k) (hm : portMark r.beat k 0 = some m)
    (hg : m.kind = .wrongNumber) (hw : 2 ≤ r.beat.wrongRun) (ha : holdOf r.beat .a < 15) (hb : holdOf r.beat .b < 15) :
    (judgedBoundary r).beat.lock = .lost := by
  have port (k : Kcp) (h : holdOf r.beat k < 15) : holdNext (passing r) 0 (boundaryJudges r.beat) k < 16 := by
    have le := holdNext_le (s := passing r) (j := 0) (g := boundaryJudges r.beat) k
    rw [passing_holdOf] at le; omega
  have mark : sourceMark r 0 = some .wrongNumber := by rw [sourceMark, hk]; simp [hm, hg]
  have third : 3 ≤ wrongNext (passing r) 0 (boundaryJudges r.beat) := by
    rw [wrongNext, boundary_source (notLate_of_sourceMark mark), passing_sourceMark, mark, passing_wrongRun]
    simp; omega
  rw [judgedBoundary_holdover hl, holdoverJudge_short (port .a ha) (port .b hb), if_pos third]
  exact setLock_lock _ _

end Holdover

section Step
variable {s : State}

theorem boundary_relBeat (s : State) : (boundaryEnd s).step.relBeat =
    if s.step.phase = .running ∧ inHold s = false ∧ s.step.frozen = [] then s.step.relBeat + 1 else s.step.relBeat := by
  rw [boundaryEnd_told (fun t => t.step.relBeat) (fun _ => rfl) (fun _ _ => rfl) (fun _ _ => rfl)]
  have held : inHold (passMarks s) = inHold s := rfl
  have same : ((passMarks s).step.phase = .running ∧ (!inHold (passMarks s)) = true ∧ (passMarks s).step.frozen.isEmpty = true) ↔
      (s.step.phase = .running ∧ inHold s = false ∧ s.step.frozen = []) := by
    rw [held, Bool.not_eq_true', List.isEmpty_iff]; rfl
  unfold stepBoundary
  exact (apply_ite (fun t : State => t.step.relBeat) _ _ _).trans (ite_congr (propext same) (fun _ => rfl) (fun _ => rfl))

/-- What the end of the awaits leaves of the step: the end of the beat stops firing, no more. -/
theorem judgeRest_step {γ : Type} (f : StepSt → γ) (hu : ∀ x : StepSt, f x.unmarked = f x)
    (hs : ∀ (x : StepSt) a b c d e, f { x with cause := a, failed := b, stopped := c, stopAt := d, resume := e } = f x) (s : State) :
    f (judgeRest s).step = f s.step :=
  judgeRest_reads (fun t => f t.step) (fun t => hs t.step _ _ _ _ _) (fun t => hu t.step) (fun _ => rfl) (fun _ _ => rfl)
    (fun _ _ _ _ _ _ _ _ _ => rfl) s

theorem judgedBoundary_step {γ : Type} (f : StepSt → γ) (hu : ∀ x : StepSt, f x.unmarked = f x)
    (hs : ∀ (x : StepSt) a b c d e, f { x with cause := a, failed := b, stopped := c, stopAt := d, resume := e } = f x) (s : State) :
    f (judgedBoundary s).step = f s.step :=
  (judgedBoundary_reads (fun t => f t.step) (fun t => hs t.step _ _ _ _ _) (fun t => hu t.step) (fun _ => rfl) (fun _ _ => rfl)
    (fun _ _ _ _ _ _ _ _ _ => rfl) s).trans (congrArg f (passing_step s))

end Step

section Marks

/-- The count, which steps only before the lock is judged. -/
theorem boundary_count (r : State) : (boundaryEnd (judgedBoundary r)).beat.count = r.beat.counted.count := by
  rw [boundaryEnd_beat Beat.count (fun _ _ _ => rfl), ← passing_count]
  exact judgedBoundary_reads (fun t => t.beat.count) (fun _ => rfl) (fun _ => rfl) (fun _ => rfl) (fun _ _ => rfl)
    (fun _ _ _ _ _ _ _ _ _ => rfl) r

theorem judgeRest_count (s : State) : (judgeRest s).beat.count = s.beat.count :=
  judgeRest_reads (fun t => t.beat.count) (fun _ => rfl) (fun _ => rfl) (fun _ => rfl) (fun _ _ => rfl) (fun _ _ _ _ _ _ _ _ _ => rfl) s

theorem judgedRest_delay (s : State) (k : Kcp) : delayOf (judgedBoundary (judgeRest s)).beat k = delayOf s.beat k := by
  have rest := judgeRest_reads (fun t => delayOf t.beat k) (fun _ => rfl) (fun _ => rfl) (fun _ => rfl) (fun _ _ => by cases k <;> rfl)
    (fun _ _ _ _ _ _ _ _ _ => by cases k <;> rfl) s
  have judged := judgedBoundary_reads (fun t => delayOf t.beat k) (fun _ => rfl) (fun _ => rfl) (fun _ => rfl)
    (fun _ _ => by cases k <;> rfl) (fun _ _ _ _ _ _ _ _ _ => by cases k <;> rfl) (judgeRest s)
  exact judged.trans ((passing_reads _ (delayOf · k) (fun _ _ _ _ _ _ _ => by cases k <;> rfl)).trans rest)

theorem judgedRest_marks (s : State) (k : Kcp) : marksOf (seenOf (judgedBoundary (judgeRest s)).beat k) = marksOf (seenOf s.beat k) := by
  have rest := judgeRest_reads (fun t => marksOf (seenOf t.beat k)) (fun _ => rfl) (fun _ => rfl) (fun _ => rfl)
    (fun t n => marksOf_moved t.beat n k) (fun _ _ _ _ _ _ _ _ _ => by cases k <;> rfl) s
  have judged := judgedBoundary_reads (fun t => marksOf (seenOf t.beat k)) (fun _ => rfl) (fun _ => rfl) (fun _ => rfl)
    (fun t n => marksOf_moved t.beat n k) (fun _ _ _ _ _ _ _ _ _ => by cases k <;> rfl) (judgeRest s)
  exact judged.trans ((passing_reads _ (fun b => marksOf (seenOf b k)) (fun _ _ _ _ _ _ _ => by cases k <;> rfl)).trans rest)

/-- No mark of a boundary that is done with stays. -/
theorem boundaryEnd_near {s : State} {k : Kcp} {m : SeenMark} (h : m ∈ seenOf (boundaryEnd s).beat k) :
    judged (delayOf (boundaryEnd s).beat k) - 1 ≤ m.at_ := by
  rw [boundaryEnd_seen] at h
  rw [boundaryEnd_beat (delayOf · k) (fun _ _ _ => by cases k <;> rfl)]
  exact of_decide_eq_true (List.mem_filter.1 h).2

/-- A mark of a boundary to come stays, one boundary nearer. -/
theorem boundary_keeps {s : State} {k : Kcp} {m : SeenMark} (hm : m ∈ seenOf s.beat k) (h : judged (delayOf s.beat k) ≤ m.at_) :
    ∃ n ∈ seenOf (boundaryEnd (judgedBoundary (judgeRest s))).beat k, n.at_ = m.at_ - 1 ∧ n.kind = m.kind := by
  have same : (m.at_, m.kind) ∈ marksOf (seenOf (judgedBoundary (judgeRest s)).beat k) := by
    rw [judgedRest_marks]; exact List.mem_map_of_mem hm
  obtain ⟨n, hn, e⟩ := List.mem_map.1 same
  obtain ⟨hat, hkind⟩ := Prod.mk.inj e
  refine ⟨{ n with at_ := n.at_ - 1 }, ?_, congrArg (· - 1) hat, hkind⟩
  rw [boundaryEnd_seen, judgedRest_delay]
  exact List.mem_filter.2 ⟨List.mem_map_of_mem hn, decide_eq_true (by dsimp only at hat ⊢; omega)⟩

end Marks

/-- A move of the lock at a boundary is one more BEAT_LOCK. -/
theorem boundary_moves {r : State} {n : Lock} (h : r.beat.lock ≠ n) (e : judgedBoundary r = setLock (passing r) n) :
    oneMore r (boundaryEnd (judgedBoundary r)) 0x01 (guardPlace r) := by
  have counted := setLock_counted (s := passing r) (n := n) (by rw [passing_lock]; exact h)
  rw [passing_guardPlace, oneMore] at counted
  rw [oneMore, boundaryEnd_counted, e, counted, countOf_congr (passing_err r)]

theorem boundary_lock (r : State) : (boundaryEnd (judgedBoundary r)).beat.lock = (judgedBoundary r).beat.lock :=
  boundaryEnd_beat Beat.lock (fun _ _ _ => rfl) _

/-- LOST at a boundary stops the firing of a started step. -/
theorem boundary_stops {r : State} (h : r.beat.lock ≠ .lost) (e : judgedBoundary r = setLock (passing r) .lost) (hs : stepStarted r = true)
    (hc : r.step.cause = 0) : (boundaryEnd (judgedBoundary r)).step.stopped = true ∧ (boundaryEnd (judgedBoundary r)).step.cause = 4 ∧
      (boundaryEnd (judgedBoundary r)).step.failed = true := by
  have started : stepStarted (passing r) = true := by unfold stepStarted; rw [passing_step]; exact hs
  rw [boundaryEnd_step StepSt.stopped (fun _ => rfl) (fun _ _ => rfl), boundaryEnd_step StepSt.cause (fun _ => rfl) (fun _ _ => rfl),
    boundaryEnd_step StepSt.failed (fun _ => rfl) (fun _ _ => rfl), e]
  exact setLock_lost_stops (by rw [passing_lock]; exact h) started (by rw [passing_step]; exact hc)

section Clauses
variable {r : State}

/-- LOCKED, by the mark of a source that does not come late. -/
theorem judgedBoundary_missing (hl : r.beat.lock = .locked) (late : ∀ k, r.ctl.carrier = some k → comesLate r.beat k = false)
    (hm : sourceMark r 0 = none) : judgedBoundary r = setLock (passing r) .holdover := by
  rw [judgedBoundary_source (by rw [hl]; decide) late]
  exact sourceJudge_locked_missing (by rw [passing_lock, hl]) (by rw [passing_sourceMark, hm])

theorem judgedBoundary_third (hl : r.beat.lock = .locked) (hm : sourceMark r 0 = some .wrongNumber) (hw : 2 ≤ r.beat.wrongRun) :
    judgedBoundary r = setLock (passing r) .lost := by
  rw [judgedBoundary_source (by rw [hl]; decide) (notLate_of_sourceMark hm)]
  exact sourceJudge_locked_third (by rw [passing_lock, hl]) (by rw [passing_sourceMark, hm]) (by rw [passing_wrongRun]; exact hw)

theorem judgedBoundary_good (hl : r.beat.lock = .locked) (hm : sourceMark r 0 = some .good) :
    judgedBoundary r = { passing r with beat := { (passing r).beat with wrongRun := 0 } } := by
  rw [judgedBoundary_source (by rw [hl]; decide) (notLate_of_sourceMark hm)]
  exact sourceJudge_locked_good (by rw [passing_lock, hl]) (by rw [passing_sourceMark, hm])

theorem judgedBoundary_acquires (hl : r.beat.lock = .acquiring) (hm : sourceMark r 0 = some .good) (hg : 63 ≤ r.beat.goodRun) :
    judgedBoundary r = setLock (passing r) .locked := by
  rw [judgedBoundary_source (by rw [hl]; decide) (notLate_of_sourceMark hm)]
  exact sourceJudge_acquiring_locks (by rw [passing_lock, hl]) (by rw [passing_sourceMark, hm]) (by rw [passing_goodRun]; exact hg)

theorem judgedBoundary_restarts (hl : r.beat.lock = .acquiring) (late : ∀ k, r.ctl.carrier = some k → comesLate r.beat k = false)
    (hm : sourceMark r 0 ≠ some .good) : judgedBoundary r = { passing r with beat := { (passing r).beat with goodRun := 0 } } := by
  rw [judgedBoundary_source (by rw [hl]; decide) late]
  exact sourceJudge_acquiring_other (by rw [passing_lock, hl]) (by rw [passing_sourceMark]; exact hm)

theorem comesLate_iff {b : Beat} {k : Kcp} : comesLate b k = true ↔ portMark b k 0 = none ∧ lateMark (delayOf b k) = true := by
  simp [comesLate]

theorem notLate_of {b : Beat} {k : Kcp} (h : portMark b k 0 = none → lateMark (delayOf b k) = false) : comesLate b k = false := by
  rw [← Bool.not_eq_true, comesLate_iff]
  rintro ⟨none, late⟩
  rw [h none] at late
  exact Bool.noConfusion late

theorem counted_count {b : Beat} : ((b.lock = .acquiring ∨ b.lock = .locked ∨ b.lock = .holdover) → b.counted.count = b.count + 1) ∧
    ((b.lock = .unlocked ∨ b.lock = .lost) → b.counted.count = b.count) := by
  unfold Beat.counted
  cases b.lock <;> simp

end Clauses

/-- What a judgement leaves alone is, after the boundary, as it passed. -/
theorem boundary_passed {γ : Type} (π : State → γ) (hj : ∀ t, π (butJudged t) = π t) (hp : ∀ t x, π { t with ports := x } = π t)
    (ht : ∀ t x, π { t with trace := x } = π t) (r : State) : π (boundaryEnd (judgedBoundary r)) = π (passing r) := by
  have events (t : State) : π (butEvents t) = π t := by rw [← hj, ← hj t]; rfl
  have steps (t : State) (x : StepSt) : π { t with step := x } = π t := by rw [← hj, ← hj t]; rfl
  have seen (t : State) (a b : List SeenMark) : π { t with beat := { t.beat with seenA := a, seenB := b } } = π t := by
    rw [← hj, ← hj t]; rfl
  rw [boundaryEnd_field π events hp ht (fun t n => steps t _) seen]
  exact field_of π (lockJudge_only _ _ _) hj

/-- Settles O53: a boundary of the beat, by the state of the lock and the source's mark. -/
theorem theBeatLockFollowsItsMarks : Obligations.TheBeatLockFollowsItsMarks := by
  intro s r hv hr
  have lock := boundary_lock r
  have started {γ : Type} (π : State → γ) (hj : ∀ t, π (butJudged t) = π t) (hb : ∀ t b, π { t with beat := b } = π t) : π r = π s := by
    rw [hr, field_of π (judgeRest_only s) hj, hb]
  have held : inHold r = inHold s := started inHold (fun _ => rfl) (fun _ _ => rfl)
  have rest : r.beat.count = s.beat.count := by rw [hr]; exact judgeRest_count s
  refine ⟨fun ha hb => hr.trans (judgeRest_of_none_awaited ha hb), boundaryEnd (judgedBoundary r),
    by rw [hr]; exact execBeatBoundary_eq hv, ?cycle, ?ref, ?now, ?mem, ?pwr, ?guard, fun m => boundaryEnd_near (k := .a),
    fun m => boundaryEnd_near (k := .b), fun k m => by rw [hr]; exact boundary_keeps, fun h => ?counts, fun h => ?stands,
    fun k hl hk ha hm => ?timeout, fun k hl hk hm hd => ?waits, fun late => ⟨fun hl hm => ?missing, fun hl hm hw => ?third, fun hl hm => ?restarts⟩,
    fun hl hm => ?good, fun hl hm hg => ?acquires, fun k m hl hk hm hg he h => ?locks, fun k m hl hk hm hg hw ha hb => ?loses,
    fun hp hh hf hl hm => ?advances⟩
  case cycle =>
    exact boundary_passed State.cycle (fun _ => rfl) (fun _ _ => rfl) (fun _ _ => rfl) r
  case ref =>
    rw [boundary_passed State.ref (fun _ => rfl) (fun _ _ => rfl) (fun _ _ => rfl) r]
    exact (refPass_ref r _).trans (by rw [started State.ref (fun _ => rfl) (fun _ _ => rfl), started State.cycle (fun _ => rfl) (fun _ _ => rfl)])
  case now =>
    intro hh
    rw [boundary_passed State.now (fun _ => rfl) (fun _ _ => rfl) (fun _ _ => rfl) r]
    exact (refPass_now _ (held.trans hh)).trans
      (by rw [started State.now (fun _ => rfl) (fun _ _ => rfl), started State.cycle (fun _ => rfl) (fun _ _ => rfl)])
  case mem => rw [hr]; exact boundary_field State.mem (fun _ => rfl) (fun _ _ => rfl) (fun _ _ => rfl) (fun _ => rfl) (fun _ _ => rfl) s
  case pwr => rw [hr]; exact boundary_field State.pwr (fun _ => rfl) (fun _ _ => rfl) (fun _ _ => rfl) (fun _ => rfl) (fun _ _ => rfl) s
  case guard => rw [hr]; exact boundary_field State.guard (fun _ => rfl) (fun _ _ => rfl) (fun _ _ => rfl) (fun _ => rfl) (fun _ _ => rfl) s
  case counts => rw [boundary_count, counted_count.1 h, rest]
  case stands => exact ⟨by rw [boundary_count, counted_count.2 h, rest], by rw [lock, judgedBoundary_off h, passing_lock]⟩
  case timeout =>
    obtain ⟨held, noA, noB, noWrong⟩ := hr ▸ judgeRest_missing hl hk ha hm
    rw [lock]
    exact judgedBoundary_stays held noA noB noWrong
  case waits =>
    have late := judgedBoundary_late (by rw [hl]; decide) hk (comesLate_iff.2 ⟨hm, hd⟩)
    rw [lock, boundaryEnd_beat (awaits · k) (fun _ _ _ => by cases k <;> rfl), boundaryEnd_beat Beat.wrongRun (fun _ _ _ => rfl), late]
    exact ⟨(passing_lock r).trans hl, (passing_awaits r k).trans (comesLate_iff.2 ⟨hm, hd⟩), passing_wrongRun r⟩
  case missing =>
    have moved := judgedBoundary_missing hl (fun k hk => notLate_of (late k hk)) hm
    exact ⟨by rw [lock, moved, setLock_lock], boundary_moves (by rw [hl]; decide) moved⟩
  case third =>
    have moved := judgedBoundary_third hl hm hw
    exact ⟨by rw [lock, moved, setLock_lock], boundary_stops (by rw [hl]; decide) moved⟩
  case restarts =>
    have judged := judgedBoundary_restarts hl (fun k hk => notLate_of (late k hk)) hm
    rw [lock, boundaryEnd_beat Beat.goodRun (fun _ _ _ => rfl), judged]
    exact ⟨(passing_lock r).trans hl, rfl⟩
  case good =>
    rw [lock, boundaryEnd_beat Beat.wrongRun (fun _ _ _ => rfl), judgedBoundary_good hl hm]
    exact ⟨(passing_lock r).trans hl, rfl⟩
  case acquires => rw [lock, judgedBoundary_acquires hl hm hg, setLock_lock]
  case locks =>
    rw [lock, boundaryEnd_ctl]
    exact judgedBoundary_locks hl hk hm hg he (by cases k <;> exact h)
  case loses => rw [lock]; exact judgedBoundary_loses hl hk hm hg hw ha hb
  case advances =>
    have step {γ : Type} (f : StepSt → γ) (hu : ∀ x : StepSt, f x.unmarked = f x)
        (hs : ∀ (x : StepSt) a b c d e, f { x with cause := a, failed := b, stopped := c, stopAt := d, resume := e } = f x) :
        f (judgedBoundary r).step = f s.step := by
      rw [judgedBoundary_step f hu hs, hr, judgeRest_step f hu hs]
    have passed : inHold (judgedBoundary r) = false :=
      (field_of inHold (lockJudge_only (passing r) 0 _) (fun _ => rfl)).trans
        ((passing_field r inHold (fun _ => rfl) (fun _ _ => rfl)).trans (held.trans hh))
    rw [boundary_relBeat, if_pos ⟨(step StepSt.phase (fun _ => rfl) (fun _ _ _ _ _ _ => rfl)).trans hp, passed,
      (step StepSt.frozen (fun _ => rfl) (fun _ _ _ _ _ _ => rfl)).trans hf⟩, step StepSt.relBeat (fun _ => rfl) (fun _ _ _ _ _ _ => rfl)]

end Sys2Proof.Machine
end

section
/-! Sp. 02 R58-R60; sp. 13 R392: a hold and its resume. -/

namespace Sys2Proof.Machine

/-! ## The hold takes effect -/

section Hold
variable {s : State} {g : BitVec 48} {o : Owed} {b : Nat} (hh : s.step.hold = some (g, o)) (hb : holdEdge s = some b)
  (hp : s.step.phase = .running) (hs : s.step.stopped = false)
include hh hb hp hs

theorem execHoldTakesEffect_held (hc : curtainUp s = false) (hm : curtainsMeet s (beatNow s - g).toNat = false) :
    exec .holdTakesEffect s = .next (finish
      { s with step := { s.step with phase := .held, hold := none, holdAt := b, relBeat := s.step.relBeat - (beatNow s - g).toNat } } o
      stOk (toLE 6 g.toNat)) := by
  change execHoldTakesEffect s = _
  unfold execHoldTakesEffect
  simp only [hh, hb]
  rw [if_pos ⟨hp, by rw [hs]; rfl⟩, if_neg (by simp only [hc, hm]; decide)]

theorem execHoldTakesEffect_noStep (hc : curtainUp s = true ∨ curtainsMeet s (beatNow s - g).toNat = true) :
    exec .holdTakesEffect s = .next (finish { s with step := { s.step with hold := none } } o stNoStep []) := by
  change execHoldTakesEffect s = _
  unfold execHoldTakesEffect
  simp only [hh, hb]
  rw [if_pos ⟨hp, by rw [hs]; rfl⟩, if_pos hc]

end Hold

/-! ## The resume -/

/-- A pending cue, its slack counted from the end of a hold of `n` cycles that ends at `c`. -/
def Pending.shifted (n c : Nat) (p : Pending) : Pending := { p with firedAt := p.firedAt + n, metAt := p.metAt.map (max c) }

/-- A resume shifts the pending cues and touches no other part of a unit. -/
theorem unit_shiftPending (s : State) (n c : Nat) (u : UnitId) :
    (unit (shiftPending s n c) u).running = (unit s u).running ∧
      (unit (shiftPending s n c) u).pending = (unit s u).pending.map (Pending.shifted n c) :=
  Sparse.get_map_rel (f := fun e => (e.1, { e.2 with pending := e.2.pending.map (Pending.shifted n c) }))
    (R := fun x y => y.running = x.running ∧ y.pending = x.pending.map (Pending.shifted n c))
    (fun _ => ⟨rfl, rfl⟩) (fun _ => rfl) (fun _ => ⟨rfl, rfl⟩) s.stage.units (unitKey u)

theorem execResumeBeat_runs {s : State} {r : BitVec 48} (hr : s.step.resume = some r) (hp : s.step.phase = .held) (hn : beatNow s = r)
    (hc : s.cycle = 0) (hb : beatRuns s = true) (hs : s.step.stopped = false) (hh : inHold s = false) :
    exec .resumeBeat s =
      .next (shiftPending { s with step := { s.step with phase := .running, resume := none } } (s.now - s.step.holdAt) s.now) := by
  change execResumeBeat s = _
  unfold execResumeBeat
  simp [hr, hp, hn, hc, hb, hs, hh]

/-! ## While the hold stands -/

/-- No cue is late where none may start. -/
theorem execCueLate_unstarted {s : State} {u : UnitId} (h : ∀ e, canStart (settle (clockTo s e)) (unitDie u) e = false) :
    exec (.cueLate u) s = .next s := by
  change execCueLate u s = _
  unfold execCueLate
  split
  · rfl
  · dsimp only
    split
    · rfl
    · split
      · rfl
      · rw [if_pos (by rw [h]; rfl)]

/-- The step-relative beat stands still while the step is HELD. -/
theorem boundary_relBeat_held {s : State} (h : s.step.phase = .held) :
    (boundaryEnd (judgedBoundary (judgeRest s))).step.relBeat = s.step.relBeat := by
  have step {γ : Type} (f : StepSt → γ) (hu : ∀ x : StepSt, f x.unmarked = f x)
      (hs : ∀ (x : StepSt) a b c d e, f { x with cause := a, failed := b, stopped := c, stopAt := d, resume := e } = f x) :
      f (judgedBoundary (judgeRest s)).step = f s.step := by
    rw [judgedBoundary_step f hu hs, judgeRest_step f hu hs]
  have held : (judgedBoundary (judgeRest s)).step.phase = .held := (step StepSt.phase (fun _ => rfl) (fun _ _ _ _ _ _ => rfl)).trans h
  rw [boundary_relBeat, if_neg (by rw [held]; simp), step StepSt.relBeat (fun _ => rfl) (fun _ _ _ _ _ _ => rfl)]

/-- Settles O28: the hold's two ends, the resume, and what stands still between them. -/
theorem aHoldStopsTheCounterUntilItsResume : Obligations.AHoldStopsTheCounterUntilItsResume := by
  intro s
  refine ⟨fun g o b n hh hb hn hp hs => ?hold, fun r hr hp hn hc hb hs hh => ?resume, fun hp u => ?late, fun hp hv => ?beat⟩
  case hold =>
    subst hn
    exact ⟨execHoldTakesEffect_held hh hb hp hs, execHoldTakesEffect_noStep hh hb hp hs⟩
  case resume =>
    exact ⟨_, execResumeBeat_runs hr hp hn hc hb hs hh, rfl, rfl, rfl, rfl, ⟨rfl, rfl, rfl, rfl, rfl, rfl, rfl, rfl, rfl, rfl⟩,
      unit_shiftPending _ _ _⟩
  case late =>
    refine execCueLate_unstarted (fun e => canStart_phase ?_)
    rw [field_of (fun t => t.step.phase) (settled_ready s e) (fun _ => rfl), hp]
    decide
  case beat => exact ⟨_, execBeatBoundary_eq hv, boundary_relBeat_held hp⟩

end Sys2Proof.Machine
end

section
/-! Sp. 02 R43, R49, R57, R61; sp. 14 R404: the control cues. -/

namespace Sys2Proof.Machine

/-! ## A cue starts -/

section Starts
variable {s : State} {u : UnitId} {op : Nat} {p : Pending} {c : Nat} (h : startsAt s u op p c)
include h

theorem startable_of_startsAt : startable (readyAt s u) u op = some (p, c) := by
  obtain ⟨hp, hc, hs, ho, hl, hn⟩ := h
  unfold startable
  simp only [hp, hc]
  rw [if_pos (by simp [hs, ho, hl, hn])]

/-- A cue of one opcode starts as no other. -/
theorem startable_other {op' : Nat} (ho : op' ≠ op) : startable (readyAt s u) u op' = none := by
  obtain ⟨hp, hc, hs, rfl, hl, hn⟩ := h
  unfold startable
  simp only [hp, hc]
  rw [if_neg (by simp [ho.symm])]

end Starts

/-! ## A control cue acts 4 cycles after its start -/

/-- State 4 cycles after the start of a control cue, as it acts. -/
def atControl (s : State) (d : Die) (p : Pending) (c : Nat) : State := settle (clockTo (leftAt s (.control d) p c) (c + 4))

/-- State once it has acted: the unit is free, the cue is traced and its signal sent. -/
def controlDone (s : State) (d : Die) (p : Pending) (c : Nat) : State :=
  signalOpt (traceAt (setUnit s (.control d) { unit s (.control d) with freeAt := c }) (c + 4) 5 (dieplace d) 0 0 p.cue 0 (c + 4 - p.firedAt))
    d (c + 4) (doneSignal p.raw)

section Control
variable {s : State} {d : Die} {op : Nat} {p : Pending} {c : Nat} (h : startsAt s (.control d) op p c)
include h

theorem runControl_acts (hr : reaches (readyAt s (.control d)) (c + 4) = true) (act : State → Nat → Nat → Nat → State) :
    runControl s d op act =
      controlDone (act (atControl s d p c) p.cue (ofLE ((sheet (readyAt s (.control d))).desc (cDesc p.raw) 8)) c) d p c := by
  unfold runControl
  dsimp only
  rw [startable_of_startsAt h]
  dsimp only
  rw [if_neg (by simp [hr])]
  rfl

/-- Where the clock cannot come to the fourth cycle, nothing happens yet. -/
theorem runControl_early (hr : reaches (readyAt s (.control d)) (c + 4) = false) (op' : Nat) (act : State → Nat → Nat → Nat → State) :
    runControl s d op' act = s := by
  unfold runControl
  dsimp only
  by_cases ho : op' = op
  · rw [ho, startable_of_startsAt h]
    dsimp only
    rw [if_pos (by simp [hr])]
  · rw [startable_other h ho]

end Control

theorem traceAt_unit (s : State) (c : Nat) (kind : Byte) (p : Place) (un inst cue addr count : Nat) (v : UnitId) :
    unit (traceAt s c kind p un inst cue addr count) v = unit s v := rfl

section Done
variable (s : State) (d : Die) (p : Pending) (c : Nat)

theorem atControl_ready : butReady (atControl s d p c) = butReady s := (settled_ready _ _).trans (leftAt_ready s _ p c)

theorem atControl_pending : (unit (atControl s d p c) (.control d)).pending = none :=
  (pending_none_of_unmet (congrFun (settled_units _ _) _)).2 (leftAt_pending s _ p c)

theorem atControl_traceOn : (atControl s d p c).trace.on = s.trace.on :=
  field_of (fun t => t.trace.on) (atControl_ready s d p c) (fun _ => rfl)

theorem controlDone_ready : butReady (controlDone s d p c) = butReady s := by
  rw [controlDone, signalOpt_ready, traceAt_ready, setUnit_ready]

theorem controlDone_outside : outsideOf (controlDone s d p c) = outsideOf s := outsideOf_of_ready (controlDone_ready s d p c)

variable {s} in
theorem controlDone_pending (h : (unit s (.control d)).pending = none) : (unit (controlDone s d p c) (.control d)).pending = none := by
  refine (pending_none_of_unmet (congrFun (signalOpt_units _ _ _ _) _)).2 ?_
  rw [traceAt_unit, unit_setUnit]
  exact h

/-- A tally that the completion does not signal keeps its value. -/
theorem controlDone_tally {i : Nat} (h : ∀ n, doneSignal p.raw ≠ some (i, n)) : tallyOf (controlDone s d p c) i = tallyOf s i :=
  tallyOf_signalOpt_other _ _ _ h

end Done

/-! ## What the control cues do -/

/-- Of that cycle the sets and increments stay, and of another there are none. -/
theorem keepBefore_sets (s : State) (k v c : Nat) (h : s.stage.changedAt = c) :
    (keepBefore s k v c).stage.changedAt = c ∧ (keepBefore s k v c).stage.sets = s.stage.sets ∧
      (keepBefore s k v c).stage.added = s.stage.added := by
  unfold keepBefore
  rw [if_neg (by omega), if_pos h]
  dsimp only
  split <;> exact ⟨h, rfl, rfl⟩

theorem keepBefore_noSets (s : State) (k v c : Nat) (h : s.stage.changedAt < c) :
    (keepBefore s k v c).stage.changedAt = c ∧ (keepBefore s k v c).stage.sets = [] ∧ (keepBefore s k v c).stage.added = [] := by
  unfold keepBefore
  rw [if_neg (by omega), if_neg (by omega)]
  dsimp only
  split <;> exact ⟨rfl, rfl, rfl⟩

theorem keepBefore_past (s : State) (k v c : Nat) (h : c < s.stage.changedAt) : keepBefore s k v c = s := by
  unfold keepBefore
  rw [if_pos h]

/-- A TALLY_SET stores its value with what the tally took in that cycle; of two of one cycle that of the higher cue index stays (R43, R49). -/
theorem tallyOf_setTally (s : State) (i v cue c : Nat) : tallyOf (setTally s i v cue c) i =
    if s.stage.changedAt = c ∧ s.stage.sets.any (fun x => x.1 = i && decide (cue < x.2.1)) = true then tallyOf s i
    else BitVec.ofNat 32 (min 0xFFFFFFFF (v + (if s.stage.changedAt = c then Sparse.get (fun _ => 0) s.stage.added i else 0))) := by
  unfold setTally
  dsimp only
  rcases Nat.lt_trichotomy s.stage.changedAt c with h | h | h
  · obtain ⟨at_, sets, added⟩ := keepBefore_noSets s i (tallyOf s i).toNat c h
    rw [if_neg (by simp [at_]), if_neg (by simp [sets]), if_neg (by omega), if_neg (by omega), tallyOf_satTally_self, added]
    rfl
  · obtain ⟨at_, sets, added⟩ := keepBefore_sets s i (tallyOf s i).toNat c h
    rw [if_neg (by simp [at_]), sets, added, if_pos h]
    by_cases hs : s.stage.sets.any (fun x => x.1 = i && decide (cue < x.2.1)) = true
    · rw [if_pos hs, if_pos ⟨h, hs⟩]
      exact tallyOf_congr (keepBefore_tallies s i _ c) i
    · rw [if_neg hs, if_neg (fun e => hs e.2), tallyOf_satTally_self]
  · rw [keepBefore_past s i _ c h, if_pos (by omega), if_neg (by omega), if_neg (by omega), tallyOf_satTally_self]
    rfl

/-- A record that enters the ring stands at its end (sp. 14 R404). -/
theorem traceAdd_ring (s : State) (r : TraceRec) :
    (traceAdd s r).trace.ring = (if s.trace.ring.length < traceCap then s.trace.ring else s.trace.ring.tail) ++ [r] := by
  unfold traceAdd
  dsimp only
  split
  · rfl
  · next full =>
    split
    · next empty => rw [empty] at full; exact absurd (by decide) full
    · next d rest ring => rw [ring]; rfl

/-- One that stands there stays for the next: the ring holds more than one. -/
theorem mem_traceAdd_of_last {s : State} {l : List TraceRec} {x : TraceRec} (r : TraceRec) (h : s.trace.ring = l ++ [x]) :
    x ∈ (traceAdd s r).trace.ring := by
  rw [traceAdd_ring, h]
  refine List.mem_append_left _ ?_
  split
  · simp
  · next full =>
    cases l with
    | nil => exact absurd (show 1 < traceCap by decide) full
    | cons y ys => simp

section Trace
variable (s : State) (c : Nat) (kind : Byte) (p : Place) (un inst cue addr count : Nat)

theorem traceAt_ring (h : s.trace.on = true) :
    ∃ l r, (traceAt s c kind p un inst cue addr count).trace.ring = l ++ [r] ∧ r.kind = kind ∧ r.addr = BitVec.ofNat 64 addr ∧
      r.cue = BitVec.ofNat 24 cue := by
  unfold traceAt traceOn
  dsimp only
  rw [if_pos h, traceAdd_ring]
  exact ⟨_, _, rfl, rfl, rfl, rfl⟩

theorem mem_traceAt_of_last {l : List TraceRec} {x : TraceRec} (h : s.trace.ring = l ++ [x]) :
    x ∈ (traceAt s c kind p un inst cue addr count).trace.ring := by
  unfold traceAt traceOn
  dsimp only
  split
  · exact mem_traceAdd_of_last _ h
  · rw [h]; simp

end Trace

/-! ## LEND and CURTAIN -/

/-- The lend of a LEND cue's descriptor `x`. -/
def lendOf (d : Die) (cue x c : Nat) : Lend :=
  { die := d, cue := cue, mask := BitVec.ofNat 32 (bits x 63 32), span := bits x 23 0, startedAt := c }

/-- A lend noted from its start cycle. -/
def lent (s : State) (l : Lend) : State := { s with stage := { s.stage with lends := s.stage.lends ++ [l] } }

theorem lent_field {γ : Type} (π : State → γ) (h : ∀ t x, π { t with stage := x } = π t) (s : State) (l : Lend) : π (lent s l) = π s := h s _

/-- A die's curtain up from a cycle. -/
def curtained (s : State) (d : Die) (c : Nat) : State :=
  if s.step.curtains.contains d then s
  else { s with step := { s.step with curtains := d :: s.step.curtains, curtainAt := max s.step.curtainAt c } }

theorem curtained_field {γ : Type} (π : State → γ) (h : ∀ t x, π { t with step := x } = π t) (s : State) (d : Die) (c : Nat) :
    π (curtained s d c) = π s := by
  unfold curtained
  exact ite_field (π := π) rfl (h s _)

theorem curtained_step (s : State) (d : Die) (c : Nat) : d ∈ (curtained s d c).step.curtains ∧
    (d ∉ s.step.curtains → (curtained s d c).step.curtainAt = max s.step.curtainAt c ∧ (curtained s d c).step.curtains = d :: s.step.curtains) ∧
    (d ∈ s.step.curtains → (curtained s d c).step.curtainAt = s.step.curtainAt ∧ (curtained s d c).step.curtains = s.step.curtains) := by
  unfold curtained
  by_cases h : d ∈ s.step.curtains
  · rw [if_pos (List.contains_iff_mem.2 h)]
    exact ⟨h, fun n => absurd h n, fun _ => ⟨rfl, rfl⟩⟩
  · rw [if_neg (fun e => h (List.contains_iff_mem.1 e))]
    exact ⟨List.mem_cons_self, fun _ => ⟨rfl, rfl⟩, fun e => absurd e h⟩

/-! ## The end of a lend -/

section LendEnd
variable {s : State} {d : Die} {cue : Nat} {l : Lend} (h : s.stage.lends.find? (fun l => l.die = d && l.cue = cue) = some l)
include h

theorem execLendEnd_early (hr : reaches s (l.startedAt + l.span) = false) : exec (.lendEnd d cue) s = .next s := by
  change execLendEnd d cue s = _
  unfold execLendEnd
  rw [h]
  dsimp only
  rw [if_pos (by simp [hr])]

theorem execLendEnd_ends (hr : reaches s (l.startedAt + l.span) = true) : exec (.lendEnd d cue) s =
    .next { clockTo s (l.startedAt + l.span) with
      stage := { s.stage with lends := s.stage.lends.filter (fun l => !(l.die = d && l.cue = cue)) } } := by
  change execLendEnd d cue s = _
  unfold execLendEnd
  rw [h]
  dsimp only
  rw [if_neg (by simp [hr]), clockTo_stage]

end LendEnd

/-- What a control cue's act leaves of memory and the rest of the device, the cue leaves. -/
theorem controlDone_frame {s t : State} (d : Die) (p : Pending) (c : Nat) (hm : butWaits t.mem = butWaits s.mem)
    (ho : outsideOf t = outsideOf s) : memKept s (controlDone t d p c) ∧ outsideKept s (controlDone t d p c) :=
  ⟨(memKept_iff _ _).2 ((field_of (fun u => butWaits u.mem) (controlDone_ready t d p c) (fun _ => rfl)).trans hm),
    (outsideKept_iff _ _).2 ((controlDone_outside t d p c).trans ho)⟩

/-- The same where the act leaves all but the way to a start. -/
theorem controlDone_frame_of_ready {s t : State} (d : Die) (p : Pending) (c : Nat) (h : butReady t = butReady s) :
    memKept s (controlDone t d p c) ∧ outsideKept s (controlDone t d p c) :=
  controlDone_frame d p c (field_of (fun u => butWaits u.mem) h (fun _ => rfl)) (outsideOf_of_ready h)

/-- Settles O23: each control cue 4 cycles after its start, and the end of a lend. -/
theorem controlCuesAct : Obligations.ControlCuesAct := by
  intro s r s1 d p c hr hs
  subst hr hs
  have at_ := atControl_ready s d p c
  have free := atControl_pending s d p c
  have memory : butWaits (atControl s d p c).mem = butWaits s.mem := field_of (fun t => butWaits t.mem) at_ (fun _ => rfl)
  refine ⟨fun x i h hx hxx hi hn => ?set, fun x h hr hx => ?mark, fun x h hr hx => ?lend, fun h hr => ?curtain, fun op h hr => ?early,
    fun cue l h => ⟨fun hr => ?ends, execLendEnd_early h⟩⟩
  case set =>
    have runs := runControl_acts h hx (fun s cue d c => setTally s (bits d 45 32) (bits d 31 0) cue (c + 4))
    rw [← hxx] at runs
    obtain ⟨mem, outside⟩ := controlDone_frame_of_ready d p c ((butReady_of_signals (setTally_only (atControl s d p c) i (bits x 31 0) p.cue (c + 4))).trans at_)
    refine ⟨controlDone (setTally (atControl s d p c) i (bits x 31 0) p.cue (c + 4)) d p c, ?_, controlDone_pending d p c ?_, mem, outside, ?_⟩
    · rw [hi]; exact next_congr runs
    · exact (pending_none_of_unmet (congrFun (setTally_units _ _ _ _ _) _)).2 free
    · rw [controlDone_tally _ d p c hn, tallyOf_setTally]
      rfl
  case mark =>
    have runs := runControl_acts h hr (fun s cue y c => traceAt s (c + 4) 1 (dieplace d) 0 0 cue y 0)
    rw [← hx] at runs
    obtain ⟨mem, outside⟩ := controlDone_frame_of_ready d p c ((traceAt_ready (atControl s d p c) (c + 4) 1 (dieplace d) 0 0 p.cue x 0).trans at_)
    refine ⟨_, next_congr runs, controlDone_pending d p c free, mem, outside, fun on => ?_⟩
    obtain ⟨l, x, ring, kind, addr, cue⟩ :=
      traceAt_ring (atControl s d p c) (c + 4) 1 (dieplace d) 0 0 p.cue x 0 ((atControl_traceOn s d p c).trans on)
    refine ⟨x, ?_, kind, addr, cue⟩
    unfold controlDone
    rw [signalOpt_trace]
    exact mem_traceAt_of_last _ _ _ _ _ _ _ _ _ ring
  case lend =>
    have runs := runControl_acts h hr (fun s cue y c => lent s (lendOf d cue y c))
    rw [← hx] at runs
    have lends : (lent (atControl s d p c) (lendOf d p.cue x c)).stage.lends = s.stage.lends ++ [lendOf d p.cue x c] :=
      congrArg (· ++ [lendOf d p.cue x c]) (field_of (fun t => t.stage.lends) at_ (fun _ => rfl))
    obtain ⟨mem, outside⟩ := controlDone_frame d p c ((lent_field (fun t => butWaits t.mem) (fun _ _ => rfl) _ _).trans memory)
      ((lent_field outsideOf (fun _ _ => rfl) (atControl s d p c) (lendOf d p.cue x c)).trans (outsideOf_of_ready at_))
    exact ⟨_, next_congr runs, controlDone_pending d p c free, mem, outside,
      (field_of (fun t => t.stage.lends) (controlDone_ready _ d p c) (fun _ => rfl)).trans lends⟩
  case curtain =>
    have runs : exec (.curtain d) s = .next (controlDone (curtained (atControl s d p c) d c) d p c) := next_congr (runControl_acts h hr _)
    have step : (controlDone (curtained (atControl s d p c) d c) d p c).step.curtains = (curtained (atControl s d p c) d c).step.curtains ∧
        (controlDone (curtained (atControl s d p c) d c) d p c).step.curtainAt = (curtained (atControl s d p c) d c).step.curtainAt :=
      ⟨field_of (fun t => t.step.curtains) (controlDone_ready _ d p c) (fun _ => rfl),
        field_of (fun t => t.step.curtainAt) (controlDone_ready _ d p c) (fun _ => rfl)⟩
    have before : (atControl s d p c).step.curtains = s.step.curtains ∧ (atControl s d p c).step.curtainAt = s.step.curtainAt :=
      ⟨field_of (fun t => t.step.curtains) at_ (fun _ => rfl), field_of (fun t => t.step.curtainAt) at_ (fun _ => rfl)⟩
    obtain ⟨up, raised, stays⟩ := curtained_step (atControl s d p c) d c
    rw [before.1, before.2, ← step.1, ← step.2] at raised stays
    rw [← step.1] at up
    obtain ⟨mem, outside⟩ := controlDone_frame d p c ((curtained_field (fun t => butWaits t.mem) (fun _ _ => rfl) _ d c).trans memory)
      ((curtained_field outsideOf (fun _ _ => rfl) (atControl s d p c) d c).trans (outsideOf_of_ready at_))
    refine ⟨_, runs, controlDone_pending d p c ?_, up, raised, stays, mem, outside⟩
    rw [unit_of_stage (curtained_field State.stage (fun _ _ => rfl) _ d c)]; exact free
  case early => exact ⟨next_congr (runControl_early h hr _ _), next_congr (runControl_early h hr _ _), next_congr (runControl_early h hr _ _),
      next_congr (runControl_early h hr _ _)⟩
  case ends =>
    refine ⟨_, execLendEnd_ends h hr, fun x hx => ?_, fun x hx hne => ?_, of_decide_eq_true hr, clockTo_mem _ _, clockTo_step _ _,
      (outsideKept_iff s (clockTo s _)).2 (outsideOf_of_ready (clockTo_ready s _))⟩
    · obtain ⟨mem, other⟩ := List.mem_filter.1 hx
      exact ⟨mem, not_and_or.2 (by simpa using other)⟩
    · exact List.mem_filter.2 ⟨hx, by simpa using not_and_or.1 hne⟩

end Sys2Proof.Machine
end

section
/-! Sp. 00 R6, sp. 08 R244: which bytes a write may touch. -/

namespace Sys2Proof.Machine

/-! ## One byte -/

/-- The byte of a physical address. -/
def physByte (s : State) (a : Nat) : Byte := Sparse.get zeroByte s.mem.bytes a

theorem get_put_other (m : Sparse Byte) {base a : Nat} (l : List Byte) (h : a < base ∨ base + l.length ≤ a) :
    Sparse.get zeroByte (Sparse.put zeroByte m base l) a = Sparse.get zeroByte m a := by
  induction l generalizing m base with
  | nil => rfl
  | cons b r ih =>
    rw [List.length_cons] at h
    rw [Sparse.put, ih _ (by omega), Sparse.get_set_other zeroByte _ _ (by omega)]

/-- A byte written settles its own word, no other (sp. 10 R300). -/
theorem physByte_pokeByte {s : State} {p a : Nat} (v : Byte) (h : p / 8 ≠ a / 8) : physByte (pokeByte s p v) a = physByte s a := by
  have word (m : Sparse Byte) (l : List Byte) (hl : l.length = 8) :
      Sparse.get zeroByte (Sparse.put zeroByte m (p - p % 8) l) a = Sparse.get zeroByte m a := get_put_other m l (by omega)
  unfold physByte pokeByte
  dsimp only
  rw [Sparse.get_set_other zeroByte _ _ (by rintro rfl; exact h rfl)]
  split
  · split <;> rfl
  · split
    · exact word _ _ (by simp)
    · exact word _ _ (by simp)

theorem swapAddr_congr {s t : State} (h : t.cfg = s.cfg) (a : Nat) : swapAddr t a = swapAddr s a := by unfold swapAddr; rw [h]

theorem physByte_writeByte {s : State} {b a : Nat} (v : Byte) (h : swapAddr s b / 8 ≠ a / 8) :
    physByte (writeByte s b v) a = physByte s a := by
  unfold writeByte
  refine ite_field (π := (physByte · a)) rfl ?_
  exact ite_field (π := (physByte · a)) rfl (physByte_pokeByte v h)

/-! ## Lists of writes -/

/-- The addresses of a list of writes, as they are issued. -/
def Covers (ws : List (Nat × List Byte)) (x : Nat) : Prop := ∃ w ∈ ws, ∃ i < w.2.length, x = w.1 + i

/-- No write of the list falls, as issued, in the word of a physical address. -/
def Spares (s : State) (ws : List (Nat × List Byte)) (a : Nat) : Prop := ∀ x, Covers ws x → swapAddr s x / 8 ≠ a / 8

theorem onlyWrites_iff {s t : State} {ws : List (Nat × List Byte)} :
    onlyWrites s t ws ↔ ∀ a, Spares s ws a → physByte t a = physByte s a := by
  refine forall_congr' (fun a => imp_congr ⟨fun h x hx => ?_, fun h w hw i hi => h _ ⟨w, hw, i, hi, rfl⟩⟩ Iff.rfl)
  obtain ⟨w, hw, i, hi, rfl⟩ := hx
  exact h w hw i hi

theorem Covers.append {l r : List (Nat × List Byte)} {x : Nat} : Covers (l ++ r) x ↔ Covers l x ∨ Covers r x := by
  simp only [Covers, List.mem_append, or_and_right, exists_or]

theorem Spares.append {s : State} {l r : List (Nat × List Byte)} {a : Nat} : Spares s (l ++ r) a ↔ Spares s l a ∧ Spares s r a := by
  simp only [Spares, Covers.append, or_imp, forall_and]

theorem Spares.mono {s : State} {l r : List (Nat × List Byte)} {a : Nat} (h : ∀ x, Covers l x → Covers r x) (hr : Spares s r a) :
    Spares s l a := fun x hx => hr x (h x hx)

theorem Spares.congr {s t : State} (h : t.cfg = s.cfg) {l : List (Nat × List Byte)} {a : Nat} : Spares t l a ↔ Spares s l a := by
  simp only [Spares, swapAddr_congr h]

theorem cfg_of_access {s t : State} (h : butAccess t = butAccess s) : t.cfg = s.cfg := field_of State.cfg h (fun _ => rfl)

/-- A list's head is one write; its tail the others. -/
theorem Spares.cons {s : State} {w : Nat × List Byte} {l : List (Nat × List Byte)} {a : Nat} :
    Spares s (w :: l) a ↔ Spares s [w] a ∧ Spares s l a := Spares.append (l := [w])

theorem physByte_store {s : State} {b a : Nat} {p : List Byte} (h : Spares s [(b, p)] a) : physByte (store s b p) a = physByte s a := by
  induction p generalizing s b with
  | nil => rfl
  | cons v r ih =>
    have cfg := cfg_of_access (writeByte_only s b v)
    have head : swapAddr s b / 8 ≠ a / 8 := h b ⟨_, List.mem_singleton_self _, 0, Nat.succ_pos _, rfl⟩
    have tail : Spares (writeByte s b v) [(b + 1, r)] a := by
      rw [Spares.congr cfg]
      refine h.mono ?_
      rintro x ⟨w, hw, i, hi, rfl⟩
      obtain rfl := List.mem_singleton.1 hw
      exact ⟨_, List.mem_singleton_self _, i + 1, Nat.succ_lt_succ hi, by dsimp only; omega⟩
    rw [store, ih tail, physByte_writeByte v head]

theorem physByte_storeAll {s : State} {a : Nat} {l : List (Nat × List Byte)} (h : Spares s l a) : physByte (storeAll s l) a = physByte s a := by
  induction l generalizing s with
  | nil => rfl
  | cons w r ih =>
    obtain ⟨head, tail⟩ := Spares.cons.1 h
    exact (ih ((Spares.congr (cfg_of_access (store_only s w.1 w.2))).2 tail)).trans (physByte_store head)

theorem physByte_of_bytes {s t : State} (h : t.mem.bytes = s.mem.bytes) (a : Nat) : physByte t a = physByte s a := by unfold physByte; rw [h]

theorem physByte_writeAll {who : Who} {s : State} {a : Nat} {l : List (Nat × List Byte)} (h : Spares s l a) :
    physByte (writeAll who s l) a = physByte s a := by
  have counts : physByte (writeCounts s (coverOf (rangesOf l))) a = physByte s a := physByte_of_bytes (writeCounts_bytes s _) a
  have stored := physByte_storeAll ((Spares.congr (cfg_of_access (writeCounts_only s (coverOf (rangesOf l))))).2 h)
  unfold writeAll writeWith putMem
  exact (physByte_of_bytes (by rw [raiseAll_mem]) a).trans (stored.trans counts)

/-- Writes touch the words of their own bytes alone. -/
theorem writeAll_onlyWrites (who : Who) (s : State) (l : List (Nat × List Byte)) : onlyWrites s (writeAll who s l) l :=
  onlyWrites_iff.2 (fun _ => physByte_writeAll)

/-! ## Free bytes stored -/

theorem drawBytes_length (n : Nat) (s : State) : (drawBytes n s).1.length = n := by
  induction n generalizing s with
  | zero => rfl
  | succ n ih => rw [drawBytes, List.length_cons, ih]

/-- State without the count of free values drawn. -/
def butFree (s : State) : State := { s with free := 0 }

/-- A draw takes free values and leaves the rest. -/
theorem drawBytes_only (n : Nat) (s : State) : butFree (drawBytes n s).2 = butFree s := by
  induction n generalizing s with
  | zero => rfl
  | succ n ih => exact ih _

/-- Zeros in the place of a list of ranges. -/
def zerosAt (l : List (Nat × Nat)) : List (Nat × List Byte) := l.map (fun x => (x.1, zeros x.2))

theorem zeros_length (n : Nat) : (zeros n).length = n := List.length_replicate

/-- What the writes of a list cover depends on their lengths alone. -/
theorem covers_singleton {b x : Nat} {p : List Byte} : Covers [(b, p)] x ↔ b ≤ x ∧ x < b + p.length := by
  constructor
  · rintro ⟨w, hw, i, hi, rfl⟩
    obtain rfl := List.mem_singleton.1 hw
    dsimp only at hi ⊢
    omega
  · rintro ⟨hb, hx⟩
    exact ⟨_, List.mem_singleton_self _, x - b, by dsimp only; omega, by dsimp only; omega⟩

/-- State without what an access or a draw may touch. -/
def butStored (s : State) : State := butFree (butAccess s)

theorem butStored_of_free {s t : State} (h : butFree s = butFree t) : butStored s = butStored t := by
  change butStored (butFree s) = butStored (butFree t)
  rw [h]

theorem butStored_of_access {s t : State} (h : butAccess s = butAccess t) : butStored s = butStored t := congrArg butFree h

theorem storeFree_only (s : State) (l : List (Nat × Nat)) : butStored (storeFree s l) = butStored s :=
  foldl_field butStored (fun t (x : Nat × Nat) => store (drawBytes x.2 t).2 x.1 (drawBytes x.2 t).1)
    (fun t x => (butStored_of_access (store_only _ _ _)).trans (butStored_of_free (drawBytes_only x.2 t))) l s

theorem storeFree_cfg (s : State) (l : List (Nat × Nat)) : (storeFree s l).cfg = s.cfg :=
  field_of State.cfg (storeFree_only s l) (fun _ => rfl)

theorem physByte_storeFree {s : State} {a : Nat} {l : List (Nat × Nat)} (h : Spares s (zerosAt l) a) :
    physByte (storeFree s l) a = physByte s a := by
  induction l generalizing s with
  | nil => rfl
  | cons x r ih =>
    obtain ⟨head, tail⟩ := Spares.cons.1 h
    have drawn : (drawBytes x.2 s).2.cfg = s.cfg := field_of State.cfg (drawBytes_only x.2 s) (fun _ => rfl)
    have cfg : (store (drawBytes x.2 s).2 x.1 (drawBytes x.2 s).1).cfg = s.cfg := (cfg_of_access (store_only _ _ _)).trans drawn
    have here : Spares (drawBytes x.2 s).2 [(x.1, (drawBytes x.2 s).1)] a := by
      rw [Spares.congr drawn]
      exact head.mono (fun y hy => by rw [covers_singleton] at hy ⊢; rwa [drawBytes_length, ← zeros_length x.2] at hy)
    exact (ih ((Spares.congr cfg).2 tail)).trans ((physByte_store here).trans (physByte_of_bytes (by rw [drawBytes_mem]) a))

end Sys2Proof.Machine
end

section
/-! Sp. 00 R6, sp. 04 R119, sp. 06 R184: which ranges a cue's results land in, whatever bytes are undefined. -/

namespace Sys2Proof.Machine

/-! ## What a list covers, by its ranges -/

theorem covers_iff_ranges {ws : List (Nat × List Byte)} {x : Nat} : Covers ws x ↔ ∃ q ∈ rangesOf ws, q.1 ≤ x ∧ x < q.1 + q.2 := by
  constructor
  · rintro ⟨w, hw, i, hi, rfl⟩
    exact ⟨_, List.mem_map_of_mem hw, by dsimp only; omega, by dsimp only; omega⟩
  · rintro ⟨q, hq, hl, hu⟩
    obtain ⟨w, hw, rfl⟩ := List.mem_map.1 hq
    exact ⟨w, hw, x - w.1, by dsimp only at hl hu; omega, by dsimp only at hl; omega⟩

theorem rangesOf_append (l r : List (Nat × List Byte)) : rangesOf (l ++ r) = rangesOf l ++ rangesOf r := List.map_append

theorem rangesOf_zerosAt (l : List (Nat × Nat)) : rangesOf (zerosAt l) = l := by
  rw [rangesOf, zerosAt, List.map_map]
  refine (List.map_congr_left (fun x _ => ?_)).trans (List.map_id l)
  simp [zeros_length]

theorem Spares.of_ranges {s : State} {l r : List (Nat × List Byte)} {a : Nat} (h : ∀ q ∈ rangesOf l, q ∈ rangesOf r) (hr : Spares s r a) :
    Spares s l a :=
  hr.mono (fun x hx => by
    obtain ⟨q, hq, b⟩ := covers_iff_ranges.1 hx
    exact covers_iff_ranges.2 ⟨q, h q hq, b⟩)

/-- What two ranges share lies in the first. -/
theorem shared_within {a b q : Nat × Nat} (h : shared a b = some q) : a.1 ≤ q.1 ∧ q.1 + q.2 ≤ a.1 + a.2 := by
  unfold shared at h
  split at h
  · next hm =>
    obtain rfl := Option.some.inj h
    have m := of_decide_eq_true hm
    dsimp only
    omega
  · cases h

/-- What a list of ranges shares with others, a list that covers it covers. -/
theorem Spares.shared {s : State} {l : List (Nat × List Byte)} {o : List (Nat × Nat)} {a : Nat} (h : Spares s l a) :
    Spares s (zerosAt (sharedAll (rangesOf l) o)) a := by
  refine h.mono (fun x hx => ?_)
  rw [covers_iff_ranges, rangesOf_zerosAt] at hx
  obtain ⟨q, hq, lo, hi⟩ := hx
  obtain ⟨_, hm, hq⟩ := List.mem_flatten.1 hq
  obtain ⟨r, hr, rfl⟩ := List.mem_map.1 hm
  obtain ⟨y, _, hy⟩ := List.mem_filterMap.1 hq
  have within := shared_within hy
  exact covers_iff_ranges.2 ⟨r, hr, by omega, by omega⟩

/-! ## Results as they land -/

theorem takenWrite_only (l need : List (Nat × Nat)) (b : List Byte) (s : State) :
    butFree (takenWrite l need b s).2 = butFree s ∧ (takenWrite l need b s).1.length = b.length := by
  refine ⟨drawBytes_only 1 s, ?_⟩
  unfold takenWrite
  dsimp only
  split
  · split
    · exact zeros_length _
    · rfl
  · exact List.length_map _

theorem landWrite_only (u : UnitId) (r : Running) (undef : Bool) (need : List (Nat × Nat)) (b : List Byte) (s : State) :
    butFree (landWrite u r undef need b s).2 = butFree s ∧ (landWrite u r undef need b s).1.length = b.length := by
  have drawn : butFree (drawBytes b.length s).2 = butFree s ∧ (drawBytes b.length s).1.length = b.length :=
    ⟨drawBytes_only _ _, drawBytes_length _ _⟩
  unfold landWrite
  dsimp only
  split
  · exact drawn
  · split
    · split
      · exact takenWrite_only _ _ _ _
      · exact drawn
    · exact ⟨rfl, rfl⟩

theorem landWrites_only (u : UnitId) (r : Running) (undef : Nat → Bool) (l : List (Nat × Nat × List Byte)) (s : State) :
    butFree (landWrites u r undef l s).2 = butFree s ∧ rangesOf (landWrites u r undef l s).1 = rangesOf (l.map (·.2)) := by
  induction l generalizing s with
  | nil => exact ⟨rfl, rfl⟩
  | cons x l ih =>
    obtain ⟨free, length⟩ := landWrite_only u r (undef x.1) (r.needs.getD x.1 []) x.2.2 s
    obtain ⟨free', ranges⟩ := ih (landWrite u r (undef x.1) (r.needs.getD x.1 []) x.2.2 s).2
    exact ⟨free'.trans free, (congrArg₂ List.cons (congrArg (Prod.mk x.2.1) length) ranges :)⟩

theorem drawWrites_only (l : List ((Nat × List Byte) × Bool)) (s : State) :
    butFree (drawWrites l s).2 = butFree s ∧ rangesOf (drawWrites l s).1 = rangesOf (l.map (·.1)) := by
  induction l generalizing s with
  | nil => exact ⟨rfl, rfl⟩
  | cons x l ih =>
    obtain ⟨⟨at_, b⟩, undef⟩ := x
    have drawn : butFree (if undef then drawBytes b.length s else (b, s)).2 = butFree s ∧
        (if undef then drawBytes b.length s else (b, s)).1.length = b.length := by
      split
      · exact ⟨drawBytes_only _ _, drawBytes_length _ _⟩
      · exact ⟨rfl, rfl⟩
    obtain ⟨free, ranges⟩ := ih (if undef then drawBytes b.length s else (b, s)).2
    exact ⟨free.trans drawn.1, (congrArg₂ List.cons (congrArg (Prod.mk at_) drawn.2) ranges :)⟩

theorem drawRanges_only (l : List (Nat × Nat)) (s : State) :
    butFree (drawRanges l s).2 = butFree s ∧ rangesOf (drawRanges l s).1 = l := by
  obtain ⟨free, ranges⟩ := drawWrites_only (l.map (fun x => ((x.1, zeros x.2), true))) s
  refine ⟨free, ranges.trans ?_⟩
  rw [List.map_map]
  exact rangesOf_zerosAt l

theorem toLE_length (n v : Nat) : (toLE n v).length = n := by
  induction n generalizing v with
  | zero => rfl
  | succ n ih => rw [toLE, List.length_cons, ih]

theorem freeBits_only (l : List (Nat × Nat)) (p : List Byte) (s : State) :
    butFree (freeBits l p s).2 = butFree s ∧ ((freeBits l p s).1.length = p.length ∨ (freeBits l p s).1.length = 32) := by
  unfold freeBits
  split
  · exact ⟨rfl, .inl rfl⟩
  · exact ⟨drawBytes_only _ _, .inr (toLE_length _ _)⟩

theorem dmeTotals_only (u : UnitId) (r : Running) (p : List Byte) (s : State) :
    butFree (dmeTotals u r p s).2 = butFree s ∧ (dmeTotals u r p s).1.length = 32 := by
  unfold dmeTotals dmeRecord recordBytes
  dsimp only
  exact ⟨drawBytes_only _ _, toLE_length _ _⟩

theorem landRecord_only (u : UnitId) (r : Running) (p : List Byte) (s : State) :
    butFree (landRecord u r p s).2 = butFree s ∧ ((landRecord u r p s).1.length = p.length ∨ (landRecord u r p s).1.length = 32) := by
  unfold landRecord
  split
  · next arr =>
    split
    · exact ⟨rfl, .inl rfl⟩
    · exact (dmeTotals_only (.array arr) r p s).imp_right .inr
  · exact freeBits_only _ _ _

theorem numbered_snd {α : Type} (l : List α) : (numbered l).map (·.2) = l := by
  unfold numbered
  exact List.map_snd_zip (by simp)

/-- Results land on their own ranges, on the rows that were chosen, and on the record, and only draw. -/
theorem landed_only (s : State) (u : UnitId) (r : Running) (parts : List Nat) :
    butFree (landed s u r parts).2 = butFree s ∧
      ∃ n, rangesOf (landed s u r parts).1 = rangesOf r.writes ++ chosenRows u r ++ [(r.recAt, n)] ∧ (n = r.record.length ∨ n = 32) := by
  obtain ⟨free1, ranges1⟩ := landWrites_only u r (fun i => parts.contains (r.due.getD i 0)) (numbered r.writes) s
  obtain ⟨free2, ranges2⟩ := drawRanges_only (chosenRows u r) (landWrites u r (fun i => parts.contains (r.due.getD i 0)) (numbered r.writes) s).2
  obtain ⟨free3, len⟩ := landRecord_only u r r.record
    (drawRanges (chosenRows u r) (landWrites u r (fun i => parts.contains (r.due.getD i 0)) (numbered r.writes) s).2).2
  rw [numbered_snd] at ranges1
  refine ⟨free3.trans (free2.trans free1), _, ?_, len⟩
  rw [← ranges1]
  exact (rangesOf_append _ _).trans (congrArg (· ++ _) ((rangesOf_append _ _).trans (congrArg (_ ++ ·) ranges2)))

end Sys2Proof.Machine
end

section
/-! Sp. 02 R45, R53; sp. 04 R104: work begins on a unit. -/

namespace Sys2Proof.Machine

/-! ## What a start may touch -/

/-- A window without whether what it shows was written meanwhile. -/
def Window.unraced (w : Window) : Window := { w with raced := false }

/-- State without what the start of work may touch but memory: events, free values, the units, what ran into its writes. -/
def butWork (s : State) : State :=
  { butStored s with stage := { s.stage with units := [], windows := s.stage.windows.map Window.unraced }, ports := [] }

theorem butWork_of_stored {s t : State} (h : butStored s = butStored t) : butWork s = butWork t :=
  congrArg (fun u : State =>
    { u with stage := { u.stage with units := [], windows := u.stage.windows.map Window.unraced }, ports := [] }) h

theorem butWork_of_access {s t : State} (h : butAccess s = butAccess t) : butWork s = butWork t :=
  butWork_of_stored (butStored_of_access h)

theorem otherWrites_only (s : State) (mine : Option Nat) (wr : List (Nat × Nat)) : butWork (otherWrites s mine wr) = butWork s := by
  unfold otherWrites
  refine ite_field rfl ?_
  have windows : (s.stage.windows.map (hitWindow wr)).map Window.unraced = s.stage.windows.map Window.unraced := List.map_map
  exact congrArg (fun l => { butWork s with stage := { s.stage with units := [], windows := l } }) windows

theorem windows_of_work {s t : State} (h : butWork s = butWork t) :
    s.stage.windows.map Window.unraced = t.stage.windows.map Window.unraced := by
  have twice (l : List Window) : (l.map Window.unraced).map Window.unraced = l.map Window.unraced := List.map_map
  exact field_of (fun u => u.stage.windows.map Window.unraced) h (fun u => twice u.stage.windows)

/-- A key that a map leaves alone reads as before. -/
theorem Sparse.get_map_at {α : Type} {d : Nat → α} {f : Nat × α → Nat × α} {k : Nat} (hk : ∀ e, (f e).1 = e.1)
    (h : ∀ e, e.1 = k → f e = e) (m : Sparse α) : Sparse.get d (m.map f) k = Sparse.get d m k := by
  induction m with
  | nil => rfl
  | cons e r ih =>
    simp only [List.map_cons, Sparse.get, hk]
    by_cases he : e.1 = k
    · rw [if_pos he, if_pos he, h e he]
    · rw [if_neg he, if_neg he, ih]

/-- The unit whose writes they are stays as it was. -/
theorem otherWrites_self (s : State) (u : UnitId) (wr : List (Nat × Nat)) : unit (otherWrites s (some (unitKey u)) wr) u = unit s u := by
  unfold otherWrites
  refine ite_field (π := fun t => unit t u) rfl ?_
  refine Sparse.get_map_at (fun e => ?_) (fun e he => ?_) s.stage.units
  · dsimp only; split <;> rfl
  · rw [he]; exact if_pos rfl

/-- Every unit but for what ran into other parties' writes and when the wait of its pending cue was met. -/
def plainUnits (s : State) (v : UnitId) : UnitSt := plainUnit (unit s v)

theorem otherWrites_units (s : State) (mine : Option Nat) (wr : List (Nat × Nat)) : plainUnits (otherWrites s mine wr) = plainUnits s := by
  funext v
  unfold otherWrites
  refine ite_field (π := fun t => plainUnits t v) rfl (Eq.symm ?_)
  refine Sparse.get_map_rel (R := fun a b : UnitSt => plainUnit a = plainUnit b) (fun _ => rfl) (fun e => ?_) (fun e => ?_)
    s.stage.units (unitKey v)
  · dsimp only; split <;> rfl
  · dsimp only
    split
    · rfl
    · simp only [plainUnit, Option.map_map, List.map_map]
      rfl

theorem plainUnits_of_stage {s t : State} (h : t.stage = s.stage) : plainUnits t = plainUnits s := by
  funext v; unfold plainUnits; rw [unit_of_stage h]

theorem plainUnits_of_unmet {s t : State} (h : unmetUnits t = unmetUnits s) : plainUnits t = plainUnits s := by
  funext v; exact plainUnit_of_unmet (congrFun h v)

/-! ## Work begins -/

/-- A cue that runs, as it begins. -/
structure Begun (r : Running) (op cue firedAt c : Nat) (sig : Option (Nat × Nat)) (win : Option Nat) (desc : List Byte) (w : Work) : Prop where
  cue : r.cue = cue
  opcode : r.opcode = BitVec.ofNat 8 op
  fired : r.firedAt = firedAt
  started : r.startedAt = c
  signal : r.signal = sig
  window : r.window = win
  desc : r.desc = desc
  cycles : r.cycles = w.cycles
  halted : r.halted = w.halted
  recAt : r.recAt = w.recAt
  writes : w.halted = false → r.writes = w.writes

theorem Begun.fenceHit {r : Running} {op cue firedAt c : Nat} {sig : Option (Nat × Nat)} {win : Option Nat} {desc : List Byte} {w : Work}
    (h : Begun r op cue firedAt c sig win desc w) (l : List Fence) : Begun (fenceHit l r) op cue firedAt c sig win desc w := by
  obtain ⟨h1, h2, h3, h4, h5, h6, h7, h8, h9, h10, h11⟩ := h
  exact ⟨h1, h2, h3, h4, h5, h6, h7, h8, h9, h10, h11⟩

/-- State once the work's reads are made. -/
def workRead (s : State) (u : UnitId) (cue : Nat) (w : Work) : State :=
  raiseAll (readCounts s (mergeBlocks w.reads)) (readEvents (whoUnit u cue) s (mergeBlocks w.reads) ++ w.events)

/-- The cue as it joins what runs. -/
def workRun (s : State) (u : UnitId) (op cue firedAt c : Nat) (sig : Option (Nat × Nat)) (win : Option Nat) (desc : List Byte) (w : Work) :
    Running :=
  { cue := cue, opcode := BitVec.ofNat 8 op, firedAt := firedAt, startedAt := c, cycles := w.cycles, writes := w.writes, due := w.due,
    recAt := w.recAt, record := readStatus s u w, signal := sig, preds := w.preds, halted := w.halted, window := win, moves := [],
    port := none, send := { SendSt.zero with hits := fencedReads s w.reads }, desc := desc, reads := w.reads,
    dest := rangesOf w.writes ++ [(w.recAt, 32)], needs := w.needs, ctl := w.ctl, span := w.span, raced := [], clash := [], fenced := [],
    chances := w.chances, tiles := w.tiles, slots := w.slots, queued := false }

/-- A layout cue's place among the streams of its die. -/
def queueStream (u : UnitId) (j : State × Running) : State × Running :=
  match u with
  | .layout d => if opsOf d.val j.2 = 0 then j else takeStream j.1 u j.2
  | _ => j

/-- A cue that halts at once stores what it makes: free bytes where another party writes. -/
def storeHalt (u : UnitId) (cue : Nat) (t : State × Running) : State :=
  storeFree (writeAll (whoUnit u cue) (landed t.1 u t.2 []).2 (landed t.1 u t.2 []).1) t.2.clash

/-- Its unit runs the cue. -/
def runOn (s : State) (u : UnitId) (r : Running) : State :=
  setUnit s u { unit s u with running := some r, tail := (match (unit s u).running with
                                                          | none => (unit s u).tail
                                                          | some x => (unit s u).tail ++ [x]) }

section Begin
variable (s : State) (u : UnitId) (op cue firedAt c : Nat) (sig : Option (Nat × Nat)) (win : Option Nat) (desc : List Byte) (w : Work)

/-- The cue and the state as it takes its place. -/
def workTaken : State × Running :=
  queueStream u (joinRun (workRead s u cue w) (unitKey u) (workRun s u op cue firedAt c sig win desc w))

theorem beginWork_eq : beginWork s u op cue firedAt c sig win desc w =
    (let t := workTaken s u op cue firedAt c sig win desc w
     runOn (if w.halted then storeHalt u cue t else t.1) u
       (if w.halted then { t.2 with writes := [], due := [], reads := [], dest := [] } else t.2)) := by
  cases u <;> rfl

theorem queueStream_state (j : State × Running) : (queueStream u j).1 = j.1 ∨ ∃ d full, (queueStream u j).1 = countWait j.1 d full := by
  unfold queueStream
  split
  · split
    · exact .inl rfl
    · unfold takeStream
      dsimp only
      split
      · exact .inl rfl
      · exact .inr ⟨_, _, rfl⟩
  · exact .inl rfl

theorem queueStream_run (j : State × Running) : ∃ q, (queueStream u j).2 = { j.2 with queued := q } := by
  unfold queueStream
  split
  · split
    · exact ⟨j.2.queued, rfl⟩
    · unfold takeStream
      dsimp only
      split
      · exact ⟨j.2.queued, rfl⟩
      · exact ⟨true, rfl⟩
  · exact ⟨j.2.queued, rfl⟩

theorem queueStream_field {γ : Type} (π : State → γ) (h : ∀ t m, π { t with mem := m } = π t) (j : State × Running) :
    π (queueStream u j).1 = π j.1 := by
  rcases queueStream_state u j with e | ⟨d, full, e⟩
  · rw [e]
  · rw [e]; exact h _ _

theorem workRead_only : butAccess (workRead s u cue w) = butAccess s :=
  (butAccess_of (raiseAll_only _ _)).trans (readCounts_only s _)

theorem workRead_bytes : (workRead s u cue w).mem.bytes = s.mem.bytes := by unfold workRead; simp

theorem workRead_stage : (workRead s u cue w).stage = s.stage := field_of State.stage (workRead_only s u cue w) (fun _ => rfl)

theorem workTaken_only : butWork (workTaken s u op cue firedAt c sig win desc w).1 = butWork s := by
  unfold workTaken
  rw [queueStream_field u butWork (fun _ _ => rfl)]
  exact (otherWrites_only _ _ _).trans (butWork_of_access (workRead_only s u cue w))

theorem workTaken_bytes : (workTaken s u op cue firedAt c sig win desc w).1.mem.bytes = s.mem.bytes := by
  have joined : (joinRun (workRead s u cue w) (unitKey u) (workRun s u op cue firedAt c sig win desc w)).1.mem.bytes = s.mem.bytes := by
    rw [joinRun_mem, workRead_bytes]
  unfold workTaken
  rcases queueStream_state u (joinRun (workRead s u cue w) (unitKey u) (workRun s u op cue firedAt c sig win desc w)) with e | ⟨d, full, e⟩
  · rw [e, joined]
  · rw [e, countWait_bytes, joined]

theorem workTaken_units : plainUnits (workTaken s u op cue firedAt c sig win desc w).1 = plainUnits s := by
  unfold workTaken
  rw [queueStream_field u plainUnits (fun _ _ => rfl)]
  exact (otherWrites_units _ _ _).trans (plainUnits_of_stage (workRead_stage s u cue w))

theorem workTaken_self : unit (workTaken s u op cue firedAt c sig win desc w).1 u = unit s u := by
  unfold workTaken
  rw [queueStream_field u (fun t => unit t u) (fun _ _ => rfl)]
  exact (otherWrites_self _ u _).trans (unit_of_stage (workRead_stage s u cue w) u)

/-- What it runs is the cue, but for what it shares with other parties and its place among the streams. -/
theorem workTaken_run : ∃ q o, (workTaken s u op cue firedAt c sig win desc w).2 =
    { workRun s u op cue firedAt c sig win desc w with
      raced := sharedAll w.reads o, clash := sharedAll (rangesOf w.writes ++ [(w.recAt, 32)]) o, queued := q } := by
  obtain ⟨q, e⟩ := queueStream_run u (joinRun (workRead s u cue w) (unitKey u) (workRun s u op cue firedAt c sig win desc w))
  exact ⟨q, openWrites (workRead s u cue w) (some (unitKey u)), e⟩

end Begin

end Sys2Proof.Machine
end

section
/-! Sp. 02 R45; sp. 04 R104; sp. 06 R159: what the start of work leaves. -/

namespace Sys2Proof.Machine

/-! ## A cue that halts at once -/

section Halt
variable (u : UnitId) (cue : Nat) (t : State × Running)

theorem storeHalt_only : butStored (storeHalt u cue t) = butStored t.1 :=
  (storeFree_only _ _).trans ((butStored_of_access (writeAll_only _ _ _)).trans (butStored_of_free (landed_only t.1 u t.2 []).1))

theorem storeHalt_stage : (storeHalt u cue t).stage = t.1.stage := field_of State.stage (storeHalt_only u cue t) (fun _ => rfl)

/-- It stores on its own ranges, the chosen rows and its record alone. -/
theorem physByte_storeHalt {s : State} {a : Nat} (hc : t.1.cfg = s.cfg) (hb : t.1.mem.bytes = s.mem.bytes)
    (writes : Spares s t.2.writes a) (rows : Spares s (zerosAt (chosenRows u t.2)) a) (record : Spares s [(t.2.recAt, t.2.record)] a)
    (full : Spares s [(t.2.recAt, zeros 32)] a) (clash : Spares s (zerosAt t.2.clash) a) :
    physByte (storeHalt u cue t) a = physByte s a := by
  obtain ⟨free, n, ranges, len⟩ := landed_only t.1 u t.2 []
  have cfg : (landed t.1 u t.2 []).2.cfg = s.cfg := (field_of State.cfg free (fun _ => rfl)).trans hc
  have results : Spares s (landed t.1 u t.2 []).1 a := by
    have all : Spares s (t.2.writes ++ zerosAt (chosenRows u t.2) ++ [(t.2.recAt, t.2.record)] ++ [(t.2.recAt, zeros 32)]) a :=
      Spares.append.2 ⟨Spares.append.2 ⟨Spares.append.2 ⟨writes, rows⟩, record⟩, full⟩
    refine all.of_ranges (fun q hq => ?_)
    rw [ranges] at hq
    simp only [rangesOf_append, rangesOf_zerosAt]
    rcases List.mem_append.1 hq with hq | hq
    · exact List.mem_append_left _ (List.mem_append_left _ hq)
    · obtain rfl := List.mem_singleton.1 hq
      rcases len with rfl | rfl
      · exact List.mem_append_left _ (List.mem_append_right _ (List.mem_singleton_self _))
      · exact List.mem_append_right _ (by rw [rangesOf, List.map_singleton, zeros_length]; exact List.mem_singleton_self _)
  have written : (writeAll (whoUnit u cue) (landed t.1 u t.2 []).2 (landed t.1 u t.2 []).1).cfg = s.cfg :=
    (cfg_of_access (writeAll_only _ _ _)).trans cfg
  unfold storeHalt
  rw [physByte_storeFree ((Spares.congr written).2 clash), physByte_writeAll ((Spares.congr cfg).2 results)]
  exact physByte_of_bytes (by rw [landed_mem, hb]) a

end Halt

/-! ## Work begins -/

theorem outsideOf_of_work {s t : State} (h : butWork t = butWork s) : outsideOf t = outsideOf s :=
  field_of outsideOf h (fun u => by unfold outsideOf butWork butStored butFree butAccess butEvents; rfl)

section Begin
variable (s : State) (u : UnitId) (op cue firedAt c : Nat) (sig : Option (Nat × Nat)) (win : Option Nat) (desc : List Byte) (w : Work)

/-- State as the cue is put on its unit. -/
def workStored : State :=
  if w.halted then storeHalt u cue (workTaken s u op cue firedAt c sig win desc w) else (workTaken s u op cue firedAt c sig win desc w).1

/-- The cue on its unit: one that halts at once holds nothing any more. -/
def workBegun : Running :=
  if w.halted then { (workTaken s u op cue firedAt c sig win desc w).2 with writes := [], due := [], reads := [], dest := [] }
  else (workTaken s u op cue firedAt c sig win desc w).2

theorem beginWork_runOn : beginWork s u op cue firedAt c sig win desc w =
    runOn (workStored s u op cue firedAt c sig win desc w) u (workBegun s u op cue firedAt c sig win desc w) :=
  beginWork_eq s u op cue firedAt c sig win desc w

theorem workBegun_begun : Begun (workBegun s u op cue firedAt c sig win desc w) op cue firedAt c sig win desc w := by
  obtain ⟨q, o, e⟩ := workTaken_run s u op cue firedAt c sig win desc w
  unfold workBegun
  rw [e]
  cases h : w.halted
  · exact ⟨rfl, rfl, rfl, rfl, rfl, rfl, rfl, rfl, rfl, rfl, fun _ => rfl⟩
  · exact ⟨rfl, rfl, rfl, rfl, rfl, rfl, rfl, rfl, rfl, rfl, fun e => absurd (h.symm.trans e) (by decide)⟩

theorem workStored_stage : (workStored s u op cue firedAt c sig win desc w).stage = (workTaken s u op cue firedAt c sig win desc w).1.stage := by
  unfold workStored
  exact ite_field (π := State.stage) (storeHalt_stage _ _ _) rfl

theorem runOn_self (r : Running) : (unit (runOn s u r) u).running = some r ∧ (unit (runOn s u r) u).pending = (unit s u).pending := by
  unfold runOn
  rw [unit_setUnit]
  exact ⟨rfl, rfl⟩

/-- The unit runs the cue; its pending place is as it was. -/
theorem beginWork_self : (unit (beginWork s u op cue firedAt c sig win desc w) u).running = some (workBegun s u op cue firedAt c sig win desc w) ∧
    (unit (beginWork s u op cue firedAt c sig win desc w) u).pending = (unit s u).pending := by
  obtain ⟨running, pending⟩ := runOn_self (workStored s u op cue firedAt c sig win desc w) u (workBegun s u op cue firedAt c sig win desc w)
  rw [beginWork_runOn, running, pending, unit_of_stage (workStored_stage s u op cue firedAt c sig win desc w), workTaken_self]
  exact ⟨rfl, rfl⟩

/-- Every other unit runs what it ran. -/
theorem beginWork_other {v : UnitId} (h : v ≠ u) : plainUnits (beginWork s u op cue firedAt c sig win desc w) v = plainUnits s v := by
  have kept : plainUnits (workStored s u op cue firedAt c sig win desc w) = plainUnits s :=
    (plainUnits_of_stage (workStored_stage s u op cue firedAt c sig win desc w)).trans (workTaken_units s u op cue firedAt c sig win desc w)
  rw [beginWork_runOn]
  exact (congrArg plainUnit (unit_setUnit_ne _ _ h)).trans (congrFun kept v)

theorem beginWork_only : butWork (beginWork s u op cue firedAt c sig win desc w) = butWork s := by
  have placed (t : State) (r : Running) : butWork (runOn t u r) = butWork t := rfl
  rw [beginWork_runOn, placed, ← workTaken_only s u op cue firedAt c sig win desc w, workStored]
  exact ite_field (butWork_of_stored (storeHalt_only _ _ _)) rfl

theorem beginWork_outside : outsideOf (beginWork s u op cue firedAt c sig win desc w) = outsideOf s :=
  outsideOf_of_work (beginWork_only s u op cue firedAt c sig win desc w)

variable {w}

/-- A cue that does not halt at once moves no byte as it starts. -/
theorem beginWork_bytes (h : w.halted = false) : (beginWork s u op cue firedAt c sig win desc w).mem.bytes = s.mem.bytes := by
  rw [beginWork_runOn, workStored, h]
  exact workTaken_bytes s u op cue firedAt c sig win desc w

/-- The rows that a cue of an array or a gather engine may have chosen lie in its span. -/
theorem chosenRows_span {r : Running} (hu : (∃ arr, u = .array arr) ∨ ∃ d n, u = .gme d n) : chosenRows u r = r.span ∨ chosenRows u r = [] := by
  rcases hu with ⟨arr, rfl⟩ | ⟨d, n, rfl⟩
  · exact .inr rfl
  · unfold chosenRows
    dsimp only
    split
    · exact .inl rfl
    · exact .inr rfl

/-- One of an array or a gather engine that halts at once stores on its ranges, its span and its record alone. -/
theorem beginWork_halts (hu : (∃ arr, u = .array arr) ∨ ∃ d n, u = .gme d n) (h : w.halted = true) :
    onlyWrites s (beginWork s u op cue firedAt c sig win desc w)
      (w.writes ++ w.span.map (fun x => (x.1, zeros x.2)) ++ [(w.recAt, w.record), (w.recAt, zeros 32)]) := by
  refine onlyWrites_iff.2 (fun a ha => ?_)
  obtain ⟨writes_span, records⟩ := Spares.append.1 ha
  obtain ⟨writes, span⟩ := Spares.append.1 writes_span
  obtain ⟨record, full⟩ := Spares.cons.1 records
  obtain ⟨q, o, run⟩ := workTaken_run s u op cue firedAt c sig win desc w
  have status : readStatus s u w = w.record := by rcases hu with ⟨arr, rfl⟩ | ⟨d, n, rfl⟩ <;> rfl
  have dest : Spares s (w.writes ++ [(w.recAt, zeros 32)]) a := Spares.append.2 ⟨writes, full⟩
  have rows : Spares s (zerosAt (chosenRows u (workTaken s u op cue firedAt c sig win desc w).2)) a := by
    rcases chosenRows_span u (r := (workTaken s u op cue firedAt c sig win desc w).2) hu with e | e
    · rw [e, run]; exact span
    · rw [e]; exact fun x ⟨_, hx, _⟩ => absurd hx List.not_mem_nil
  have clash : Spares s (zerosAt (workTaken s u op cue firedAt c sig win desc w).2.clash) a := by
    have shares := dest.shared (o := o)
    rw [rangesOf_append, show rangesOf [(w.recAt, zeros 32)] = [(w.recAt, 32)] by rw [rangesOf, List.map_singleton, zeros_length]] at shares
    rw [run]
    exact shares
  have cfg : (workTaken s u op cue firedAt c sig win desc w).1.cfg = s.cfg :=
    field_of State.cfg (workTaken_only s u op cue firedAt c sig win desc w) (fun _ => rfl)
  rw [beginWork_runOn, workStored, if_pos h]
  refine physByte_storeHalt u cue _ cfg (workTaken_bytes s u op cue firedAt c sig win desc w) ?_ rows ?_ ?_ clash
  · rw [run]; exact writes
  · rw [run]
    have kept : (workRun s u op cue firedAt c sig win desc w).record = w.record := status
    rw [kept]
    exact record
  · rw [run]; exact full

end Begin

end Sys2Proof.Machine
end

section
/-! Sp. 02 R45; sp. 04 R104; sp. 06 R159; sp. 08 R218; sp. 09 R277: a compute cue starts. -/

namespace Sys2Proof.Machine

/-- A compute command starts its opcode on its row. -/
theorem exec_computeRow {c : Instr} {u : UnitId} {op : Nat} (h : computeRow c = some (u, op)) (s : State) :
    exec c s = .next (startUnit s u op) := by
  unfold computeRow at h
  split at h
  all_goals cases h
  all_goals rfl

/-- Arrays and gather engines alone halt at once. -/
theorem workOf_halted {s : State} {u : UnitId} {op cue : Nat} {desc : List Byte} {window : Bool}
    (h : (workOf s u op cue desc window).halted = true) : (∃ arr, u = .array arr) ∨ ∃ d n, u = .gme d n := by
  unfold workOf at h
  dsimp only at h
  split at h
  · exact .inl ⟨_, rfl⟩
  · exact .inr ⟨_, _, rfl⟩
  all_goals cases h

theorem onlyWrites.congr {s s' t t' : State} {ws : List (Nat × List Byte)} (h : onlyWrites s t ws) (hc : s.cfg = s'.cfg)
    (hs : s.mem.bytes = s'.mem.bytes) (ht : t'.mem.bytes = t.mem.bytes) : onlyWrites s' t' ws :=
  onlyWrites_iff.2 (fun a ha => ((physByte_of_bytes ht a).trans (onlyWrites_iff.1 h a ((Spares.congr hc).2 ha))).trans (physByte_of_bytes hs a))

/-! ## Fences that come later take what the cue still holds -/

theorem underLater_self (s : State) (u : UnitId) (l : List Fence) {r : Running} (h : (unit s u).running = some r) :
    ((unit (underLater s u l) u).running = some r ∨ (unit (underLater s u l) u).running = some (fenceHit l r)) ∧
      (unit (underLater s u l) u).pending = (unit s u).pending := by
  unfold underLater
  split
  · exact ⟨.inl h, rfl⟩
  · rw [unit_setUnit]
    dsimp only
    rw [h]
    exact ⟨.inr rfl, rfl⟩

theorem underLater_other (s : State) {u v : UnitId} (l : List Fence) (h : v ≠ u) : unit (underLater s u l) v = unit s v := by
  unfold underLater
  exact ite_field (π := fun t => unit t v) rfl (unit_setUnit_ne _ _ h)

theorem underLater_outside (s : State) (u : UnitId) (l : List Fence) : outsideOf (underLater s u l) = outsideOf s := by
  unfold underLater
  exact ite_field rfl rfl

/-! ## The cue starts -/

/-- State as a cue begins its work: its place is free, its slots are named, the fences that come later are not in force yet. -/
def beforeWork (s : State) (u : UnitId) (op : Nat) (p : Pending) (c : Nat) : State :=
  beforeLater (nameSlots (leftAt s u p c) (slotNamed (readyAt s u) u op (descOf (readyAt s u) u p))) c

theorem nameSlots_unit (s : State) (l : List Nat) (v : UnitId) : unit (nameSlots s l) v = unit s v := rfl
theorem nameSlots_outside (s : State) (l : List Nat) : outsideOf (nameSlots s l) = outsideOf s := rfl
theorem beforeLater_unit (s : State) (c : Nat) (v : UnitId) : unit (beforeLater s c) v = unit s v := rfl
theorem beforeLater_outside (s : State) (c : Nat) : outsideOf (beforeLater s c) = outsideOf s := rfl

section Start
variable {s : State} {u : UnitId} {op : Nat} {p : Pending} {c : Nat}

theorem startUnit_starts (h : startsAt s u op p c) : startUnit s u op =
    underLater (beginWork (beforeWork s u op p c) u op p.cue p.firedAt c (doneSignal p.raw) none (descOf (readyAt s u) u p)
      (workOf (asOf (readyAt s u) c) u op p.cue (descOf (readyAt s u) u p) false)) u
      (laterFences (nameSlots (leftAt s u p c) (slotNamed (readyAt s u) u op (descOf (readyAt s u) u p))) c) := by
  unfold startUnit
  dsimp only
  rw [startable_of_startsAt h]
  rfl

variable (s u op p c)

theorem beforeWork_unit (v : UnitId) : unit (beforeWork s u op p c) v = unit (leftAt s u p c) v := by
  rw [beforeWork, beforeLater_unit, nameSlots_unit]

theorem beforeWork_mem : (beforeWork s u op p c).mem.bytes = s.mem.bytes := by
  rw [beforeWork, beforeLater_bytes, nameSlots_mem]
  exact bytes_of_memKept (memKept_of_ready (leftAt_ready s u p c))

theorem beforeWork_outside : outsideOf (beforeWork s u op p c) = outsideOf s := by
  rw [beforeWork, beforeLater_outside, nameSlots_outside]
  exact outsideOf_of_ready (leftAt_ready s u p c)

theorem beforeWork_cfg : (beforeWork s u op p c).cfg = s.cfg := congrArg (fun x => x.2.2.2.2.2.1) (beforeWork_outside s u op p c)

theorem beforeWork_pending : (unit (beforeWork s u op p c) u).pending = none := by
  rw [beforeWork_unit, leftAt_pending]

theorem beforeWork_other {v : UnitId} (h : v ≠ u) : plainUnits (beforeWork s u op p c) v = plainUnits s v := by
  rw [plainUnits, beforeWork_unit]
  exact plainUnit_of_unmet (leftAt_other s p c h)

end Start

/-- Settles O24: a compute cue starts on its row. -/
theorem computeCuesStart : Obligations.ComputeCuesStart := by
  intro c u op s p at_ w hc h hw
  have starts := startUnit_starts h
  rw [← hw] at starts
  generalize laterFences _ at_ = later at starts
  obtain ⟨running, pending⟩ := beginWork_self (beforeWork s u op p at_) u op p.cue p.firedAt at_ (doneSignal p.raw) none (descOf (readyAt s u) u p) w
  have begun := workBegun_begun (beforeWork s u op p at_) u op p.cue p.firedAt at_ (doneSignal p.raw) none (descOf (readyAt s u) u p) w
  have others (v : UnitId) (hv : v ≠ u) := beginWork_other (beforeWork s u op p at_) u op p.cue p.firedAt at_ (doneSignal p.raw) none
    (descOf (readyAt s u) u p) w hv
  have outside := beginWork_outside (beforeWork s u op p at_) u op p.cue p.firedAt at_ (doneSignal p.raw) none (descOf (readyAt s u) u p) w
  have bytes (hh : w.halted = false) := beginWork_bytes (beforeWork s u op p at_) u op p.cue p.firedAt at_ (doneSignal p.raw) none
    (descOf (readyAt s u) u p) hh
  have halts (hh : w.halted = true) := beginWork_halts (beforeWork s u op p at_) u op p.cue p.firedAt at_ (doneSignal p.raw) none
    (descOf (readyAt s u) u p) (workOf_halted (hw ▸ hh)) hh
  generalize beginWork (beforeWork s u op p at_) u op p.cue p.firedAt at_ (doneSignal p.raw) none (descOf (readyAt s u) u p) w = b at *
  generalize workBegun (beforeWork s u op p at_) u op p.cue p.firedAt at_ (doneSignal p.raw) none (descOf (readyAt s u) u p) w = r0 at *
  obtain ⟨r, runs, hr⟩ : ∃ r, (unit (underLater b u later) u).running = some r ∧
      Begun r op p.cue p.firedAt at_ (doneSignal p.raw) none (descOf (readyAt s u) u p) w := by
    rcases (underLater_self b u later running).1 with e | e
    · exact ⟨_, e, begun⟩
    · exact ⟨_, e, begun.fenceHit later⟩
  refine ⟨_, r, (exec_computeRow hc s).trans (next_congr starts), runs, ?_, hr.cue, hr.opcode, hr.fired, hr.started, hr.signal, hr.window,
    hr.desc, hr.cycles, hr.halted, hr.recAt, fun hh => ⟨hr.writes hh, ?_⟩, fun hh => ?_, fun v hv => ?_, (outsideKept_iff _ _).2 ?_⟩
  · rw [(underLater_self b u later running).2, pending, beforeWork_pending]
  · rw [underLater_bytes, bytes hh, beforeWork_mem]
  · exact (halts hh).congr (beforeWork_cfg s u op p at_) (beforeWork_mem s u op p at_) (underLater_bytes _ _ _)
  · exact (congrArg plainUnit (underLater_other b later hv)).trans ((others v hv).trans (beforeWork_other s u op p at_ hv))
  · exact (underLater_outside b u later).trans (outside.trans (beforeWork_outside s u op p at_))

end Sys2Proof.Machine
end

section
/-! Sp. 02 R53; sp. 07 R194: a prompter issues a built command. -/

namespace Sys2Proof.Machine

/-- State with the window's list as the command is taken from it. -/
def withWindows (s : State) (ws : List Window) : State := { s with stage := { s.stage with windows := ws } }

theorem withWindows_outside (s : State) (ws : List Window) : outsideOf (withWindows s ws) = outsideOf s := rfl
theorem withWindows_bytes (s : State) (ws : List Window) : (withWindows s ws).mem.bytes = s.mem.bytes := rfl
theorem withWindows_units (s : State) (ws : List Window) : unmetUnits (withWindows s ws) = unmetUnits s := rfl
theorem withWindows_windows (s : State) (ws : List Window) : (withWindows s ws).stage.windows = ws := rfl

/-- State as the command begins in cycle `c`: a signal that it sends on its start is sent. -/
def issueState (s : State) (d : Die) (b : Built) (ws : List Window) (c : Nat) : State :=
  if b.onStart then signalOpt (withWindows (clockTo (settle s) c) ws) d c b.signal else withWindows (clockTo (settle s) c) ws

section Issue
variable (s : State) (d : Die) (b : Built) (ws : List Window) (c : Nat)

/-- What neither a signal nor the way to a start touches is as it was. -/
theorem issueState_field {γ : Type} (π : State → γ) (hw : ∀ t l, π (withWindows t l) = π t) (hc : ∀ t n, π (clockTo t n) = π t)
    (hs : ∀ t, π (settle t) = π t) (hg : ∀ t o, π (signalOpt t d c o) = π t) : π (issueState s d b ws c) = π s := by
  have begun : π (withWindows (clockTo (settle s) c) ws) = π s := by rw [hw, hc, hs]
  unfold issueState
  exact ite_field ((hg _ _).trans begun) begun

theorem issueState_outside : outsideOf (issueState s d b ws c) = outsideOf s :=
  issueState_field s d b ws c outsideOf withWindows_outside (fun t n => outsideOf_of_ready (clockTo_ready t n))
    (fun t => outsideOf_of_ready (settle_ready t)) (fun t o => outsideOf_of_ready (signalOpt_ready t d c o))

theorem issueState_bytes : (issueState s d b ws c).mem.bytes = s.mem.bytes :=
  issueState_field s d b ws c (fun t => t.mem.bytes) withWindows_bytes (fun t n => by rw [clockTo_mem]) settle_bytes
    (fun t o => signalOpt_bytes t d c o)

theorem issueState_units : unmetUnits (issueState s d b ws c) = unmetUnits s :=
  issueState_field s d b ws c unmetUnits withWindows_units clockTo_units settle_units (fun t o => signalOpt_units t d c o)

theorem issueState_windows : (issueState s d b ws c).stage.windows = ws := by
  unfold issueState
  refine ite_field (π := fun t => t.stage.windows) ?_ (withWindows_windows _ _)
  exact (field_of (fun t => t.stage.windows) (signalOpt_ready _ d c _) (fun _ => rfl)).trans (withWindows_windows _ _)

end Issue

/-- A built command as its unit begins it. -/
def issued (s2 : State) (u : UnitId) (b : Built) (cue c : Nat) : State :=
  beginWork (nameSlots s2 (slotNamed s2 u b.opcode.toNat b.desc)) u b.opcode.toNat cue c c (if b.onStart then none else b.signal)
    (some cue) b.desc (workOf s2 u b.opcode.toNat cue b.desc true)

section Built
variable {s : State} {d : Die} {u : UnitId} {w : Window} {b : Built} {ws : List Window} {m : Nat}
  (ht : takeWindow d u (settle s).stage.windows = some (w, b, ws)) (hm : issueCycle (settle s) w d u b = some m)
include ht hm

theorem issueBuilt_issues (hu : unitDie u = d) (hr : reaches (settle s) (max m (settle s).now) = true)
    (hw : max m (settle s).now < w.openedAt + wdLen w.desc.toNat) :
    issueBuilt s d u = issued (issueState s d b ws (max m (settle s).now)) u b w.cue (max m (settle s).now) := by
  unfold issueBuilt
  dsimp only
  rw [ht]
  dsimp only
  rw [hm]
  dsimp only
  rw [if_neg (by rw [hr, decide_eq_false (Nat.not_le.2 hw)]; simp [hu])]
  rfl

theorem issueBuilt_waits (h : reaches (settle s) (max m (settle s).now) = false ∨ w.openedAt + wdLen w.desc.toNat ≤ max m (settle s).now) :
    issueBuilt s d u = s := by
  unfold issueBuilt
  dsimp only
  rw [ht]
  dsimp only
  rw [hm]
  dsimp only
  rw [if_pos (by rcases h with h | h <;> simp [h])]

end Built

/-- Settles O36: the unit's next built command is issued in the first cycle that its window allows. -/
theorem builtCommandsAreIssuedInOrder : Obligations.BuiltCommandsAreIssuedInOrder := by
  intro d u s s0 w b ws m c hs0 hu ht hm hc
  subst hs0 hc
  refine ⟨fun ⟨hr, hw⟩ => ?_, fun h => congrArg _ (issueBuilt_waits ht hm h)⟩
  have issues := issueBuilt_issues ht hm hu hr hw
  generalize max m (settle s).now = c at *
  generalize hs2 : issueState s d b ws c = s2 at *
  let s3 := nameSlots s2 (slotNamed s2 u b.opcode.toNat b.desc)
  let k := workOf s2 u b.opcode.toNat w.cue b.desc true
  let sig := if b.onStart then none else b.signal
  have runs : exec (.prompterIssue d u) s = .next (beginWork s3 u b.opcode.toNat w.cue c c sig (some w.cue) b.desc k) := next_congr issues
  obtain ⟨running, pending⟩ := beginWork_self s3 u b.opcode.toNat w.cue c c sig (some w.cue) b.desc k
  have begun := workBegun_begun s3 u b.opcode.toNat w.cue c c sig (some w.cue) b.desc k
  refine ⟨_, _, runs, running, begun.window, begun.cue, ?_, begun.desc, begun.fired, begun.started, ?_, ?_, fun hh => ?_, fun v hv => ?_,
    (outsideKept_iff _ _).2 ?_⟩
  · rw [begun.opcode, BitVec.ofNat_toNat, BitVec.setWidth_eq]
  · refine (windows_of_work (beginWork_only s3 u b.opcode.toNat w.cue c c sig (some w.cue) b.desc k)).trans ?_
    have windows : s2.stage.windows = ws := hs2 ▸ issueState_windows s d b ws c
    exact congrArg (List.map Window.unraced) windows
  · rw [pending]
    exact pending_of_unmet (congrFun (hs2 ▸ issueState_units s d b ws c) u)
  · refine (beginWork_bytes s3 u b.opcode.toNat w.cue c c sig (some w.cue) b.desc (begun.halted.symm.trans hh)).trans ?_
    rw [nameSlots_mem]
    exact hs2 ▸ issueState_bytes s d b ws c
  · refine (beginWork_other s3 u b.opcode.toNat w.cue c c sig (some w.cue) b.desc k hv).trans ?_
    exact plainUnit_of_unmet (congrFun (hs2 ▸ issueState_units s d b ws c) v)
  · refine (beginWork_outside s3 u b.opcode.toNat w.cue c c sig (some w.cue) b.desc k).trans ?_
    rw [nameSlots_outside]
    exact hs2 ▸ issueState_outside s d b ws c

end Sys2Proof.Machine
end

section
/-! Sp. 14 Table 14-2: which events an access to memory records. -/

namespace Sys2Proof.Machine

/-! ## Accesses count in memory, not among the errors -/

theorem countWord_err (s : State) (w : Nat) : (countWord s w).err = s.err := by
  unfold countWord; dsimp only; (repeat' split) <;> rfl

theorem countHit_err (s : State) (p : Nat × Nat) : (countHit s p).err = s.err := by
  unfold countHit; dsimp only; split <;> rfl

theorem queueRead_err (s : State) (a n : Nat) : (queueRead s a n).err = s.err := by
  unfold queueRead; split <;> rfl

theorem queueWrite_err (s : State) (a : Nat) (m : BitVec 256) : (queueWrite s a m).err = s.err := by
  unfold queueWrite; split <;> rfl

theorem touchRead1_err (s : State) (p : Nat × Nat) : (touchRead1 s p).err = s.err := by
  have hit : (if pieceFenced s p then countHit s p else s).err = s.err := ite_field (π := State.err) (countHit_err s p) rfl
  unfold touchRead1
  exact ite_field (π := State.err) hit (ite_field (π := State.err) hit ((queueRead_err _ _ _).trans hit))

theorem touchWrite1_err (s : State) (p : Nat × BitVec 256) : (touchWrite1 s p).err = s.err := by
  unfold touchWrite1
  exact ite_field (π := State.err) (countHit_err s _) (ite_field (π := State.err) rfl (queueWrite_err s _ _))

theorem readCounts_err (s : State) (l : List (Nat × Nat)) : (readCounts s l).err = s.err :=
  (foldl_field State.err _ countWord_err _ _).trans (foldl_field State.err _ touchRead1_err l s)

theorem writeCounts_err (s : State) (l : List (Nat × BitVec 256)) : (writeCounts s l).err = s.err :=
  (foldl_field State.err _ countWord_err _ _).trans (foldl_field State.err _ touchWrite1_err l s)

theorem store_err (s : State) (a : Nat) (p : List Byte) : (store s a p).err = s.err := by
  induction p generalizing s a with
  | nil => rfl
  | cons b r ih =>
    have poke (t : State) (q : Nat) (v : Byte) : (pokeByte t q v).err = t.err := by unfold pokeByte; dsimp only; (repeat' split) <;> rfl
    have byte : (writeByte s a b).err = s.err := by
      unfold writeByte
      exact ite_field (π := State.err) rfl (ite_field (π := State.err) rfl (poke _ _ _))
    rw [store, ih, byte]

theorem storeAll_err (s : State) (l : List (Nat × List Byte)) : (storeAll s l).err = s.err :=
  foldl_field State.err _ (fun t (y : Nat × List Byte) => store_err t y.1 y.2) l s

/-! ## The events of an access: a parity, ECC or gated access -/

/-- The kinds of sp. 14 Table 14-2 that an access records. -/
def AccessKind (e : Event) : Prop := e.kind = 0x06 ∨ e.kind = 0x07 ∨ e.kind = 0x0D

theorem wordEvent_kind {s : State} {w : Nat} {e : Event} (h : e ∈ wordEvent s w) : AccessKind e := by
  unfold wordEvent at h
  dsimp only at h
  split at h
  · cases h
  · split at h
    · obtain rfl := List.mem_singleton.1 h
      unfold AccessKind ev
      dsimp only
      split
      · exact .inl rfl
      · exact .inr (.inl rfl)
    · obtain rfl := List.mem_singleton.1 h
      exact .inr (.inl rfl)

theorem wordEvents_kind {s : State} {l : List Nat} {e : Event} (h : e ∈ (l.map (wordEvent s)).flatten) : AccessKind e := by
  obtain ⟨_, hm, he⟩ := List.mem_flatten.1 h
  obtain ⟨w, _, rfl⟩ := List.mem_map.1 hm
  exact wordEvent_kind he

theorem readEvents_kind {who : Who} {s : State} {l : List (Nat × Nat)} {e : Event} (h : e ∈ readEvents who s l) : AccessKind e := by
  rcases List.mem_append.1 h with h | h
  · obtain ⟨p, _, rfl⟩ := List.mem_map.1 h
    exact .inr (.inr rfl)
  · exact wordEvents_kind h

theorem writeEvents_kind {who : Who} {s : State} {l : List (Nat × BitVec 256)} {e : Event} (h : e ∈ writeEvents who s l) : AccessKind e := by
  rcases List.mem_append.1 h with h | h
  · obtain ⟨p, _, rfl⟩ := List.mem_map.1 h
    exact .inr (.inr rfl)
  · exact wordEvents_kind h

theorem mem_insertEvent {e x : Event} {l : List Event} (h : x ∈ insertEvent e l) : x = e ∨ x ∈ l := by
  induction l with
  | nil => exact .inl (List.mem_singleton.1 h)
  | cons y r ih =>
    unfold insertEvent at h
    split at h
    · exact List.mem_cons.1 h
    · rcases List.mem_cons.1 h with rfl | h
      · exact .inr List.mem_cons_self
      · exact (ih h).imp_right (List.mem_cons_of_mem _)

theorem mem_sortEvents {l : List Event} {x : Event} (h : x ∈ sortEvents l) : x ∈ l := by
  have sorted (l acc : List Event) (h : x ∈ l.foldl (fun acc e => insertEvent e acc) acc) : x ∈ acc ∨ x ∈ l := by
    induction l generalizing acc with
    | nil => exact .inl h
    | cons e r ih =>
      rcases ih _ h with h | h
      · rcases mem_insertEvent h with rfl | h
        · exact .inr List.mem_cons_self
        · exact .inl h
      · exact .inr (List.mem_cons_of_mem _ h)
  exact (sorted l [] h).resolve_left List.not_mem_nil

/-! ## An access counts for no other kind -/

section Counts
variable {kind : Byte}

/-- Events of other kinds leave a count alone. -/
theorem countOf_raiseAll (p : Place) {l : List Event} (h : ∀ e ∈ l, kind.toNat % 128 ≠ e.kind.toNat % 128) (s : State) :
    countOf (raiseAll s l) kind p = countOf s kind p := by
  have each (l : List Event) (h : ∀ e ∈ l, kind.toNat % 128 ≠ e.kind.toNat % 128) (s : State) :
      countOf (l.foldl raise s) kind p = countOf s kind p := by
    induction l generalizing s with
    | nil => rfl
    | cons e r ih =>
      rw [List.foldl_cons, ih (fun x hx => h x (List.mem_cons_of_mem _ hx)), countOf_raise_ne _ _ _ (h e List.mem_cons_self)]
  exact each (sortEvents l) (fun e he => h e (mem_sortEvents he)) s

variable (h : kind.toNat % 128 ≠ 6 ∧ kind.toNat % 128 ≠ 7 ∧ kind.toNat % 128 ≠ 13) (p : Place)
include h

theorem AccessKind.ne {e : Event} (he : AccessKind e) : kind.toNat % 128 ≠ e.kind.toNat % 128 := by
  obtain ⟨h6, h7, h13⟩ := h
  rcases he with he | he | he <;> rw [he]
  · exact h6
  · exact h7
  · exact h13

theorem countOf_readAll (who : Who) (s : State) (l : List (Nat × Nat)) : countOf (readAll who s l) kind p = countOf s kind p :=
  (countOf_raiseAll p (fun _ he => AccessKind.ne h (readEvents_kind he)) _).trans (countOf_congr (readCounts_err s _) _ _)

theorem countOf_writeAll (who : Who) (s : State) (l : List (Nat × List Byte)) : countOf (writeAll who s l) kind p = countOf s kind p := by
  refine (countOf_raiseAll p (fun _ he => AccessKind.ne h (writeEvents_kind (List.mem_append.1 he |>.resolve_left List.not_mem_nil))) _).trans ?_
  exact countOf_congr ((storeAll_err _ _).trans (writeCounts_err s _)) _ _

end Counts

/-- Draws record nothing. -/
theorem storeFree_err (s : State) (l : List (Nat × Nat)) : (storeFree s l).err = s.err :=
  foldl_field State.err (fun t (x : Nat × Nat) => store (drawBytes x.2 t).2 x.1 (drawBytes x.2 t).1)
    (fun t x => (store_err _ _ _).trans (field_of State.err (drawBytes_only x.2 t) (fun _ => rfl))) l s

end Sys2Proof.Machine
end

section
/-! Sp. 02 R52, R54; sp. 07 R193, R194: windows open. -/

namespace Sys2Proof.Machine

/-! ## A builder's failure: one record and the end of firing -/

theorem oneMore_of_counts {s s' t : State} {kind : Byte} {p : Place} (h : oneMore s t kind p) (e : countOf s' kind p = countOf s kind p) :
    oneMore s' t kind p := by unfold oneMore at *; rw [e, h]

/-- An event of cause 2, and firing stops in cycle `at_`. -/
def failsWith (s : State) (e : Event) (at_ : Nat) : State := stopFiring (raise s e) 2 true at_

section Fails
variable (s : State) (e : Event) (at_ : Nat)

theorem failsWith_counted : oneMore s (failsWith s e at_) e.kind e.place :=
  oneMore_congr (oneMore_raise s e) rfl (congrArg Errors.sources (stopFiring_err _ _ _ _))

theorem failsWith_stopped : (failsWith s e at_).step.stopped = true := stopFiring_stopped _ _ _ _

theorem failsWith_windows : (failsWith s e at_).stage.windows = s.stage.windows :=
  (field_of (fun t => t.stage.windows) (stopFiring_stops _ _ _ _) (fun _ => rfl)).trans (congrArg Stage.windows (raise_stage s e))

theorem failsWith_bytes : (failsWith s e at_).mem.bytes = s.mem.bytes :=
  (field_of (fun t => t.mem.bytes) (stopFiring_stops _ _ _ _) (fun _ => rfl)).trans (by rw [raise_mem])

theorem failsWith_outside : outsideOf (failsWith s e at_) = outsideOf s := (stopFiring_outside _ _ _ _).trans (raise_outside s e)

variable {s} in
theorem failsWith_pending {u : UnitId} (h : (unit s u).pending = none) : (unit (failsWith s e at_) u).pending = none :=
  stopFiring_pending _ _ _ (by rw [unit_of_stage (raise_stage s e), h])

theorem failsWith_first (h : s.step.cause = 0) : (failsWith s e at_).step.cause = 2 ∧ (failsWith s e at_).step.failed = true :=
  stopFiring_first _ _ _ _ (by rw [raise_step_cause, h])

theorem failsWith_later (h : s.step.cause ≠ 0) : (failsWith s e at_).step.cause = s.step.cause :=
  (stopFiring_later _ _ _ _ (by rw [raise_step_cause]; exact h)).1.trans (raise_step_cause s e)

end Fails

/-! ## The cue starts -/

/-- State as the window's builder begins: the cue has left its place and its control unit is free from the cycle of the start. -/
def windowStart (s : State) (d : Die) (p : Pending) (c : Nat) : State :=
  setUnit (leftAt s (.control d) p c) (.control d) { unit (leftAt s (.control d) p c) (.control d) with freeAt := c }

theorem openWindow_starts {s : State} {d : Die} {p : Pending} {c builder : Nat} (h : startsAt s (.control d) 1 p c)
    (f : State → Pending → Nat → Nat → Nat → State)
    (hb : wdBuilder (ofLE ((sheet (readyAt s (.control d))).desc (cDesc p.raw) 32)) = builder) :
    openWindow s d builder f = f (windowStart s d p c) p c (ofLE ((sheet (readyAt s (.control d))).desc (cDesc p.raw) 32))
      (ofLE ((sheet (readyAt s (.control d))).desc (cDesc p.raw + 1) 64)) := by
  unfold openWindow
  dsimp only
  rw [startable_of_startsAt h]
  dsimp only
  rw [if_neg (not_not.2 hb)]
  rfl

section Start
variable (s : State) (d : Die) (p : Pending) (c : Nat)

theorem windowStart_ready : butReady (windowStart s d p c) = butReady s := (setUnit_ready _ _ _).trans (leftAt_ready s _ p c)

theorem windowStart_pending : (unit (windowStart s d p c) (.control d)).pending = none := by
  rw [windowStart, unit_setUnit]; exact leftAt_pending s _ p c

theorem windowStart_bytes : (windowStart s d p c).mem.bytes = s.mem.bytes := bytes_of_memKept (memKept_of_ready (windowStart_ready s d p c))

theorem windowStart_windows : (windowStart s d p c).stage.windows = s.stage.windows :=
  field_of (fun t => t.stage.windows) (windowStart_ready s d p c) (fun _ => rfl)

theorem windowStart_counts {kind : Byte} (h : kind.toNat % 128 ≠ 5) (q : Place) : countOf (windowStart s d p c) kind q = countOf s kind q := by
  rw [windowStart, countOf_congr (setUnit_err _ _ _), countOf_leftAt h]

theorem windowStart_stopped : (windowStart s d p c).step.stopped = s.step.stopped :=
  field_of (fun t => t.step.stopped) (windowStart_ready s d p c) (fun _ => rfl)

end Start

/-! ## A builder that writes arrays -/

/-- The window of such a builder. -/
def arraysWindow (s : State) (d : Die) (p : Pending) (c desc blk : Nat) (r : BuildOut) : Window :=
  { openedWindow s d p c desc (buildCost (wdBuilder desc) blk) r.reads with
    outputs := r.writes, failed := r.mix.isSome,
    raced := (openedWindow s d p c desc (buildCost (wdBuilder desc) blk) r.reads).raced || anyMeets (rangesOf r.writes) (openWrites s none) }

/-- State with it open. -/
def arraysOpen (s : State) (d : Die) (p : Pending) (c desc blk : Nat) (r : BuildOut) : State :=
  addWindow (otherWrites (readAll (whoPrompter p.cue) s r.reads) none (rangesOf r.writes)) (arraysWindow s d p c desc blk r)

/-- The record of a tenant mix (sp. 07 R197). -/
def mixEvent (d : Die) (cue a b : Nat) : Event :=
  { kind := 0x0C, place := dieplace d, unit := 8, inst := 0, cue := cue, d0 := a, d1 := b, alarm := .every }

theorem openArrays_eq (s : State) (d : Die) (p : Pending) (c desc blk : Nat) (r : BuildOut) :
    openArrays s d p c desc blk r = match r.mix with
      | none => arraysOpen s d p c desc blk r
      | some (a, b) => failsWith (arraysOpen s d p c desc blk r) (mixEvent d p.cue a b) (c + buildCost (wdBuilder desc) blk) := by
  obtain ⟨writes, reads, mix⟩ := r
  cases mix <;> rfl

section Arrays
variable (s : State) (d : Die) (p : Pending) (c desc blk : Nat) (r : BuildOut)

theorem arraysOpen_windows : ∃ ws, (arraysOpen s d p c desc blk r).stage.windows = ws ++ [arraysWindow s d p c desc blk r] ∧
    ws.map Window.unraced = s.stage.windows.map Window.unraced := by
  refine ⟨_, rfl, ?_⟩
  rw [windows_of_work (otherWrites_only _ _ _)]
  exact congrArg (fun g : Stage => g.windows.map Window.unraced) (field_of State.stage (readAll_only _ s _) (fun _ => rfl))

theorem otherWrites_field {γ : Type} (π : State → γ) (h : ∀ t x y, π { t with stage := x, ports := y } = π t) (s : State) (mine : Option Nat)
    (wr : List (Nat × Nat)) : π (otherWrites s mine wr) = π s := by
  unfold otherWrites
  exact ite_field rfl (h s _ _)

/-- What an access and other windows leave alone, the opening leaves alone. -/
theorem arraysOpen_field {γ : Type} (π : State → γ) (h : ∀ t x y, π { t with stage := x, ports := y } = π t)
    (hr : π (readAll (whoPrompter p.cue) s r.reads) = π s) : π (arraysOpen s d p c desc blk r) = π s :=
  (h _ _ (otherWrites _ none _).ports).trans ((otherWrites_field π h _ _ _).trans hr)

theorem readAll_outside (who : Who) (t : State) (l : List (Nat × Nat)) : outsideOf (readAll who t l) = outsideOf t :=
  outsideOf_of_work (butWork_of_access (readAll_only who t l))

theorem arraysOpen_outside : outsideOf (arraysOpen s d p c desc blk r) = outsideOf s :=
  arraysOpen_field s d p c desc blk r outsideOf (fun _ _ _ => rfl) (readAll_outside _ _ _)

theorem arraysOpen_bytes : (arraysOpen s d p c desc blk r).mem.bytes = s.mem.bytes :=
  arraysOpen_field s d p c desc blk r (fun t => t.mem.bytes) (fun _ _ _ => rfl) (readAll_bytes _ _ _)

theorem arraysOpen_stopped : (arraysOpen s d p c desc blk r).step.stopped = s.step.stopped :=
  arraysOpen_field s d p c desc blk r (fun t => t.step.stopped) (fun _ _ _ => rfl)
    (field_of (fun t => t.step.stopped) (readAll_only _ s _) (fun _ => rfl))

theorem arraysOpen_counts {kind : Byte} (h : kind.toNat % 128 ≠ 6 ∧ kind.toNat % 128 ≠ 7 ∧ kind.toNat % 128 ≠ 13) (q : Place) :
    countOf (arraysOpen s d p c desc blk r) kind q = countOf s kind q :=
  arraysOpen_field s d p c desc blk r (fun t => countOf t kind q) (fun _ _ _ => countOf_congr rfl _ _)
    (countOf_readAll h q _ _ _)

variable {s} in
theorem arraysOpen_pending {u : UnitId} (h : (unit s u).pending = none) : (unit (arraysOpen s d p c desc blk r) u).pending = none := by
  have read : (unit (readAll (whoPrompter p.cue) s r.reads) u).pending = none := by
    rw [unit_of_stage (field_of State.stage (readAll_only _ s _) (fun _ => rfl)), h]
  have plain := congrArg UnitSt.pending (congrFun (otherWrites_units (readAll (whoPrompter p.cue) s r.reads) none (rangesOf r.writes)) u)
  have pending : ((unit (otherWrites (readAll (whoPrompter p.cue) s r.reads) none (rangesOf r.writes)) u).pending.map
      (fun q => { q with metAt := none })) = (unit (readAll (whoPrompter p.cue) s r.reads) u).pending.map (fun q => { q with metAt := none }) := plain
  rw [read, Option.map_none, Option.map_eq_none_iff] at pending
  exact pending

end Arrays

end Sys2Proof.Machine
end

section
/-! Sp. 02 R52, R54; sp. 07 R193, R194, R208: the list builder, and the windows of all three. -/

namespace Sys2Proof.Machine

/-! ## The list builder -/

/-- What the list builder reads: the fills of its experts. -/
def listReads (desc blk : Nat) : List (Nat × Nat) := [(wdResult desc + 4 * bits blk 511 503, 4 * bits blk 502 494)]

/-- The fills, and the state once they are read. -/
def listFills (s : State) (p : Pending) (desc blk : Nat) : List Int × State :=
  fillsOf (readAll (whoPrompter p.cue) s (listReads desc blk)) blk (wdResult desc)

/-- The window of a list as it opens. -/
def listWindow (s : State) (d : Die) (p : Pending) (c desc blk : Nat) : Window := openedWindow s d p c desc (buildCost 3 blk) (listReads desc blk)

/-- State with a window open. -/
def listOpen (s : State) (p : Pending) (desc blk : Nat) (w : Window) : State := addWindow (listFills s p desc blk).2 w

/-- The record of a list that does not open (sp. 14 Table 14-2). -/
def overrunEvent (d : Die) (cue builder : Nat) (u : Option UnitId) (cost : Nat) : Event :=
  { kind := 0x04, place := dieplace d, unit := 8, inst := 0, cue := cue,
    d0 := builder + (match u with
      | some v => unitKind v * 2 ^ 16 + unitInst v * 2 ^ 24
      | none => 0), d1 := cost, alarm := .every }

section List
variable (s : State) (d : Die) (p : Pending) (c desc blk : Nat)

/-- A list that its check rejects, one that is too long for its window, and one that fits (sp. 02 R54). -/
theorem openList_rejected {u : UnitId} (h : planList blk (listFills s p desc blk).1 (sheet s) (templatesOf (sheet s) p.raw) = .error u) :
    openList s d p c desc blk = failsWith (listOpen s p desc blk { listWindow s d p c desc blk with failed := true })
      (overrunEvent d p.cue 3 (some u) 0) (c + buildCost 3 blk) := by
  unfold listFills listReads at h
  unfold openList
  dsimp only
  rw [h]
  rfl

variable {l : List Planned} (h : planList blk (listFills s p desc blk).1 (sheet s) (templatesOf (sheet s) p.raw) = .ok l)
include h

theorem openList_long (hc : wdLen desc - wdBuild desc < pathCost s l) :
    openList s d p c desc blk = failsWith (listOpen s p desc blk { listWindow s d p c desc blk with failed := true, cost := pathCost s l })
      (overrunEvent d p.cue 3 none (pathCost s l)) (c + buildCost 3 blk) := by
  unfold listFills listReads at h
  unfold openList
  dsimp only
  rw [h]
  dsimp only
  rw [if_pos hc]
  rfl

theorem openList_fits (hc : pathCost s l ≤ wdLen desc - wdBuild desc) :
    openList s d p c desc blk = signalEmpty
      (listOpen s p desc blk { listWindow s d p c desc blk with built := l.filterMap builtOf, cost := pathCost s l }) d l (c + buildCost 3 blk) := by
  unfold listFills listReads at h
  unfold openList
  dsimp only
  rw [h]
  dsimp only
  rw [if_neg (Nat.not_lt.2 hc)]
  rfl

end List

section Open
variable (s : State) (p : Pending) (desc blk : Nat) (w : Window)

theorem fillsOf_only (s : State) (blk result : Nat) : butFree (fillsOf s blk result).2 = butFree s := by
  have each (l : List Nat) (x : List Int × State) (f : List Int × State → Nat → List Int × State)
      (h : ∀ x i, butFree (f x i).2 = butFree x.2) : butFree (l.foldl f x).2 = butFree x.2 := by
    induction l generalizing x with
    | nil => rfl
    | cons i r ih => rw [List.foldl_cons, ih, h]
  refine each _ ([], s) _ (fun x i => ?_)
  dsimp only
  split
  · exact drawBytes_only 4 x.2
  · rfl

theorem listFills_only : butStored (listFills s p desc blk).2 = butStored s :=
  (butStored_of_free (fillsOf_only _ _ _)).trans (butStored_of_access (readAll_only _ _ _))

theorem listOpen_windows : (listOpen s p desc blk w).stage.windows = s.stage.windows ++ [w] :=
  congrArg (fun g : Stage => g.windows ++ [w]) (field_of State.stage (listFills_only s p desc blk) (fun _ => rfl))

theorem listOpen_unit (u : UnitId) : unit (listOpen s p desc blk w) u = unit s u :=
  unit_of_stage (field_of State.stage (listFills_only s p desc blk) (fun _ => rfl)) u

theorem addWindow_outside (t : State) : outsideOf (addWindow t w) = outsideOf t := rfl
theorem addWindow_bytes (t : State) : (addWindow t w).mem.bytes = t.mem.bytes := rfl
theorem addWindow_err (t : State) : (addWindow t w).err = t.err := rfl

theorem listOpen_outside : outsideOf (listOpen s p desc blk w) = outsideOf s := by
  rw [listOpen, addWindow_outside]
  exact outsideOf_of_work (butWork_of_stored (listFills_only s p desc blk))

theorem listOpen_bytes : (listOpen s p desc blk w).mem.bytes = s.mem.bytes := by
  rw [listOpen, addWindow_bytes, listFills, fillsOf_mem, readAll_bytes]

theorem listOpen_counts {kind : Byte} (h : kind.toNat % 128 ≠ 6 ∧ kind.toNat % 128 ≠ 7 ∧ kind.toNat % 128 ≠ 13) (q : Place) :
    countOf (listOpen s p desc blk w) kind q = countOf s kind q := by
  rw [listOpen, countOf_congr (addWindow_err w _), listFills, countOf_congr (field_of State.err (fillsOf_only _ _ _) (fun _ => rfl)), countOf_readAll h]

theorem signalEmpty_windows (s : State) (d : Die) (l : List Planned) (c : Nat) : (signalEmpty s d l c).stage.windows = s.stage.windows := rfl
theorem signalEmpty_unit (s : State) (d : Die) (l : List Planned) (c : Nat) (u : UnitId) : unit (signalEmpty s d l c) u = unit s u := rfl
theorem signalEmpty_outside (s : State) (d : Die) (l : List Planned) (c : Nat) : outsideOf (signalEmpty s d l c) = outsideOf s := rfl

end Open

/-! ## The three builders -/

/-- A window as a list builder's cue opens it, in state `s`, that leaves state `t`. -/
structure ListOpened (s t : State) (d : Die) (p : Pending) (c blk : Nat) (w : Window) : Prop where
  windows : t.stage.windows = s.stage.windows ++ [w]
  die : w.die = d
  cue : w.cue = p.cue
  opened : w.openedAt = c
  built : w.builtAt = c + buildCost 3 blk
  signal : w.signal = doneSignal p.raw
  outputs : w.outputs = []
  pending : (unit t (.control d)).pending = none
  bytes : t.mem.bytes = s.mem.bytes
  outside : outsideOf t = outsideOf s

section Opened
variable (s : State) (d : Die) (p : Pending) (c desc blk : Nat) (w : Window)

/-- Whatever the builder finds, the window that it opens is the cue's. -/
theorem listOpen_opened (hw : { w with built := [], cost := 0, failed := false } = listWindow (windowStart s d p c) d p c desc blk) :
    ListOpened s (listOpen (windowStart s d p c) p desc blk w) d p c blk w where
  windows := by rw [listOpen_windows, windowStart_windows]
  die := (congrArg Window.die hw :)
  cue := (congrArg Window.cue hw :)
  opened := (congrArg Window.openedAt hw :)
  built := (congrArg Window.builtAt hw :)
  signal := (congrArg Window.signal hw :)
  outputs := (congrArg Window.outputs hw :)
  pending := by rw [listOpen_unit]; exact windowStart_pending s d p c
  bytes := by rw [listOpen_bytes, windowStart_bytes]
  outside := (listOpen_outside _ _ _ _ _).trans (outsideOf_of_ready (windowStart_ready s d p c))

variable {s d p c blk w} {t : State} (h : ListOpened s t d p c blk w)
include h

theorem ListOpened.fails (e : Event) (at_ : Nat) : ListOpened s (failsWith t e at_) d p c blk w :=
  { h with
    windows := (failsWith_windows t e at_).trans h.windows
    pending := failsWith_pending e at_ h.pending
    bytes := (failsWith_bytes t e at_).trans h.bytes
    outside := (failsWith_outside t e at_).trans h.outside }

theorem ListOpened.signals (l : List Planned) (n : Nat) : ListOpened s (signalEmpty t d l n) d p c blk w :=
  { h with
    windows := h.windows
    pending := h.pending
    bytes := by rw [signalEmpty_mem, h.bytes]
    outside := (signalEmpty_outside t d l n).trans h.outside }

end Opened

/-- A list that fails is one more WINDOW_OVERRUN of its die. -/
theorem listOpen_overruns (s : State) (d : Die) (p : Pending) (c desc blk : Nat) (w : Window) (u : Option UnitId) (cost at_ : Nat) :
    oneMore s (failsWith (listOpen (windowStart s d p c) p desc blk w) (overrunEvent d p.cue 3 u cost) at_) 0x04 (dieplace d) := by
  refine oneMore_of_counts (failsWith_counted _ (overrunEvent d p.cue 3 u cost) at_) ?_
  exact ((listOpen_counts _ p desc blk w (by decide) _).trans (windowStart_counts s d p c (by decide) _)).symm

end Sys2Proof.Machine
end

section
/-! Sp. 02 R52; sp. 07 R193, R197: windows open with what their builder makes. -/

namespace Sys2Proof.Machine

/-- A window as an array builder's cue opens it, in state `s`, that leaves state `t`. -/
structure ArraysOpened (s t : State) (d : Die) (p : Pending) (c cost : Nat) (r : BuildOut) (w : Window) : Prop where
  windows : ∃ ws, t.stage.windows = ws ++ [w] ∧ ws.map Window.unraced = s.stage.windows.map Window.unraced
  die : w.die = d
  cue : w.cue = p.cue
  opened : w.openedAt = c
  built : w.builtAt = c + cost
  signal : w.signal = doneSignal p.raw
  outputs : w.outputs = r.writes
  failed : w.failed = r.mix.isSome
  pending : (unit t (.control d)).pending = none
  bytes : t.mem.bytes = s.mem.bytes
  outside : outsideOf t = outsideOf s

section Arrays
variable {s : State} {d : Die} {p : Pending} {c : Nat}

theorem arraysOpen_opened (desc blk : Nat) (r : BuildOut) : ArraysOpened s (arraysOpen (windowStart s d p c) d p c desc blk r) d p c
    (buildCost (wdBuilder desc) blk) r (arraysWindow (windowStart s d p c) d p c desc blk r) where
  windows := by rw [← windowStart_windows s d p c]; exact arraysOpen_windows _ d p c desc blk r
  die := rfl
  cue := rfl
  opened := rfl
  built := rfl
  signal := rfl
  outputs := rfl
  failed := rfl
  pending := arraysOpen_pending d p c desc blk r (windowStart_pending s d p c)
  bytes := by rw [arraysOpen_bytes, windowStart_bytes]
  outside := (arraysOpen_outside _ _ _ _ _ _ _).trans (outsideOf_of_ready (windowStart_ready s d p c))

theorem ArraysOpened.fails {t : State} {cost : Nat} {r : BuildOut} {w : Window} (h : ArraysOpened s t d p c cost r w) (e : Event) (at_ : Nat) :
    ArraysOpened s (failsWith t e at_) d p c cost r w :=
  { h with
    windows := by rw [failsWith_windows]; exact h.windows
    pending := failsWith_pending e at_ h.pending
    bytes := (failsWith_bytes t e at_).trans h.bytes
    outside := (failsWith_outside t e at_).trans h.outside }

/-- A tenant mix is one more record of kind 0x0C. -/
theorem arraysOpen_mixes (desc blk : Nat) (r : BuildOut) (a b at_ : Nat) :
    oneMore s (failsWith (arraysOpen (windowStart s d p c) d p c desc blk r) (mixEvent d p.cue a b) at_) 0x0C (dieplace d) := by
  refine oneMore_of_counts (failsWith_counted _ (mixEvent d p.cue a b) at_) ?_
  exact ((arraysOpen_counts _ d p c desc blk r (by decide) _).trans (windowStart_counts s d p c (by decide) _)).symm

end Arrays

/-- Settles O35: the windows of the three builders open. -/
theorem windowsOpen : Obligations.WindowsOpen := by
  intro d s b p c x blk hx hblk h hb
  obtain rfl : b = windowStart s d p c := hb
  have starts (builder : Nat) (f : State → Pending → Nat → Nat → Nat → State) (hw : wdBuilder x = builder) :
      openWindow s d builder f = f (windowStart s d p c) p c x blk := by
    have opens := openWindow_starts h f (hx ▸ hw)
    rwa [← hx, ← hblk] at opens
  refine ⟨fun hw => ?bind, fun hw => ?alloc, fun hw => ?list⟩
  case bind =>
    have runs : exec (.tenantBind d) s = _ := next_congr (starts 1 (fun t p c desc blk =>
      openArrays t d p c desc blk (bindBuild (asOf t c) d.val blk (wdResult desc))) hw)
    generalize bindBuild (asOf (windowStart s d p c) c) d.val blk (wdResult x) = r at *
    rw [openArrays_eq] at runs
    have opened := arraysOpen_opened (s := s) (d := d) (p := p) (c := c) x blk r
    rw [hw] at opened runs
    cases hmix : r.mix with
    | none =>
      rw [hmix] at runs
      obtain ⟨ws, windows, same⟩ := opened.windows
      have whole : (arraysWindow (windowStart s d p c) d p c x blk r).failed = false := by rw [opened.failed, hmix]; rfl
      exact ⟨_, ws, _, runs, windows, same, opened.die, opened.cue, opened.opened, opened.built, opened.signal, opened.outputs,
        by rw [whole]; simp, fun e => absurd (whole.symm.trans e) (by decide), opened.pending, opened.bytes, (outsideKept_iff _ _).2 opened.outside⟩
    | some ab =>
      obtain ⟨a, b⟩ := ab
      rw [hmix] at runs
      have fails := opened.fails (mixEvent d p.cue a b) (c + buildCost 1 blk)
      obtain ⟨ws, windows, same⟩ := fails.windows
      have failed : (arraysWindow (windowStart s d p c) d p c x blk r).failed = true := by rw [fails.failed, hmix]; rfl
      exact ⟨_, ws, _, runs, windows, same, fails.die, fails.cue, fails.opened, fails.built, fails.signal, fails.outputs,
        by rw [failed]; simp, fun _ => ⟨failsWith_stopped _ _ _, arraysOpen_mixes x blk r a b _⟩, fails.pending, fails.bytes,
        (outsideKept_iff _ _).2 fails.outside⟩
  case alloc =>
    have runs : exec (.routeAlloc d) s = _ := next_congr (starts 2 (fun t p c desc blk =>
      openArrays t d p c desc blk (routeBuild (asOf t c) d.val blk (wdResult desc))) hw)
    have clean : (routeBuild (asOf (windowStart s d p c) c) d.val blk (wdResult x)).mix = none := rfl
    generalize routeBuild (asOf (windowStart s d p c) c) d.val blk (wdResult x) = r at *
    rw [openArrays_eq, clean] at runs
    have opened := arraysOpen_opened (s := s) (d := d) (p := p) (c := c) x blk r
    rw [hw] at opened
    obtain ⟨ws, windows, same⟩ := opened.windows
    exact ⟨_, ws, _, runs, windows, same, opened.die, opened.cue, opened.opened, opened.built, opened.signal, opened.outputs,
      by rw [opened.failed, clean]; rfl, opened.pending, (arraysOpen_stopped _ _ _ _ _ _ _).trans (windowStart_stopped s d p c), opened.bytes,
      (outsideKept_iff _ _).2 opened.outside⟩
  case list =>
    have runs : exec (.expertList d) s = _ := next_congr (starts 3 (fun t p c desc blk => openList t d p c desc blk) hw)
    cases hplan : planList blk (listFills (windowStart s d p c) p x blk).1 (sheet (windowStart s d p c))
        (templatesOf (sheet (windowStart s d p c)) p.raw) with
    | error u =>
      rw [openList_rejected _ d p c x blk hplan] at runs
      obtain ⟨windows, die, cue, at_, built, signal, outputs, pending, bytes, outside⟩ :=
        (listOpen_opened s d p c x blk { listWindow (windowStart s d p c) d p c x blk with failed := true } rfl).fails
          (overrunEvent d p.cue 3 (some u) 0) (c + buildCost 3 blk)
      refine ⟨_, _, _, runs, rfl, windows, die, cue, at_, built, signal, outputs, pending, bytes, (outsideKept_iff _ _).2 outside,
        fun l hl => ?_, fun _ _ => ⟨rfl, failsWith_stopped _ _ _, listOpen_overruns s d p c x blk _ _ _ _⟩⟩
      exact absurd (hplan.symm.trans hl) (by simp)
    | ok l =>
      by_cases hc : pathCost (windowStart s d p c) l ≤ wdLen x - wdBuild x
      · rw [openList_fits _ d p c x blk hplan hc] at runs
        obtain ⟨windows, die, cue, at_, built, signal, outputs, pending, bytes, outside⟩ :=
          (listOpen_opened s d p c x blk { listWindow (windowStart s d p c) d p c x blk with
            built := l.filterMap builtOf, cost := pathCost (windowStart s d p c) l } rfl).signals l (c + buildCost 3 blk)
        refine ⟨_, _, _, runs, rfl, windows, die, cue, at_, built, signal, outputs, pending, bytes, (outsideKept_iff _ _).2 outside,
          fun l' hl => ?_, fun u hu => absurd (hplan.symm.trans hu) (by simp)⟩
        obtain rfl := Except.ok.inj (hplan.symm.trans hl)
        exact ⟨⟨fun _ => hc, fun _ => rfl⟩, fun _ => rfl, fun e => (by cases e)⟩
      · rw [openList_long _ d p c x blk hplan (Nat.not_le.1 hc)] at runs
        obtain ⟨windows, die, cue, at_, built, signal, outputs, pending, bytes, outside⟩ :=
          (listOpen_opened s d p c x blk { listWindow (windowStart s d p c) d p c x blk with
            failed := true, cost := pathCost (windowStart s d p c) l } rfl).fails
            (overrunEvent d p.cue 3 none (pathCost (windowStart s d p c) l)) (c + buildCost 3 blk)
        refine ⟨_, _, _, runs, rfl, windows, die, cue, at_, built, signal, outputs, pending, bytes, (outsideKept_iff _ _).2 outside,
          fun l' hl => ?_, fun u hu => absurd (hplan.symm.trans hu) (by simp)⟩
        obtain rfl := Except.ok.inj (hplan.symm.trans hl)
        exact ⟨⟨fun e => (by cases e), fun e => absurd e hc⟩, fun e => (by cases e),
          fun _ => ⟨rfl, failsWith_stopped _ _ _, listOpen_overruns s d p c x blk _ _ _ _⟩⟩

end Sys2Proof.Machine
end

section
/-! Sp. 02 R52, R55; sp. 07 R194: a window's last cycle. -/

namespace Sys2Proof.Machine

/-! ## The clock at a cycle that it reaches -/

theorem clockTo_now_of_reaches {s : State} {e : Nat} (h : reaches s e = true) : (clockTo s e).now = max s.now e := by
  have le := of_decide_eq_true h
  unfold clockTo at le ⊢
  by_cases he : e ≤ s.now
  · rw [if_pos he, Nat.max_eq_left he]
  · rw [if_neg he] at le ⊢
    rw [Nat.max_eq_right (Nat.le_of_not_le he)]
    dsimp only at le ⊢
    by_cases hn : s.cycle.toNat + refOf s (e - s.now) ≤ 4095
    · rw [if_pos hn]
    · -- the beat's last cycle comes before `e`, so `e` is not reached
      rw [if_neg hn] at le
      exfalso
      unfold refOf at hn
      by_cases hh : inHold s = true
      · rw [if_pos hh] at hn
        have half := refPass_now_held (4095 - s.cycle.toNat) hh
        have now : e ≤ (refPass s (4095 - s.cycle.toNat)).now := le
        omega
      · rw [if_neg hh] at hn
        have now : e ≤ (refPass s (4095 - s.cycle.toNat)).now := le
        rw [refPass_now _ (by simpa using hh)] at now
        omega

theorem settle_now (s : State) : (settle s).now = s.now := by
  unfold settle
  exact ite_field (π := State.now) rfl
    (foldl_field State.now _ (fun t (x : LaterTally) => field_of State.now (signalTally_only t x.die x.tally x.inc x.at_) (fun _ => rfl)) _ _)

/-! ## What a window's end finds on its units -/

theorem busyUnits_of_units {s t : State} (h : unmetUnits t = unmetUnits s) (w : Window) : busyUnits t w = busyUnits s w := by
  unfold busyUnits unitWork
  refine List.filter_congr (fun u _ => ?_)
  rw [running_of_unmet (congrFun h u), tail_of_unmet (congrFun h u)]

/-! ## The window's outputs become visible -/

/-- State as the window closes in cycle `e`: its outputs are stored, its cue is traced and signals, and the window is gone. -/
def outputsStored (s : State) (w : Window) (e : Nat) : State :=
  writeAll (whoPrompter w.cue) (windowOut (settle (clockTo s e)) w).2 (windowOut (settle (clockTo s e)) w).1

/-- A window of a die leaves the list. -/
def dropWindow (s : State) (d : Die) (cue : Nat) : State :=
  { s with stage := { s.stage with windows := s.stage.windows.filter (fun x => !(x.die = d && x.cue = cue)) } }

/-- The last completion noted, and the windows' own. -/
def windowShown (s : State) (w : Window) (e : Nat) : State :=
  dropWindow (noteDone (signalOpt (traceAt (outputsStored s w e) e 5 (dieplace w.die) 0 0 w.cue 0 (e - w.firedAt)) w.die e w.signal)
    none w.die e) w.die w.cue

/-- Idle cycles of a window whose build did not fail. -/
def countIdle (s : State) (w : Window) (e : Nat) : State :=
  { s with step := { s.step with idleCycles := stopAt top64 (s.step.idleCycles + (e - w.lastDone)) } }

theorem closeWindow_eq (s : State) (w : Window) (ns : List Progress) (e : Nat) (he : e = w.openedAt + wdLen w.desc.toNat - 1) :
    closeWindow s w ns = match busyUnits (windowShown s w e) w with
      | [] => if w.failed then windowShown s w e else countIdle (windowShown s w e) w e
      | us => stopFiring ((withProgress us ns).foldl (stopUnit w e) (clockTo (windowShown s w e) (e + 1))) 2 true (e + 1) := by
  subst he
  rfl

section Shown
variable (s : State) (w : Window) (e : Nat)

theorem windowOut_only (s : State) (w : Window) : butFree (windowOut s w).2 = butFree s ∧ rangesOf (windowOut s w).1 = rangesOf w.outputs := by
  obtain ⟨free, ranges⟩ := drawWrites_only (w.outputs.map (fun x => (x, w.raced))) s
  refine ⟨free, ranges.trans ?_⟩
  rw [List.map_map]
  exact congrArg rangesOf (List.map_id _)

/-- Outputs that no other party met are shown as built. -/
theorem windowOut_unraced (s : State) {w : Window} (h : w.raced = false) : (windowOut s w).1 = w.outputs := by
  have draws (l : List (Nat × List Byte)) (s : State) : (drawWrites (l.map (fun x => (x, false))) s).1 = l := by
    induction l generalizing s with
    | nil => rfl
    | cons x r ih => exact congrArg (x :: ·) (ih s)
  unfold windowOut
  rw [h]
  exact draws _ _

theorem outputsStored_only : butStored (outputsStored s w e) = butStored (settle (clockTo s e)) :=
  (butStored_of_access (writeAll_only _ _ _)).trans (butStored_of_free (windowOut_only _ w).1)

/-- What the close leaves alone: memory and the windows aside, the way to a start. -/
theorem windowShown_field {γ : Type} (π : State → γ) (ha : ∀ t, π (butStored t) = π t) (hc : ∀ t n, π (clockTo t n) = π t)
    (hs : ∀ t, π (settle t) = π t) (ht : ∀ t x, π { t with trace := x } = π t) (hg : ∀ t d c o, π (signalOpt t d c o) = π t)
    (hd : ∀ t win d c, π (noteDone t win d c) = π t) (hw : ∀ t d c, π (dropWindow t d c) = π t) : π (windowShown s w e) = π s := by
  unfold windowShown
  rw [hw, hd, hg]
  exact (ht (outputsStored s w e) _).trans ((field_of π (outputsStored_only s w e) ha).trans ((hs _).trans (hc _ _)))

theorem noteDone_units (s : State) (win : Option Nat) (d : Die) (c : Nat) : unmetUnits (noteDone s win d c) = unmetUnits s := rfl
theorem noteDone_outside (s : State) (win : Option Nat) (d : Die) (c : Nat) : outsideOf (noteDone s win d c) = outsideOf s := rfl
theorem noteDone_bytes (s : State) (win : Option Nat) (d : Die) (c : Nat) : (noteDone s win d c).mem.bytes = s.mem.bytes := rfl
theorem dropWindow_units (s : State) (d : Die) (cue : Nat) : unmetUnits (dropWindow s d cue) = unmetUnits s := rfl
theorem dropWindow_outside (s : State) (d : Die) (cue : Nat) : outsideOf (dropWindow s d cue) = outsideOf s := rfl
theorem dropWindow_bytes (s : State) (d : Die) (cue : Nat) : (dropWindow s d cue).mem.bytes = s.mem.bytes := rfl

theorem noteDone_now (s : State) (win : Option Nat) (d : Die) (c : Nat) : (noteDone s win d c).now = s.now := rfl
theorem dropWindow_now (s : State) (d : Die) (cue : Nat) : (dropWindow s d cue).now = s.now := rfl

theorem butStored_outside (t : State) : outsideOf (butStored t) = outsideOf t := by
  unfold outsideOf butStored butFree butAccess butEvents; rfl

theorem windowShown_units : unmetUnits (windowShown s w e) = unmetUnits s :=
  windowShown_field s w e unmetUnits (fun _ => rfl) clockTo_units settle_units (fun _ _ => rfl) signalOpt_units noteDone_units dropWindow_units

theorem windowShown_outside : outsideOf (windowShown s w e) = outsideOf s :=
  windowShown_field s w e outsideOf butStored_outside (fun t n => outsideOf_of_ready (clockTo_ready t n))
    (fun t => outsideOf_of_ready (settle_ready t)) (fun _ _ => rfl) (fun t d c o => outsideOf_of_ready (signalOpt_ready t d c o))
    noteDone_outside dropWindow_outside

/-- Of the step only the last completion moves. -/
theorem windowShown_step {γ : Type} (f : StepSt → γ) (hu : ∀ x : StepSt, f x.unmarked = f x)
    (hd : ∀ (x : StepSt) n, f { x with lastDone := n } = f x) : f (windowShown s w e).step = f s.step :=
  windowShown_field s w e (fun t => f t.step) (fun t => hu t.step)
    (fun t n => field_of (fun t => f t.step) (clockTo_only t n) (fun _ => rfl))
    (fun t => field_of (fun t => f t.step) (settle_ready t) (fun t => hu t.step)) (fun _ _ => rfl)
    (fun t d c o => field_of (fun t => f t.step) (signalOpt_only t d c o) (fun t => hu t.step)) (fun t _ _ _ => hd t.step _) (fun _ _ _ => rfl)

theorem windowShown_lastDone : (windowShown s w e).step.lastDone = max s.step.lastDone e := by
  have before : (signalOpt (traceAt (outputsStored s w e) e 5 (dieplace w.die) 0 0 w.cue 0 (e - w.firedAt)) w.die e w.signal).step.lastDone =
      s.step.lastDone := by
    refine (field_of (fun t => t.step.lastDone) (signalOpt_only _ w.die e w.signal) (fun _ => rfl)).trans ?_
    refine (field_of (fun t => t.step.lastDone) (outputsStored_only s w e) (fun _ => rfl)).trans ?_
    exact field_of (fun t => t.step.lastDone) (settled_ready s e) (fun _ => rfl)
  exact congrArg (max · e) before

theorem windowShown_bytes : (windowShown s w e).mem.bytes = (outputsStored s w e).mem.bytes := by
  unfold windowShown
  rw [dropWindow_bytes, noteDone_bytes, signalOpt_bytes]
  rfl

theorem windowShown_now {s : State} {e : Nat} (w : Window) (h : reaches s e = true) : (windowShown s w e).now = max s.now e := by
  unfold windowShown
  rw [dropWindow_now, noteDone_now, signalOpt_now, traceAt_now, field_of State.now (outputsStored_only s w e) (fun _ => rfl), settle_now,
    clockTo_now_of_reaches h]

/-- Its windows are the others. -/
theorem windowShown_gone {x : Window} (h : x ∈ (windowShown s w e).stage.windows) : ¬(x.die = w.die ∧ x.cue = w.cue) := by
  have gone := (List.mem_filter.1 h).2
  exact not_and_or.2 (by simpa using gone)

/-- Its outputs are all that becomes visible. -/
theorem windowShown_onlyWrites : onlyWrites s (windowShown s w e) w.outputs := by
  refine onlyWrites_iff.2 (fun a ha => ?_)
  obtain ⟨free, ranges⟩ := windowOut_only (settle (clockTo s e)) w
  have cfg : (windowOut (settle (clockTo s e)) w).2.cfg = s.cfg :=
    (field_of State.cfg free (fun _ => rfl)).trans (field_of State.cfg (settled_ready s e) (fun _ => rfl))
  have spares : Spares (windowOut (settle (clockTo s e)) w).2 (windowOut (settle (clockTo s e)) w).1 a :=
    (Spares.congr cfg).2 (ha.of_ranges (fun q hq => ranges ▸ hq))
  have before : (windowOut (settle (clockTo s e)) w).2.mem.bytes = s.mem.bytes := by
    rw [windowOut, drawWrites_mem, settle_bytes, clockTo_mem]
  rw [physByte_of_bytes (windowShown_bytes s w e), outputsStored, physByte_writeAll spares, physByte_of_bytes before]

end Shown

end Sys2Proof.Machine
end

section
/-! Sp. 02 R55, R64; sp. 07 R194: the units of a window that overruns stop. -/

namespace Sys2Proof.Machine

/-! ## A running cue stops -/

theorem drawUpTo_only (n : Nat) (s : State) : butFree (drawUpTo n s).2 = butFree s := drawBytes_only 4 s

theorem landPreds_only (r : Running) (s : State) : butFree (landPreds r s).2 = butFree s := by
  have each (l : List (Nat × PredDelta)) (x : List PredDelta × State) (f : List PredDelta × State → Nat × PredDelta → List PredDelta × State)
      (h : ∀ x i, butFree (f x i).2 = butFree x.2) : butFree (l.foldl f x).2 = butFree x.2 := by
    induction l generalizing x with
    | nil => rfl
    | cons i r ih => rw [List.foldl_cons, ih, h]
  refine each _ ([], s) _ (fun x p => ?_)
  dsimp only
  split
  · dsimp only
    rw [drawBytes_only, drawUpTo_only, drawUpTo_only, drawUpTo_only]
  · rfl

section Stop
variable {γ : Type} (π : State → γ) (hf : ∀ t, π (butFree t) = π t) (hm : ∀ t m x, π { t with mem := m, tenants := x } = π t)
  (hs : ∀ t l, π (storeFree t l) = π t) (hw : ∀ who t l, π (writeAll who t l) = π t) (ht : ∀ t x, π { t with trace := x } = π t)
  (hp : ∀ t x, π { t with stage := { t.stage with preds := x } } = π t) (hr : ∀ t e, e.kind = 0x0A → π (raise t e) = π t)

include hm in
theorem underFences_field (s : State) (l : List Fence) (g : State → State) (hg : ∀ t, π (g t) = π t) : π (underFences s l g) = π s := by
  unfold underFences
  exact ite_field (hg s) ((hm (g _) _ (g _).tenants).trans ((hg _).trans (hm s _ s.tenants)))

include hf hm in
theorem blurHits_field (b a : State) (l : List Fence) (rd : List (Nat × Nat)) : π (blurHits b a l rd) = π a := by
  unfold blurHits
  refine ite_field rfl ?_
  dsimp only
  refine (foldl_field π _ (fun t i => ?_) _ _).trans (foldl_field π _ (fun t d => ?_) _ _)
  · exact (hm (drawUpTo _ t).2 (drawUpTo _ t).2.mem _).trans (field_of π (drawUpTo_only _ t) hf)
  · exact (hm (drawUpTo _ t).2 _ (drawUpTo _ t).2.tenants).trans (field_of π (drawUpTo_only _ t) hf)

include ht in
theorem traceStalls_field (s : State) (u : UnitId) (cue c : Nat) (l : List Stall) : π (traceStalls s u cue c l) = π s :=
  foldl_field π _ (fun t (_ : Stall) => ht t _) l s

include hp hr in
theorem addPred_field (d : Die) (u : UnitId) (cue c : Nat) (s : State) (p : PredDelta) : π (addPred d u cue c s p) = π s := by
  unfold addPred
  dsimp only
  exact ite_field ((hr _ _ rfl).trans (hp s _)) (hp s _)

include hf hm hs hw ht hp hr

/-- What memory, the trace, the predictors and free values leave alone, the stop of a cue leaves alone. -/
theorem stopRunning_field (u : UnitId) (q : Progress) (e : Nat) (s : State) (r : Running) : π (stopRunning u q e s r) = π s := by
  have landed (n : Nat) : π (stopWrites u n s r).2 = π s := field_of π (landWrites_only _ _ _ _ _).1 hf
  unfold stopRunning
  refine ite_field rfl ?_
  dsimp only
  generalize doneBy u r q.done _ e = k
  have drawn : π (drawBytes 32 (stopWrites u k s r).2).2 = π s := (field_of π (drawBytes_only _ _) hf).trans (landed k)
  have stored (t : State) (g : State → State) (hg : ∀ t, π (g t) = π t) (ht' : π t = π s) :
      π (traceStalls (blurHits t (underFences t r.fenced g) r.fenced (mergeBlocks r.reads)) u r.cue e q.stalls) = π s := by
    rw [traceStalls_field π ht, blurHits_field π hf hm, underFences_field π hm _ _ _ hg, ht']
  have shown := stored (drawBytes 32 (stopWrites u k s r).2).2
    (fun t => storeFree (writeAll (whoUnit u r.cue) t ((stopWrites u k s r).1 ++ [(r.recAt, stopRecord u k r (drawBytes 32 (stopWrites u k s r).2).1)]))
      (r.clash ++ chosenRows u r)) (fun t => (hs _ _).trans (hw _ _ _)) drawn
  have preds := (field_of π (landPreds_only r _) hf).trans shown
  split
  · exact preds
  · exact (addPred_field π hp hr _ _ _ _ _ _).trans preds

end Stop

end Sys2Proof.Machine
end

section
/-! Sp. 02 R52, R55, R64; sp. 07 R194: a window closes in its last cycle, or overruns. -/

namespace Sys2Proof.Machine

/-! ## A unit stops -/

/-- State without what the stop of a cue may touch. -/
def butCut (s : State) : State :=
  { butStored s with trace := State.reset.trace, stage := { (butStored s).stage with preds := [] } }

theorem butCut_of_stored {s t : State} (h : butStored s = butStored t) : butCut s = butCut t :=
  congrArg (fun u : State => { u with trace := State.reset.trace, stage := { u.stage with preds := [] } }) h

theorem stopRunning_only (u : UnitId) (q : Progress) (e : Nat) (s : State) (r : Running) : butCut (stopRunning u q e s r) = butCut s :=
  stopRunning_field butCut (fun _ => rfl) (fun _ _ _ => rfl) (fun _ _ => butCut_of_stored (storeFree_only _ _))
    (fun _ _ _ => butCut_of_stored (butStored_of_access (writeAll_only _ _ _))) (fun _ _ => rfl) (fun _ _ => rfl)
    (fun _ _ _ => butCut_of_stored (butStored_of_access (butAccess_of (raise_only _ _)))) u q e s r

theorem stopRunning_counts (u : UnitId) (q : Progress) (e : Nat) (s : State) (r : Running) (p : Place) :
    countOf (stopRunning u q e s r) 0x04 p = countOf s 0x04 p :=
  stopRunning_field (fun t => countOf t 0x04 p) (fun _ => countOf_congr rfl _ _) (fun _ _ _ => countOf_congr rfl _ _)
    (fun t l => countOf_congr (storeFree_err t l) _ _) (fun who t l => countOf_writeAll (by decide) p who t l)
    (fun _ _ => countOf_congr rfl _ _) (fun _ _ => countOf_congr rfl _ _)
    (fun t x h => countOf_raise_ne t x p (by rw [h]; decide)) u q e s r

/-- All that a unit runs stops. -/
def workStopped (s : State) (u : UnitId) (q : Progress) (e : Nat) : State := (unitWork (unit s u)).foldl (stopRunning u q e) s

/-- A unit with nothing on it from a cycle. -/
def cleared (s : State) (u : UnitId) (at_ : Nat) : State := setUnit s u { unit s u with running := none, tail := [], freeAt := at_ }

/-- The WINDOW_OVERRUN of a unit (sp. 14 Table 14-2). -/
def unitOverrun (w : Window) (u : UnitId) : Event :=
  { kind := 0x04, place := dieplace w.die, unit := unitKind u, inst := unitInst u, cue := w.cue,
    d0 := wdBuilder w.desc.toNat + 2 ^ 8 + unitKind u * 2 ^ 16 + unitInst u * 2 ^ 24, d1 := w.cost, alarm := .every }

theorem stopUnit_eq (w : Window) (e : Nat) (s : State) (x : UnitId × Progress) :
    stopUnit w e s x = raise (cleared (workStopped s x.1 x.2 e) x.1 (e + 1)) (unitOverrun w x.1) := rfl

/-- Nothing runs on a unit, which is free from cycle `at_`. -/
def UnitSt.IdleFrom (v : UnitSt) (at_ : Nat) : Prop := v.running = none ∧ v.tail = [] ∧ v.freeAt = at_

/-- The same of a unit of the device. -/
def Idle (s : State) (at_ : Nat) (u : UnitId) : Prop := (unit s u).IdleFrom at_

section Unit
variable (w : Window) (e : Nat) (s : State) (x : UnitId × Progress)

theorem workStopped_field {γ : Type} (π : State → γ) (h : ∀ t, π (butCut t) = π t) : π (workStopped s x.1 x.2 e) = π s :=
  foldl_field π _ (fun t r => field_of π (stopRunning_only x.1 x.2 e t r) h) _ s

/-- What a stop of the units' cues, the units and one record leave alone, the stop of a unit leaves alone. -/
theorem stopUnit_field {γ : Type} (π : State → γ) (h : ∀ t, π (butCut t) = π t) (hu : ∀ t u v, π (setUnit t u v) = π t) :
    π (stopUnit w e s x) = π s := by
  have events (t : State) (ev : Event) : π (raise t ev) = π t :=
    field_of π (butCut_of_stored (butStored_of_access (butAccess_of (raise_only t ev)))) h
  rw [stopUnit_eq, events, cleared, hu, workStopped_field e s x π h]

theorem stopUnit_self : Idle (stopUnit w e s x) (e + 1) x.1 := by
  have idle : unit (stopUnit w e s x) x.1 =
      { unit (workStopped s x.1 x.2 e) x.1 with running := none, tail := [], freeAt := e + 1 } := by
    rw [stopUnit_eq, unit_of_stage (raise_stage _ _), cleared, unit_setUnit]
  unfold Idle
  rw [idle]
  exact ⟨rfl, rfl, rfl⟩

theorem stopUnit_other {v : UnitId} (h : v ≠ x.1) : unit (stopUnit w e s x) v = unit s v := by
  rw [stopUnit_eq, unit_of_stage (raise_stage _ _), cleared, unit_setUnit_ne _ _ h]
  exact workStopped_field e s x (fun t => unit t v) (fun _ => rfl)

theorem stopUnit_idle {v : UnitId} (h : Idle s (e + 1) v) : Idle (stopUnit w e s x) (e + 1) v := by
  by_cases hv : v = x.1
  · subst hv; exact stopUnit_self w e s x
  · unfold Idle; rw [stopUnit_other w e s x hv]; exact h

/-- It is one WINDOW_OVERRUN of the window's die. -/
theorem stopUnit_counts : countOf (stopUnit w e s x) 0x04 (dieplace w.die) = stopAt top32 (countOf s 0x04 (dieplace w.die) + 1) := by
  have one := countOf_raise_same (cleared (workStopped s x.1 x.2 e) x.1 (e + 1)) (unitOverrun w x.1)
  have before : countOf (cleared (workStopped s x.1 x.2 e) x.1 (e + 1)) 0x04 (dieplace w.die) = countOf s 0x04 (dieplace w.die) :=
    (countOf_congr (setUnit_err _ _ _) _ _).trans (foldl_field (fun t => countOf t 0x04 (dieplace w.die)) _
      (fun t r => stopRunning_counts x.1 x.2 e t r _) _ s)
  exact one.trans (congrArg (fun n => stopAt top32 (n + 1)) before)

end Unit

/-! ## All the units stop -/

section Units
variable (w : Window) (e : Nat) (l : List (UnitId × Progress)) (s : State)

theorem stopUnits_field {γ : Type} (π : State → γ) (h : ∀ t, π (butCut t) = π t) (hu : ∀ t u v, π (setUnit t u v) = π t) :
    π (l.foldl (stopUnit w e) s) = π s := foldl_field π _ (fun t x => stopUnit_field w e t x π h hu) l s

theorem stopUnits_kept {v : UnitId} (h : Idle s (e + 1) v) : Idle (l.foldl (stopUnit w e) s) (e + 1) v := by
  induction l generalizing s with
  | nil => exact h
  | cons x r ih => exact ih _ (stopUnit_idle w e s x h)

theorem stopUnits_idle {x : UnitId × Progress} (hx : x ∈ l) : Idle (l.foldl (stopUnit w e) s) (e + 1) x.1 := by
  induction l generalizing s with
  | nil => cases hx
  | cons y r ih =>
    rcases List.mem_cons.1 hx with rfl | hx
    · exact stopUnits_kept w e r _ (stopUnit_self w e s x)
    · exact ih _ hx

/-- Each is one more, as far as the count goes. -/
theorem stopUnits_counts (hl : l ≠ []) : countOf (l.foldl (stopUnit w e) s) 0x04 (dieplace w.die) =
    stopAt top32 (countOf s 0x04 (dieplace w.die) + l.length) := by
  induction l generalizing s with
  | nil => exact absurd rfl hl
  | cons x r ih =>
    cases r with
    | nil => exact stopUnit_counts w e s x
    | cons y r =>
      rw [List.foldl_cons, ih _ (by simp), stopUnit_counts]
      simp only [List.length_cons, stopAt]
      omega

end Units

theorem withProgress_units (us : List UnitId) (ns : List Progress) : (withProgress us ns).map (·.1) = us := by
  induction us generalizing ns with
  | nil => cases ns <;> rfl
  | cons u r ih => cases ns <;> exact congrArg (u :: ·) (ih _)

/-! ## Firing stops: the units stay idle -/

/-- The units with the pending cues of the chosen dies discarded; those that are as at reset leave the list. -/
def keptUnits (sel : Nat → Bool) (l : Sparse UnitSt) : Sparse UnitSt :=
  (l.map (fun e => if sel (keyDie e.1) then (e.1, e.2.dropPending) else e)).filter (fun e => decide (e.2 ≠ noUnit e.1))

theorem keptUnits_cons (sel : Nat → Bool) (k : Nat) (v : UnitSt) (l : Sparse UnitSt) : keptUnits sel ((k, v) :: l) =
    if (if sel (keyDie k) then v.dropPending else v) ≠ noUnit k then (k, if sel (keyDie k) then v.dropPending else v) :: keptUnits sel l
    else keptUnits sel l := by
  unfold keptUnits
  rw [List.map_cons, List.filter_cons]
  by_cases h : sel (keyDie k) = true <;> simp [h]

/-- A unit that is free from a cycle of its own is not as at reset, so it stays listed. -/
theorem keptUnits_idle (sel : Nat → Bool) {at_ k : Nat} (l : Sparse UnitSt) (h : (Sparse.get noUnit l k).IdleFrom (at_ + 1)) :
    (Sparse.get noUnit (keptUnits sel l) k).IdleFrom (at_ + 1) := by
  induction l with
  | nil => exact h
  | cons x r ih =>
    obtain ⟨j, v⟩ := x
    rw [keptUnits_cons]
    by_cases hj : j = k
    · subst hj
      rw [Sparse.get, if_pos rfl] at h
      have idle : (if sel (keyDie j) then v.dropPending else v).IdleFrom (at_ + 1) := by split <;> exact h
      have listed : (if sel (keyDie j) then v.dropPending else v) ≠ noUnit j := fun e => by
        rw [e] at idle
        exact Nat.succ_ne_zero at_ idle.2.2.symm
      rw [if_pos listed, Sparse.get, if_pos rfl]
      exact idle
    · rw [Sparse.get, if_neg hj] at h
      generalize (if sel (keyDie j) then v.dropPending else v) = v'
      split
      · rw [Sparse.get, if_neg hj]; exact ih h
      · exact ih h

theorem discardPending_idle {s : State} {at_ : Nat} {u : UnitId} (sel : Nat → Bool) (h : Idle s (at_ + 1) u) :
    Idle (discardPending s sel) (at_ + 1) u := keptUnits_idle sel s.stage.units h

theorem stopFiring_idle {s : State} {at_ : Nat} {u : UnitId} (cause : Byte) (failed : Bool) (n : Nat) (h : Idle s (at_ + 1) u) :
    Idle (stopFiring s cause failed n) (at_ + 1) u := by
  have stopped (t : State) (ht : Idle t (at_ + 1) u) : Idle (if stopNow t then discardPending t (fun _ => true) else t) (at_ + 1) u := by
    split
    · exact discardPending_idle _ ht
    · exact ht
  exact stopped _ h

/-! ## The close -/

section Close
variable {s : State} {w : Window} {e : Nat} (ns : List Progress) (he : e = w.openedAt + wdLen w.desc.toNat - 1)
include he

theorem closeWindow_shows (hb : busyUnits s w = []) :
    closeWindow s w ns = if w.failed then windowShown s w e else countIdle (windowShown s w e) w e := by
  rw [closeWindow_eq s w ns e he, busyUnits_of_units (windowShown_units s w e), hb]

theorem closeWindow_overruns (hb : busyUnits s w ≠ []) : closeWindow s w ns =
    stopFiring ((withProgress (busyUnits s w) ns).foldl (stopUnit w e) (clockTo (windowShown s w e) (e + 1))) 2 true (e + 1) := by
  rw [closeWindow_eq s w ns e he, busyUnits_of_units (windowShown_units s w e)]
  split
  · next h => exact absurd h hb
  · rfl

end Close

section Exec
variable {s : State} {d : Die} {cue e : Nat} {w : Window} (ns : List Progress)
  (hw : s.stage.windows.find? (fun x => x.die = d && x.cue = cue) = some w) (he : e = w.openedAt + wdLen w.desc.toNat - 1)
include hw he

theorem execWindowClose_early (hr : reaches s e = false) : exec (.windowClose d cue ns) s = .next s := by
  change execWindowClose d cue ns s = _
  unfold execWindowClose
  rw [hw]
  dsimp only
  rw [← he, if_neg (by rw [hr]; decide)]

theorem execWindowClose_closes (hr : reaches s e = true) : exec (.windowClose d cue ns) s = .next (closeWindow s w ns) := by
  change execWindowClose d cue ns s = _
  unfold execWindowClose
  rw [hw]
  dsimp only
  rw [← he, if_pos hr]

end Exec

/-- The idle cycles move alone. -/
theorem countIdle_field {γ : Type} (π : State → γ) (h : ∀ (t : State) n, π { t with step := { t.step with idleCycles := n } } = π t) (s : State)
    (w : Window) (e : Nat) : π (if w.failed then s else countIdle s w e) = π s := ite_field rfl (h s _)

/-- State with the units of a window stopped. -/
def unitsStopped (s : State) (w : Window) (e : Nat) (l : List (UnitId × Progress)) : State :=
  l.foldl (stopUnit w e) (clockTo (windowShown s w e) (e + 1))

section Stopped
variable (s : State) (w : Window) (e : Nat) (l : List (UnitId × Progress))

theorem unitsStopped_field {γ : Type} (π : State → γ) (h : ∀ t, π (butCut t) = π t) (hu : ∀ t u v, π (setUnit t u v) = π t)
    (hc : ∀ t n, π (clockTo t n) = π t) : π (unitsStopped s w e l) = π (windowShown s w e) :=
  (stopUnits_field w e l _ π h hu).trans (hc _ _)

theorem unitsStopped_windows : (unitsStopped s w e l).stage.windows = (windowShown s w e).stage.windows :=
  unitsStopped_field s w e l (fun t => t.stage.windows) (fun _ => rfl) (fun _ _ _ => rfl) (fun t n => by rw [clockTo_stage])

theorem unitsStopped_outside : outsideOf (unitsStopped s w e l) = outsideOf s := by
  have cut (t : State) : outsideOf (butCut t) = outsideOf t := by
    unfold outsideOf butCut butStored butFree butAccess butEvents; rfl
  exact (unitsStopped_field s w e l outsideOf cut (fun _ _ _ => rfl) (fun t n => outsideOf_of_ready (clockTo_ready t n))).trans
    (windowShown_outside s w e)

theorem unitsStopped_cause : (unitsStopped s w e l).step.cause = s.step.cause :=
  (unitsStopped_field s w e l (fun t => t.step.cause) (fun _ => rfl) (fun _ _ _ => rfl) (fun t n => by rw [clockTo_step])).trans
    (windowShown_step s w e StepSt.cause (fun _ => rfl) (fun _ _ => rfl))

theorem windowShown_counts (p : Place) : countOf (windowShown s w e) 0x04 p = countOf s 0x04 p := by
  have shown : countOf (windowShown s w e) 0x04 p =
      countOf (signalOpt (traceAt (outputsStored s w e) e 5 (dieplace w.die) 0 0 w.cue 0 (e - w.firedAt)) w.die e w.signal) 0x04 p :=
    countOf_congr rfl _ _
  have free := (windowOut_only (settle (clockTo s e)) w).1
  have traced : countOf (traceAt (outputsStored s w e) e 5 (dieplace w.die) 0 0 w.cue 0 (e - w.firedAt)) 0x04 p = countOf (outputsStored s w e) 0x04 p :=
    countOf_congr rfl _ _
  rw [shown, countOf_signalOpt (by decide), traced, outputsStored, countOf_writeAll (by decide),
    countOf_congr (field_of State.err free (fun _ => rfl)), countOf_settle (by decide), countOf_clockTo]

end Stopped

/-- Settles O37: a window closes in its last cycle, or its units stop. -/
theorem aWindowClosesInItsLastCycle : Obligations.AWindowClosesInItsLastCycle := by
  intro d cue e ns s w hw he
  have named : w.die = d ∧ w.cue = cue := by simpa using List.find?_some hw
  obtain ⟨rfl, rfl⟩ := named
  refine ⟨execWindowClose_early ns hw he, fun hr hb => ?closes, fun hr hb => ?overruns⟩
  case closes =>
    have runs := (execWindowClose_closes ns hw he hr).trans (next_congr (closeWindow_shows ns he hb))
    have idle {γ : Type} (π : State → γ) (h : ∀ (t : State) n, π { t with step := { t.step with idleCycles := n } } = π t) :=
      countIdle_field π h (windowShown s w e) w e
    refine ⟨_, _, runs, ?_, rfl, windowOut_unraced _, ?_, ?_, ?_, fun v => ?_, fun x hx => ?_, fun hf => ?_, ?_, (outsideKept_iff _ _).2 ?_⟩
    · exact (idle State.now (fun _ _ => rfl)).trans (windowShown_now w hr)
    · exact (idle (fun t => t.mem.bytes) (fun _ _ => rfl)).trans (windowShown_bytes s w e)
    · exact (windowShown_onlyWrites s w e).congr rfl rfl (idle (fun t => t.mem.bytes) (fun _ _ => rfl))
    · exact (idle (fun t => t.step.lastDone) (fun _ _ => rfl)).trans (windowShown_lastDone s w e)
    · exact (congrFun (idle plainUnits (fun _ _ => rfl)) v).trans (plainUnit_of_unmet (congrFun (windowShown_units s w e) v))
    · rw [idle (fun t => t.stage.windows) (fun _ _ => rfl)] at hx
      exact windowShown_gone s w e hx
    · rw [if_neg (by rw [hf]; decide), countIdle, windowShown_step s w e StepSt.idleCycles (fun _ => rfl) (fun _ _ => rfl)]
    · exact (idle (fun t => t.step.stopped) (fun _ _ => rfl)).trans (windowShown_step s w e StepSt.stopped (fun _ => rfl) (fun _ _ => rfl))
    · exact (idle outsideOf (fun _ _ => rfl)).trans (windowShown_outside s w e)
  case overruns =>
    have runs : exec (.windowClose w.die w.cue ns) s = .next (stopFiring (unitsStopped s w e (withProgress (busyUnits s w) ns)) 2 true (e + 1)) :=
      (execWindowClose_closes ns hw he hr).trans (next_congr (closeWindow_overruns ns he hb))
    have units := withProgress_units (busyUnits s w) ns
    have length : (withProgress (busyUnits s w) ns).length = (busyUnits s w).length :=
      (List.length_map _).symm.trans (congrArg List.length units)
    generalize withProgress (busyUnits s w) ns = l at *
    have some_unit : l ≠ [] := fun h => hb (by rw [← units, h]; rfl)
    have cause := unitsStopped_cause s w e l
    refine ⟨_, runs, fun x hx => ?_, stopFiring_stopped _ _ _ _, fun u hu => ?_, ?_, fun hc => ?_, fun hc => ?_, (outsideKept_iff _ _).2 ?_⟩
    · rw [field_of (fun t => t.stage.windows) (stopFiring_stops _ _ _ _) (fun _ => rfl), unitsStopped_windows] at hx
      exact windowShown_gone s w e hx
    · obtain ⟨x, hx, rfl⟩ := List.mem_map.1 (units ▸ hu)
      obtain ⟨running, tail, _⟩ := stopFiring_idle 2 true (e + 1) (stopUnits_idle w e l (clockTo (windowShown s w e) (e + 1)) hx)
      exact ⟨running, tail⟩
    · rw [countOf_congr (stopFiring_err _ _ _ _), unitsStopped, stopUnits_counts w e l _ some_unit, countOf_clockTo, windowShown_counts, length]
    · exact stopFiring_first _ _ _ _ (cause.trans hc)
    · exact (stopFiring_later _ _ _ _ (by rw [cause]; exact hc)).1.trans cause
    · exact (stopFiring_outside _ _ _ _).trans (unitsStopped_outside s w e l)

end Sys2Proof.Machine
end

section
/-! Sp. 02 R62-R64: the channels are recycled and the step's record is made. -/

namespace Sys2Proof.Machine

/-! ## The channels that the step leaves are recycled -/

/-- State without what the recycling of a channel may touch. -/
def butRecycled (s : State) : State :=
  let t := butStored s
  { t with dma := [], secure := State.reset.secure, nand := State.reset.nand, ports := [], arbs := [],
           stage := { t.stage with units := [] }, step := { t.step with dropped := false } }

theorem butRecycled_of_stored {s t : State} (h : butStored s = butStored t) : butRecycled s = butRecycled t :=
  congrArg (fun u : State => { u with
    dma := [], secure := State.reset.secure, nand := State.reset.nand, ports := [], arbs := [],
    stage := { u.stage with units := [] }, step := { u.step with dropped := false } }) h

theorem butRecycled_of_free {s t : State} (h : butFree s = butFree t) : butRecycled s = butRecycled t := butRecycled_of_stored (butStored_of_free h)

theorem streamBack_recycled (s : State) (d : Die) (n : Fin 128) (r : Running) : butRecycled (streamBack s d n r) = butRecycled s := by
  unfold streamBack
  dsimp only
  split
  · rfl
  · exact ite_field rfl rfl

theorem nandPut_recycled (s : State) (x : Nat × List Byte) : butRecycled (nandPut s x) = butRecycled s := by
  unfold nandPut setNandSlot
  exact ite_field rfl rfl

theorem freeNand_recycled (s : State) (l : List (Nat × Nat)) : butRecycled (freeNand s l) = butRecycled s :=
  foldl_field butRecycled (fun t (x : Nat × Nat) => nandPut (drawBytes x.2 t).2 (x.1, (drawBytes x.2 t).1))
    (fun t x => (nandPut_recycled _ _).trans (butRecycled_of_free (drawBytes_only x.2 t))) l s

theorem freeMoves_recycled (s : State) (l : List Move) : butRecycled (freeMoves s l) = butRecycled s :=
  butRecycled_of_stored (storeFree_only s _)

theorem setChan_recycled (s : State) (d : Die) (n : Fin 128) (c : Channel) : butRecycled (setChan s d n c) = butRecycled s := rfl
theorem forgetSends_recycled (s : State) (d : Die) (n : Fin 128) : butRecycled (forgetSends s d n) = butRecycled s := rfl
theorem withdrawChannel_recycled (s : State) (d : Die) (n : Fin 128) : butRecycled (withdrawChannel s d n) = butRecycled s := rfl
theorem setUnit_recycled (s : State) (u : UnitId) (v : UnitSt) : butRecycled (setUnit s u v) = butRecycled s := rfl

theorem dropChannel_recycled (s : State) (d : Die) (n : Fin 128) : butRecycled (dropChannel s d n) = butRecycled s := by
  have back (l : List Running) : butRecycled (l.foldl (fun t r => if r.halted then t else streamBack t d n r) s) = butRecycled s :=
    foldl_field butRecycled _ (fun t r => ite_field rfl (streamBack_recycled t d n r)) l s
  have dropped (t : State) (x : Bool) : butRecycled { t with step := { t.step with dropped := x } } = butRecycled t := rfl
  unfold dropChannel
  dsimp only
  refine ite_field ((dropped _ true).trans ?_) ?_
  all_goals rw [setUnit_recycled, withdrawChannel_recycled, forgetSends_recycled, setChan_recycled,
    butRecycled_of_free (drawBytes_only _ _), freeMoves_recycled, freeNand_recycled, back]

theorem recycleChannels_only (s : State) : butRecycled (recycleChannels s) = butRecycled s :=
  foldl_field butRecycled (fun t (e : Nat × Channel) => recycleOne t (Fin.ofNat 4 (e.1 / 128)) (Fin.ofNat 128 e.1))
    (fun t _ => (setChan_recycled _ _ _ _).trans (dropChannel_recycled t _ _)) _ s

/-- With no channel left over nothing is recycled. -/
theorem recycleChannels_none {s : State} (h : s.dma.filter (fun e => leftOver e.2) = []) : recycleChannels s = s := by
  unfold recycleChannels; rw [h]; rfl

theorem atEnd_only (s : State) : butClock (atEnd s) = butClock s := by
  unfold atEnd
  exact ite_field (clockTo_only _ _) (ite_field (clockTo_only _ _) rfl)

/-- What the clock and the recycling leave alone is, as the step's record is made, as it was. -/
theorem recycled_field {γ : Type} (f : State → γ) (hc : ∀ t, f (butClock t) = f t) (hr : ∀ t, f (butRecycled t) = f t) (s : State) :
    f (recycleChannels (atEnd s)) = f s := (field_of f (recycleChannels_only _) hr).trans (field_of f (atEnd_only s) hc)

end Sys2Proof.Machine
end

section
/-! Sp. 02 R62-R64, R493: what the end of a step leaves, and its report. -/

namespace Sys2Proof.Machine

/-! ## A frame sent leaves the carrier -/

theorem emit_carrier (s : State) (k : Kcp) (f : FrameOut) (q : BitVec 32) : (emit s k f q).ctl.carrier = s.ctl.carrier := by cases k <;> rfl

theorem sendOn_carrier (s : State) (k : Kcp) (f : FrameOut) : (sendOn s k f).ctl.carrier = s.ctl.carrier := by
  unfold sendOn
  split
  · exact emit_carrier _ _ _ _
  · exact emit_carrier s k f (s.ses.out f.cls)

theorem sendFrame_carrier (s : State) (f : FrameOut) : (sendFrame s f).ctl.carrier = s.ctl.carrier := by
  unfold sendFrame
  split
  · rfl
  · exact sendOn_carrier _ _ _

theorem replyFrames_carrier (s : State) (opcode : Byte) (refSeq : BitVec 32) (status : Byte) (l : List (List Byte)) :
    (replyFrames s opcode refSeq status l).ctl.carrier = s.ctl.carrier := by
  induction l generalizing s with
  | nil => rfl
  | cons p r ih =>
    cases r with
    | nil => exact sendFrame_carrier _ _
    | cons q r => exact (ih _).trans (sendFrame_carrier _ _)

theorem finish_carrier (s : State) (o : Owed) (status : Byte) (payload : List Byte) : (finish s o status payload).ctl.carrier = s.ctl.carrier := by
  refine (replyFrames_carrier _ _ _ _ _).trans ?_
  unfold storeReply
  exact ite_field (π := fun t : State => t.ctl.carrier) rfl rfl

/-- A frame that has a carrier is sent. -/
theorem sendFrame_sent {s : State} {k : Kcp} (f : FrameOut) (h : s.ctl.carrier = some k) :
    ∃ x ∈ (sendFrame s f).ctl.sent, x.opcode = f.opcode ∧ x.report = f.report ∧ x.payload = f.payload := by
  have emitted (q : BitVec 32) : ∃ x ∈ (emit s k f q).ctl.sent, x.opcode = f.opcode ∧ x.report = f.report ∧ x.payload = f.payload := by
    unfold emit
    exact ⟨_, List.mem_append_right _ (List.mem_singleton_self _), rfl, rfl, rfl⟩
  unfold sendFrame
  rw [h]
  dsimp only
  unfold sendOn
  split
  · exact emitted 0
  · exact emitted _

theorem sendReport_sent {s : State} {k : Kcp} (opcode : Byte) (cls : BitVec 2) (payload : List Byte) (h : s.ctl.carrier = some k) :
    ∃ x ∈ (sendReport s opcode cls payload).ctl.sent, x.opcode = opcode ∧ x.report = true ∧ x.payload = payload := sendFrame_sent _ h

/-! ## The work before the step's record is closed -/

/-- State without what comes before the step's own state is cleared. -/
def butClosing (s : State) : State :=
  { butFrames (butEvents s) with secure := State.reset.secure, journal := State.reset.journal, store0 := CueStore.reset, store1 := CueStore.reset }

/-- An asked hold ends with NO_STEP. -/
def holdEnded (s : State) : State :=
  match s.step.hold with
  | some (_, o) => finish s o stNoStep []
  | none => s

/-- An image that is being made is discarded. -/
def imageEnded (s : State) : State := if s.secure.st = .freezing then discardImage s 1 else s

/-- The tiers of the image that the step froze. -/
def frozeTiers (s : State) : BitVec 3 :=
  match s.secure.image with
  | some i => if s.step.freezes then BitVec.ofNat 3 (b01 (i.tiers.contains 1) + 2 * b01 (i.tiers.contains 2) + 4 * b01 (i.tiers.contains 3)) else 0
  | none => 0

/-- The step's entry of the journal is completed. -/
def entryEnded (s : State) (state cause : Byte) (eb : BitVec 48) : State :=
  journalEnd s (fun e => { e with endState := BitVec.ofNat 2 state.toNat, cause := cause, endBeat := eb, froze := frozeTiers s })

/-- The step's sheet is VERIFIED again. -/
def sheetEnded (s : State) : State := setStore s s.step.store { storeAt s s.step.store with st := .verified }

/-- All that comes before the step's own state is cleared. -/
def closing (s : State) (state cause : Byte) : State := sheetEnded (entryEnded (imageEnded (holdEnded s)) state cause (beatNow s))

theorem butClosing_of_events {s t : State} (h : butEvents s = butEvents t) : butClosing s = butClosing t :=
  congrArg (fun u : State => { butFrames u with
    secure := State.reset.secure, journal := State.reset.journal, store0 := CueStore.reset, store1 := CueStore.reset }) h

theorem holdEnded_only (s : State) : butClosing (holdEnded s) = butClosing s := by
  unfold holdEnded
  split
  · exact (congrArg butClosing (finish_only _ _ _ _) :)
  · rfl

/-- State without the image that is being made. -/
def imageGone (s : State) : State := { s with secure := { s.secure with image := none, st := .idle, firmware := false } }

theorem imageGone_only (s : State) : butClosing (imageGone s) = butClosing s := rfl

theorem imageEnded_only (s : State) : butClosing (imageEnded s) = butClosing s := by
  have raised (t : State) (e : Event) : butClosing (raise (imageGone t) e) = butClosing t :=
    (butClosing_of_events (raise_only (imageGone t) e)).trans (imageGone_only t)
  unfold imageEnded discardImage imageError
  refine ite_field ?_ rfl
  split
  · rfl
  · exact raised s _

theorem entryEnded_only (s : State) (state cause : Byte) (eb : BitVec 48) : butClosing (entryEnded s state cause eb) = butClosing s := by
  unfold entryEnded journalEnd
  split <;> rfl

theorem sheetEnded_only (s : State) : butClosing (sheetEnded s) = butClosing s := by
  unfold sheetEnded setStore
  exact ite_field rfl rfl

theorem closing_only (s : State) (state cause : Byte) : butClosing (closing s state cause) = butClosing s :=
  (sheetEnded_only _).trans ((entryEnded_only _ _ _ _).trans ((imageEnded_only _).trans (holdEnded_only s)))

/-- What closes the step leaves it what it is, but for what events mark. -/
theorem closing_step {γ : Type} (f : StepSt → γ) (h : ∀ x : StepSt, f x.unmarked = f x) (s : State) (state cause : Byte) :
    f (closing s state cause).step = f s.step :=
  field_of (fun t : State => f t.step) (closing_only s state cause) (fun t => h t.step)

theorem closing_cfg (s : State) (state cause : Byte) : (closing s state cause).cfg = s.cfg :=
  field_of State.cfg (closing_only s state cause) (fun _ => rfl)

theorem closing_stage (s : State) (state cause : Byte) : (closing s state cause).stage = s.stage :=
  field_of State.stage (closing_only s state cause) (fun _ => rfl)

theorem closing_carrier (s : State) (state cause : Byte) : (closing s state cause).ctl.carrier = s.ctl.carrier := by
  have hold : (holdEnded s).ctl.carrier = s.ctl.carrier := by
    unfold holdEnded
    split
    · exact finish_carrier _ _ _ _
    · rfl
  have image (t : State) : (imageEnded t).ctl = t.ctl := by
    unfold imageEnded discardImage imageError
    refine ite_field (π := State.ctl) ?_ rfl
    split
    · rfl
    · exact raise_ctl _ _
  have entry (t : State) : (entryEnded t state cause (beatNow s)).ctl = t.ctl := by
    unfold entryEnded journalEnd
    split <;> rfl
  unfold closing sheetEnded
  rw [setStore_ctl, entry, image, hold]

theorem closing_store (s : State) (state cause : Byte) : (storeAt (closing s state cause) s.step.store).st = .verified := by
  have store : (entryEnded (imageEnded (holdEnded s)) state cause (beatNow s)).step.store = s.step.store :=
    field_of (fun t : State => t.step.store) ((entryEnded_only _ _ _ _).trans ((imageEnded_only _).trans (holdEnded_only s))) (fun _ => rfl)
  unfold closing sheetEnded
  rw [store, storeAt_setStore]

/-! ## The step's own state is cleared -/

/-- The step as its end leaves it (sp. 02 R62-R64). -/
def stepOver (t : StepSt) (inPlace committed : Bool) (eb : BitVec 48) : StepSt :=
  { t with phase := .idle, stopped := false, stopAt := 0, cause := 0, failed := false, suspect := false, replay := false, originF := none,
           originS := none, hold := none, resume := none, curtains := [], prevEnd := some eb, freezes := false, dropped := false,
           dirty := t.dirty || (inPlace && !committed),
           lastCommitted := (if committed then t.number else t.lastCommitted),
           lastHash := (if committed then t.hash else t.lastHash), lastMode := (if committed then inPlace else t.lastMode) }

/-- The dies as the step's end leaves them: a swap commit toggles its regions. -/
def stepCleared (s : State) (inPlace committed : Bool) (eb : BitVec 48) : State :=
  { s with step := stepOver s.step inPlace committed eb, tenants := clearActive s.tenants,
           stage := { s.stage with units := [], windows := [], lends := [] },
           cfg := { s.cfg with regions := (if committed && !inPlace then toggleRegions s.cfg.regions else s.cfg.regions) } }

/-- The securing tiers that are due, but for a step that leaves the state dirty. -/
def tiersAsked (s : State) (dirty : Bool) : State := if dirty then s else { s with secure := { s.secure with due := dueTiers s } }

/-- The neighbours hear of a failed step. -/
def failNoted (s : State) (state cause : Byte) (number : Nat) : State := if state = 3 then noticeAll s 1 number cause else s

/-- The state as the step-end report is sent. -/
def stepOut (s : State) (state cause : Byte) : State :=
  tiersAsked (stepCleared (closing s state cause) (sheet s).inPlace (decide (state = 1)) (beatNow s)) ((sheet s).inPlace && !decide (state = 1))

theorem endStep_eq (s : State) (state cause : Byte) : endStep s state cause =
    failNoted (sendReport (stepOut s state cause) 0x46 1 (stepEndRecord s state cause (beatNow s))) state cause
      (closing s state cause).step.number.toNat := rfl

/-- State without what the report, the notices and the tiers touch. -/
def butReported (s : State) : State := { butFrames s with ports := [], secure := State.reset.secure }

theorem butReported_of_ports {s t : State} (h : { s with ports := [] } = { t with ports := [] }) : butReported s = butReported t :=
  congrArg (fun u : State => { butFrames u with secure := State.reset.secure }) h

theorem butReported_of_frames {s t : State} (h : butFrames s = butFrames t) : butReported s = butReported t :=
  congrArg (fun u : State => { u with ports := [], secure := State.reset.secure }) h

theorem notice1_only (code : Byte) (stepNo : Nat) (cause : Byte) (s : State) (p : PortNo) : { notice1 code stepNo cause s p with ports := [] } =
    { s with ports := [] } := by
  unfold notice1
  split <;> rfl

theorem failNoted_only (s : State) (state cause : Byte) (number : Nat) : { failNoted s state cause number with ports := [] } =
    { s with ports := [] } := by
  unfold failNoted
  split
  · exact foldl_field (fun t : State => { t with ports := [] }) _ (notice1_only 1 number cause) allPorts s
  · rfl

theorem tiersAsked_only (s : State) (dirty : Bool) : butReported (tiersAsked s dirty) = butReported s := by
  unfold tiersAsked
  split <;> rfl

theorem stepOut_only (s : State) (state cause : Byte) : butReported (stepOut s state cause) =
    butReported (stepCleared (closing s state cause) (sheet s).inPlace (decide (state = 1)) (beatNow s)) := by
  unfold stepOut
  exact tiersAsked_only _ _

theorem endStep_only (s : State) (state cause : Byte) : butReported (endStep s state cause) =
    butReported (stepCleared (closing s state cause) (sheet s).inPlace (decide (state = 1)) (beatNow s)) := by
  have noted (t : State) (n : Nat) : butReported (failNoted t state cause n) = butReported t :=
    butReported_of_ports (failNoted_only t state cause n)
  have sent (t : State) (l : List Byte) : butReported (sendReport t 0x46 1 l) = butReported t :=
    butReported_of_frames (sendReport_only t 0x46 1 l)
  rw [endStep_eq, noted, sent, stepOut_only]

/-! ## What the end leaves -/

section End
variable (s : State) (state cause : Byte)

theorem endStep_field {γ : Type} (f : State → γ) (h : ∀ t, f (butReported t) = f t) : f (endStep s state cause) =
    f (stepCleared (closing s state cause) (sheet s).inPlace (decide (state = 1)) (beatNow s)) := field_of f (endStep_only s state cause) h

theorem endStep_step : (endStep s state cause).step = stepOver (closing s state cause).step (sheet s).inPlace (decide (state = 1)) (beatNow s) :=
  endStep_field s state cause State.step (fun _ => rfl)

theorem endStep_phase : (endStep s state cause).step.phase = .idle := by rw [endStep_step]; rfl

theorem endStep_lastCommitted : (endStep s state cause).step.lastCommitted = if state = 1 then s.step.number else s.step.lastCommitted := by
  have number := closing_step StepSt.number (fun _ => rfl) s state cause
  have last := closing_step StepSt.lastCommitted (fun _ => rfl) s state cause
  rw [endStep_step, ← number, ← last]
  unfold stepOver
  dsimp only
  simp only [decide_eq_true_eq]

theorem endStep_dirty : (endStep s state cause).step.dirty = (s.step.dirty || ((sheet s).inPlace && !decide (state = 1))) := by
  rw [endStep_step, ← closing_step StepSt.dirty (fun _ => rfl) s state cause]
  rfl

theorem endStep_store : (storeAt (endStep s state cause) s.step.store).st = .verified :=
  (endStep_field s state cause (fun t => (storeAt t s.step.store).st) (fun _ => rfl)).trans (closing_store s state cause)

theorem endStep_stage : (endStep s state cause).stage = { s.stage with units := [], windows := [], lends := [] } := by
  rw [← closing_stage s state cause]
  exact endStep_field s state cause State.stage (fun _ => rfl)

theorem endStep_cfg : (endStep s state cause).cfg =
    { s.cfg with regions := (if decide (state = 1) && !(sheet s).inPlace then toggleRegions s.cfg.regions else s.cfg.regions) } := by
  rw [← closing_cfg s state cause]
  exact endStep_field s state cause State.cfg (fun _ => rfl)

/-- No tenant is active in a table that the step's end has cleared. -/
theorem clearActive_inactive (m : Sparse Tenant) (i : Nat) : (Sparse.get noTenant (clearActive m) i).active = false := by
  unfold clearActive
  induction m with
  | nil => rfl
  | cons e r ih =>
    rw [List.map_cons, List.filter_cons]
    split
    · rw [Sparse.get]
      split
      · rfl
      · exact ih
    · exact ih

theorem endStep_inactive (i : Nat) : (tenant (endStep s state cause) i).active = false := by
  unfold tenant
  rw [endStep_field s state cause State.tenants (fun _ => rfl)]
  exact clearActive_inactive _ i

/-! ## The step-end report -/

/-- The record begins with the step's number, how it ended and why. -/
theorem stepEndRecord_head (eb : BitVec 48) : (stepEndRecord s state cause eb).take 10 = toLE 8 s.step.number.toNat ++ [state, cause] := by
  have head : ∃ r, stepEndRecord s state cause eb = (toLE 8 s.step.number.toNat ++ [state, cause]) ++ r := by
    unfold stepEndRecord
    simp only [List.append_assoc]
    exact ⟨_, rfl⟩
  obtain ⟨r, hr⟩ := head
  rw [hr]
  exact List.take_left' (by rw [List.length_append, toLE_length]; rfl)

theorem endStep_report {k : Kcp} (h : s.ctl.carrier = some k) :
    ∃ x ∈ (endStep s state cause).ctl.sent, x.opcode = 0x46 ∧ x.report = true ∧
      x.payload.take 10 = toLE 8 s.step.number.toNat ++ [state, cause] := by
  have carried : (stepOut s state cause).ctl.carrier = some k := by
    rw [← h, ← closing_carrier s state cause]
    unfold stepOut tiersAsked
    exact ite_field (π := fun t : State => t.ctl.carrier) rfl rfl
  have noted (t : State) (n : Nat) : (failNoted t state cause n).ctl = t.ctl :=
    (congrArg State.ctl (failNoted_only t state cause n) :)
  obtain ⟨x, hx, opcode, report, payload⟩ := sendReport_sent 0x46 1 (stepEndRecord s state cause (beatNow s)) carried
  refine ⟨x, ?_, opcode, report, ?_⟩
  · rw [endStep_eq, noted]
    exact hx
  · rw [payload]
    exact stepEndRecord_head s state cause _

end End

end Sys2Proof.Machine
end

section
/-! Sp. 02 R62-R64, sp. 08 R244, R247: a step commits, or ends FAILED or SUSPECT; its drain ends. -/

namespace Sys2Proof.Machine

/-! ## The state regions that a step leaves undefined -/

theorem leaveState_commit (inPlace : Bool) (s : State) : leaveState inPlace 1 s = s := by unfold leaveState; exact if_pos rfl

/-- The ranges of the state regions that a step without a commit leaves undefined. -/
def undefinedRanges (inPlace : Bool) (s : State) : List (Nat × Nat) :=
  if inPlace then (validRegions s).map (fun e => (eBase e.2 * 2 ^ 24, rLength e.2 * 2 ^ 24))
  else ((validRegions s).filter (fun e => rPaired e.2)).map (fun e => (ePartner e.2 * 2 ^ 24, rLength e.2 * 2 ^ 24))

theorem leaveState_drained {state : Byte} (inPlace : Bool) (s : State) (h : state ≠ 1) :
    leaveState inPlace state s = storeFree s (undefinedRanges inPlace s) := by
  unfold leaveState undefinedRanges
  rw [if_neg h]
  split <;> rfl

theorem rangesOf_leftUndefined (s : State) : rangesOf (leftUndefined s) = undefinedRanges (sheet s).inPlace s := by
  unfold leftUndefined undefinedRanges rangesOf
  split
  all_goals
    rw [List.map_map]
    exact List.map_congr_left (fun e _ => congrArg (Prod.mk _) (zeros_length _))

theorem undefinedRanges_congr {s t : State} (h : t.cfg.regions = s.cfg.regions) (inPlace : Bool) :
    undefinedRanges inPlace t = undefinedRanges inPlace s := by
  unfold undefinedRanges validRegions
  rw [h]

/-! ## The step's end closes the step -/

section Close
variable (s : State) (state cause : Byte)

/-- The state that the step's record is made on: its last cycle, its channels recycled. -/
def atClose (s : State) : State := recycleChannels (atEnd s)

theorem atClose_field {γ : Type} (f : State → γ) (hc : ∀ t, f (butClock t) = f t) (hr : ∀ t, f (butRecycled t) = f t) :
    f (atClose s) = f s := recycled_field f hc hr s

theorem atClose_ctl : (atClose s).ctl = s.ctl := atClose_field s State.ctl (fun _ => rfl) (fun _ => rfl)
theorem atClose_cfg : (atClose s).cfg = s.cfg := atClose_field s State.cfg (fun _ => rfl) (fun _ => rfl)
theorem atClose_tallies : (atClose s).stage.tallies = s.stage.tallies :=
  atClose_field s (fun t => t.stage.tallies) (fun _ => rfl) (fun _ => rfl)
theorem atClose_number : (atClose s).step.number = s.step.number := atClose_field s (fun t => t.step.number) (fun _ => rfl) (fun _ => rfl)
theorem atClose_store : (atClose s).step.store = s.step.store := atClose_field s (fun t => t.step.store) (fun _ => rfl) (fun _ => rfl)
theorem atClose_dirty : (atClose s).step.dirty = s.step.dirty := atClose_field s (fun t => t.step.dirty) (fun _ => rfl) (fun _ => rfl)
theorem atClose_lastCommitted : (atClose s).step.lastCommitted = s.step.lastCommitted :=
  atClose_field s (fun t => t.step.lastCommitted) (fun _ => rfl) (fun _ => rfl)
theorem atClose_sheet : sheet (atClose s) = sheet s := atClose_field s sheet (fun _ => rfl) (fun _ => rfl)

/-- With no channel left over the bytes of memory are those of the step's last cycle. -/
theorem atClose_mem (h : s.dma.filter (fun e => leftOver e.2) = []) : (atClose s).mem = s.mem := by
  have dma : (atEnd s).dma = s.dma := field_of State.dma (atEnd_only s) (fun _ => rfl)
  rw [atClose, recycleChannels_none (by rw [dma]; exact h), atEnd_mem]

theorem closeStep_atEnd : closeStep (atEnd s) state cause = leaveState (sheet s).inPlace state (endStep (atClose s) state cause) := by
  have kept : sheet (atEnd s) = sheet s := field_of sheet (atEnd_only s) (fun _ => rfl)
  unfold closeStep
  rw [kept]
  rfl

theorem closeStep_commits : closeStep (atEnd s) 1 0 = endStep (atClose s) 1 0 := by rw [closeStep_atEnd, leaveState_commit]

end Close

theorem execStepCommit_due {s : State} (h : commitDue (atEnd s) = true) : exec .stepCommit s = .next (closeStep (atEnd s) 1 0) := by
  change execStepCommit s = _
  unfold execStepCommit
  exact if_pos h

theorem execStepEnd_due {s : State} {st c : Byte} (h : endDue (atEnd s) = some (st, c)) : exec .stepEnd s = .next (closeStep (atEnd s) st c) := by
  change execStepEnd s = _
  unfold execStepEnd
  dsimp only
  rw [h]

/-- A step that ends without a commit ends SUSPECT or FAILED. -/
theorem endDue_state {s : State} {st c : Byte} (h : endDue s = some (st, c)) : st = 2 ∨ st = 3 := by
  have ends {a b : Byte} (e : some (a, b) = some (st, c)) : st = a := (congrArg Prod.fst (Option.some.inj e)).symm
  unfold endDue at h
  split at h
  · cases h
  · split at h
    · split at h
      · cases h
      · split at h
        · exact .inr (ends h)
        · split at h
          · cases h
          · exact .inl (ends h)
    · split at h
      · exact .inl (ends h)
      · cases h

/-! ## Without a commit -/

section Drained
variable (s : State) {state : Byte} (cause : Byte)

/-- The step's end without a commit stores free values where it leaves the state undefined. -/
theorem closeStep_drained (h : state ≠ 1) : closeStep (atEnd s) state cause =
    storeFree (endStep (atClose s) state cause) (undefinedRanges (sheet s).inPlace s) := by
  have regions : (endStep (atClose s) state cause).cfg.regions = s.cfg.regions := by
    rw [endStep_cfg, decide_eq_false h, atClose_cfg]
    rfl
  rw [closeStep_atEnd, leaveState_drained _ _ h, undefinedRanges_congr regions]

theorem closeStep_field {γ : Type} (f : State → γ) (hf : ∀ t, f (butStored t) = f t) (h : state ≠ 1) :
    f (closeStep (atEnd s) state cause) = f (endStep (atClose s) state cause) := by
  rw [closeStep_drained s cause h]
  exact field_of f (storeFree_only _ _) hf

theorem endStep_cfg_drained (h : state ≠ 1) : (endStep (atClose s) state cause).cfg = (atClose s).cfg := by
  rw [endStep_cfg, decide_eq_false h]
  rfl

theorem closeStep_onlyWrites (h : state ≠ 1) : onlyWrites (atClose s) (closeStep (atEnd s) state cause) (leftUndefined s) := by
  refine onlyWrites_iff.2 (fun a spared => ?_)
  have free : Spares (endStep (atClose s) state cause) (zerosAt (undefinedRanges (sheet s).inPlace s)) a := by
    rw [Spares.congr (endStep_cfg_drained s cause h)]
    exact spared.of_ranges (fun q hq => by rwa [rangesOf_zerosAt, ← rangesOf_leftUndefined] at hq)
  rw [closeStep_drained s cause h, physByte_storeFree free]
  exact physByte_of_bytes (by rw [endStep_mem]) a

end Drained

/-! ## The end of the drain -/

section Drain
variable {s : State} (hp : s.step.phase = .running) (hc : curtainUp s = true) (hs : s.step.stopped = false)
  (hr : reaches s (s.step.curtainAt + drainOf s) = true) (hw : workDone s = false ∨ inTime s = false)
include hp hc hs hr hw

/-- Work left as the drain ends stops firing. -/
theorem execCurtainDrain_stops : exec .curtainDrain s = .next (stopFiring (clockTo s (s.step.curtainAt + drainOf s)) 3 true
    (clockTo s (s.step.curtainAt + drainOf s)).now) := by
  have done : workDone (clockTo s (s.step.curtainAt + drainOf s)) = workDone s :=
    field_of workDone (clockTo_only s _) (fun _ => rfl)
  have judged : inTime (clockTo s (s.step.curtainAt + drainOf s)) = inTime s := field_of inTime (clockTo_only s _) (fun _ => rfl)
  have left : ¬((workDone s && inTime s) = true) := by
    rw [Bool.and_eq_true]
    rintro ⟨w, i⟩
    obtain h | h := hw
    · rw [h] at w; cases w
    · rw [h] at i; cases i
  change execCurtainDrain s = _
  unfold execCurtainDrain
  rw [if_pos ⟨hp, hc, by rw [hs]; rfl, hr⟩]
  dsimp only
  rw [done, judged, if_neg left]

end Drain

/-! ## The obligation -/

/-- A commit is the close of the step with state 1, and no region is left undefined. -/
theorem execStepCommit_commits {s : State} (h : commitDue (atEnd s) = true) : exec .stepCommit s = .next (endStep (atClose s) 1 0) := by
  rw [execStepCommit_due h, closeStep_commits]

/-- Settles O29: the end of a step is `endStep` on its last cycle with its channels recycled; without a commit free values follow in the state regions that
it leaves undefined. -/
theorem stepsEndAsTheirWorkEnded : Obligations.StepsEndAsTheirWorkEnded := by
  unfold Obligations.StepsEndAsTheirWorkEnded
  refine ⟨fun s due => ?_, fun s => ⟨fun st c due => ?_, fun hp hc hs hr hw => ?_⟩⟩
  · have regions : (endStep (atClose s) 1 0).cfg.regions = if (sheet s).inPlace then s.cfg.regions else toggleRegions s.cfg.regions := by
      rw [endStep_cfg, atClose_sheet, atClose_cfg]
      cases (sheet s).inPlace <;> rfl
    refine ⟨_, execStepCommit_commits due, endStep_phase _ _ _, ?_, ?_, ?_, ?_, ?_, regions, endStep_mem _ _ _, fun idle => ?_,
      endStep_inactive _ _ _, ?_, fun k carrier => ?_⟩
    · rw [endStep_lastCommitted, if_pos rfl, atClose_number]
    · rw [← atClose_store s, endStep_store]
    · rw [endStep_dirty, atClose_dirty]
      simp
    · rw [endStep_stage]
    · rw [endStep_stage]
    · rw [endStep_mem, atClose_mem s idle]
    · rw [endStep_stage, ← atClose_tallies s]
    · rw [← atClose_number s]
      exact endStep_report _ _ _ (by rw [atClose_ctl, carrier])
  · have state := endDue_state due
    have drained : st ≠ 1 := by obtain rfl | rfl := state <;> decide
    have kept {γ : Type} (f : State → γ) (hf : ∀ t, f (butStored t) = f t) := closeStep_field s c f hf drained
    refine ⟨_, execStepEnd_due due, ?_, ?_, ?_, ?_, closeStep_onlyWrites s c drained, ?_, ?_, state, fun k carrier => ?_⟩
    · rw [kept (fun t => t.step.phase) (fun _ => rfl), endStep_phase]
    · rw [kept (fun t => t.step.lastCommitted) (fun _ => rfl), endStep_lastCommitted, if_neg drained, atClose_lastCommitted]
    · rw [kept (fun t => (storeAt t s.step.store).st) (fun _ => rfl), ← atClose_store s, endStep_store]
    · rw [kept (fun t => t.cfg.regions) (fun _ => rfl), endStep_cfg_drained s c drained, atClose_cfg]
    · rw [kept (fun t => t.stage.units) (fun _ => rfl), endStep_stage]
    · rw [kept (fun t => t.step.dirty) (fun _ => rfl), endStep_dirty, atClose_dirty, atClose_sheet, decide_eq_false drained]
      simp
    · rw [kept State.ctl (fun _ => rfl), ← atClose_number s]
      exact endStep_report _ _ _ (by rw [atClose_ctl, carrier])
  · have cause : (clockTo s (s.step.curtainAt + drainOf s)).step.cause = s.step.cause := by rw [clockTo_step]
    refine ⟨_, execCurtainDrain_stops hp hc hs hr hw, stopFiring_stopped _ _ _ _, fun first => ?_, fun later => ?_, ?_, ?_⟩
    · exact stopFiring_first _ _ _ _ (by rw [cause, first])
    · rw [(stopFiring_later _ _ _ _ (by rw [cause]; exact later)).1, cause]
    · rw [stopFiring_mem, clockTo_mem]
    · rw [outsideKept_iff, stopFiring_outside]
      exact field_of outsideOf (clockTo_only s _) (fun _ => rfl)

end Sys2Proof.Machine
end

section
/-! Sp. 00 R6; sp. 04 R119; sp. 06 R184: the results of a cue that no other party met. -/

namespace Sys2Proof.Machine

/-- No other party's write and no fence has met the cue. -/
structure Running.Alone (r : Running) : Prop where
  raced : r.raced = []
  fenced : r.fenced = []

theorem anyMeets_nil (l : List (Nat × Nat)) : anyMeets l [] = false := by simp [anyMeets]

section Alone
variable {r : Running} (h : r.Alone) (u : UnitId)
include h

theorem Running.Alone.spoilt : spoilt r = [] := by
  rw [Machine.spoilt, h.raced, h.fenced]
  simp [sharedAll]

theorem Running.Alone.parts : spoiltParts r = [] := by simp [spoiltParts, h.spoilt, anyMeets_nil]

theorem Running.Alone.write (need : List (Nat × Nat)) (b : List Byte) (s : State) : landWrite u r false need b s = (b, s) := by
  simp [landWrite, h.raced, h.fenced, anyMeets_nil]

theorem Running.Alone.writes (l : List (Nat × Nat × List Byte)) (s : State) : landWrites u r (fun _ => false) l s = (l.map (·.2), s) := by
  induction l with
  | nil => rfl
  | cons x l ih => simp [landWrites, h.write, ih]

theorem Running.Alone.rows : chosenRows u r = [] := by
  unfold chosenRows
  split
  · rw [h.raced, anyMeets_nil]; rfl
  · simp [h.raced, anyMeets_nil]
  · rw [h.spoilt]; rfl
  · rfl

theorem Running.Alone.record (p : List Byte) (s : State) : landRecord u r p s = (p, s) := by
  have bits : spoiltBits u r = [] := by simp [spoiltBits, h.parts, h.spoilt, anyMeets_nil]
  unfold landRecord
  split
  · simp [h.parts]
  · rw [bits]; rfl

/-- Its results land as they were made. -/
theorem Running.Alone.landed (s : State) : (landed s u r []).1 = r.writes ++ [(r.recAt, r.record)] := by
  have undetected : (fun i => ([] : List Nat).contains (r.due.getD i 0)) = fun _ => false := rfl
  unfold Machine.landed
  dsimp only
  rw [undetected, h.rows, h.writes, h.record, numbered_snd]
  simp [drawRanges, drawWrites]

end Alone

/-! ## Draws on the way to the results -/

/-- What each step of a fold with a state leaves alone there, the fold leaves alone. -/
theorem foldl_snd_field {α β γ : Type} (π : State → γ) (f : α × State → β → α × State) (h : ∀ x b, π (f x b).2 = π x.2) (l : List β)
    (x : α × State) : π (l.foldl f x).2 = π x.2 := by
  induction l generalizing x with
  | nil => rfl
  | cons b l ih => rw [List.foldl_cons, ih, h]

theorem drawSlot_only (width : Nat) (l : List Nat) (a : Array (Array Nat)) (s : State) : butFree (drawSlot width l a s).2 = butFree s := by
  refine foldl_snd_field butFree _ (fun x _ => ?_) l (a, s)
  exact drawBytes_only 1 x.2

theorem damageTile_only (x : Running × State) (p : Detect) : butFree (damageTile x p).2 = butFree x.2 := by
  unfold damageTile
  dsimp only
  split
  · exact drawSlot_only _ _ _ _
  · rfl

theorem damaged_only (u : UnitId) (r : Running) (l : List Detect) (s : State) : butFree (damaged u r l s).2 = butFree s := by
  unfold damaged
  split
  · split
    · rfl
    · exact foldl_snd_field butFree damageTile damageTile_only l (r, s)
  · rfl

theorem damaged_nil (u : UnitId) (r : Running) (s : State) : damaged u r [] s = (r, s) := by cases u <;> rfl

theorem layoutHits_only (s : State) (u : UnitId) (r : Running) (p : List Byte) : butFree (layoutHits s u r p).2 = butFree s := by
  unfold layoutHits
  split
  · dsimp only
    split
    · rfl
    · exact drawUpTo_only _ _
  · rfl

theorem fenceHalt_only (r : Running) (s : State) : butFree (fenceHalt r s).2 = butFree s := by
  unfold fenceHalt
  generalize r.chances.filter _ = l
  dsimp only
  split
  · rfl
  · exact drawUpTo_only l.length s

/-! ## The results of a completion -/

/-- The parts of a cue that detections undo whole: an array's are written as they stand (sp. 04 R99). -/
def undoneParts (u : UnitId) (l : List Detect) : List Nat :=
  match u with
  | .array _ => []
  | _ => l.map (·.part)

/-- The record of a completion, and the state that it leaves. -/
def doneRecord (u : UnitId) (r : Running) (l : List Detect) (s : State) : List Byte × State :=
  layoutHits (damaged u r l s).2 u (damaged u r l s).1
    (if l.isEmpty then (damaged u r l s).1.record else withStatus (damaged u r l s).1.record (statusAt u) 1)

/-- The results of a completion, its record last, and the state that they leave. -/
def doneResults (u : UnitId) (r : Running) (l : List Detect) (s : State) : List (Nat × List Byte) × State :=
  landed (doneRecord u r l s).2 u { (damaged u r l s).1 with record := (doneRecord u r l s).1 } (undoneParts u l)

theorem doneResults_only (u : UnitId) (r : Running) (l : List Detect) (s : State) : butFree (doneResults u r l s).2 = butFree s :=
  (landed_only _ _ _ _).1.trans ((layoutHits_only _ _ _ _).trans (damaged_only u r l s))

/-- Without a detection, a cue that no one met shows what it made. -/
theorem doneResults_alone {r : Running} (h : r.Alone) (u : UnitId) (s : State) :
    (doneResults u r [] s).1 = r.writes ++ [(r.recAt, (doneRecord u r [] s).1)] := by
  have none_undone : undoneParts u [] = [] := by cases u <;> rfl
  have alone : Running.Alone { r with record := (doneRecord u r [] s).1 } := ⟨h.raced, h.fenced⟩
  unfold doneResults
  rw [damaged_nil, none_undone]
  exact alone.landed u _

end Sys2Proof.Machine
end

section
/-! Sp. 14 R393, R396: one event of a kind among those of an access. -/

namespace Sys2Proof.Machine

theorem perm_insertEvent (e : Event) (l : List Event) : (insertEvent e l).Perm (e :: l) := by
  induction l with
  | nil => exact .refl _
  | cons x r ih =>
    unfold insertEvent
    split
    · exact .refl _
    · exact (ih.cons x).trans (.swap e x r)

theorem perm_sortEvents (l : List Event) : (sortEvents l).Perm l := by
  have sorted (l acc : List Event) : (l.foldl (fun acc e => insertEvent e acc) acc).Perm (l ++ acc) := by
    induction l generalizing acc with
    | nil => exact .refl _
    | cons e r ih => exact (ih _).trans (((perm_insertEvent e acc).append_left r).trans List.perm_middle)
  exact (sorted l []).trans (by rw [List.append_nil])

/-- Events of other kinds leave a count alone. -/
theorem countOf_foldl_raise {kind : Byte} (p : Place) {l : List Event} (h : ∀ e ∈ l, kind.toNat % 128 ≠ e.kind.toNat % 128) (s : State) :
    countOf (l.foldl raise s) kind p = countOf s kind p := by
  induction l generalizing s with
  | nil => rfl
  | cons e r ih =>
    rw [List.foldl_cons, ih (fun x hx => h x (List.mem_cons_of_mem _ hx)), countOf_raise_ne _ _ _ (h e List.mem_cons_self)]

/-- One event among others of other kinds is one more of its kind. -/
theorem oneMore_raiseAll {e : Event} {l : List Event} (h : ∀ x ∈ l, e.kind.toNat % 128 ≠ x.kind.toNat % 128) (s : State) :
    oneMore s (raiseAll s (e :: l)) e.kind e.place := by
  have perm := perm_sortEvents (e :: l)
  obtain ⟨a, b, split⟩ := List.append_of_mem (perm.mem_iff.2 List.mem_cons_self)
  rw [split] at perm
  have others : (a ++ b).Perm l := (List.perm_middle.symm.trans perm).cons_inv
  have before (x : Event) (hx : x ∈ a) := h x (others.mem_iff.1 (List.mem_append_left b hx))
  have after (x : Event) (hx : x ∈ b) := h x (others.mem_iff.1 (List.mem_append_right a hx))
  unfold oneMore raiseAll
  rw [split, List.foldl_append, List.foldl_cons, countOf_foldl_raise _ after, countOf_raise_same, countOf_foldl_raise _ before]

end Sys2Proof.Machine
end

section
/-! Sp. 04 R117; sp. 06 R180; sp. 08 R227, R239; sp. 09 R285: how a cue completes. -/

namespace Sys2Proof.Machine

/-! ## What an access under fences is -/

/-- Memory with fences of a list in force again. -/
def Mem.refenced (m : Mem) (l : List Fence) : Mem := { m with fences := m.fences ++ l.filter (fun x => !m.fences.contains x) }

/-- An access under fences is the access from the same bytes; memory aside, it leaves what the access leaves. -/
theorem underFences_split (s : State) (l : List Fence) (f : State → State) : ∃ m m' : Mem, m.bytes = s.mem.bytes ∧
    m'.bytes = (f { s with mem := m }).mem.bytes ∧ underFences s l f = { f { s with mem := m } with mem := m' } := by
  unfold underFences
  split
  · exact ⟨s.mem, (f s).mem, rfl, rfl, rfl⟩
  · exact ⟨s.mem.refenced l, { (f { s with mem := s.mem.refenced l }).mem with fences := s.mem.fences }, rfl, rfl, rfl⟩

theorem underFences_nil (s : State) (f : State → State) : underFences s [] f = f s := rfl

theorem physByte_writeWith {who : Who} {s : State} {a : Nat} {l : List (Nat × List Byte)} (es : List Event) (h : Spares s l a) :
    physByte (writeWith who s l es) a = physByte s a := by
  have same : (writeWith who s l es).mem.bytes = (writeAll who s l).mem.bytes := by rw [writeAll, writeWith, writeWith, raiseAll_mem, raiseAll_mem]
  rw [physByte_of_bytes same, physByte_writeAll h]

/-! ## What the end of a cue may touch -/

theorem butCut_of_free {s t : State} (h : butFree s = butFree t) : butCut s = butCut t := butCut_of_stored (butStored_of_free h)
theorem butCut_of_access {s t : State} (h : butAccess s = butAccess t) : butCut s = butCut t := butCut_of_stored (butStored_of_access h)

theorem butCut_outside (t : State) : outsideOf (butCut t) = outsideOf t := by
  unfold outsideOf butCut butStored butFree butAccess butEvents; rfl

theorem traceOn_only (s : State) (kind : Byte) (p : Place) (unit inst cue addr count : Nat) :
    butCut (traceOn s kind p unit inst cue addr count) = butCut s := by
  unfold traceOn traceAdd
  refine ite_field (ite_field rfl ?_) rfl
  split <;> rfl

theorem traceWait_only (s : State) (u : UnitId) (r : Running) : butCut (traceWait s u r) = butCut s := by
  unfold traceWait
  exact ite_field rfl ((traceOn_only _ _ _ _ _ _ _ _).trans (butCut_of_free (drawUpTo_only (s.now - r.startedAt) s)))

/-! ## The state in which a cue completes -/

/-- The cycle in which a completion is seen: a stream that waited has its place by now. -/
def doneCycle (s : State) (u : UnitId) (r : Running) (l : List Stall) : Nat :=
  if r.queued then max (completionAt u r l) s.now else completionAt u r l

/-- State as a cue completes in cycle `e`: the increments due are made, its wait for a stream is traced. -/
def atDone (s : State) (u : UnitId) (r : Running) (e : Nat) : State := traceWait (settle (clockTo s e)) u r

/-- What a completion finds as the command found it: the units, the bytes of memory, the last completion, what stands outside the step. -/
structure Reached (s b : State) : Prop where
  units : plainUnits b = plainUnits s
  outside : outsideOf b = outsideOf s
  bytes : b.mem.bytes = s.mem.bytes
  lastDone : b.step.lastDone = s.step.lastDone

theorem atDone_reached (s : State) (u : UnitId) (r : Running) (e : Nat) : Reached s (atDone s u r e) where
  units := plainUnits_of_unmet ((field_of unmetUnits (traceWait_only _ u r) (fun _ => rfl)).trans (settled_units s e))
  outside := (field_of outsideOf (traceWait_only _ u r) butCut_outside).trans (outsideOf_of_ready (settled_ready s e))
  bytes := by rw [atDone, traceWait_mem, settle_bytes, clockTo_mem]
  lastDone := (field_of (fun t => t.step.lastDone) (traceWait_only _ u r) (fun _ => rfl)).trans
    (field_of (fun t => t.step.lastDone) (settled_ready s e) (fun _ => rfl))

/-- Draws change none of it. -/
theorem Reached.draws {s b b' : State} (h : Reached s b) (free : butFree b' = butFree b) : Reached s b' where
  units := (field_of plainUnits free (fun _ => rfl)).trans h.units
  outside := (field_of outsideOf free (fun _ => rfl)).trans h.outside
  bytes := (field_of (fun t => t.mem.bytes) free (fun _ => rfl)).trans h.bytes
  lastDone := (field_of (fun t => t.step.lastDone) free (fun _ => rfl)).trans h.lastDone

theorem Reached.cfg {s b : State} (h : Reached s b) : b.cfg = s.cfg := congrArg (fun x => x.2.2.2.2.2.1) h.outside

/-! ## A cue that is not halted by a kill -/

/-- Its results visible: what fences took is refused, free bytes stand where another party wrote. -/
def doneShown (b : State) (u : UnitId) (r : Running) (ws : List (Nat × List Byte)) (es : List Event) : State :=
  underFences b r.fenced (fun t => storeFree (writeWith (whoUnit u r.cue) t ws es) r.clash)

/-- Its predictor counts in their slot (sp. 05 R152). -/
def doneCounted (b : State) (u : UnitId) (r : Running) (e : Nat) (ws : List (Nat × List Byte)) (es : List Event) : State :=
  let z := landPreds r (blurHits b (doneShown b u r ws es) r.fenced (mergeBlocks r.reads))
  (sumPreds z.1).toList.foldl (addPred (unitDie u) u r.cue e) z.2

/-- Its unit free, its stalls and its end traced. -/
def doneFreed (t : State) (u : UnitId) (r : Running) (e : Nat) (l : List Stall) : State :=
  let t5 := traceStalls (setUnit t u (finished u (unit t u) e)) u r.cue e l
  if r.window.isSome then t5 else traceAt t5 e 5 (dieplace (unitDie u)) (unitKind u) (unitInst u) r.cue 0 (e - r.firedAt)

/-- Its signal made and its completion noted. -/
def doneNoted (t : State) (u : UnitId) (r : Running) (e : Nat) : State :=
  noteDone (signalOpt t (unitDie u) e r.signal) r.window (unitDie u) e

section Frees
variable {γ : Type} (π : State → γ) (h : ∀ t, π (butCut t) = π t)
include h

theorem doneCounted_field (b : State) (u : UnitId) (r : Running) (e : Nat) (ws : List (Nat × List Byte)) (es : List Event) :
    π (doneCounted b u r e ws es) = π b := by
  have free (t : State) : π (butFree t) = π t := (h _).symm.trans (h t)
  have memory (t : State) (m : Mem) (x : Sparse Tenant) : π { t with mem := m, tenants := x } = π t := (h _).symm.trans (h t)
  have preds (t : State) (x : Sparse Pred) : π { t with stage := { t.stage with preds := x } } = π t := (h _).symm.trans (h t)
  have event (t : State) (x : Event) (_ : x.kind = 0x0A) : π (raise t x) = π t := field_of π (butCut_of_access (butAccess_of (raise_only t x))) h
  have stores (t : State) : π (storeFree (writeWith (whoUnit u r.cue) t ws es) r.clash) = π t :=
    (field_of π (butCut_of_stored (storeFree_only _ _)) h).trans (field_of π (butCut_of_access (writeWith_only _ _ _ _)) h)
  unfold doneCounted
  dsimp only
  refine (foldl_field π _ (addPred_field π preds event _ u r.cue e) _ _).trans ((field_of π (landPreds_only r _) free).trans ?_)
  exact (blurHits_field π free memory _ _ _ _).trans (underFences_field π memory b r.fenced _ stores)

theorem doneFreed_field (t : State) (u : UnitId) (r : Running) (e : Nat) (l : List Stall) :
    π (doneFreed t u r e l) = π (setUnit t u (finished u (unit t u) e)) := by
  have traced (t : State) (x : Trace) : π { t with trace := x } = π t := (h _).symm.trans (h t)
  have stalls := traceStalls_field π traced (setUnit t u (finished u (unit t u) e)) u r.cue e l
  exact ite_field stalls ((traced _ _).trans stalls)

/-- What the units and the end of a cue leave alone, its completion leaves alone but for signal and note. -/
theorem done_field (b : State) (u : UnitId) (r : Running) (e : Nat) (ws : List (Nat × List Byte)) (es : List Event) (l : List Stall)
    (hu : ∀ t v, π (setUnit t u v) = π t) : π (doneFreed (doneCounted b u r e ws es) u r e l) = π b :=
  (doneFreed_field π h _ u r e l).trans ((hu _ _).trans (doneCounted_field π h b u r e ws es))

end Frees

/-- State as a cue has completed from `b`, with its writes and the events of that cycle. -/
def doneState (b : State) (u : UnitId) (r : Running) (e : Nat) (ws : List (Nat × List Byte)) (es : List Event) (l : List Stall) : State :=
  doneNoted (doneFreed (doneCounted b u r e ws es) u r e l) u r e

theorem plainUnit_finished (u : UnitId) (v : UnitSt) (c : Nat) : plainUnit (finished u v c) = finished u (plainUnit v) c := by
  obtain ⟨running, pending, tail, freeAt⟩ := v
  cases tail <;> rfl

section Done
variable (b : State) (u : UnitId) (r : Running) (e : Nat) (ws : List (Nat × List Byte)) (es : List Event) (l : List Stall)

theorem doneNoted_units (t : State) : plainUnits (doneNoted t u r e) = plainUnits t :=
  plainUnits_of_unmet ((noteDone_units _ _ _ _).trans (signalOpt_units _ _ _ _))

theorem doneState_self : plainUnit (unit (doneState b u r e ws es l) u) = finished u (plainUnit (unit b u)) e := by
  have noted := congrFun (doneNoted_units u r e (doneFreed (doneCounted b u r e ws es) u r e l)) u
  have freed := doneFreed_field (fun t => unit t u) (fun _ => rfl) (doneCounted b u r e ws es) u r e l
  have counted := doneCounted_field (fun t => unit t u) (fun _ => rfl) b u r e ws es
  exact noted.trans ((congrArg plainUnit (freed.trans (unit_setUnit _ _ _))).trans
    ((plainUnit_finished _ _ _).trans (congrArg (fun v => finished u (plainUnit v) e) counted)))

theorem doneState_other {v : UnitId} (hv : v ≠ u) : plainUnits (doneState b u r e ws es l) v = plainUnits b v :=
  (congrFun (doneNoted_units u r e _) v).trans
    (congrArg plainUnit (done_field (fun t => unit t v) (fun _ => rfl) b u r e ws es l (fun t _ => unit_setUnit_ne t _ hv)))

theorem doneState_outside : outsideOf (doneState b u r e ws es l) = outsideOf b :=
  (noteDone_outside _ _ _ _).trans ((outsideOf_of_ready (signalOpt_ready _ _ _ _)).trans
    (done_field outsideOf butCut_outside b u r e ws es l (fun _ _ => rfl)))

theorem doneState_lastDone : (doneState b u r e ws es l).step.lastDone = max b.step.lastDone e := by
  have signal := field_of (fun t => t.step.lastDone)
    (signalOpt_only (doneFreed (doneCounted b u r e ws es) u r e l) (unitDie u) e r.signal) (fun _ => rfl)
  exact congrArg (max · e) (signal.trans (done_field (fun t => t.step.lastDone) (fun _ => rfl) b u r e ws es l (fun _ _ => rfl)))

theorem doneFreed_tallies : (doneFreed (doneCounted b u r e ws es) u r e l).stage.tallies = b.stage.tallies :=
  done_field (fun t => t.stage.tallies) (fun _ => rfl) b u r e ws es l (fun _ _ => rfl)

theorem doneState_tallies (h : r.signal = none) : (doneState b u r e ws es l).stage.tallies = b.stage.tallies := by
  rw [← doneFreed_tallies b u r e ws es l, doneState, doneNoted, h]
  rfl

/-- A signal to a tally of the unit's die adds up at once (sp. 02 R49, R50). -/
theorem doneState_tally {i m : Nat} (h : r.signal = some (i, m)) (home : homeDie i = unitDie u) :
    tallyOf (doneState b u r e ws es l) i = BitVec.ofNat 32 (min 0xFFFFFFFF ((tallyOf b i).toNat + m)) := by
  rw [← tallyOf_congr (doneFreed_tallies b u r e ws es l) i, doneState, doneNoted, h]
  change tallyOf (signalTally _ (unitDie u) i m e) i = _
  rw [signalTally, if_pos home, tallyOf_applyTallyAt_self]

/-- One to a tally of another die takes the lane (sp. 02 R51). -/
theorem doneState_lane : ∃ q, ∀ i m, r.signal = some (i, m) → homeDie i ≠ unitDie u →
    (doneState b u r e ws es l).stage.lane = b.stage.lane ++
      [{ origin := unitDie u, dest := homeDie i, tally := i, value := BitVec.ofNat 32 m, copy := false, sentAt := e, queued := q }] := by
  rw [← done_field (fun t => t.stage.lane) (fun _ => rfl) b u r e ws es l (fun _ _ => rfl), doneState, doneNoted]
  generalize doneFreed (doneCounted b u r e ws es) u r e l = t
  cases r.signal with
  | none => exact ⟨false, fun _ _ h => nomatch h⟩
  | some x =>
    refine ⟨!(flowsOf t (unitDie u)).contains (homeDie x.1) && decide (4096 ≤ streamsHeld t (unitDie u).val), fun i m h away => ?_⟩
    obtain rfl := Option.some.inj h
    change (signalTally t (unitDie u) i m e).stage.lane = _
    rw [signalTally, if_neg away]
    dsimp only
    split <;> rfl

theorem doneState_bytes : (doneState b u r e ws es l).mem.bytes = (doneShown b u r ws es).mem.bytes := by
  rw [doneState, doneNoted, noteDone_bytes, signalOpt_bytes, doneFreed, apply_ite State.mem, traceAt_mem, ite_self, traceStalls_mem,
    setUnit_bytes, doneCounted, foldl_addPred_mem, landPreds_mem, blurHits_bytes]

variable {b}

/-- Its writes and the free bytes alone become visible. -/
theorem doneState_onlyWrites {s : State} (h : Reached s b) :
    onlyWrites s (doneState b u r e ws es l) (ws ++ r.clash.map (fun y => (y.1, zeros y.2))) := by
  refine onlyWrites_iff.2 (fun a ha => ?_)
  obtain ⟨writes, clash⟩ := Spares.append.1 ha
  obtain ⟨m, m', hm, hm', shown⟩ := underFences_split b r.fenced (fun t => storeFree (writeWith (whoUnit u r.cue) t ws es) r.clash)
  have written : (writeWith (whoUnit u r.cue) { b with mem := m } ws es).cfg = s.cfg := (cfg_of_access (writeWith_only _ _ _ _)).trans h.cfg
  have bytes : (doneState b u r e ws es l).mem.bytes = (storeFree (writeWith (whoUnit u r.cue) { b with mem := m } ws es) r.clash).mem.bytes := by
    rw [doneState_bytes, doneShown, shown, hm']
  rw [physByte_of_bytes bytes, physByte_storeFree ((Spares.congr written).2 clash),
    physByte_writeWith es ((Spares.congr (t := { b with mem := m }) h.cfg).2 writes), physByte_of_bytes (hm.trans h.bytes)]

end Done

/-! ## A stream that a kill halts -/

/-- The cue as it stays on its unit: it holds nothing any more. -/
def haltedRun (r : Running) : Running := { r with halted := true, writes := [], due := [], reads := [], dest := [] }

/-- What of a halted stream stands or is free, its record last, and the state that it leaves. -/
def haltResults (b : State) (u : UnitId) (r : Running) (h : Chance) (l : List Detect) : List (Nat × List Byte) × State :=
  let acc := [0x22, 0x23, 0x26].contains r.opcode.toNat
  let keep (i : Nat) : Bool := r.due.getD i 0 ≤ h.pos || (acc && h.pos ≠ 0)
  let q := toLE 32 (setBits (setBits (setBits (setBits (ofLE r.record) 255 224 h.pos) 31 8 h.pos) 7 4 3) 3 0 h.fault)
  let x := landWrites u r (fun i => decide (h.pos < r.due.getD i 0) || (l.map (·.part)).contains (r.due.getD i 0))
    ((numbered r.writes).filter (fun y => y.1 < r.writes.length && keep y.1)) b
  let p := freeBits (gmeCounts r.opcode.toNat true) q x.2
  (x.1 ++ [(r.recAt, p.1)], p.2)

/-- The GME_HALT of a stream. -/
def haltEvent (u : UnitId) (r : Running) (h : Chance) : Event := cueEvent u r.cue 0x0B (h.fault + 16 * h.pos) h.detail .every

/-- State with them stored and the halt recorded. -/
def haltStored (b : State) (u : UnitId) (r : Running) (h : Chance) (l : List Detect) : State :=
  writeWith (whoUnit u r.cue) (haltResults b u r h l).2 (haltResults b u r h l).1 (haltEvent u r h :: parityEvents u r.cue l)

section Halt
variable (b : State) (u : UnitId) (r : Running) (h : Chance) (l : List Detect)

theorem haltStream_eq : haltStream b u r h l =
    setUnit (haltStored b u r h l) u { unit (haltStored b u r h l) u with running := some (haltedRun r) } := rfl

/-- They land within the cue's writes and its record. -/
theorem haltResults_only : butFree (haltResults b u r h l).2 = butFree b ∧
    ∀ q ∈ rangesOf (haltResults b u r h l).1, q ∈ rangesOf (r.writes ++ [(r.recAt, zeros 32)]) := by
  unfold haltResults
  dsimp only
  generalize (fun i => decide (h.pos < r.due.getD i 0) || (l.map (·.part)).contains (r.due.getD i 0)) = undef
  generalize hk : (numbered r.writes).filter _ = kept
  obtain ⟨free, ranges⟩ := landWrites_only u r undef kept b
  generalize hq : toLE 32 _ = q
  obtain ⟨drawn, length⟩ := freeBits_only (gmeCounts r.opcode.toNat true) q (landWrites u r undef kept b).2
  have full : (freeBits (gmeCounts r.opcode.toNat true) q (landWrites u r undef kept b).2).1.length = 32 :=
    length.elim (fun e => e.trans (by rw [← hq, toLE_length])) id
  refine ⟨drawn.trans free, fun x hx => ?_⟩
  rw [rangesOf_append] at hx ⊢
  rcases List.mem_append.1 hx with hx | hx
  · obtain ⟨y, hy, rfl⟩ := List.mem_map.1 (ranges ▸ hx)
    obtain ⟨z, hz, rfl⟩ := List.mem_map.1 hy
    have mine : z.2 ∈ r.writes := numbered_snd r.writes ▸ List.mem_map_of_mem (List.mem_of_mem_filter (hk ▸ hz))
    exact List.mem_append_left _ (List.mem_map_of_mem mine)
  · obtain rfl := List.mem_singleton.1 hx
    exact List.mem_append_right _ (List.mem_singleton.2 (congrArg (Prod.mk r.recAt) (full.trans (zeros_length 32).symm)))

theorem haltStored_only : butCut (haltStored b u r h l) = butCut b :=
  (butCut_of_access (writeWith_only _ _ _ _)).trans (butCut_of_free (haltResults_only b u r h l).1)

/-- It is one GME_HALT of the unit's die; what its stores meet is of other kinds. -/
theorem haltStored_counted : oneMore b (haltStored b u r h l) 0x0B (dieplace (unitDie u)) := by
  have others (ws : List (Nat × BitVec 256)) (s : State) :
      ∀ x ∈ parityEvents u r.cue l ++ writeEvents (whoUnit u r.cue) s ws, (0x0B : Byte).toNat % 128 ≠ x.kind.toNat % 128 := fun x hx => by
    refine AccessKind.ne (by decide) ?_
    rcases List.mem_append.1 hx with hx | hx
    · obtain ⟨y, _, rfl⟩ := List.mem_map.1 hx
      exact .inl rfl
    · exact writeEvents_kind hx
  have one := oneMore_raiseAll (e := haltEvent u r h) (others (coverOf (rangesOf (haltResults b u r h l).1)) (haltResults b u r h l).2)
    (putMem (haltResults b u r h l).2 (haltResults b u r h l).1)
  have before : (putMem (haltResults b u r h l).2 (haltResults b u r h l).1).err = b.err :=
    ((storeAll_err _ _).trans (writeCounts_err _ _)).trans (field_of State.err (haltResults_only b u r h l).1 (fun _ => rfl))
  exact oneMore_congr one (congrArg Errors.sources before.symm) rfl

theorem physByte_haltStored {s : State} {a : Nat} (hc : b.cfg = s.cfg) (hb : b.mem.bytes = s.mem.bytes)
    (ha : Spares s (r.writes ++ [(r.recAt, zeros 32)]) a) : physByte (haltStored b u r h l) a = physByte s a := by
  obtain ⟨free, within⟩ := haltResults_only b u r h l
  have cfg : (haltResults b u r h l).2.cfg = s.cfg := (field_of State.cfg free (fun _ => rfl)).trans hc
  have bytes : (haltResults b u r h l).2.mem.bytes = s.mem.bytes := (field_of (fun t => t.mem.bytes) free (fun _ => rfl)).trans hb
  rw [haltStored, physByte_writeWith _ ((Spares.congr cfg).2 (ha.of_ranges within)), physByte_of_bytes bytes]

end Halt

/-- State as a kill has halted a stream in cycle `e`. -/
def haltState (b : State) (u : UnitId) (r : Running) (e : Nat) (h : Chance) (fin : Finish) : State :=
  underFences b r.fenced (fun t => traceStalls (haltStream t u r h fin.parity) u r.cue e fin.stalls)

section HaltState
variable (b : State) (u : UnitId) (r : Running) (e : Nat) (h : Chance) (fin : Finish)

/-- What memory, the trace and the halt of a stream leave alone. -/
theorem haltState_field {γ : Type} (π : State → γ) (hcut : ∀ t, π (butCut t) = π t) (hu : ∀ t v, π (setUnit t u v) = π t) :
    π (haltState b u r e h fin) = π b := by
  refine underFences_field π (fun t m x => (hcut _).symm.trans (hcut t)) b r.fenced _ (fun t => ?_)
  rw [traceStalls_field π (fun t x => (hcut _).symm.trans (hcut t)), haltStream_eq, hu]
  exact field_of π (haltStored_only t u r h fin.parity) hcut

/-- Memory aside, the halt is that of `haltStored`, from the same bytes and the same records. -/
theorem haltState_stored : ∃ m : Mem, m.bytes = b.mem.bytes ∧
    (haltState b u r e h fin).mem.bytes = (haltStored { b with mem := m } u r h fin.parity).mem.bytes ∧
    (haltState b u r e h fin).err = (haltStored { b with mem := m } u r h fin.parity).err ∧
    (unit (haltState b u r e h fin) u).running = some (haltedRun r) := by
  obtain ⟨m, m', hm, hm', split⟩ :=
    underFences_split b r.fenced (fun t => traceStalls (haltStream t u r h fin.parity) u r.cue e fin.stalls)
  rw [haltState, split]
  refine ⟨m, hm, hm'.trans (by rw [traceStalls_mem]; rfl), ?_, ?_⟩
  · exact traceStalls_field State.err (fun _ _ => rfl) _ u r.cue e fin.stalls
  · have traced := traceStalls_field (fun t => (unit t u).running) (fun _ _ => rfl) (haltStream { b with mem := m } u r h fin.parity)
      u r.cue e fin.stalls
    exact traced.trans (by rw [haltStream_eq, unit_setUnit])

theorem haltState_counted : oneMore b (haltState b u r e h fin) 0x0B (dieplace (unitDie u)) := by
  obtain ⟨m, _, _, err, _⟩ := haltState_stored b u r e h fin
  exact oneMore_congr (haltStored_counted { b with mem := m } u r h fin.parity) rfl (congrArg Errors.sources err)

theorem haltState_running : (unit (haltState b u r e h fin) u).running = some (haltedRun r) := by
  obtain ⟨_, _, _, _, running⟩ := haltState_stored b u r e h fin
  exact running

variable {b}

theorem haltState_onlyWrites {s : State} (hb : Reached s b) :
    onlyWrites s (haltState b u r e h fin) (r.writes ++ [(r.recAt, zeros 32)]) := by
  refine onlyWrites_iff.2 (fun a ha => ?_)
  obtain ⟨m, hm, bytes, _, _⟩ := haltState_stored b u r e h fin
  exact (physByte_of_bytes bytes a).trans (physByte_haltStored { b with mem := m } u r h fin.parity hb.cfg (hm.trans hb.bytes) ha)

end HaltState

end Sys2Proof.Machine
end

section
/-! Sp. 04 R117, R118; sp. 06 R180; sp. 08 R227, R239; sp. 09 R285: a compute cue completes. -/

namespace Sys2Proof.Machine

/-- A completion command completes its unit's cue. -/
theorem exec_completeRow {c : Instr} {u : UnitId} {fin : Finish} (h : completeRow c = some (u, fin)) (s : State) :
    exec c s = .next (completeUnit s u fin) := by
  unfold completeRow at h
  split at h
  all_goals cases h
  all_goals rfl

section Complete
variable {s : State} {u : UnitId} {fin : Finish} {r : Running}

theorem completeUnit_idle (h : oldest (unit s u) = none) : completeUnit s u fin = s := by
  unfold completeUnit
  rw [h]

variable (ho : oldest (unit s u) = some r)
include ho

theorem completeUnit_halted (hh : r.halted = true) : completeUnit s u fin = raiseAll s (parityEvents u r.cue fin.parity) := by
  unfold completeUnit
  rw [ho]
  exact if_pos hh

variable (hh : r.halted = false)
include hh

theorem completeUnit_early (hr : reaches s (completionAt u r fin.stalls) = false ∨ streamRuns s u r = false ∨
    stallsFit u (unit s u) (completionAt u r fin.stalls) = false) : completeUnit s u fin = s := by
  have waits : (!reaches s (completionAt u r fin.stalls) || !streamRuns s u r || !stallsFit u (unit s u) (completionAt u r fin.stalls)) = true := by
    rcases hr with h | h | h <;> simp [h]
  unfold completeUnit
  rw [ho]
  dsimp only
  rw [if_neg (by simp [hh]), if_pos waits]

variable (hr : reaches s (completionAt u r fin.stalls) = true) (hq : streamRuns s u r = true)
  (hf : stallsFit u (unit s u) (completionAt u r fin.stalls) = true)
include hr hq hf

variable {e : Nat} {s0 : State} {g : Option Chance × State} (he : e = doneCycle s u r fin.stalls) (hs0 : s0 = atDone s u r e)
  (hg : g = fenceHalt r s0)
include he hs0 hg

/-- A completion at its cycle, where no kill has halted the stream: the cue's results become visible. -/
theorem completeUnit_completes (hz : g.1 = none) : completeUnit s u fin =
    doneState (doneResults u r fin.parity g.2).2 u r e (doneResults u r fin.parity g.2).1 (parityEvents u r.cue fin.parity) fin.stalls := by
  subst hg hs0 he
  unfold atDone doneCycle at hz
  unfold completeUnit
  rw [ho]
  dsimp only
  rw [if_neg (by simp [hh]), if_neg (by simp [hr, hq, hf]), hz]
  rfl

/-- One where a kill took what chooses its rows: the stream halts. -/
theorem completeUnit_halts {z : Chance} (hz : g.1 = some z) : completeUnit s u fin = haltState g.2 u r e z fin := by
  subst hg hs0 he
  unfold atDone doneCycle at hz
  unfold completeUnit
  rw [ho]
  dsimp only
  rw [if_neg (by simp [hh]), if_neg (by simp [hr, hq, hf]), hz]
  rfl

end Complete

/-- Settles O25: a due cue's results become visible by `doneState`, or a kill halts its stream by `haltState`; before its cycle, idle or halted, the
unit completes nothing. -/
theorem computeCuesComplete : Obligations.ComputeCuesComplete := by
  intro c u fin s hc
  have runs := exec_completeRow hc s
  refine ⟨fun r n e s0 g y h x ho hh hn hr hq hf he hs0 hg => ?due, fun r n ho hh hn early => ?early,
    fun r ho hh => runs.trans (next_congr (completeUnit_halted ho hh)), fun ho => runs.trans (next_congr (completeUnit_idle ho))⟩
  case early => exact runs.trans (next_congr (completeUnit_early ho hh (hn ▸ early)))
  case due =>
    subst hn
    have drawn : butFree g.2 = butFree s0 := hg ▸ fenceHalt_only r s0
    have reached : Reached s g.2 := Reached.draws (hs0 ▸ atDone_reached s u r e) drawn
    refine ⟨fun hz hy hh' hx => ?completes, fun z hz => ?halts⟩
    case completes =>
      have due := runs.trans (next_congr (completeUnit_completes ho hh hr hq hf he hs0 hg hz))
      obtain rfl : h = doneRecord u r fin.parity g.2 := by rw [hh', hy]; rfl
      have results : x = doneResults u r fin.parity g.2 := by rw [hx, hy]; rfl
      rw [← results] at due
      have free : butFree x.2 = butFree g.2 := results ▸ doneResults_only u r fin.parity g.2
      have before := reached.draws free
      have stage : x.2.stage = s0.stage := field_of State.stage (free.trans drawn) (fun _ => rfl)
      obtain ⟨q, lane⟩ := doneState_lane x.2 u r e x.1 (parityEvents u r.cue fin.parity) fin.stalls
      refine ⟨fun raced fenced parity => ?_, _, q, due, doneState_onlyWrites u r e _ _ _ before, fun fenced => ?_, fun silent => ?_,
        fun i m signal home => ?_, fun i m signal away => ?_, ?_, fun v hv => ?_, ?_, (outsideKept_iff _ _).2 ?_⟩
      · rw [results, parity]
        exact doneResults_alone ⟨raced, fenced⟩ u g.2
      · rw [doneState_bytes, doneShown, fenced, underFences_nil]
      · rw [doneState_tallies _ _ _ _ _ _ _ silent, stage]
      · rw [doneState_tally _ _ _ _ _ _ _ signal home, tallyOf_congr (congrArg Stage.tallies stage)]
      · rw [lane i m signal away, stage]
      · rw [doneState_self, plainUnit_finished]
        exact congrArg (finished u · e) (congrFun before.units u)
      · exact (doneState_other _ _ _ _ _ _ _ hv).trans (congrFun before.units v)
      · rw [doneState_lastDone, before.lastDone]
      · exact (doneState_outside _ _ _ _ _ _ _).trans before.outside
    case halts =>
      have due := runs.trans (next_congr (completeUnit_halts ho hh hr hq hf he hs0 hg hz))
      have kept {γ : Type} (π : State → γ) (hcut : ∀ t, π (butCut t) = π t) (hu : ∀ t v, π (setUnit t u v) = π t) :
          π (haltState g.2 u r e z fin) = π g.2 := haltState_field g.2 u r e z fin π hcut hu
      refine ⟨_, due, haltState_running g.2 u r e z fin, ?_, haltState_onlyWrites u r e z fin reached, ?_, fun v hv => ?_, ?_,
        (outsideKept_iff _ _).2 ?_⟩
      · exact oneMore_congr (haltState_counted g.2 u r e z fin) (congrArg Errors.sources (field_of State.err drawn (fun _ => rfl)).symm) rfl
      · exact (kept (fun t => t.stage.tallies) (fun _ => rfl) (fun _ _ => rfl)).trans
          (field_of (fun t => t.stage.tallies) drawn (fun _ => rfl))
      · exact (kept (fun t => plainUnits t v) (fun _ => rfl) (fun t x => congrArg plainUnit (unit_setUnit_ne t x hv))).trans
          (congrFun reached.units v)
      · exact (kept (fun t => t.step.lastDone) (fun _ => rfl) (fun _ _ => rfl)).trans reached.lastDone
      · exact (kept outsideOf butCut_outside (fun _ _ => rfl)).trans reached.outside

end Sys2Proof.Machine
end

section
/-! Sp. 16 Tables 16-1, 16-4; sp. 15 Tables 15-5, 15-6; sp. 05 R127; sp. 10 R303; sp. 14 R408; sp. 02 R34: what a reset leaves. -/

namespace Sys2Proof.Machine

/-! ## Reads where nothing is stored -/

section Unwritten
variable {s : State}

/-- A word with no flipped bit is delivered as it stands. -/
theorem checkWord_noUpsets (hu : s.mem.upsets = []) (w : Nat) : checkWord s w = (0, false, 0) := by
  have unflipped : upsetAt s w = 0 := by simp [upsetAt, hu]
  simp [checkWord, unflipped]

theorem deliver_unwritten (hb : s.mem.bytes = []) (hu : s.mem.upsets = []) (a : Nat) : deliver s a = 0 := by
  simp [deliver, checkWord_noUpsets hu, hb, zeroByte]

/-- Behind an issued address stands zero, whether its bank refuses the access or the array delivers an unwritten byte. -/
theorem storedByte_unwritten (hb : s.mem.bytes = []) (hu : s.mem.upsets = []) (a : Nat) : storedByte s a = 0 := by
  unfold storedByte
  dsimp only
  split
  case isTrue _ => rfl
  case isFalse _ => exact deliver_unwritten hb hu _

/-- A value that no change of this cycle has replaced is the one the cycle before ended with. -/
theorem endedValue_unchanged (h : s.stage.before = []) (k v : Nat) : endedValue s k v = v := by
  simp [endedValue, h]

theorem tallyByte_uncounted (ht : s.stage.tallies = []) (h : s.stage.before = []) (a : Nat) : tallyByte s a = 0 := by
  simp [tallyByte, endedValue_unchanged h, ht]

/-- A read returns zero at every address: under a fence, in tally space, and in memory. -/
theorem readByte_unwritten (hb : s.mem.bytes = []) (hu : s.mem.upsets = []) (ht : s.stage.tallies = []) (h : s.stage.before = [])
    (a : Nat) : readByte s a = 0 := by
  unfold readByte
  split
  case isTrue _ => rfl
  case isFalse _ =>
    split
    case isTrue _ => exact tallyByte_uncounted ht h a
    case isFalse _ => exact storedByte_unwritten hb hu a

end Unwritten

/-! ## The fields of the guard registers at reset -/

/-- POWER_CAP, THERM_WARN, THERM_HOLD and THERM_SHUT (sp. 15 Table 15-5). -/
theorem reset_limits : powerCap State.reset = 1498 ∧ thermWarn State.reset = 90 ∧ thermHold State.reset = 100 ∧
    thermShut State.reset = 110 := by decide

/-- PORT_ENABLE enables the lanes of every port (sp. 15 Table 15-6). -/
theorem lanesOn_reset (p : PortNo) : lanesOn State.reset p = true := by
  revert p
  decide

/-- PORT_ENABLE enables both control ports (sp. 15 Table 15-6). -/
theorem kcpEnabled_reset (k : Kcp) : kcpEnabled State.reset k = true := by
  cases k <;> decide

/-! ## The units, channels, banks, tallies and ports at reset: no map lists one -/

@[simp] theorem unit_reset (u : UnitId) : unit State.reset u = noUnit (unitKey u) := rfl
@[simp] theorem chan_reset (d : Die) (n : Fin 128) : chan State.reset d n = noChannel (chanKey d n) := rfl
@[simp] theorem bank_reset (k : Nat) : bank State.reset k = noBank k := rfl
@[simp] theorem tallyOf_reset (i : Nat) : tallyOf State.reset i = 0 := rfl
@[simp] theorem port_reset (p : PortNo) : port State.reset p = noPort p.val := rfl

theorem readByte_reset (a : Nat) : readByte State.reset a = 0 := readByte_unwritten rfl rfl rfl rfl a

/-- Settles O3: the plain fields are those of `State.reset`; the registers' fields are cut from LIMITS and PORT_ENABLE; what no sparse map lists
reads as its reset entry; and a read finds no byte written, no bit flipped and no tally counted. -/
theorem resetHoldsTheTableValues : Obligations.ResetHoldsTheTableValues := by
  obtain ⟨cap, warn, hold, shut⟩ := reset_limits
  have units (u : UnitId) : (unit State.reset u).running = none ∧ (unit State.reset u).pending = none := by simp [noUnit]
  have channels (d : Die) (n : Fin 128) : (chan State.reset d n).st = .idle ∧ (chan State.reset d n).actCue = 0xFFFFFF ∧
      (chan State.reset d n).irqTarget = BitVec.ofNat 2 (chanKey d n) := by simp [noChannel]
  have banks (k : Nat) : (bank State.reset k).state = .on := by simp [noBank]
  have ports (p : PortNo) : (port State.reset p).st = .disabled := by simp [noPort, Port.reset]
  exact ⟨rfl, rfl, rfl, rfl, rfl, rfl, rfl, cap, warn, hold, shut, lanesOn_reset, kcpEnabled_reset, rfl, rfl, rfl, rfl, rfl, rfl,
    units, channels, banks, tallyOf_reset, ports, readByte_reset, rfl, rfl, rfl, rfl⟩

end Sys2Proof.Machine
end

section
/-! Sp. 13 R367, R370, R377: an accepted frame's reply. -/

namespace Sys2Proof.Machine

/-- A frame that has a carrier is the last one sent. -/
theorem sendFrame_appends {s : State} {k : Kcp} (f : FrameOut) (h : s.ctl.carrier = some k) :
    ∃ y, (sendFrame s f).ctl.sent = s.ctl.sent ++ [y] ∧ y.opcode = f.opcode ∧ y.status = f.status ∧ y.refSeq = f.refSeq ∧
      y.payload = f.payload := by
  have emitted (q : BitVec 32) : ∃ y, (emit s k f q).ctl.sent = s.ctl.sent ++ [y] ∧ y.opcode = f.opcode ∧ y.status = f.status ∧
      y.refSeq = f.refSeq ∧ y.payload = f.payload := by
    cases k <;> exact ⟨_, rfl, rfl, rfl, rfl, rfl⟩
  unfold sendFrame
  rw [h]
  dsimp only
  unfold sendOn
  split
  · exact emitted 0
  · exact emitted (s.ses.out f.cls)

theorem framesOf_short {p : List Byte} (h : p.length ≤ 8156) : framesOf p = [p] := by
  unfold framesOf
  cases p with
  | nil => rfl
  | cons b r => exact if_pos h

theorem storeReply_ctl (s : State) (o : Owed) (status : Byte) (frames : List (List Byte)) : (storeReply s o status frames).ctl = s.ctl := by
  unfold storeReply
  exact ite_field (π := State.ctl) rfl rfl

/-- A final reply that fits a frame is one frame more. -/
theorem finish_appends {s : State} {k : Kcp} (o : Owed) (status : Byte) {p : List Byte} (hp : p.length ≤ 8156) (h : s.ctl.carrier = some k) :
    ∃ y, (finish s o status p).ctl.sent = s.ctl.sent ++ [y] ∧ y.opcode = o.opcode ∧ y.status = status ∧ y.refSeq = o.seq ∧
      y.payload = p := by
  unfold finish
  rw [framesOf_short hp, ← storeReply_ctl s o status [p]]
  exact sendFrame_appends _ ((congrArg Control.carrier (storeReply_ctl s o status [p])).trans h)

end Sys2Proof.Machine
end

section
/-! Sp. 07 R187-R189; sp. 09 R287-R291; sp. 15 R454, R455: what fencing a tenant and the end of its scrub leave. -/

namespace Sys2Proof.Machine

/-! ## The table of tenants -/

theorem tenant_congr {s t : State} (h : t.tenants = s.tenants) (i : Nat) : tenant t i = tenant s i := by
  unfold tenant
  rw [h]

theorem guardPlace_congr {s t : State} (h : t.ctl.carrier = s.ctl.carrier) : guardPlace t = guardPlace s := by
  unfold guardPlace
  rw [h]

theorem numbered_fst {α : Type} (l : List α) : (numbered l).map (·.1) = List.range l.length := by
  unfold numbered
  exact List.map_fst_zip (by simp)

/-! ## A record of the guard partition while firmware runs (sp. 15 R441) -/

section GuardRecord
variable (s : State) (e : Event)

@[simp] theorem guardRaise_tenants : (guardRaise s e).tenants = s.tenants := ite_field (raise_tenants s e) rfl
@[simp] theorem guardRaise_ctl : (guardRaise s e).ctl = s.ctl := ite_field (raise_ctl s e) rfl
@[simp] theorem guardRaise_pwr : (guardRaise s e).pwr = s.pwr := ite_field (raise_pwr s e) rfl
@[simp] theorem guardRaise_scrubPending : (guardRaise s e).guard.scrubPending = s.guard.scrubPending :=
  ite_field (π := fun t : State => t.guard.scrubPending) (congrArg Guard.scrubPending (raise_guard s e)) rfl

variable {s}

theorem guardRaise_raises (h : firmwareUp s = true) : guardRaise s e = raise s e := if_pos h

theorem guardRaise_counted (h : firmwareUp s = true) (kind : Byte) (d0 d1 : Nat) (a : AlarmRule) :
    oneMore s (guardRaise s (gev s kind d0 d1 a)) kind (guardPlace s) := by
  rw [guardRaise_raises _ h]
  exact oneMore_raise s (gev s kind d0 d1 a)

/-- It is none of another kind. -/
theorem guardRaise_countOf (h : firmwareUp s = true) {kind k : Byte} (hk : k ≠ kind) (d0 d1 : Nat) (a : AlarmRule) :
    countOf (guardRaise s (gev s kind d0 d1 a)) k (guardPlace s) = countOf s k (guardPlace s) := by
  rw [guardRaise_raises _ h]
  exact countOf_raise_other s (gev s kind d0 d1 a) k (guardPlace s) (sourceKey_kind _ hk)

end GuardRecord

/-- READY, firmware runs. -/
theorem firmwareUp_ready {s : State} (h : s.pwr.stage = 6) : firmwareUp s = true := by
  unfold firmwareUp
  rw [h]
  rfl

/-! ## The tenant is FENCED -/

section Fence
variable (s : State) (t : Nat)

theorem fenceTenant_ctl : (fenceTenant s t).ctl = s.ctl := rfl
theorem fenceTenant_pwr : (fenceTenant s t).pwr = s.pwr := rfl
theorem fenceTenant_err : (fenceTenant s t).err = s.err := rfl
/-- SCRUB_PENDING is set (sp. 15 R455). -/
theorem fenceTenant_scrubPending : (fenceTenant s t).guard.scrubPending = true := rfl

/-- The regions take the free entries. -/
theorem fenceTenant_fences : (fenceTenant s t).mem.fences =
    s.mem.fences ++ (fencesOf t (tenant s t)).take (4096 - s.mem.fences.length) := rfl

/-- The others wait. -/
theorem fenceTenant_waiting : (fenceTenant s t).mem.waiting =
    s.mem.waiting ++ (fencesOf t (tenant s t)).drop (4096 - s.mem.fences.length) := rfl

/-- The entry of a tenant that is fenced with `room` entries free, in cycle `now` (sp. 07 R189, sp. 09 R289). -/
def Tenant.fence (e : Tenant) (room now : Nat) : Tenant :=
  { e with st := .fenced, closedAt := if e.reopened then e.closedAt else now,
           rstate := (numbered e.regions).map (fun x => if x.1 < room then 1 else 2), zeroed := e.regions.map (fun _ => 0) }

theorem fenceTenant_tenants : (fenceTenant s t).tenants =
    Sparse.set noTenant s.tenants t ((tenant s t).fence (4096 - s.mem.fences.length) (killCycle s)) := rfl

theorem fenceTenant_self : tenant (fenceTenant s t) t = (tenant s t).fence (4096 - s.mem.fences.length) (killCycle s) := by
  unfold tenant
  rw [fenceTenant_tenants, Sparse.get_set_self]
  rfl

theorem fenceTenant_other {j : Nat} (h : j ≠ t) : tenant (fenceTenant s t) j = tenant s j := by
  unfold tenant
  rw [fenceTenant_tenants, Sparse.get_set_other _ _ _ h]

end Fence

/-- Of `n` regions as many are below `room` as there is room for. -/
theorem filter_range_room (n room : Nat) :
    (((List.range n).map (fun i => if i < room then 1 else 2)).filter (· = 1)).length = min room n ∧
    (((List.range n).map (fun i => if i < room then 1 else 2)).filter (· = 2)).length = n - room := by
  induction n with
  | zero => simp
  | succ n ih =>
    obtain ⟨fenced, waiting⟩ := ih
    rw [List.range_succ, List.map_append, List.filter_append, List.filter_append, List.length_append, List.length_append, fenced, waiting]
    by_cases h : n < room
    · simp [h]; omega
    · simp [h]; omega

theorem Tenant.fence_rstate (e : Tenant) (room now : Nat) :
    (e.fence room now).rstate = (List.range e.regions.length).map (fun i => if i < room then 1 else 2) := by
  rw [← numbered_fst, List.map_map]
  rfl

/-! ## The end of a scrub -/

/-- State without what the end of a tenant's scrub may touch before its report. -/
def butFenced (s : State) : State :=
  { s with stage := State.reset.stage, ports := [], mem := Mem.reset, tenants := [], guard := State.reset.guard, nor := State.reset.nor }

section Scrubbed
variable (s : State) (t : Nat)

theorem markFenced_st (f : Fence) (i : Nat) : (tenant (markFenced s f) i).st = (tenant s i).st := by
  unfold markFenced
  dsimp only
  by_cases h : i = f.tenant
  · rw [h, tenant_setTenant]
  · rw [tenant_setTenant_other _ _ h]

/-- The entries that waiting regions take move no tenant's STATE. -/
theorem admitWaiting_st (i : Nat) : (tenant (admitWaiting s) i).st = (tenant s i).st := by
  unfold admitWaiting
  dsimp only
  exact foldl_field (fun u => (tenant u i).st) markFenced (fun u f => markFenced_st u f i) _ _

theorem admitWaiting_only : butFenced (admitWaiting s) = butFenced s := by
  unfold admitWaiting
  dsimp only
  exact foldl_field butFenced markFenced (fun _ _ => rfl) _ _

/-- The scrubbed tenant's entries are free and it is CLOSED. -/
def scrubClosed : State :=
  setTenant { s with mem := { s.mem with fences := s.mem.fences.filter (fun f => f.tenant ≠ t) } } t { tenant s t with st := .closed }

/-- The state that the end of tenant `t`'s scrub reports: waiting regions have taken the free entries, SCRUB_PENDING is as the tenants left say. -/
def scrubbed : State :=
  let u := admitWaiting (scrubClosed s t)
  norWrite { u with guard := { u.guard with scrubPending := u.tenants.any (fun x => decide (x.2.st = .fenced)) } } [.fences, .scrubPending]

/-- It with SCRUB_DONE sent. -/
def scrubTold : State := sendReport (scrubbed s t) 0x55 1 (scrubDonePayload t (tenant s t))

/-- The end of a scrub is that state with its record. -/
theorem scrubComplete_eq : scrubComplete s t =
    guardRaise (scrubTold s t) (gev (scrubTold s t) 0x4B t (tenant s t).zeroed.sum .never) := rfl

theorem scrubbed_only : butFenced (scrubbed s t) = butFenced s := (admitWaiting_only (scrubClosed s t) :)

theorem scrubComplete_st : (tenant (scrubComplete s t) t).st = .closed := by
  have closed : (tenant (scrubClosed s t) t).st = .closed := congrArg Tenant.st (tenant_setTenant _ t _)
  have tenants : (scrubComplete s t).tenants = (scrubbed s t).tenants := (guardRaise_tenants _ _).trans (sendReport_tenants _ _ _ _)
  rw [tenant_congr tenants]
  exact (admitWaiting_st (scrubClosed s t) t).trans closed

/-- It leaves one record of kind 0x4B (sp. 15 R454). -/
theorem scrubComplete_counted (h : firmwareUp s = true) : oneMore s (scrubComplete s t) 0x4B (guardPlace s) := by
  have pwr : (scrubTold s t).pwr = s.pwr := (sendReport_pwr _ _ _ _).trans (field_of State.pwr (scrubbed_only s t) (fun _ => rfl))
  have err : (scrubTold s t).err = s.err := (sendReport_err _ _ _ _).trans (field_of State.err (scrubbed_only s t) (fun _ => rfl))
  have ctl : (scrubTold s t).ctl.carrier = s.ctl.carrier :=
    (sendFrame_carrier _ _).trans (congrArg Control.carrier (field_of State.ctl (scrubbed_only s t) (fun _ => rfl)))
  have up : firmwareUp (scrubTold s t) = true := by
    unfold firmwareUp
    rw [pwr]
    exact h
  rw [scrubComplete_eq, ← guardPlace_congr ctl]
  exact oneMore_congr (guardRaise_counted up 0x4B _ _ _) (congrArg Errors.sources err.symm) rfl

end Scrubbed

/-! ## A close or a kill -/

section Close
variable (s : State) (o : Owed) (t : Nat) (kill : Bool)

/-- The regions that have taken an entry, as the reply counts them. -/
def fencedCount : Nat := ((tenant (fenceTenant s t) t).rstate.filter (· = 1)).length
/-- The regions that wait for one. -/
def waitingCount : Nat := ((tenant (fenceTenant s t) t).rstate.filter (· = 2)).length

/-- The tenant is fenced and the command answered. -/
def fenceReplied : State := finish (fenceTenant s t) o stOk [BitVec.ofNat 8 (fencedCount s t), BitVec.ofNat 8 (waitingCount s t)]

/-- The TENANT_KILL record. -/
def killEvent : Event :=
  gev (fenceReplied s o t) 0x4A (t + (tenant (fenceTenant s t) t).generation.toNat * 2 ^ 14) (fencedCount s t + 2 ^ 8 * waitingCount s t) .never

/-- A close, or a kill with its record, before a tenant without regions is scrubbed at once. -/
def fenceTold : State := if kill then guardRaise (fenceReplied s o t) (killEvent s o t) else fenceReplied s o t

theorem closeTenant_eq : closeTenant s o t kill =
    (if (tenant (fenceTenant s t) t).regions.isEmpty then scrubComplete (fenceTold s o t kill) t else fenceTold s o t kill, .later) := rfl

theorem closeTenant_scrubs (h : (tenant s t).regions = []) : closeTenant s o t kill = (scrubComplete (fenceTold s o t kill) t, .later) := by
  rw [closeTenant_eq, fenceTenant_self]
  simp [Tenant.fence, h]

theorem closeTenant_fences (h : (tenant s t).regions ≠ []) : closeTenant s o t kill = (fenceTold s o t kill, .later) := by
  rw [closeTenant_eq, fenceTenant_self]
  simp [Tenant.fence, h]

theorem fencedCount_eq : fencedCount s t = min (4096 - s.mem.fences.length) (tenant s t).regions.length := by
  unfold fencedCount
  rw [fenceTenant_self, Tenant.fence_rstate]
  exact (filter_range_room _ _).1

theorem waitingCount_eq : waitingCount s t = (tenant s t).regions.length - (4096 - s.mem.fences.length) := by
  unfold waitingCount
  rw [fenceTenant_self, Tenant.fence_rstate]
  exact (filter_range_room _ _).2

theorem fenceReplied_guardPlace : guardPlace (fenceReplied s o t) = guardPlace s :=
  guardPlace_congr ((finish_carrier _ _ _ _).trans (congrArg Control.carrier (fenceTenant_ctl s t)))

theorem fenceReplied_firmwareUp : firmwareUp (fenceReplied s o t) = firmwareUp s := by
  unfold firmwareUp
  rw [fenceReplied, finish_pwr, fenceTenant_pwr]

theorem fenceReplied_err : (fenceReplied s o t).err = s.err := (finish_err _ _ _ _).trans (fenceTenant_err s t)

/-- The reply and the record leave the table, the fences and SCRUB_PENDING as the fence has them. -/
theorem fenceTold_tenants : (fenceTold s o t kill).tenants = (fenceTenant s t).tenants :=
  ite_field ((guardRaise_tenants _ _).trans (finish_tenants _ _ _ _)) (finish_tenants _ _ _ _)
theorem fenceTold_mem : (fenceTold s o t kill).mem = (fenceTenant s t).mem :=
  ite_field ((guardRaise_mem _ _).trans (finish_mem _ _ _ _)) (finish_mem _ _ _ _)
theorem fenceTold_scrubPending : (fenceTold s o t kill).guard.scrubPending = true := by
  have replied : (fenceReplied s o t).guard.scrubPending = true :=
    (congrArg Guard.scrubPending (finish_guard _ _ _ _)).trans (fenceTenant_scrubPending s t)
  exact ite_field (π := fun u : State => u.guard.scrubPending) ((guardRaise_scrubPending _ _).trans replied) replied
theorem fenceTold_guardPlace : guardPlace (fenceTold s o t kill) = guardPlace s := by
  have replied := fenceReplied_guardPlace s o t
  exact ite_field ((guardPlace_congr (congrArg Control.carrier (guardRaise_ctl _ _))).trans replied) replied

variable {s}

theorem fenceTold_firmwareUp (h : firmwareUp s = true) : firmwareUp (fenceTold s o t kill) = true := by
  have pwr : (fenceTold s o t kill).pwr = s.pwr := ite_field ((guardRaise_pwr _ _).trans (finish_pwr _ _ _ _)) (finish_pwr _ _ _ _)
  unfold firmwareUp
  rw [pwr]
  exact h

/-- A kill leaves one record of kind 0x4A (sp. 15 R455). -/
theorem fenceTold_kill_counted (h : firmwareUp s = true) : oneMore s (fenceTold s o t true) 0x4A (guardPlace s) := by
  rw [← fenceReplied_guardPlace s o t]
  exact oneMore_congr (guardRaise_counted ((fenceReplied_firmwareUp s o t).trans h) 0x4A _ _ _)
    (congrArg Errors.sources (fenceReplied_err s o t).symm) rfl

/-- None of kind 0x4B. -/
theorem fenceTold_countOf (h : firmwareUp s = true) : countOf (fenceTold s o t kill) 0x4B (guardPlace s) = countOf s 0x4B (guardPlace s) := by
  have up := (fenceReplied_firmwareUp s o t).trans h
  have replied := countOf_congr (fenceReplied_err s o t) 0x4B (guardPlace s)
  unfold fenceTold
  cases kill
  case false => exact replied
  case true =>
    have other : countOf (guardRaise (fenceReplied s o t) (killEvent s o t)) 0x4B (guardPlace (fenceReplied s o t)) = _ :=
      guardRaise_countOf up (by decide) _ _ _
    rw [fenceReplied_guardPlace] at other
    exact other.trans replied

theorem closeTenant_scrubs_counted (h : firmwareUp s = true) :
    oneMore s (scrubComplete (fenceTold s o t kill) t) 0x4B (guardPlace s) := by
  have counted := scrubComplete_counted _ t (fenceTold_firmwareUp o t kill h)
  rw [fenceTold_guardPlace] at counted
  exact oneMore_of_counts counted (fenceTold_countOf o t kill h).symm

end Close

end Sys2Proof.Machine
end

section
/-! Sp. 07 R187, R189; sp. 13 Table 13-11: the tenant commands. -/

namespace Sys2Proof.Machine

/-! ## Commands that name a tenant alone -/

section Named
variable {s : State} {f : Frame}

theorem tenantArg_valid (hl : f.payload.length = 2) (hi : leAt f.payload 0 2 < 16384) (k : Nat → State × Ans) :
    tenantArg f s k = k (leAt f.payload 0 2) := by
  unfold tenantArg
  rw [if_neg (not_not_intro hl), if_neg (Nat.not_le.2 hi)]

/-- An accepted command that names a tenant answers what its body answers for that tenant. -/
theorem runCommand_tenant {i : CmdInfo} (c : Instr) (body : State → Owed → Nat → State × Ans) (ha : accepts s f i = true)
    (hop : i.opcode ≠ 0x01) (hl : f.payload.length = 2) (hi : leAt f.payload 0 2 < 16384) {r : State × Ans}
    (hr : body (afterAccept s f) (owedBy s f i.opcode) (leAt f.payload 0 2) = r) :
    runCommand s f c i (fun s o => tenantArg f s (body s o)) = answer r.1 (owedBy s f i.opcode) r.2 := by
  rw [runCommand_accepts _ _ ha hop, tenantArg_valid hl hi, hr]

theorem tenant_afterAccept (i : Nat) : tenant (afterAccept s f) i = tenant s i := tenant_congr (afterAccept_tenants s f) i

theorem guardPlace_afterAccept : guardPlace (afterAccept s f) = guardPlace s := guardPlace_congr (afterAccept_carrier s f)

/-- Where a command is accepted, firmware runs. -/
theorem firmwareUp_afterAccept {i : CmdInfo} (ha : accepts s f i = true) : firmwareUp (afterAccept s f) = true := by
  obtain ⟨-, -, -, -, -, -, stage, -⟩ := (accepts_iff s f i).1 ha
  exact firmwareUp_ready ((congrArg Power.stage (afterAccept_pwr s f)).trans stage)

/-- TENANT_CLOSE is for an OPEN tenant that is not ACTIVE. -/
theorem exec_tenantClose (ha : accepts s f (cmd 0x51) = true) (hl : f.payload.length = 2) (hi : leAt f.payload 0 2 < 16384) :
    exec (.tenantClose f) s = .next (if (tenant s (leAt f.payload 0 2)).st ≠ .open_ ∨ (tenant s (leAt f.payload 0 2)).active = true
      then finish (afterAccept s f) (owedBy s f 0x51) stTenantState []
      else (closeTenant (afterAccept s f) (owedBy s f 0x51) (leAt f.payload 0 2) false).1) := by
  refine next_congr ((runCommand_tenant _ _ ha (by decide) hl hi rfl).trans ?_)
  rw [tenant_afterAccept]
  split <;> rfl

/-- TENANT_KILL is for an OPEN tenant. -/
theorem exec_tenantKill (ha : accepts s f { cmd 0x52 with cls := 0 } = true) (hl : f.payload.length = 2)
    (hi : leAt f.payload 0 2 < 16384) :
    exec (.tenantKill f) s = .next (if (tenant s (leAt f.payload 0 2)).st ≠ .open_
      then finish (afterAccept s f) (owedBy s f 0x52) stTenantState []
      else (closeTenant (afterAccept s f) (owedBy s f 0x52) (leAt f.payload 0 2) true).1) := by
  refine next_congr ((runCommand_tenant _ _ ha (by decide) hl hi rfl).trans ?_)
  dsimp only
  rw [tenant_afterAccept]
  split <;> rfl

theorem exec_tenantStatus (ha : accepts s f (cmd 0x53) = true) (hl : f.payload.length = 2) (hi : leAt f.payload 0 2 < 16384) :
    exec (.tenantStatus f) s =
      .next (replies s f 0x53 (tenantStatusReply (tenant s (leAt f.payload 0 2))) (afterAccept s f)) := by
  refine next_congr ((runCommand_tenant _ _ ha (by decide) hl hi rfl).trans ?_)
  rw [tenant_afterAccept]
  rfl

/-- SCRUB_STATUS's reply (sp. 13 Table 13-11). -/
def scrubStatusReply (e : Tenant) : List Byte :=
  [BitVec.ofNat 8 (b01 (decide (e.st ≠ .fenced)))] ++ zeros 7 ++ (e.zeroed.map (toLE 8)).flatten

theorem exec_scrubStatus (ha : accepts s f (cmd 0x54) = true) (hl : f.payload.length = 2) (hi : leAt f.payload 0 2 < 16384) :
    exec (.scrubStatus f) s =
      .next (replies s f 0x54 (scrubStatusReply (tenant s (leAt f.payload 0 2))) (afterAccept s f)) := by
  refine next_congr ((runCommand_tenant _ _ ha (by decide) hl hi rfl).trans ?_)
  rw [tenant_afterAccept]
  rfl

end Named

/-! ## TENANT_OPEN -/

/-- The form of a TENANT_OPEN payload: its length by its count of regions, its tenant, its PLACE, and its reserved bits (sp. 07 Table 7-3; sp. 13
Table 13-11). -/
structure OpenForm (p : List Byte) : Prop where
  length : p.length = 16 + 16 * byteAt p 4
  count : byteAt p 4 ≤ 16
  tenant : leAt p 0 2 < 16384
  place : leAt p 2 2 < 1024
  reserved : zeroAt p 5 3 = true
  last : zeroAt p 15 1 = true
  records : (regionRecords p (byteAt p 4)).any (fun w => bits w 31 0 ≠ 0) = false

/-- The paddock that the payload names. -/
def openPaddock (p : List Byte) : List (Nat × Nat) := (regionRecords p (byteAt p 4)).map recordRange

/-- The entry that the payload opens (sp. 07 R189). -/
def Tenant.opened (e : Tenant) (p : List Byte) : Tenant :=
  { e with st := .open_, reopened := e.active, place := BitVec.ofNat 10 (leAt p 2 2), generation := e.generation + 1,
           stateAddr := BitVec.ofNat 56 (leAt p 8 7), regions := openPaddock p, rstate := (openPaddock p).map (fun _ => 0),
           zeroed := (openPaddock p).map (fun _ => 0), hits := 0 }

section Open
variable {s : State} {f : Frame}

/-- In FIELD, what decides on a TENANT_OPEN of the right form is the tenant's STATE, then its paddock. -/
theorem tenantOpenBody_form (h : OpenForm f.payload) (hg : s.guard.lifecycle = .field) :
    tenantOpenBody f s =
      if (tenant s (leAt f.payload 0 2)).st ≠ .closed then no s stTenantState
      else if !paddockOk s (leAt f.payload 0 2) (openPaddock f.payload) then no s stPaddockBad
      else ok (setTenant s (leAt f.payload 0 2) ((tenant s (leAt f.payload 0 2)).opened f.payload))
        (toLE 4 ((tenant s (leAt f.payload 0 2)).generation + 1).toNat) := by
  obtain ⟨hlen, hn, hi, hp, hz, hl, hr⟩ := h
  unfold tenantOpenBody
  dsimp only
  rw [if_neg (by omega), if_neg (by simp only [hz, hl, hr]; simp; omega), if_neg (not_not_intro hg)]
  rfl

theorem exec_tenantOpen (ha : accepts s f (cmd 0x50) = true) {r : State × Ans} (hr : tenantOpenBody f (afterAccept s f) = r) :
    exec (.tenantOpen f) s = .next (answer r.1 (owedBy s f 0x50) r.2) := by
  refine next_congr ((runCommand_accepts _ _ ha (by decide)).trans ?_)
  rw [hr]
  rfl

variable (ha : accepts s f (cmd 0x50) = true) (h : OpenForm f.payload) (hg : s.guard.lifecycle = .field)
include ha h hg

theorem exec_tenantOpen_refused (ht : (tenant s (leAt f.payload 0 2)).st ≠ .closed) :
    exec (.tenantOpen f) s = .next (finish (afterAccept s f) (owedBy s f 0x50) stTenantState []) := by
  refine exec_tenantOpen ha ((tenantOpenBody_form h (by rwa [afterAccept_guard])).trans (if_pos ?_))
  rwa [tenant_afterAccept]

theorem exec_tenantOpen_opens (ht : (tenant s (leAt f.payload 0 2)).st = .closed)
    (hp : paddockOk s (leAt f.payload 0 2) (openPaddock f.payload) = true) :
    exec (.tenantOpen f) s = .next (replies s f 0x50 (toLE 4 ((tenant s (leAt f.payload 0 2)).generation + 1).toNat)
      (setTenant (afterAccept s f) (leAt f.payload 0 2) ((tenant s (leAt f.payload 0 2)).opened f.payload))) := by
  have held : heldRegions (afterAccept s f) (leAt f.payload 0 2) = heldRegions s (leAt f.payload 0 2) := by
    unfold heldRegions
    rw [afterAccept_tenants]
  have fits : paddockOk (afterAccept s f) (leAt f.payload 0 2) (openPaddock f.payload) = true := by
    unfold paddockOk
    rw [held]
    exact hp
  have body := tenantOpenBody_form (s := afterAccept s f) h (by rwa [afterAccept_guard])
  rw [tenant_afterAccept, if_neg (not_not_intro ht), if_neg (by simp [fits])] at body
  exact exec_tenantOpen ha body

end Open

/-- A TENANT_OPEN that is answered has replaced the tenant's entry alone. -/
theorem opened_takes (s : State) (f : Frame) (i : Nat) (e : Tenant) (p : List Byte) :
    tenant (replies s f 0x50 p (setTenant (afterAccept s f) i e)) i = e ∧
      (∀ j, j ≠ i → tenant (replies s f 0x50 p (setTenant (afterAccept s f) i e)) j = tenant s j) ∧
      (replies s f 0x50 p (setTenant (afterAccept s f) i e)).mem = s.mem ∧
      (replies s f 0x50 p (setTenant (afterAccept s f) i e)).guard = s.guard := by
  unfold replies
  have entry (j : Nat) := tenant_congr (finish_tenants (setTenant (afterAccept s f) i e) (owedBy s f 0x50) stOk p) j
  refine ⟨?_, fun j hj => ?_, ?_, ?_⟩
  · rw [entry, tenant_setTenant]
  · rw [entry, tenant_setTenant_other _ _ hj, tenant_afterAccept]
  · rw [finish_mem, setTenant_mem, afterAccept_mem]
  · rw [finish_guard, setTenant_guard, afterAccept_guard]

/-! ## What an accepted close or kill leaves -/

section Fenced
variable (s : State) (f : Frame) (o : Owed) (i : Nat) (kill : Bool)

/-- The tenant, and no other, is FENCED, its regions fenced or waiting, and no byte of memory has changed. -/
theorem fenceTold_takes :
    (tenant (fenceTold (afterAccept s f) o i kill) i).st = .fenced ∧ (fenceTold (afterAccept s f) o i kill).guard.scrubPending = true ∧
      (fenceTold (afterAccept s f) o i kill).mem.fences =
        s.mem.fences ++ (fencesOf i (tenant s i)).take (4096 - s.mem.fences.length) ∧
      (fenceTold (afterAccept s f) o i kill).mem.waiting =
        s.mem.waiting ++ (fencesOf i (tenant s i)).drop (4096 - s.mem.fences.length) ∧
      (fenceTold (afterAccept s f) o i kill).mem.bytes = s.mem.bytes ∧
      ∀ j, j ≠ i → tenant (fenceTold (afterAccept s f) o i kill) j = tenant s j := by
  have entry (j : Nat) := tenant_congr (fenceTold_tenants (afterAccept s f) o i kill) j
  refine ⟨?_, fenceTold_scrubPending _ o i kill, ?_, ?_, ?_, fun j hj => ?_⟩
  · rw [entry, fenceTenant_self]
    rfl
  · rw [fenceTold_mem, fenceTenant_fences, afterAccept_mem, tenant_afterAccept]
  · rw [fenceTold_mem, fenceTenant_waiting, afterAccept_mem, tenant_afterAccept]
  · rw [fenceTold_mem, fenceTenant_bytes, afterAccept_mem]
  · rw [entry, fenceTenant_other _ _ hj, tenant_afterAccept]

/-- A tenant without regions is CLOSED at once, with its one record of kind 0x4B (sp. 15 R454). -/
theorem closeTenant_takes_none (hr : (tenant s i).regions = []) (up : firmwareUp (afterAccept s f) = true) :
    (tenant (closeTenant (afterAccept s f) o i kill).1 i).st = .closed ∧
      oneMore s (closeTenant (afterAccept s f) o i kill).1 0x4B (guardPlace s) ∧
      (closeTenant (afterAccept s f) o i kill).1.mem.bytes = s.mem.bytes := by
  have counted := closeTenant_scrubs_counted o i kill up
  rw [guardPlace_afterAccept] at counted
  rw [closeTenant_scrubs _ _ _ _ ((congrArg Tenant.regions (tenant_afterAccept i)).trans hr)]
  obtain ⟨-, -, -, -, bytes, -⟩ := fenceTold_takes s f o i kill
  exact ⟨scrubComplete_st _ i, oneMore_congr counted (congrArg Errors.sources (afterAccept_err s f).symm) rfl,
    (scrubComplete_bytes _ i).trans bytes⟩

/-- A close is answered with its counts of regions fenced and regions waiting (sp. 13 Table 13-11). -/
theorem fenceTold_appends {k : Kcp} (h : s.ctl.carrier = some k) :
    ∃ y, (fenceTold s o i false).ctl.sent = s.ctl.sent ++ [y] ∧ y.opcode = o.opcode ∧ y.status = stOk ∧ y.refSeq = o.seq ∧
      y.payload = [BitVec.ofNat 8 (min (4096 - s.mem.fences.length) (tenant s i).regions.length),
                   BitVec.ofNat 8 ((tenant s i).regions.length - (4096 - s.mem.fences.length))] := by
  rw [← fencedCount_eq, ← waitingCount_eq]
  exact finish_appends (s := fenceTenant s i) o stOk (by simp) h

end Fenced

/-! ## The obligation -/

/-- Settles O38: each command is its body on the accepted state; a close or a kill is `fenceTold`, and for a tenant without regions the end of its
scrub, `scrubComplete`. -/
theorem tenantCommandsTakeEffect : Obligations.TenantCommandsTakeEffect := by
  rintro f s _ rfl
  refine ⟨fun ha _ hlen hn hi hp hz hl hr hg ht hpad => ?opens, fun ha hl hi ho hx hr => ?closes, fun ha hl hi ho hr => ?kills,
    fun c hc hl hi ho hr => ?atOnce, exec_tenantStatus, exec_scrubStatus, fun ha hl hi h => ?closeRefused, fun ha hl hi h => ?killRefused,
    fun ha hlen hn hi hp hz hl hr hg ht => exec_tenantOpen_refused ha ⟨hlen, hn, hi, hp, hz, hl, hr⟩ hg ht⟩
  case opens =>
    obtain ⟨entry, others, mem, guard⟩ := opened_takes s f (leAt f.payload 0 2) ((tenant s (leAt f.payload 0 2)).opened f.payload)
      (toLE 4 ((tenant s (leAt f.payload 0 2)).generation + 1).toNat)
    refine ⟨_, exec_tenantOpen_opens ha ⟨hlen, hn, hi, hp, hz, hl, hr⟩ hg ht hpad, ?_⟩
    rw [entry]
    exact ⟨rfl, rfl, rfl, rfl, rfl, others, mem, guard⟩
  case closes =>
    have runs := exec_tenantClose ha hl hi
    rw [if_neg (by simp [ho, hx]), closeTenant_fences _ _ _ _ (by rwa [tenant_afterAccept])] at runs
    obtain ⟨st, pending, fences, waiting, bytes, others⟩ := fenceTold_takes s f (owedBy s f 0x51) (leAt f.payload 0 2) false
    refine ⟨_, runs, st, pending, fences, waiting, bytes, others, fun k hk => ?_⟩
    have sent := fenceTold_appends (afterAccept s f) (owedBy s f 0x51) (leAt f.payload 0 2) ((afterAccept_carrier s f).trans hk)
    rwa [afterAccept_sent, afterAccept_mem, tenant_afterAccept] at sent
  case kills =>
    have runs := exec_tenantKill ha hl hi
    rw [if_neg (not_not_intro ho), closeTenant_fences _ _ _ _ (by rwa [tenant_afterAccept])] at runs
    obtain ⟨st, pending, fences, waiting, bytes, others⟩ := fenceTold_takes s f (owedBy s f 0x52) (leAt f.payload 0 2) true
    have counted := fenceTold_kill_counted (owedBy s f 0x52) (leAt f.payload 0 2) (firmwareUp_afterAccept ha)
    rw [guardPlace_afterAccept] at counted
    exact ⟨_, runs, st, pending, fences, waiting, oneMore_congr counted (congrArg Errors.sources (afterAccept_err s f).symm) rfl, bytes, others⟩
  case atOnce =>
    have fenced : ∃ o kill, exec c s = .next (closeTenant (afterAccept s f) o (leAt f.payload 0 2) kill).1 ∧
        firmwareUp (afterAccept s f) = true := by
      obtain ⟨rfl, ha, hx⟩ | ⟨rfl, ha⟩ := hc
      · exact ⟨owedBy s f 0x51, false, by rw [exec_tenantClose ha hl hi, if_neg (by simp [ho, hx])], firmwareUp_afterAccept ha⟩
      · exact ⟨owedBy s f 0x52, true, by rw [exec_tenantKill ha hl hi, if_neg (not_not_intro ho)], firmwareUp_afterAccept ha⟩
    obtain ⟨o, kill, runs, up⟩ := fenced
    exact ⟨_, runs, closeTenant_takes_none s f o _ kill hr up⟩
  case closeRefused => rw [exec_tenantClose ha hl hi, if_pos h]
  case killRefused => rw [exec_tenantKill ha hl hi, if_pos h]

end Sys2Proof.Machine
end

section
/-! Sp. 13 Table 13-6; sp. 00 R12, R13: an accepted configuration write, and the entry that a register takes. -/

namespace Sys2Proof.Machine

section Accepted
variable {s t : State} {f : Frame}

/-- An accepted command whose body is done is answered OK. -/
theorem runCommand_replies {i : CmdInfo} (c : Instr) (body : State → Owed → State × Ans) (ha : accepts s f i = true) (hop : i.opcode ≠ 0x01)
    {p : List Byte} (hb : body (afterAccept s f) (owedBy s f i.opcode) = ok t p) :
    runCommand s f c i body = replies s f i.opcode p t := by
  rw [runCommand_accepts _ _ ha hop, hb]
  rfl

theorem stepBusy_afterAccept : stepBusy (afterAccept s f) = stepBusy s := by
  unfold stepBusy
  rw [afterAccept_step]

theorem anyVerified_afterAccept : anyVerified (afterAccept s f) = anyVerified s := by
  unfold anyVerified
  rw [afterAccept_store0, afterAccept_store1]

theorem hitsWing_afterAccept (e : BitVec 128) : hitsWing (afterAccept s f) e = hitsWing s e := by
  unfold hitsWing wing
  rw [afterAccept_cfg]

theorem allRegionRanges_afterAccept : allRegionRanges (afterAccept s f) = allRegionRanges s := by
  unfold allRegionRanges region
  rw [afterAccept_cfg]

theorem port_afterAccept (p : PortNo) : port (afterAccept s f) p = port s p := by
  unfold port
  rw [afterAccept_ports]

theorem lanesOn_afterAccept (p : PortNo) : lanesOn (afterAccept s f) p = lanesOn s p := by
  unfold lanesOn
  rw [afterAccept_guard]

end Accepted

/-! ## An entry as its register takes it -/

theorem bit_taken128 (e keep : BitVec 128) (b : Nat) : bit (taken128 e keep).toNat b = (bit e.toNat b && bit keep.toNat b) := by
  unfold bit taken128
  rw [BitVec.toNat_and, Nat.testBit_and]

theorem bit_taken128_kept {e keep : BitVec 128} {b : Nat} (h : bit keep.toNat b = true) :
    bit (taken128 e keep).toNat b = bit e.toNat b := by
  rw [bit_taken128, h, Bool.and_true]

/-- A field that is not reserved is taken as given. -/
theorem bits_taken128_kept {e keep : BitVec 128} {hi lo : Nat} (hlo : lo ≤ hi) (h : ∀ b ≤ hi, lo ≤ b → bit keep.toNat b = true) :
    bits (taken128 e keep).toNat hi lo = bits e.toNat hi lo := by
  unfold bits
  refine Nat.eq_of_testBit_eq fun i => ?_
  rw [Nat.testBit_mod_two_pow, Nat.testBit_mod_two_pow, Nat.testBit_shiftRight, Nat.testBit_shiftRight]
  by_cases hi' : i < hi - lo + 1
  · exact congrArg (_ && ·) (bit_taken128_kept (h (lo + i) (by omega) (by omega)))
  · simp [hi']

/-- ENABLE of a neighbour entry is kept (sp. 11 Table 11-2). -/
theorem peerEnable_taken (e : BitVec 128) : peerEnable (taken128 e neighbourFields) = peerEnable e := bit_taken128_kept (by decide)

/-- SWAPPED of a state region entry is cleared (sp. 08 R242; sp. 13 Table 13-6). -/
theorem rSwapped_taken (e : BitVec 128) : rSwapped (taken128 e regionFields) = false := by
  have reserved : bit regionFields.toNat 77 = false := by decide
  unfold rSwapped entryBit
  rw [bit_taken128, reserved, Bool.and_false]

/-- The fields above SWAPPED are kept (sp. 08 Table 8-14). -/
theorem bit_region_taken (e : BitVec 128) {b : Nat} (hb : b < 128) (hlo : 78 ≤ b) : bit (taken128 e regionFields).toNat b = bit e.toNat b := by
  have given : ∀ b < 128, 78 ≤ b → bit regionFields.toNat b = true := by decide
  exact bit_taken128_kept (given b hb hlo)

/-- BASE of a wing entry is kept (sp. 09 Table 9-7). -/
theorem eBase_wing_taken (e : BitVec 128) : eBase (taken128 e wingFields) = eBase e := bits_taken128_kept (by decide) (by decide)

/-- LENGTH of a wing entry is kept (sp. 09 Table 9-7). -/
theorem wLength_wing_taken (e : BitVec 128) : wLength (taken128 e wingFields) = wLength e := bits_taken128_kept (by decide) (by decide)

end Sys2Proof.Machine
end

section
/-! Sp. 09 R272; sp. 11 R325, R326, R348: a peer port learns the device ID; it takes a map entry and is entered afresh. -/

namespace Sys2Proof.Machine

/-! ## The ports learn the device ID (sp. 11 R325) -/

/-- A port is told the device's own ID. -/
def tellPort (id : BitVec 8) (s : State) (p : PortNo) : State := setPort s p { port s p with me := id }

theorem port_tellPort (id : BitVec 8) (s : State) (p q : PortNo) :
    port (tellPort id s p) q = if q = p then { port s q with me := id } else port s q := by
  unfold tellPort
  split
  case isTrue h => rw [h, port_setPort]
  case isFalse h => rw [port_setPort_other _ _ h]

/-- The ports of a list are told, and no other. -/
theorem port_tellPorts (id : BitVec 8) (l : List PortNo) (s : State) (q : PortNo) :
    port (l.foldl (tellPort id) s) q = if q ∈ l then { port s q with me := id } else port s q := by
  induction l generalizing s with
  | nil => simp
  | cons p r ih =>
    rw [List.foldl_cons, ih, port_tellPort]
    by_cases hp : q = p <;> by_cases hr : q ∈ r <;> simp [hp, hr]

theorem mem_allPorts : ∀ q : PortNo, q ∈ allPorts := by decide

/-- Telling touches the ports alone. -/
theorem tellPorts_only (id : BitVec 8) (l : List PortNo) (s : State) :
    l.foldl (tellPort id) s = { s with ports := (l.foldl (tellPort id) s).ports } :=
  congrArg (fun u : State => { u with ports := (l.foldl (tellPort id) s).ports })
    (foldl_field (fun u : State => { u with ports := [] }) (tellPort id) (fun _ _ => rfl) l s)

/-! ## What a port was receiving is lost (sp. 11 R348) -/

section LeaveRx
variable (s : State) (p : PortNo)

theorem leaveRx_only : butStored (leaveRx s p) = butStored s := foldl_field butStored _ (fun t _ => storeFree_only t _) _ s

@[simp] theorem leaveRx_cfg : (leaveRx s p).cfg = s.cfg := field_of State.cfg (leaveRx_only s p) (fun _ => rfl)
@[simp] theorem leaveRx_guard : (leaveRx s p).guard = s.guard := field_of State.guard (leaveRx_only s p) (fun _ => rfl)
@[simp] theorem leaveRx_beat : (leaveRx s p).beat = s.beat := field_of State.beat (leaveRx_only s p) (fun _ => rfl)
@[simp] theorem leaveRx_err : (leaveRx s p).err = s.err := foldl_field State.err _ (fun t _ => storeFree_err t _) _ s
@[simp] theorem port_leaveRx (q : PortNo) : port (leaveRx s p) q = port s q := field_of (port · q) (leaveRx_only s p) (fun _ => rfl)
@[simp] theorem lanesOn_leaveRx (q : PortNo) : lanesOn (leaveRx s p) q = lanesOn s q :=
  field_of (lanesOn · q) (leaveRx_only s p) (fun _ => rfl)

variable {s p}

theorem leaveRx_idle (h : (port s p).rx = []) : leaveRx s p = s := by
  unfold leaveRx
  rw [h]
  rfl

end LeaveRx

/-! ## A port moves to another state (sp. 11 R326) -/

/-- State without what a port's move may touch. -/
def butMoved (s : State) : State := { butEvents s with ports := [] }

/-- A port's move as it is recorded: PORT_STATE, kind 0x0F (sp. 14 Table 14-2). -/
def moveEvent (s : State) (p : PortNo) (st : PortState) (d1 : Nat) : Event :=
  ev 0x0F (portPlace p) 17 p.val (st.code + 8 * (port s p).st.code) d1 (if st = .down ∨ st = .mismatch then .every else .never)

section Move
variable (s : State) (p : PortNo) (st : PortState) (d1 : Nat)

theorem portMove_only : butMoved (portMove s p st d1) = butMoved s := by
  unfold portMove
  exact ite_field rfl (congrArg (fun u : State => { u with ports := [] }) (raise_only _ _))

@[simp] theorem port_raise (e : Event) (q : PortNo) : port (raise s e) q = port s q := by
  unfold port
  rw [raise_ports]

variable {s p st}

theorem portMove_stays (h : (port s p).st = st) : portMove s p st d1 = s := by
  unfold portMove
  exact if_pos h

theorem portMove_moves (h : (port s p).st ≠ st) :
    portMove s p st d1 = raise (setPort s p { port s p with st := st }) (moveEvent s p st d1) := by
  unfold portMove
  exact if_neg h

theorem portMove_counted (h : (port s p).st ≠ st) : oneMore s (portMove s p st d1) 0x0F (portPlace p) := by
  have counted : oneMore (setPort s p { port s p with st := st }) _ 0x0F (portPlace p) := oneMore_raise _ (moveEvent s p st d1)
  rw [portMove_moves d1 h]
  exact oneMore_congr counted (congrArg Errors.sources (setPort_err s p _).symm) rfl

theorem port_portMove : port (portMove s p st d1) p = { port s p with st := st } := by
  by_cases h : (port s p).st = st
  case pos => rw [portMove_stays d1 h, ← h]
  case neg => rw [portMove_moves d1 h, port_raise, port_setPort]

theorem port_portMove_other {q : PortNo} (h : q ≠ p) : port (portMove s p st d1) q = port s q := by
  unfold portMove
  exact ite_field (π := (port · q)) rfl ((port_raise _ _ q).trans (port_setPort_other s _ h))

end Move

/-! ## A port takes its map entry (sp. 09 R272; sp. 11 R325) -/

/-- A port that is entered afresh, its state aside. -/
def Port.afresh (q : Port) : Port := { dropLink q with measured := false, tokensOut := [], lastToken := none }

/-- The state in which a port is entered: DISABLED where its map entry or a lane of it is disabled. -/
def enteredState (enable lanes : Bool) : PortState := if enable && lanes then .training else .disabled

theorem portEnter_moves (s : State) (p : PortNo) :
    portEnter s p = portMove (setPort s p (port s p).afresh) p (enteredState (peerEnable (port s p).entry) (lanesOn s p)) 0 := by
  unfold portEnter enteredState
  dsimp only
  split <;> rfl

/-- A port with a new map entry, of which it has not verified the peer. -/
def Port.remapped (q : Port) (e : BitVec 128) : Port := { q with entry := taken128 e neighbourFields, rxSerial := 0 }

/-- NEIGHBOUR_WRITE of entry `e` to port `k`. -/
def neighbourWritten (s : State) (k : PortNo) (e : BitVec 128) : State := portAgain (setPort s k ((port s k).remapped e)) k

section Written
variable (s : State) (k : PortNo) (e : BitVec 128)

/-- The port with its new entry before it moves: what it was receiving is lost. -/
def neighbourTaken : State := setPort (leaveRx (setPort s k ((port s k).remapped e)) k) k ((port s k).remapped e).afresh

theorem neighbourWritten_moves :
    neighbourWritten s k e = portMove (neighbourTaken s k e) k (enteredState (peerEnable e) (lanesOn s k)) 0 := by
  have enable : peerEnable ((port s k).remapped e).entry = peerEnable e := peerEnable_taken e
  have lanes : lanesOn (setPort s k ((port s k).remapped e)) k = lanesOn s k := rfl
  unfold neighbourWritten portAgain
  rw [portEnter_moves, port_leaveRx, port_setPort, lanesOn_leaveRx, enable, lanes]
  rfl

theorem port_neighbourTaken : port (neighbourTaken s k e) k = ((port s k).remapped e).afresh := port_setPort _ _ _

theorem neighbourTaken_st : (port (neighbourTaken s k e) k).st = (port s k).st := by
  rw [port_neighbourTaken]
  rfl

theorem neighbourTaken_err : (neighbourTaken s k e).err = s.err := leaveRx_err _ _

theorem neighbourWritten_port :
    port (neighbourWritten s k e) k = { ((port s k).remapped e).afresh with st := enteredState (peerEnable e) (lanesOn s k) } := by
  rw [neighbourWritten_moves, port_portMove, port_neighbourTaken]

theorem neighbourWritten_other {j : PortNo} (h : j ≠ k) : port (neighbourWritten s k e) j = port s j := by
  rw [neighbourWritten_moves, port_portMove_other _ h]
  unfold neighbourTaken
  rw [port_setPort_other _ _ h, port_leaveRx, port_setPort_other _ _ h]

theorem neighbourWritten_cfg : (neighbourWritten s k e).cfg = s.cfg := by
  rw [neighbourWritten_moves]
  exact (field_of State.cfg (portMove_only _ _ _ _) (fun _ => rfl)).trans (leaveRx_cfg _ _)

theorem neighbourWritten_guard : (neighbourWritten s k e).guard = s.guard := by
  rw [neighbourWritten_moves]
  exact (field_of State.guard (portMove_only _ _ _ _) (fun _ => rfl)).trans (leaveRx_guard _ _)

theorem neighbourWritten_beat : (neighbourWritten s k e).beat = s.beat := by
  rw [neighbourWritten_moves]
  exact (field_of State.beat (portMove_only _ _ _ _) (fun _ => rfl)).trans (leaveRx_beat _ _)

variable {s k e}

/-- A port that moves is recorded once (sp. 11 R326). -/
theorem neighbourWritten_counted (h : (port s k).st ≠ enteredState (peerEnable e) (lanesOn s k)) :
    oneMore s (neighbourWritten s k e) 0x0F (portPlace k) := by
  rw [neighbourWritten_moves]
  exact oneMore_congr (portMove_counted 0 (by rwa [neighbourTaken_st])) (congrArg Errors.sources (neighbourTaken_err s k e).symm) rfl

/-- One that stays where it is records nothing. -/
theorem neighbourWritten_stays (h : (port s k).st = enteredState (peerEnable e) (lanesOn s k)) :
    (neighbourWritten s k e).err = s.err := by
  rw [neighbourWritten_moves, portMove_stays 0 ((neighbourTaken_st s k e).trans h), neighbourTaken_err]

/-- Where the port was receiving nothing, memory and the stage are as before. -/
theorem neighbourWritten_idle (h : (port s k).rx = []) :
    (neighbourWritten s k e).mem = s.mem ∧ (neighbourWritten s k e).stage = s.stage := by
  have idle : (port (setPort s k ((port s k).remapped e)) k).rx = [] := by rwa [port_setPort]
  have taken : neighbourTaken s k e = setPort (setPort s k ((port s k).remapped e)) k ((port s k).remapped e).afresh := by
    unfold neighbourTaken
    rw [leaveRx_idle idle]
  rw [neighbourWritten_moves, taken]
  exact ⟨field_of State.mem (portMove_only _ _ _ _) (fun _ => rfl), field_of State.stage (portMove_only _ _ _ _) (fun _ => rfl)⟩

end Written

end Sys2Proof.Machine
end

section
/-! Sp. 13 Table 13-6; sp. 08 R242; sp. 09 R268, R272; sp. 11 R325, R326; sp. 05 R127: the configuration writes. -/

namespace Sys2Proof.Machine

section Writes
variable {s : State} {f : Frame}

/-! ## Each write on the accepted state -/

theorem exec_deviceIdSet {v : Byte} (ha : accepts s f (cmdEarly 0x10) = true) (hp : f.payload = [v]) (hb : stepBusy s = false)
    (hv : anyVerified s = false) :
    exec (.deviceIdSet f) s = .next (replies s f 0x10 []
      (allPorts.foldl (tellPort v) { afterAccept s f with cfg := { s.cfg with deviceId := some v } })) := by
  refine next_congr (runCommand_replies _ _ ha (by decide) ?_)
  dsimp only
  rw [if_neg (by simp [hp]), if_neg (by simp [stepBusy_afterAccept, hb]), if_neg (by simp [anyVerified_afterAccept, hv]), hp, afterAccept_cfg]
  rfl

/-- The form and the conditions of a NEIGHBOUR_WRITE that is not refused. -/
theorem neighbourWriteBody_writes {k : PortNo} (hl : f.payload.length = 32) (hk : byteAt f.payload 0 = k.val)
    (hz : zeroAt f.payload 1 15 = true) (hp : peerPort (entryOf f.payload) < 6) (hb : stepBusy s = false)
    (hd : peerEnable (entryOf f.payload) = true → s.cfg.deviceId.isSome = true) :
    neighbourWriteBody f s = ok (neighbourWritten s k (entryOf f.payload)) [] := by
  have named : byteAt f.payload 0 < 6 := hk ▸ k.isLt
  have same : (⟨byteAt f.payload 0, named⟩ : PortNo) = k := Fin.ext hk
  have known : ¬ (peerEnable (entryOf f.payload) = true ∧ s.cfg.deviceId.isNone = true) := fun ⟨he, hn⟩ =>
    Option.isSome_iff_ne_none.1 (hd he) (Option.isNone_iff_eq_none.1 hn)
  unfold neighbourWriteBody
  dsimp only
  rw [if_neg (not_not_intro hl), dif_pos named, if_neg (by simp [hz, hp]), if_neg (by simpa [hb] using known), same]
  rfl

theorem stateRegionWriteBody_writes (hl : f.payload.length = 32) (hi : byteAt f.payload 0 < 64) (hz : zeroAt f.payload 1 15 = true)
    (hf : regionFieldsOk (taken128 (entryOf f.payload) regionFields) = true) (hb : stepBusy s = false)
    (hw : hitsWing s (taken128 (entryOf f.payload) regionFields) = false) :
    stateRegionWriteBody f s = ok { s with cfg := { s.cfg with
      regions := Sparse.set noEntry s.cfg.regions (byteAt f.payload 0) (taken128 (entryOf f.payload) regionFields) } } [] := by
  unfold stateRegionWriteBody
  dsimp only
  rw [if_neg (not_not_intro hl), if_neg (by simp [hi, hz, hf]), if_neg (by simp [hb]), if_neg (by simp [hw])]

theorem wingWriteBody_writes (hl : f.payload.length = 32) (hd : byteAt f.payload 0 < 4) (hz : zeroAt f.payload 1 15 = true)
    (hn : wLength (taken128 (entryOf f.payload) wingFields) ≤ 12288) (hb : stepBusy s = false)
    (hin : wingInside (byteAt f.payload 0) (taken128 (entryOf f.payload) wingFields) = true)
    (hr : (allRegionRanges s).any (fun r => overlaps r.1 r.2 (eBase (taken128 (entryOf f.payload) wingFields))
      (wLength (taken128 (entryOf f.payload) wingFields))) = false) :
    wingWriteBody f s = ok { s with cfg := { s.cfg with
      wings := Sparse.set noEntry s.cfg.wings (byteAt f.payload 0) (taken128 (entryOf f.payload) wingFields) } } [] := by
  unfold wingWriteBody
  dsimp only
  rw [hr, if_neg (not_not_intro hl), if_neg (by simp [hd, hz, hn]), if_neg (by simp [hb]), if_neg (by simp [hin])]

/-- PANEL_THRESH takes bits [4:0] (sp. 05 R127). -/
theorem exec_panelThreshWrite (ha : accepts s f (cmdEarly 0x17) = true) (hl : f.payload.length = 4) (hn : leAt f.payload 0 4 % 32 ≤ 16)
    (hb : stepBusy s = false) :
    exec (.panelThreshWrite f) s = .next (replies s f 0x17 []
      (let a := afterAccept s f
       { a with cfg := { a.cfg with panelThresh := BitVec.ofNat 32 (leAt f.payload 0 4 % 32) } })) := by
  refine next_congr (runCommand_replies _ _ ha (by decide) ?_)
  dsimp only
  rw [if_neg (not_not_intro hl), if_neg (Nat.not_lt.2 hn), if_neg (by simp [stepBusy_afterAccept, hb])]

theorem beatDelayWriteBody_writes (hl : f.payload.length = 8) (hp : byteAt f.payload 0 < 2) (hz : zeroAt f.payload 1 3 = true)
    (hlo : -65536 ≤ signed 32 (leAt f.payload 4 4)) (hhi : signed 32 (leAt f.payload 4 4) ≤ 65535)
    (hk : s.beat.lock = .unlocked ∨ s.beat.lock = .lost) :
    beatDelayWriteBody f s = ok (if byteAt f.payload 0 = 0 then { s with beat := { s.beat with delayA := signed 32 (leAt f.payload 4 4) } }
      else { s with beat := { s.beat with delayB := signed 32 (leAt f.payload 4 4) } }) [] := by
  have form : ¬ (2 ≤ byteAt f.payload 0 ∨ (!zeroAt f.payload 1 3) = true ∨ signed 32 (leAt f.payload 4 4) < -65536 ∨
      65535 < signed 32 (leAt f.payload 4 4)) := by
    rw [hz]
    rintro (h | h | h | h)
    · omega
    · exact Bool.noConfusion h
    · omega
    · omega
  have free : ¬ (s.beat.lock ≠ .unlocked ∧ s.beat.lock ≠ .lost) := fun ⟨hu, hl⟩ => hk.elim hu hl
  unfold beatDelayWriteBody
  dsimp only
  rw [if_neg (not_not_intro hl), if_neg form, if_neg free]
  split <;> rfl

end Writes

/-! ## ENVIRONMENT (sp. 13 Table 13-6; sp. 15 R444) -/

/-- The figures of an ENVIRONMENT payload `p`, told in cycle `ref` of the reference clock (log 89). -/
def Cfg.told (c : Cfg) (p : List Byte) (ref : Nat) : Cfg :=
  { c with inlet := BitVec.ofNat 16 (leAt p 0 2), flow := BitVec.ofNat 16 (leAt p 2 2), ambient := BitVec.ofNat 16 (leAt p 4 2),
           wall := BitVec.ofNat 64 (leAt p 8 8), wallAt := ref }

/-- COOLANT: an inlet above 40 degrees, or a flow below 2.0 L/min. -/
abbrev coolantOut (p : List Byte) : Prop := 4000 < signed 16 (leAt p 0 2) ∨ leAt p 2 2 < 2000

section Environment
variable (s : State) (f : Frame) (p : List Byte)

/-- The figures are kept. -/
def figuresTold : State := { s with cfg := s.cfg.told p s.ref }

/-- COOLANT is recorded, kind 0x4C. -/
def coolantTold : State :=
  guardRaise (figuresTold s p) (gev (figuresTold s p) 0x4C (unsigned 64 (signed 16 (leAt p 0 2))) (leAt p 2 2) .first)

/-- What an ENVIRONMENT leaves. -/
def environmentTold : State := if coolantOut p then coolantTold s p else figuresTold s p

variable {s f p}

theorem environmentBody_tells (hl : f.payload.length = 16) (hz : zeroAt f.payload 6 2 = true) :
    environmentBody f s = ok (environmentTold s f.payload) [] := by
  unfold environmentBody environmentTold
  dsimp only
  rw [if_neg (not_not_intro hl), if_neg (by simp [hz])]
  split <;> rfl

/-- An event changes nothing but the errors, the alarms, its marks on the step and the health counts. -/
theorem raise_rest (e : Event) : raise s e =
    { s with err := (raise s e).err, alarms := (raise s e).alarms, step := (raise s e).step, health := (raise s e).health } :=
  congrArg (fun u : State => { u with err := (raise s e).err, alarms := (raise s e).alarms, step := (raise s e).step,
                                      health := (raise s e).health }) (raise_only s e)

theorem environmentTold_rest (h : firmwareUp s = true) : environmentTold s p =
    { s with cfg := s.cfg.told p s.ref, err := (environmentTold s p).err, alarms := (environmentTold s p).alarms,
             step := (environmentTold s p).step, health := (environmentTold s p).health } := by
  unfold environmentTold
  split
  · unfold coolantTold
    rw [guardRaise_raises (s := figuresTold s p) _ h]
    exact raise_rest _
  · rfl

/-- Figures in range are kept, and that is all. -/
theorem environmentTold_inRange (h : ¬ coolantOut p) : environmentTold s p = figuresTold s p := if_neg h

theorem environmentTold_counted (h : firmwareUp s = true) (hc : coolantOut p) : oneMore s (environmentTold s p) 0x4C (guardPlace s) := by
  unfold environmentTold
  rw [if_pos hc]
  exact oneMore_congr (guardRaise_counted (s := figuresTold s p) h 0x4C _ _ .first) rfl rfl

end Environment

/-! ## The obligation -/

/-- Settles O13: each write is its body on the accepted state; a neighbour's new entry and an ENVIRONMENT's figures are the two that record, and
what they leave is said by `neighbourWritten` and `environmentTold`. -/
theorem configurationWritesTakeEffect : Obligations.ConfigurationWritesTakeEffect := by
  intro f s
  refine ⟨fun v ha hp hb hv => ?deviceId, fun k ha hl hk hz hp hb hd => ?neighbour, ?region, ?wing,
    fun ha hl hn hb => exec_panelThreshWrite ha hl hn hb, fun ha hl hp hz hlo hhi hk => ?delay, fun ha hl hz => ?environment⟩
  case deviceId =>
    refine ⟨_, exec_deviceIdSet ha hp hb hv, fun q => ?_, tellPorts_only v allPorts _⟩
    rw [port_tellPorts, if_pos (mem_allPorts q)]
    exact congrArg (fun x : Port => { x with me := v }) (port_afterAccept q)
  case neighbour =>
    have st : enteredState (peerEnable (entryOf f.payload)) (lanesOn (afterAccept s f) k) =
        enteredState (peerEnable (entryOf f.payload)) (lanesOn s k) := by rw [lanesOn_afterAccept]
    have entered := neighbourWritten_port (afterAccept s f) k (entryOf f.payload)
    refine ⟨neighbourWritten (afterAccept s f) k (entryOf f.payload), enteredState (peerEnable (entryOf f.payload)) (lanesOn s k),
      next_congr (runCommand_replies _ _ ha (by decide) (neighbourWriteBody_writes hl hk hz hp (by rwa [stepBusy_afterAccept])
        (by rwa [afterAccept_cfg]))),
      rfl, ?_, ?_, ?_, fun j hj => ?_, ?_, ?_, ?_, fun hm => ?_, fun hr => ?_⟩
    · rw [entered, st]
    · rw [entered]
      rfl
    · rw [entered]
      rfl
    · rw [neighbourWritten_other _ _ _ hj, port_afterAccept]
    · rw [neighbourWritten_cfg, afterAccept_cfg]
    · rw [neighbourWritten_guard, afterAccept_guard]
    · rw [neighbourWritten_beat, afterAccept_beat]
    · exact oneMore_congr (neighbourWritten_counted (by rwa [port_afterAccept, st])) (congrArg Errors.sources (afterAccept_err s f).symm) rfl
    · obtain ⟨mem, stage⟩ := neighbourWritten_idle (e := entryOf f.payload) ((congrArg Port.rx (port_afterAccept (f := f) k)).trans hr)
      refine ⟨mem.trans (afterAccept_mem s f), stage.trans (afterAccept_stage s f), fun hm => ?_⟩
      rw [neighbourWritten_stays (by rwa [port_afterAccept, st]), afterAccept_err]
  case region =>
    rintro v rfl ha hl hi hz hf hb hw
    exact ⟨next_congr (runCommand_replies _ _ ha (by decide) (stateRegionWriteBody_writes hl hi hz hf (by rwa [stepBusy_afterAccept])
      (by rwa [hitsWing_afterAccept]))), rSwapped_taken _, fun b hb => bit_region_taken _ hb⟩
  case wing =>
    rintro v rfl ha hl hd hz hn hb hin hr
    exact ⟨next_congr (runCommand_replies _ _ ha (by decide) (wingWriteBody_writes hl hd hz hn (by rwa [stepBusy_afterAccept]) hin
      (by rwa [allRegionRanges_afterAccept]))), eBase_wing_taken _, wLength_wing_taken _⟩
  case delay =>
    exact next_congr (runCommand_replies _ _ ha (by decide) (beatDelayWriteBody_writes hl hp hz hlo hhi (by rwa [afterAccept_beat])))
  case environment =>
    have up := firmwareUp_afterAccept ha
    have figures : (afterAccept s f).cfg.told f.payload (afterAccept s f).ref = s.cfg.told f.payload s.ref := by
      rw [afterAccept_cfg, afterAccept_ref]
    refine ⟨environmentTold (afterAccept s f) f.payload, s.cfg.told f.payload s.ref,
      next_congr (runCommand_replies _ _ ha (by decide) (environmentBody_tells hl hz)), rfl, ?_, fun hi hfl => ?_, fun hc => ?_⟩
    · rw [← figures]
      exact environmentTold_rest up
    · rw [← figures]
      exact environmentTold_inRange (by omega)
    · rw [← guardPlace_afterAccept]
      exact oneMore_congr (environmentTold_counted up hc) (congrArg Errors.sources (afterAccept_err s f).symm) rfl

end Sys2Proof.Machine
end

section
/-! Sp. 09 R249, R264: every command keeps the stored bytes in canonical form. -/

namespace Sys2Proof.Machine

/-- What an outcome leaves of memory, if it leaves a state, is in canonical form. -/
def OutcomeOk (r : Result) : Prop := ∀ t, r = .next t → MemOk t.mem.bytes

@[simp] theorem outcomeOk_next (t : State) : OutcomeOk (.next t) ↔ MemOk t.mem.bytes :=
  ⟨fun h => h t rfl, fun h _ e => Host.Outcome.next.inj e ▸ h⟩

/-! ## Data frames -/

/-- A body of a data frame that keeps the form, where it takes the frame. -/
def DataOk (body : State → Option State) : Prop := ∀ s t, body s = some t → MemOk s.mem.bytes → MemOk t.mem.bytes

theorem inTurn_ok (f : Frame) (c : Instr) {body : State → Option State} (hb : DataOk body) : DataOk (inTurn f c body) := by
  intro s t e h
  unfold inTurn at e
  split at e
  · cases e
    rwa [holdData_mem]
  · exact hb s t e h

theorem sheetDataBody_ok (f : Frame) : DataOk (sheetDataBody f) := fun s t e h => by rwa [sheetDataBody_mem e]
theorem fwSlotDataBody_ok (f : Frame) : DataOk (fwSlotDataBody f) := fun s t e h => by rwa [fwSlotDataBody_mem e]
theorem restoreChunk_ok (p : List Byte) : DataOk (restoreChunk · p) := fun s t e h => by rwa [restoreChunk_mem e]

theorem writeDataBody_ok (f : Frame) : DataOk (writeDataBody f) := by
  intro s t e h
  unfold writeDataBody at e
  dsimp only at e
  split at e
  · exact inTurn_ok f _ (restoreChunk_ok f.payload) s t e h
  · split at e
    · cases e
    · split at e
      · cases e
      · split at e
        · cases e
          exact chunkWrite_ok _ _ _ _ h
        · cases e
          rwa [holdData_mem]

/-! ## Guard commands -/

/-- A row of sp. 15 Table 15-7 whose effect keeps the form. -/
def GuardOk (b : GuardBody) : Prop := ∀ s p o c, MemOk s.mem.bytes → MemOk (b.effect s p o c).1.mem.bytes

theorem setLimitsBody_ok : GuardOk setLimitsBody := fun _ _ _ _ h => h
theorem setPortsBody_ok : GuardOk setPortsBody := fun s _ _ _ h => writePorts_ok s _ h
theorem setFwMinSvBody_ok : GuardOk setFwMinSvBody := fun _ _ _ _ h => h
theorem rotateBody_ok : GuardOk rotateBody := fun s p o c h => by simp [rotateBody, h]
theorem enterFieldBody_ok : GuardOk enterFieldBody := fun s p o c h => by simp [enterFieldBody, h]
theorem scrapBody_ok : GuardOk scrapBody := fun _ _ _ _ h => h
theorem enterMakerBody_ok : GuardOk enterMakerBody := fun _ _ _ _ h => h
theorem generateBody_ok : GuardOk generateBody := fun s p o c h => by simp [generateBody, h]
theorem completeBody_ok : GuardOk completeBody := fun s p o c h => by simp [completeBody, h]
theorem setRegisterBody_ok : GuardOk setRegisterBody := fun s p o c h => by
  unfold setRegisterBody
  dsimp only
  split <;> simp [h]

/-! ## Commands with a reply -/

/-- A body of a command with a reply that keeps the form. -/
def BodyOk (body : State → Owed → State × Ans) : Prop := ∀ s o, MemOk s.mem.bytes → MemOk (body s o).1.mem.bytes

/-- One that leaves memory alone. -/
theorem bodyOk_of_mem {body : State → Owed → State × Ans} (h : ∀ s o, (body s o).1.mem = s.mem) : BodyOk body :=
  fun s o hs => by rwa [h s o]

theorem bodyOk_noPayload (f : Frame) {r : State → Owed → State × Ans} (hr : BodyOk r) : BodyOk (fun s o => noPayload f s (r · o)) :=
  fun s o h => noPayload_ok f s (r · o) (hr s o h) h

theorem bodyOk_tenantArg (f : Frame) {k : State → Owed → Nat → State × Ans} (hk : ∀ n, BodyOk (k · · n)) :
    BodyOk (fun s o => tenantArg f s (k s o)) :=
  fun s o h => tenantArg_ok f s (k s o) (fun n => hk n s o h) h

theorem bodyOk_guard (f : Frame) {b : GuardBody} (hb : GuardOk b) : BodyOk (guardBody b f) :=
  fun s o h => guardBody_ok b f s o hb h

/-- BEAT_REACQUIRE's (sp. 13 Table 13-6). -/
theorem beatReacquire_ok : BodyOk (fun s _ =>
    if stepBusy s ∧ s.beat.lock ≠ .lost then no s stBusy
    else
      let s1 := setLock s .unlocked
      ok s1 [BitVec.ofNat 8 s1.beat.lock.code]) := by
  refine bodyOk_of_mem fun s _ => ?_
  dsimp only
  split
  · rfl
  · exact setLock_mem s .unlocked

/-- DEVICE_ID_SET's (sp. 13 Table 13-6). -/
theorem deviceIdSetBody_ok (f : Frame) : BodyOk (fun s _ =>
    if f.payload.length ≠ 1 then no s stBadLength
    else if stepBusy s then no s stBusy
    else if anyVerified s then no s stStoreBusy
    else
      let id := f.payload.getD 0 0
      let s1 := { s with cfg := { s.cfg with deviceId := some id } }
      ok (allPorts.foldl (fun t p => setPort t p { port t p with me := id }) s1) []) := by
  refine bodyOk_of_mem fun s _ => ?_
  dsimp only
  (repeat' split) <;> simp

/-- TENANT_CLOSE's and TENANT_KILL's (sp. 13 Table 13-11): a tenant that is not in the right state is refused. -/
theorem closeTenantBody_ok (kill : Bool) (t : Nat) (wrong : State → Prop) [∀ s, Decidable (wrong s)] :
    BodyOk (fun s o => if wrong s then no s stTenantState else closeTenant s o t kill) := by
  intro s o h
  dsimp only
  split
  · exact h
  · rwa [closeTenant_bytes]

/-- Each command with a reply runs a body that keeps the form. -/
theorem exec_command {c : Instr} {f : Frame} {i : CmdInfo} (h : commandOf c = some (f, i)) :
    ∃ body, BodyOk body ∧ ∀ s, exec c s = .next (runCommand s f c i body) := by
  cases c with
  | identity f => cases h; exact ⟨_, bodyOk_noPayload f (bodyOk_of_mem fun _ _ => rfl), fun _ => rfl⟩
  | sessionOpen f => cases h; exact ⟨_, bodyOk_of_mem fun s _ => sessionOpenBody_mem f s, fun _ => rfl⟩
  | sessionClose f => cases h; exact ⟨_, bodyOk_noPayload f (bodyOk_of_mem fun s o => finish_mem s o stOk []), fun _ => rfl⟩
  | controlTake f => cases h; exact ⟨_, bodyOk_noPayload f (bodyOk_of_mem fun s _ => takeControl_mem s f.port 1), fun _ => rfl⟩
  | beatReacquire f => cases h; exact ⟨_, bodyOk_noPayload f beatReacquire_ok, fun _ => rfl⟩
  | attest f => cases h; exact ⟨_, bodyOk_of_mem fun s _ => attestReply_mem f s, fun _ => rfl⟩
  | deviceIdSet f => cases h; exact ⟨_, deviceIdSetBody_ok f, fun _ => rfl⟩
  | neighbourWrite f => cases h; exact ⟨_, fun s _ => neighbourWriteBody_ok f s, fun _ => rfl⟩
  | neighbourRead f => cases h; exact ⟨_, bodyOk_of_mem fun s _ => by (repeat' split) <;> rfl, fun _ => rfl⟩
  | stateRegionWrite f => cases h; exact ⟨_, bodyOk_of_mem fun s _ => stateRegionWriteBody_mem f s, fun _ => rfl⟩
  | stateRegionRead f => cases h; exact ⟨_, bodyOk_of_mem fun s _ => by (repeat' split) <;> rfl, fun _ => rfl⟩
  | wingWrite f => cases h; exact ⟨_, bodyOk_of_mem fun s _ => wingWriteBody_mem f s, fun _ => rfl⟩
  | wingRead f => cases h; exact ⟨_, bodyOk_of_mem fun s _ => by (repeat' split) <;> rfl, fun _ => rfl⟩
  | panelThreshWrite f => cases h; exact ⟨_, bodyOk_of_mem fun s _ => by (repeat' split) <;> rfl, fun _ => rfl⟩
  | panelThreshRead f => cases h; exact ⟨_, bodyOk_noPayload f (bodyOk_of_mem fun _ _ => rfl), fun _ => rfl⟩
  | beatDelayWrite f => cases h; exact ⟨_, bodyOk_of_mem fun s _ => beatDelayWriteBody_mem f s, fun _ => rfl⟩
  | beatDelayRead f => cases h; exact ⟨_, bodyOk_of_mem fun s _ => by (repeat' split) <;> rfl, fun _ => rfl⟩
  | environment f => cases h; exact ⟨_, bodyOk_of_mem fun s _ => environmentBody_mem f s, fun _ => rfl⟩
  | sheetBegin f => cases h; exact ⟨_, bodyOk_of_mem fun s _ => sheetBeginBody_mem f s, fun _ => rfl⟩
  | sheetVerify f => cases h; exact ⟨_, bodyOk_of_mem fun s o => sheetVerifyBody_mem f s o, fun _ => rfl⟩
  | sheetStatus f => cases h; exact ⟨_, bodyOk_of_mem fun s _ => sheetStatusBody_mem f s, fun _ => rfl⟩
  | sheetClear f => cases h; exact ⟨_, bodyOk_of_mem fun s _ => sheetClearBody_mem f s, fun _ => rfl⟩
  | writeOpen f => cases h; exact ⟨_, bodyOk_of_mem fun s _ => writeOpenBody_mem f s, fun _ => rfl⟩
  | writeClose f => cases h; exact ⟨_, bodyOk_of_mem fun s _ => writeCloseBody_mem f s, fun _ => rfl⟩
  | read f => cases h; exact ⟨_, fun s _ => readBody_ok f s, fun _ => rfl⟩
  | cancel f => cases h; exact ⟨_, bodyOk_of_mem fun s _ => cancelBody_mem f s, fun _ => rfl⟩
  | arm f => cases h; exact ⟨_, bodyOk_of_mem fun s _ => armBody_mem f s, fun _ => rfl⟩
  | startAtBeat f => cases h; exact ⟨_, bodyOk_of_mem fun s _ => startBody_mem f s, fun _ => rfl⟩
  | hold f => cases h; exact ⟨_, bodyOk_of_mem fun s o => holdBody_mem f s o, fun _ => rfl⟩
  | resume f => cases h; exact ⟨_, bodyOk_of_mem fun s _ => resumeBody_mem f s, fun _ => rfl⟩
  | stepAbort f => cases h; exact ⟨_, fun s _ => abortBody_ok f s, fun _ => rfl⟩
  | stepStatus f => cases h; exact ⟨_, bodyOk_of_mem fun s _ => statusBody_mem f s, fun _ => rfl⟩
  | tenantOpen f => cases h; exact ⟨_, bodyOk_of_mem fun s _ => tenantOpenBody_mem f s, fun _ => rfl⟩
  | tenantClose f => cases h; exact ⟨_, bodyOk_tenantArg f (closeTenantBody_ok false · _), fun _ => rfl⟩
  | tenantKill f => cases h; exact ⟨_, bodyOk_tenantArg f (closeTenantBody_ok true · _), fun _ => rfl⟩
  | tenantStatus f => cases h; exact ⟨_, bodyOk_tenantArg f (fun _ => bodyOk_of_mem fun _ _ => rfl), fun _ => rfl⟩
  | scrubStatus f => cases h; exact ⟨_, bodyOk_tenantArg f (fun _ => bodyOk_of_mem fun _ _ => rfl), fun _ => rfl⟩
  | secureNow f => cases h; exact ⟨_, fun s o => secureNowBody_ok f s o, fun _ => rfl⟩
  | secureFloor f => cases h; exact ⟨_, bodyOk_of_mem fun s _ => secureFloorBody_mem f s, fun _ => rfl⟩
  | understudyWrite f => cases h; exact ⟨_, bodyOk_of_mem fun s _ => understudyWriteBody_mem f s, fun _ => rfl⟩
  | understudyRead f => cases h; exact ⟨_, bodyOk_of_mem fun s _ => understudyReadBody_mem f s, fun _ => rfl⟩
  | journalRead f => cases h; exact ⟨_, bodyOk_of_mem fun s _ => journalReadBody_mem f s, fun _ => rfl⟩
  | restore f => cases h; exact ⟨_, fun s o => restoreBody_ok f s o, fun _ => rfl⟩
  | healthRead f => cases h; exact ⟨_, bodyOk_noPayload f (bodyOk_of_mem fun _ _ => rfl), fun _ => rfl⟩
  | countersRead f => cases h; exact ⟨_, bodyOk_of_mem fun s _ => by (repeat' split) <;> rfl, fun _ => rfl⟩
  | errorRead f => cases h; exact ⟨_, bodyOk_of_mem fun s _ => errorReadBody_mem f s, fun _ => rfl⟩
  | alarmRead f => cases h; exact ⟨_, bodyOk_of_mem fun s _ => alarmReadBody_mem f s, fun _ => rfl⟩
  | hostFigures f => cases h; exact ⟨_, bodyOk_of_mem fun s _ => hostFiguresBody_mem f s, fun _ => rfl⟩
  | traceConfig f => cases h; exact ⟨_, bodyOk_of_mem fun s _ => by (repeat' split) <;> rfl, fun _ => rfl⟩
  | guardRead f => cases h; exact ⟨_, bodyOk_of_mem fun s _ => by (repeat' split) <;> rfl, fun _ => rfl⟩
  | setLimits f => cases h; exact ⟨_, bodyOk_guard f setLimitsBody_ok, fun _ => rfl⟩
  | setPorts f => cases h; exact ⟨_, bodyOk_guard f setPortsBody_ok, fun _ => rfl⟩
  | setFwMinSv f => cases h; exact ⟨_, bodyOk_guard f setFwMinSvBody_ok, fun _ => rfl⟩
  | rotateOperatorKey f => cases h; exact ⟨_, bodyOk_guard f rotateBody_ok, fun _ => rfl⟩
  | enterField f => cases h; exact ⟨_, bodyOk_guard f enterFieldBody_ok, fun _ => rfl⟩
  | scrap f => cases h; exact ⟨_, bodyOk_guard f scrapBody_ok, fun _ => rfl⟩
  | enterMakerAnalysis f => cases h; exact ⟨_, bodyOk_guard f enterMakerBody_ok, fun _ => rfl⟩
  | generateDeviceKey f => cases h; exact ⟨_, bodyOk_guard f generateBody_ok, fun _ => rfl⟩
  | completeProvision f => cases h; exact ⟨_, bodyOk_guard f completeBody_ok, fun _ => rfl⟩
  | setRegister f => cases h; exact ⟨_, bodyOk_guard f setRegisterBody_ok, fun _ => rfl⟩
  | fuseMapRead f => cases h; exact ⟨_, bodyOk_noPayload f (bodyOk_of_mem fun _ _ => rfl), fun _ => rfl⟩
  | tableImageRead f => cases h; exact ⟨_, bodyOk_of_mem fun s _ => by dsimp only; (repeat' split) <;> rfl, fun _ => rfl⟩
  | dmaStateRead f => cases h; exact ⟨_, bodyOk_of_mem fun s _ => dmaStateBody_mem f s, fun _ => rfl⟩
  | regionScrub f => cases h; exact ⟨_, fun s o h => (regionScrubBody_bytes f s o).symm ▸ h, fun _ => rfl⟩
  | fwSlotCommit f => cases h; exact ⟨_, bodyOk_of_mem fun s o => fwSlotCommitBody_mem f s o, fun _ => rfl⟩
  | deviceReset f => cases h; exact ⟨_, bodyOk_of_mem fun s _ => by (repeat' split) <;> rfl, fun _ => rfl⟩
  | _ => cases h

/-! ## Events -/

theorem next_ok {t : State} (h : MemOk t.mem.bytes) : OutcomeOk (.next t) := (outcomeOk_next t).2 h

section Kept
variable {s t : State}

theorem next_of_bytes (e : t.mem.bytes = s.mem.bytes) (h : MemOk s.mem.bytes) : OutcomeOk (.next t) := next_ok (e ▸ h)
theorem next_of_mem (e : t.mem = s.mem) (h : MemOk s.mem.bytes) : OutcomeOk (.next t) := next_ok (e ▸ h)

end Kept

theorem clockTo_bytes (s : State) (c : Nat) : (clockTo s c).mem.bytes = s.mem.bytes := by rw [clockTo_mem]

theorem ite_ok {c : Prop} [Decidable c] {a b : Result} (ha : OutcomeOk a) (hb : OutcomeOk b) : OutcomeOk (if c then a else b) := by
  split
  · exact ha
  · exact hb

section Events
variable {s : State} (h : MemOk s.mem.bytes)
include h

/-! ### Power, start-up and holds (sp. 15, sp. 16) -/

theorem execPwrEnDeassert_ok : OutcomeOk (execPwrEnDeassert s) := by
  unfold execPwrEnDeassert
  (repeat' split) <;> simp [h]

theorem execInputLoss_ok : OutcomeOk (execInputLoss s) := by
  unfold execInputLoss
  (repeat' split) <;> simp [h]

theorem execInputOvervoltage_ok (reading : Nat) : OutcomeOk (execInputOvervoltage reading s) := by
  unfold execInputOvervoltage
  (repeat' split) <;> simp [h]

theorem execSlotCheck_ok : OutcomeOk (execSlotCheck s) := by
  unfold execSlotCheck
  dsimp only
  (repeat' split) <;> simp [h]

theorem execFirmwareRunning_ok : OutcomeOk (execFirmwareRunning s) := by
  unfold execFirmwareRunning
  (repeat' split) <;> simp [h]

theorem execZeroiseComplete_ok : OutcomeOk (execZeroiseComplete s) := by
  unfold execZeroiseComplete
  dsimp only
  (repeat' split) <;> simp [h]

theorem execSupplyWarn_ok (place : Place) (rail : Fin 3) (reading : Nat) : OutcomeOk (execSupplyWarn place rail reading s) := by
  unfold execSupplyWarn
  (repeat' split) <;> simp [h]

theorem execPowerSample_ok (m : InputSample) : OutcomeOk (execPowerSample m s) := by
  unfold execPowerSample
  dsimp only
  (repeat' split) <;> simp [h]

theorem execSensorRead_ok (temps : List Int) : OutcomeOk (execSensorRead temps s) := by
  unfold execSensorRead
  (repeat' split) <;> simp [h]

theorem execGuardDisagree_ok (index : Fin 16) (other : Nat) : OutcomeOk (execGuardDisagree index other s) := by
  unfold execGuardDisagree
  dsimp only
  (repeat' split) <;> simp [h]

/-! ### The beat (sp. 02 R32-R38) -/

theorem execBeatMark_ok (port : Kcp) (w : BitVec 128) (off : Int) : OutcomeOk (execBeatMark port w off s) := by
  unfold execBeatMark
  dsimp only
  (repeat' split) <;> simp [h]

theorem execBeatBoundary_ok : OutcomeOk (execBeatBoundary s) := by
  unfold execBeatBoundary
  (repeat' split) <;> simp [h]

/-! ### The step and its cues (sp. 02) -/

theorem execStepStart_ok : OutcomeOk (execStepStart s) := by
  unfold execStepStart
  (repeat' split) <;> simp [h]

theorem execHoldTakesEffect_ok : OutcomeOk (execHoldTakesEffect s) := by
  unfold execHoldTakesEffect
  dsimp only
  (repeat' split) <;> simp [h]

theorem execResumeBeat_ok : OutcomeOk (execResumeBeat s) := by
  unfold execResumeBeat
  (repeat' split) <;> simp [h]

theorem execCueFire_ok (die : Die) : OutcomeOk (execCueFire die s) := by
  unfold execCueFire
  dsimp only
  (repeat' split) <;> simp [h]

theorem execCueLate_ok (u : UnitId) : OutcomeOk (execCueLate u s) := by
  unfold execCueLate
  dsimp only
  (repeat' split) <;> simp [h]

theorem execTallyLaneMessage_ok (pos : Nat) : OutcomeOk (execTallyLaneMessage pos s) := by
  unfold execTallyLaneMessage
  (repeat' split) <;> simp [h]

theorem execLendEnd_ok (die : Die) (cue : Nat) : OutcomeOk (execLendEnd die cue s) := by
  unfold execLendEnd
  (repeat' split) <;> simp [h]

theorem execWindowClose_ok (die : Die) (cue : Nat) (written : List Progress) : OutcomeOk (execWindowClose die cue written s) := by
  unfold execWindowClose
  (repeat' split) <;> simp [h]

theorem execCurtainDrain_ok : OutcomeOk (execCurtainDrain s) := by
  unfold execCurtainDrain
  dsimp only
  (repeat' split) <;> simp [h]

theorem execStepEnd_ok : OutcomeOk (execStepEnd s) := by
  unfold execStepEnd
  dsimp only
  (repeat' split) <;> simp [h]

theorem execBankDownComplete_ok (die : Die) (bank : Fin 64) : OutcomeOk (execBankDownComplete die bank s) := by
  unfold execBankDownComplete
  dsimp only
  (repeat' split) <;> simp [h]

/-! ### DMA channels (sp. 10) -/

theorem execDmaComplete_ok (die : Die) (n : Fin 128) (parity : List Detect) : OutcomeOk (execDmaComplete die n parity s) := by
  unfold execDmaComplete
  dsimp only
  (repeat' split) <;> simp [h]

theorem execDmaBusError_ok (die : Die) (n : Fin 128) (k : Nat) : OutcomeOk (execDmaBusError die n k s) := by
  unfold execDmaBusError
  (repeat' split) <;> simp [h]

theorem execDisable_ok (die : Die) (at_ : Disabling) : OutcomeOk (execDisable die at_ s) := by
  unfold execDisable
  dsimp only
  (repeat' split) <;> simp [h]

theorem execGo_ok (die : Die) (n : Fin 128) : OutcomeOk (execGo die n s) := by
  unfold execGo
  dsimp only
  (repeat' split) <;> simp [h]

theorem execRegisterWrite_ok (die : Die) (n : Fin 128) (reg : ChanReg) : OutcomeOk (execRegisterWrite die n reg s) := by
  unfold execRegisterWrite
  (repeat' split) <;> simp [h]

/-! ### Scrubs (sp. 09 R290-R293) -/

theorem execScrubRegionStart_ok (die : Die) : OutcomeOk (execScrubRegionStart die s) := by
  unfold execScrubRegionStart
  (repeat' split) <;> simp [h]

theorem execScrubRegionDone_ok (die : Die) : OutcomeOk (execScrubRegionDone die s) := by
  unfold execScrubRegionDone
  (repeat' split) <;> simp [h]

theorem execRegionScrubDone_ok : OutcomeOk (execRegionScrubDone s) := by
  unfold execRegionScrubDone
  (repeat' split) <;> simp [h]

/-! ### Peer ports (sp. 11) -/

theorem execIdent_ok (port : PortNo) (body : IdentBody) : OutcomeOk (execIdent port body s) := by
  unfold execIdent
  dsimp only
  (repeat' split) <;> simp [h]

theorem execBadFlit_ok (port : PortNo) (first last : BitVec 16) (found : BadFound) : OutcomeOk (execBadFlit port first last found s) := by
  unfold execBadFlit
  dsimp only
  (repeat' split) <;> simp [h]

theorem execLink_ok (hd : FlitHdr) (nak : Option (BitVec 16 × BitVec 16)) : OutcomeOk (execLink hd nak s) := by
  unfold execLink
  (repeat' split) <;> simp [h]

theorem execTransferVisible_ok (port : PortNo) (landed : Landed) : OutcomeOk (execTransferVisible port landed s) := by
  unfold execTransferVisible
  dsimp only
  (repeat' split) <;> simp [h]

/-! ### Control ports, alarms and traces (sp. 13, sp. 14) -/

theorem execKcpLinkUp_ok (port : Kcp) : OutcomeOk (execKcpLinkUp port s) := by
  unfold execKcpLinkUp
  dsimp only
  (repeat' split) <;> simp [h]

theorem execControlPortLost_ok : OutcomeOk (execControlPortLost s) := by
  unfold execControlPortLost
  (repeat' split) <;> simp [h]

theorem execBadFrame_ok (port : Kcp) (raw : List Byte) (found : UnitsFound) : OutcomeOk (execBadFrame port raw found s) := by
  unfold execBadFrame
  dsimp only
  (repeat' split) <;> simp [h]

theorem execAlarmMessageSend_ok (place : Place) : OutcomeOk (execAlarmMessageSend place s) := by
  unfold execAlarmMessageSend
  dsimp only
  (repeat' split) <;> simp [h]

theorem execAlarmMessageTake_ok (port : Kcp) : OutcomeOk (execAlarmMessageTake port s) := by
  unfold execAlarmMessageTake
  (repeat' split) <;> simp [h]

theorem execTrace_ok : OutcomeOk (execTrace s) := by
  unfold execTrace
  (repeat' split) <;> simp [h]

/-! ### Securing, stores and slots (sp. 13-15) -/

theorem execJournalMirrorDone_ok (ok : Bool) : OutcomeOk (execJournalMirrorDone ok s) := by
  unfold execJournalMirrorDone
  (repeat' split) <;> simp [h]

theorem execRestoreComplete_ok : OutcomeOk (execRestoreComplete s) := by
  unfold execRestoreComplete
  dsimp only
  (repeat' split) <;> simp [h]

theorem execSheetVerifyDone_ok (store : Fin 2) : OutcomeOk (execSheetVerifyDone store s) := by
  unfold execSheetVerifyDone
  dsimp only
  (repeat' split) <;> simp [h]

theorem execFwSlotCommitDone_ok (slot : Fin 2) : OutcomeOk (execFwSlotCommitDone slot s) := by
  unfold execFwSlotCommitDone
  dsimp only
  (repeat' split) <;> simp [h]

theorem execKcpLinkDown_ok (port : Kcp) : OutcomeOk (execKcpLinkDown port s) := by
  unfold execKcpLinkDown
  (repeat' split) <;> simp [h]

theorem execUnknownOpcode_ok (opcode : Byte) (f : Frame) : OutcomeOk (execUnknownOpcode opcode f s) := by
  unfold execUnknownOpcode
  (repeat' split) <;> simp [h]

/-! ### Every command -/

/-- Of the commands with a row of their own, and those with a reply. -/
theorem exec_row_ok {c : Instr} (hc : ((computeRow c).isSome || (completeRow c).isSome || (commandOf c).isSome) = true) :
    OutcomeOk (exec c s) := by
  rcases hs : computeRow c with _ | ⟨u, op⟩
  · rcases hd : completeRow c with _ | ⟨u, fin⟩
    · rcases hf : commandOf c with _ | ⟨f, i⟩
      · rw [hs, hd, hf] at hc
        cases hc
      · obtain ⟨body, ok, runs⟩ := exec_command hf
        rw [runs]
        exact next_ok (runCommand_ok s f c i body ok h)
    · rw [exec_completeRow hd]
      exact next_ok (completeUnit_ok s u fin h)
  · rw [exec_computeRow hs]
    exact next_ok (startUnit_ok s u op h)

/-- Every command keeps the form. -/
theorem exec_ok (c : Instr) : OutcomeOk (exec c s) := by
  cases c with
  | inputPowerOn => exact ite_ok (next_ok h) (next_of_mem (guardPowerUp_mem _) h)
  | pwrEnAssert => exact next_of_mem (tryRamp_mem _) h
  | pwrEnDeassert => exact execPwrEnDeassert_ok h
  | bulkChargeDone => exact ite_ok (next_of_mem (tryRamp_mem _) h) (next_ok h)
  | railRampStep => exact ite_ok (next_ok h) (next_ok h)
  | pwrGood => exact ite_ok (next_of_mem (enterStage_mem _ 1) h) (next_ok h)
  | rampFail _ => exact ite_ok (next_of_bytes (supplyResetWith_bytes s _ _) h) (next_ok h)
  | supplyResetWaitEnd => exact ite_ok (next_of_mem (tryRamp_mem _) h) (next_ok h)
  | inputLoss => exact execInputLoss_ok h
  | inputOvervoltage reading => exact execInputOvervoltage_ok h reading
  | hbmRailFault _ _ => exact ite_ok (next_of_bytes (supplyResetWith_bytes s _ _) h) (next_ok h)
  | dieRelease => exact ite_ok (next_ok (memOk_clear h _ _)) (next_ok h)
  | slotCheck => exact execSlotCheck_ok h
  | firmwareRunning => exact execFirmwareRunning_ok h
  | hbmTrained _ => exact ite_ok (next_of_mem (enterStage_mem _ _) h) (next_ok h)
  | hbmInitDone => exact ite_ok (next_ok (memOk_clear h _ _)) (next_ok h)
  | startReady => exact ite_ok (next_of_mem (enterStage_mem _ 6) h) (next_ok h)
  | zeroiseComplete => exact execZeroiseComplete_ok h
  | commandReset => exact ite_ok (next_of_mem (enterStage_mem _ 1) h) (next_ok h)
  | supplyWarn place rail reading => exact execSupplyWarn_ok h place rail reading
  | freezeSignal d => exact ite_ok (next_of_mem (freezeDie_mem s d) h) (next_ok h)
  | supplyRecovery => exact ite_ok (next_of_mem (exitHold_mem s _) h) (next_ok h)
  | supplyHoldTimeout => exact ite_ok (next_of_bytes (supplyResetWith_bytes s _ _) h) (next_ok h)
  | supplyReset _ _ => exact ite_ok (next_of_bytes (supplyResetWith_bytes s _ _) h) (next_ok h)
  | powerSample m => exact execPowerSample_ok h m
  | powerHoldExit => exact ite_ok (next_of_mem (exitHold_mem s _) h) (next_ok h)
  | sensorRead temps => exact execSensorRead_ok h temps
  | thermalHoldExit => exact ite_ok (next_of_mem (exitHold_mem s _) h) (next_ok h)
  | guardDisagree index other => exact execGuardDisagree_ok h index other
  | beatMark port w off => exact execBeatMark_ok h port w off
  | beatBoundary => exact execBeatBoundary_ok h
  | holdoverTimeout => exact ite_ok (next_of_mem (setLock_mem s .lost) h) (next_ok h)
  | relay hd _ _ => exact next_ok (receiveFlit_ok s hd.port _ h)
  | stepStart => exact execStepStart_ok h
  | holdTakesEffect => exact execHoldTakesEffect_ok h
  | resumeBeat => exact execResumeBeat_ok h
  | cueFire die => exact execCueFire_ok h die
  | cueLate u => exact execCueLate_ok h u
  | tallyLaneMessage pos => exact execTallyLaneMessage_ok h pos
  | tallySet d => exact next_ok (runControl_ok s d 4 _ (fun t i x c ht => by rwa [setTally_mem]) h)
  | mark d => exact next_ok (runControl_ok s d 7 _ (fun t i x c ht => by rwa [traceAt_mem]) h)
  | lend d => exact next_ok (runControl_ok s d 3 _ (fun t i x c ht => ht) h)
  | lendEnd die cue => exact execLendEnd_ok h die cue
  | tenantBind d => exact next_ok (openWindow_ok s d 1 _ (fun t p c x y ht => by rwa [openArrays_bytes]) h)
  | routeAlloc d => exact next_ok (openWindow_ok s d 2 _ (fun t p c x y ht => by rwa [openArrays_bytes]) h)
  | expertList d => exact next_ok (openWindow_ok s d 3 _ (fun t p c x y ht => by rwa [openList_bytes]) h)
  | prompterIssue d u => exact next_ok (issueBuilt_ok s d u h)
  | windowClose die cue written => exact execWindowClose_ok h die cue written
  | curtain d => exact next_ok (runControl_ok s d 2 _ (fun t i x c ht => by dsimp only; split <;> exact ht) h)
  | stepCommit => exact ite_ok (next_ok (closeStep_ok _ 1 0 ((atEnd_mem s).symm ▸ h))) (next_ok h)
  | curtainDrain => exact execCurtainDrain_ok h
  | stepEnd => exact execStepEnd_ok h
  | bankDown d n => exact next_of_bytes (runBank_bytes s d n 5 _ _) h
  | bankDrainEnd _ _ => exact ite_ok (next_of_bytes (clockTo_bytes s _) h) (next_ok h)
  | bankDownComplete die bank => exact execBankDownComplete_ok h die bank
  | bankUp d n => exact next_of_bytes (runBank_bytes s d n 6 _ _) h
  | bankUpComplete _ _ => exact ite_ok (next_of_bytes ((bankCueDone_bytes _ _ _ _).trans (clockTo_bytes s _)) h) (next_ok h)
  | copy d n => exact next_ok (startDma_ok s d n 0x60 _ _ (fun t p w c ht => by rwa [copyAct_bytes]) h)
  | peerSend d n => exact next_ok (startOrGo_ok s d n 0x61 _ _ _ (sendAct_ok d n)
      (fun t r w ht => by rwa [sendGo_bytes]) h)
  | tallyOnly d n => exact next_ok (startOrGo_ok s d n 0x61 _ _ _ (tallyAct_ok d n)
      (fun t r w ht => by rwa [tallyGo_mem]) h)
  | freeze d n => exact next_ok (startDma_ok s d n 0x62 _ _ (fun t p w c ht => by rwa [freezeAct_bytes]) h)
  | stream d n => exact next_ok (startOrGo_ok s d n 0x62 _ _ _ (fun t p w c ht => by rwa [streamAct_bytes])
      (fun t r w ht => by rwa [streamGo_bytes]) h)
  | dmaComplete die n parity => exact execDmaComplete_ok h die n parity
  | dmaBusError die n k => exact execDmaBusError_ok h die n k
  | firmwareTransferStart => exact next_ok (dataTurns_ok _ _ _ (takeOldest_ok _ (dataTurns_ok _ s _ h)))
  | disable die at_ => exact execDisable_ok h die at_
  | dmaEnable _ _ => exact ite_ok (next_ok h) (next_ok h)
  | go die n => exact execGo_ok h die n
  | irqPendingClear d n _ => exact next_of_bytes (setChan_bytes s d n _) h
  | registerWrite die n reg => exact execRegisterWrite_ok h die n reg
  | arbiterSlot _ _ => exact next_ok h
  | hbmRefresh _ => exact next_ok h
  | scrubRegionStart die => exact execScrubRegionStart_ok h die
  | scrubRegionDone die => exact execScrubRegionDone_ok h die
  | regionScrubDone => exact execRegionScrubDone_ok h
  | portTrainingDone p => exact ite_ok (next_of_mem (portMove_mem _ p .verify 0) h) (next_ok h)
  | trainingTimeout p => exact ite_ok (next_ok (portFail_ok s p h)) (next_ok h)
  | identSend _ => exact ite_ok (next_ok h) (next_ok h)
  | ident port body => exact execIdent_ok h port body
  | identTimeout p => exact ite_ok (next_ok (portFail_ok s p h)) (next_ok h)
  | portRetrain p => exact ite_ok (next_ok (portAgain_ok s p h)) (next_ok h)
  | laneLockLost p => exact ite_ok (next_ok (portFail_ok s p h)) (next_ok h)
  | badFlit port first last found => exact execBadFlit_ok h port first last found
  | retryTimeout p => exact ite_ok (next_ok (checkResends_ok _ p h)) (next_ok h)
  | link hd nak => exact execLink_ok h hd nak
  | head hd _ => exact next_ok (receiveFlit_ok s hd.port _ h)
  | resumeFlit hd => exact next_ok (receiveFlit_ok s hd.port _ h)
  | dataFlit p _ _ => exact next_ok (receiveFlit_ok s p _ h)
  | endFlit hd _ _ => exact next_ok (receiveFlit_ok s hd.port _ h)
  | transferVisible port landed => exact execTransferVisible_ok h port landed
  | done hd _ => exact next_ok (receiveFlit_ok s hd.port _ h)
  | tally hd _ => exact next_ok (receiveFlit_ok s hd.port _ h)
  | notice hd _ _ _ => exact next_ok (receiveFlit_ok s hd.port _ h)
  | kcpLinkUp port => exact execKcpLinkUp_ok h port
  | controlPortLost => exact execControlPortLost_ok h
  | badFrame port raw found => exact execBadFrame_ok h port raw found
  | linkCredit k => exact ite_ok (next_of_mem (emit_mem s k _ 0) h) (next_ok h)
  | alarmMessageSend place => exact execAlarmMessageSend_ok h place
  | alarmMessageTake port => exact execAlarmMessageTake_ok h port
  | trace => exact execTrace_ok h
  | journalMirrorDone ok => exact execJournalMirrorDone_ok h ok
  | imageComplete tier ok => exact next_of_mem (imageComplete_mem s tier.val ok) h
  | restoreComplete => exact execRestoreComplete_ok h
  | sheetVerifyDone store => exact execSheetVerifyDone_ok h store
  | fwSlotCommitDone slot => exact execFwSlotCommitDone_ok h slot
  | sheetData f => exact next_ok (runData_ok s f _ _ (inTurn_ok f _ (sheetDataBody_ok f)) h)
  | writeData f => exact next_ok (runData_ok s f _ _ (writeDataBody_ok f) h)
  | fwSlotData f => exact next_ok (runData_ok s f _ _ (inTurn_ok f _ (fwSlotDataBody_ok f)) h)
  | extest => exact next_of_mem (tapLoad_mem s _) h
  | idcode => exact next_of_mem (tapLoad_mem s _) h
  | samplePreload _ => exact ite_ok (next_of_mem (tapLoad_mem s _) h) (next_of_mem (tapLoad_mem s _) h)
  | highz => exact next_of_mem (tapLoad_mem s _) h
  | clamp => exact next_of_mem (tapLoad_mem s _) h
  | bypass => exact next_of_mem (tapLoad_mem s _) h
  | testLogicReset => exact ite_ok (next_ok h) (next_of_mem (tryRamp_mem _) h)
  | kcpLinkDown port => exact execKcpLinkDown_ok h port
  | unknownOpcode opcode f => exact execUnknownOpcode_ok h opcode f
  | _ => exact exec_row_ok h rfl

end Events

theorem nextWaiting_mem {s t : State} {c : Instr} (h : nextWaiting s = some (c, t)) : t.mem = s.mem := by
  unfold nextWaiting at h
  split at h
  · cases h
  · split at h
    · cases h
    · cases h
      rfl

/-- Settles O4: a step is a command, from the same memory, or one idle cycle. -/
theorem everyStepKeepsMemoryCanonical : Obligations.EveryStepKeepsMemoryCanonical := by
  intro s t h e
  have ok : OutcomeOk (step s) := by
    unfold step
    split
    · next c rest _ => exact exec_ok (s := { s with pending := rest }) h c
    · split
      · next c u hw => exact exec_ok (s := u) (by rw [nextWaiting_mem hw]; exact h) c
      · exact next_of_mem (tick_mem s) h
  exact ok t e

end Sys2Proof.Machine
end

section
/-! Sp. 09 R249, R254-R256, R261, R288: what a byte written at an issued address leaves, and how it reads. -/

namespace Sys2Proof.Machine

/-! ## A byte stored -/

section Poke
variable (s : State) (p : Nat) (v : Byte)

/-- Memory without its bytes and flipped bits. -/
def Mem.butStore (m : Mem) : Mem := { m with bytes := [], upsets := [] }

theorem pokeByte_butStore : (pokeByte s p v).mem.butStore = s.mem.butStore := by
  unfold pokeByte
  dsimp only
  split <;> split <;> rfl

theorem pokeByte_fences : (pokeByte s p v).mem.fences = s.mem.fences := (congrArg Mem.fences (pokeByte_butStore s p v) :)
theorem pokeByte_banks : (pokeByte s p v).mem.banks = s.mem.banks := (congrArg Mem.banks (pokeByte_butStore s p v) :)
theorem pokeByte_cfg : (pokeByte s p v).cfg = s.cfg := cfg_of_access (pokeByte_only s p v)

theorem physByte_pokeByte_self : physByte (pokeByte s p v) p = v := Sparse.get_set_self _ _ _ _

/-- A byte stored has a fresh code. -/
theorem pokeByte_upsets : (pokeByte s p v).mem.upsets = clearUpset s p := by
  have none (h : s.mem.upsets.isEmpty = true) : clearUpset s p = [] := by
    unfold clearUpset
    rw [List.isEmpty_iff.1 h]
    exact ite_self _
  have shape : (pokeByte s p v).mem.upsets = if s.mem.upsets.isEmpty then s.mem.upsets else clearUpset s p := by
    unfold pokeByte
    dsimp only
    split <;> split <;> rfl
  rw [shape]
  split
  · next h => rw [none h]; exact List.isEmpty_iff.1 h
  · rfl

end Poke

/-! ## The code of a byte stored (sp. 09 R254-R256) -/

/-- The bits of a word and its code that stay when byte `k` of it is written in AM. -/
def keptBits (k : Nat) : BitVec 72 := BitVec.ofNat 72 (2 ^ 72 - 1 - 0xFF * 2 ^ (8 * k) - 2 ^ (64 + k))

/-- No flipped bit of the byte is among them. -/
theorem byte_and_keptBits (m : BitVec 72) {k : Nat} (hk : k < 8) : BitVec.ofNat 8 ((m &&& keptBits k).toNat >>> (8 * k)) = 0 := by
  have byte : ∀ k < 8, ∀ i < 8, (keptBits k).getLsbD (8 * k + i) = false := by decide
  refine BitVec.eq_of_getLsbD_eq (fun i hi => ?_)
  rw [BitVec.getLsbD_ofNat, Nat.testBit_shiftRight, BitVec.testBit_toNat, BitVec.getLsbD_and, byte k hk i hi]
  simp

/-- A bank holds whole words. -/
theorem bankOf_word (p : Nat) : bankOf (p - p % 8) = bankOf p := by
  have inside : scratchBase ≤ p - p % 8 ∧ p - p % 8 < scratchBase + 4 * 0x10000000 ↔
      scratchBase ≤ p ∧ p < scratchBase + 4 * 0x10000000 := by
    unfold scratchBase
    omega
  have same : (p - p % 8 - scratchBase) / 0x400000 = (p - scratchBase) / 0x400000 := by
    unfold scratchBase
    omega
  unfold bankOf
  simp only [inside, same]

theorem isAm_word (p : Nat) : isAm (p - p % 8) = isAm p := by
  unfold isAm
  rw [bankOf_word]

/-- Flipped bits of a word are those listed for it. -/
theorem upsetAt_cases (s : State) (w : Nat) : upsetAt s w = 0 ∨ ∃ u ∈ s.mem.upsets, u.addr = w ∧ upsetAt s w = u.mask := by
  unfold upsetAt
  split
  · next u h => exact .inr ⟨u, List.mem_of_find?_eq_some h, by simpa using List.find?_some h, rfl⟩
  · exact .inl rfl

section Cleared
variable {s t : State} {p : Nat} (h : t.mem.upsets = clearUpset s p)
include h

/-- Elsewhere than in AM the word has no flipped bit left. -/
theorem upsetAt_of_cleared_word (am : isAm p = false) : upsetAt t (p - p % 8) = 0 := by
  rcases upsetAt_cases t (p - p % 8) with e | ⟨u, hu, ha, _⟩
  · exact e
  · rw [h, clearUpset, am] at hu
    exact absurd ha (by simpa using (List.mem_filter.1 hu).2)

/-- In AM the byte has none. -/
theorem upsetAt_of_cleared_byte (am : isAm p = true) : upsetAt t (p - p % 8) = 0 ∨ ∃ m, upsetAt t (p - p % 8) = m &&& keptBits (p % 8) := by
  rcases upsetAt_cases t (p - p % 8) with e | ⟨u, hu, ha, e⟩
  · exact .inl e
  · rw [h, clearUpset, am] at hu
    obtain ⟨x, _, rfl⟩ := List.mem_map.1 (List.mem_filter.1 hu).1
    by_cases hx : x.addr = p - p % 8
    · rw [if_pos hx] at e
      exact .inr ⟨x.mask, e⟩
    · rw [if_neg hx] at ha
      exact absurd ha hx

/-- So a byte just stored is delivered as it is stored. -/
theorem deliver_of_cleared : deliver t p = physByte t p := by
  have mask : BitVec.ofNat 8 ((checkWord t (p - p % 8)).1.toNat >>> (8 * (p % 8))) = 0 := by
    unfold checkWord
    dsimp only
    split
    · simp
    · next set =>
      rw [isAm_word]
      split
      · next am =>
        obtain e | ⟨m, e⟩ := upsetAt_of_cleared_byte h am
        · exact absurd e set
        · rw [e]; exact byte_and_keptBits m (Nat.mod_lt _ (by decide))
      · next am => exact absurd (upsetAt_of_cleared_word h (Bool.not_eq_true _ ▸ am)) set
  unfold deliver
  dsimp only
  rw [mask]
  exact BitVec.xor_zero

end Cleared

/-! ## A byte written at an issued address -/

theorem fencedAt_congr {s t : State} (h : t.mem.fences = s.mem.fences) (a : Nat) : fencedAt t a = fencedAt s a := by
  unfold fencedAt
  rw [h]

theorem gatedAt_congr {s t : State} (h : t.mem.banks = s.mem.banks) (a : Nat) : gatedAt t a = gatedAt s a := by
  unfold gatedAt bank
  rw [h]

theorem gatedAt_of_bank {s : State} {a k : Nat} (hk : bankOf a = some k) (h : (bank s k).state ≠ .on) : gatedAt s a = true := by
  unfold gatedAt
  rw [hk]
  exact decide_eq_true h

section Issued
variable {s : State} {a : Nat} (v : Byte)

theorem writeByte_open (hf : fencedAt s a = false) (ht : a < tallyBase) (hg : gatedAt s (swapAddr s a) = false) :
    writeByte s a v = pokeByte s (swapAddr s a) v := by
  unfold writeByte
  rw [if_neg (by simp [hf, ht])]
  exact if_neg (by simp [hg])

theorem readByte_open (hf : fencedAt s a = false) (ht : a < tallyBase) (hg : gatedAt s (swapAddr s a) = false) :
    readByte s a = deliver s (swapAddr s a) := by
  unfold readByte storedByte
  rw [if_neg (by simp [hf]), if_neg (by omega)]
  exact if_neg (by simp [hg])

theorem readByte_writeByte (hf : fencedAt s a = false) (ht : a < tallyBase) (hg : gatedAt s (swapAddr s a) = false) :
    readByte (writeByte s a v) a = v := by
  rw [writeByte_open v hf ht hg]
  have swap : swapAddr (pokeByte s (swapAddr s a) v) a = swapAddr s a := swapAddr_congr (pokeByte_cfg _ _ v) a
  rw [readByte_open ((fencedAt_congr (pokeByte_fences _ _ v) a).trans hf) ht (by rw [swap, gatedAt_congr (pokeByte_banks _ _ v), hg]), swap,
    deliver_of_cleared (pokeByte_upsets _ _ v), physByte_pokeByte_self]

theorem readByte_fenced (h : fencedAt s a = true) : readByte s a = 0 := if_pos h

theorem writeByte_fenced (h : fencedAt s a = true) : writeByte s a v = s := if_pos (by rw [h]; rfl)

theorem readByte_gated (ht : a < tallyBase) (h : gatedAt s (swapAddr s a) = true) : readByte s a = 0 := by
  have stored : storedByte s a = 0 := if_pos h
  unfold readByte
  rw [if_neg (show ¬ tallyBase ≤ a by omega), stored]
  exact ite_self _

theorem writeByte_gated (h : gatedAt s (swapAddr s a) = true) : writeByte s a v = s := by
  unfold writeByte
  split
  · rfl
  · exact if_pos h

end Issued

/-- Settles O16: a byte stored clears the flipped bits of its code, and a fence or a bank that is not ON stands before both the read and the write. -/
theorem aWrittenByteReadsBack : Obligations.AWrittenByteReadsBack := by
  refine ⟨fun s a v hf ht hg => ⟨readByte_writeByte v hf ht hg, fun b hb => physByte_writeByte v hb.symm⟩, fun s a hf => ?fenced,
    fun s a k ht hk hb => ?gated⟩
  case fenced => exact ⟨readByte_fenced hf, fun v => congrArg State.mem (writeByte_fenced v hf)⟩
  case gated =>
    have refused := gatedAt_of_bank hk hb
    exact ⟨readByte_gated ht refused, fun v => congrArg State.mem (writeByte_gated v refused)⟩

/-- Settles O17: `writeAll_onlyWrites` for every list of writes. -/
theorem writesStayInTheirWords : Obligations.WritesStayInTheirWords := writeAll_onlyWrites

end Sys2Proof.Machine
end

section
/-! Sp. 09 R258-R262: how a bank goes down and up. -/

namespace Sys2Proof.Machine

/-! ## A bank cue starts and acts 4 cycles later -/

/-- What a bank cue runs as on its power controller. -/
def bankRun (op : Nat) (p : Pending) (c : Nat) : Running :=
  { cue := p.cue, opcode := BitVec.ofNat 8 op, firedAt := p.firedAt, startedAt := c, cycles := 0, writes := [], due := [],
    recAt := 0, record := [], signal := doneSignal p.raw, preds := [], halted := false, window := none, moves := [],
    port := none, send := SendSt.zero, desc := [], reads := [], dest := [], needs := [], ctl := [],
    span := [], raced := [], clash := [], fenced := [], chances := [], tiles := [], slots := [], queued := false }

/-- State in the cycle in which a bank cue acts. -/
def atBank (s : State) (d : Die) (n : Fin 64) (p : Pending) (c : Nat) : State := settle (clockTo (leftAt s (.bank d n) p c) (c + 4))

/-- State as a bank cue sends its bank on its way: the cue runs, the bank is `b`. -/
def bankSent (s : State) (d : Die) (n : Fin 64) (r : Running) (b : Bank) : State :=
  setBank (setUnit s (.bank d n) { unit s (.bank d n) with running := some r }) (bankKey d n) b

section Sent
variable (s : State) (d : Die) (n : Fin 64) (r : Running) (b : Bank)

theorem bankSent_outside : outsideOf (bankSent s d n r b) = outsideOf s := rfl

theorem bankSent_bytes : (bankSent s d n r b).mem.bytes = s.mem.bytes := rfl

theorem bankSent_bank : bank (bankSent s d n r b) (bankKey d n) = b := bank_setBank _ _ _

theorem bankSent_pending : (unit (bankSent s d n r b) (.bank d n)).pending = (unit s (.bank d n)).pending :=
  (congrArg UnitSt.pending (unit_setUnit s (.bank d n) { unit s (.bank d n) with running := some r }) :)

end Sent

section Runs
variable {s : State} {d : Die} {n : Fin 64} {op : Nat} {p : Pending} {c : Nat} (h : startsAt s (.bank d n) op p c)
include h

/-- Where the clock cannot come to the fourth cycle, nothing happens yet. -/
theorem runBank_early (hr : reaches (readyAt s (.bank d n)) (c + 4) = false) (op' : Nat) (idle : Bank → Bool)
    (act : Bank → Nat → Nat → Nat → Bank) : runBank s d n op' idle act = s := by
  unfold runBank
  dsimp only
  by_cases ho : op' = op
  · rw [ho, startable_of_startsAt h]
    dsimp only
    rw [if_pos (by simp [hr])]
  · rw [startable_other h ho]

variable (hr : reaches (readyAt s (.bank d n)) (c + 4) = true) (idle : Bank → Bool) (act : Bank → Nat → Nat → Nat → Bank)
include hr

theorem runBank_acts : runBank s d n op idle act =
    if idle (bank (atBank s d n p c) (bankKey d n)) then bankDone (atBank s d n p c) (.bank d n) (bankRun op p c) (c + 4)
    else bankSent (atBank s d n p c) d n (bankRun op p c) (act (bank (atBank s d n p c) (bankKey d n))
      (ofLE ((sheet (readyAt s (.bank d n))).desc (cDesc p.raw) 8)) p.cue (c + 4)) := by
  unfold runBank
  dsimp only
  rw [startable_of_startsAt h]
  dsimp only
  rw [if_neg (by simp [hr])]
  rfl

end Runs

section At
variable (s : State) (d : Die) (n : Fin 64) (p : Pending) (c : Nat)

theorem atBank_ready : butReady (atBank s d n p c) = butReady s := (settled_ready _ _).trans (leftAt_ready s _ p c)

theorem atBank_bank (k : Nat) : bank (atBank s d n p c) k = bank s k := field_of (bank · k) (atBank_ready s d n p c) (fun _ => rfl)

theorem atBank_bytes : (atBank s d n p c).mem.bytes = s.mem.bytes := field_of (fun t => t.mem.bytes) (atBank_ready s d n p c) (fun _ => rfl)

theorem atBank_outside : outsideOf (atBank s d n p c) = outsideOf s := outsideOf_of_ready (atBank_ready s d n p c)

theorem atBank_running (h : (unit s (.bank d n)).running = none) : (unit (atBank s d n p c) (.bank d n)).running = none := by
  have left : (unit (leftAt s (.bank d n) p c) (.bank d n)).running = none := by
    unfold leftAt
    rw [leavePending_self]
    exact (running_of_unmet (congrFun (readyAt_units s _) _)).trans h
  exact (running_of_unmet (congrFun (settled_units _ _) _)).trans left

theorem atBank_pending : (unit (atBank s d n p c) (.bank d n)).pending = none :=
  (pending_none_of_unmet (congrFun (settled_units _ _) _)).2 (leftAt_pending s _ p c)

end At

/-! ## A cue's completion -/

theorem finished_running {u : UnitId} {v : UnitSt} {c : Nat} (h : v.running = none) : (finished u v c).running = none := by
  unfold finished
  split
  · exact h
  · rfl

theorem finished_pending (u : UnitId) (v : UnitSt) (c : Nat) : (finished u v c).pending = v.pending := by
  unfold finished
  split <;> rfl

section Done
variable (s : State) (u : UnitId) (r : Running) (c : Nat)

/-- What signals, the unit and the note of a completion leave alone, it leaves alone. -/
theorem bankDone_field {γ : Type} (π : State → γ) (hp : ∀ t, π (butReady t) = π t) (hu : ∀ t v, π (setUnit t u v) = π t)
    (hn : ∀ t d, π (noteDone t none d c) = π t) : π (bankDone s u r c) = π s := by
  unfold bankDone
  exact (hn _ _).trans ((field_of π (signalOpt_ready _ _ _ _) hp).trans ((field_of π (traceAt_ready _ _ _ _ _ _ _ _ _) hp).trans (hu _ _)))

theorem bankDone_outside : outsideOf (bankDone s u r c) = outsideOf s :=
  bankDone_field s u r c outsideOf (fun _ => rfl) (fun _ _ => rfl) (fun _ _ => rfl)

theorem bankDone_waits : butWaits (bankDone s u r c).mem = butWaits s.mem :=
  bankDone_field s u r c (fun t => butWaits t.mem) (fun _ => rfl) (fun _ _ => rfl) (fun _ _ => rfl)

theorem bankDone_bank (k : Nat) : bank (bankDone s u r c) k = bank s k :=
  bankDone_field s u r c (bank · k) (fun _ => rfl) (fun _ _ => rfl) (fun _ _ => rfl)

theorem bankDone_unit : (unit (bankDone s u r c) u).unmet = (finished u (unit s u) c).unmet :=
  (congrFun (signalOpt_units _ _ _ _) u).trans (congrArg UnitSt.unmet (unit_setUnit s u (finished u (unit s u) c)))

theorem bankDone_lastDone : (bankDone s u r c).step.lastDone = max s.step.lastDone c :=
  congrArg (max · c) ((field_of (fun t => t.step.lastDone) (signalOpt_ready _ _ _ _) (fun _ => rfl)).trans
    (field_of (fun t => t.step.lastDone) (traceAt_ready _ _ _ _ _ _ _ _ _) (fun _ => rfl)))

end Done

section CueDone
variable (s : State) (d : Die) (n : Fin 64) (c : Nat)

theorem bankCueDone_outside : outsideOf (bankCueDone s d n c) = outsideOf s := by
  unfold bankCueDone
  split
  · rfl
  · exact bankDone_outside _ _ _ _

theorem bankCueDone_bank (k : Nat) : bank (bankCueDone s d n c) k = bank s k := by
  unfold bankCueDone
  split
  · rfl
  · exact bankDone_bank _ _ _ _ k

end CueDone

/-! ## What the ends of a way leave of the bank and its bytes -/

/-- The addresses of a bank. -/
theorem bankOf_iff {a k : Nat} (hk : k < 256) :
    bankOf a = some k ↔ scratchBase + k * 0x400000 ≤ a ∧ a < scratchBase + k * 0x400000 + 0x400000 := by
  unfold bankOf
  split
  · rw [Option.some_inj]; omega
  · simp only [reduceCtorEq, false_iff]; omega

theorem bankKey_lt (d : Die) (n : Fin 64) : bankKey d n < 256 := by
  unfold bankKey
  omega

theorem physByte_wipeBank_in {s : State} {a k : Nat} (hk : k < 256) (h : bankOf a = some k) : physByte (wipeBank s k) a = 0 :=
  Sparse.get_clear_in zeroByte _ ((bankOf_iff hk).1 h)

theorem physByte_wipeBank_out {s : State} {a k : Nat} (hk : k < 256) (h : bankOf a ≠ some k) : physByte (wipeBank s k) a = physByte s a := by
  refine Sparse.get_clear_out zeroByte _ ?_
  by_contra inside
  exact h ((bankOf_iff hk).2 (by omega))

/-- State as a bank has gone down, before its cue completes: OFF, its bytes are zero. -/
def bankDowned (s : State) (k : Nat) : State :=
  let t := setBank (clockTo s ((bank s k).since + 32)) k
    { bank s k with state := (bank s k).target.getD .retain, target := none, since := 0, cue := 0 }
  if (bank s k).target = some .off then wipeBank t k else t

section Downed
variable (s : State) (k : Nat)

theorem bankDowned_outside : outsideOf (bankDowned s k) = outsideOf s := by
  have clock := outsideOf_of_ready (clockTo_ready s ((bank s k).since + 32))
  exact ite_field (π := outsideOf) clock clock

theorem bankDowned_bank : bank (bankDowned s k) k = { bank s k with state := (bank s k).target.getD .retain, target := none, since := 0, cue := 0 } :=
  ite_field (π := (bank · k)) (bank_setBank _ _ _) (bank_setBank _ _ _)

theorem bankDowned_off (h : (bank s k).target = some .off) {a : Nat} (hk : k < 256) (ha : bankOf a = some k) : physByte (bankDowned s k) a = 0 := by
  unfold bankDowned
  rw [if_pos h]
  exact physByte_wipeBank_in hk ha

theorem bankDowned_kept (h : (bank s k).target ≠ some .off) : (bankDowned s k).mem.bytes = s.mem.bytes := by
  unfold bankDowned
  rw [if_neg h]
  exact clockTo_bytes s _

theorem bankDowned_others {a : Nat} (hk : k < 256) (ha : bankOf a ≠ some k) : physByte (bankDowned s k) a = physByte s a := by
  have clock := physByte_of_bytes (clockTo_bytes s ((bank s k).since + 32)) a
  exact ite_field (π := (physByte · a)) ((physByte_wipeBank_out hk ha).trans clock) clock

end Downed

/-- State as a bank's drain has ended: no grant waits on its channel. -/
def bankDrained (s : State) (k : Nat) (b : Bank) : State :=
  setBank { s with mem := { s.mem with queues := Sparse.set noQueue s.mem.queues k (noQueue k) } } k b

section Drained
variable (s : State) (k : Nat) (b : Bank)

theorem bankDrained_outside : outsideOf (bankDrained s k b) = outsideOf s := rfl

theorem bankDrained_bytes : (bankDrained s k b).mem.bytes = s.mem.bytes := rfl

theorem bankDrained_step : (bankDrained s k b).step = s.step := rfl

theorem bankDrained_bank : bank (bankDrained s k b) k = b := bank_setBank _ _ _

end Drained

theorem setBank_outside (s : State) (k : Nat) (b : Bank) : outsideOf (setBank s k b) = outsideOf s := rfl

/-! ## The rows -/

section Rows
variable {s : State} {d : Die} {n : Fin 64}

theorem execBankDrainEnd_ends {c : Nat} (hc : c = drainEnd s (bankKey d n) (bank s (bankKey d n)).since)
    (hg : (bank s (bankKey d n)).state = .gated) (hd : (bank s (bankKey d n)).draining = true) (hr : reaches s c = true) :
    exec (.bankDrainEnd d n) s =
      .next (bankDrained (clockTo s c) (bankKey d n) { bank s (bankKey d n) with draining := false, since := c }) := by
  subst hc
  exact if_pos ⟨hg, hd, hr⟩

theorem execBankDownComplete_ends (hg : (bank s (bankKey d n)).state = .gated) (hd : (bank s (bankKey d n)).draining = false)
    (hr : reaches s ((bank s (bankKey d n)).since + 32) = true) :
    exec (.bankDownComplete d n) s =
      .next (bankCueDone (bankDowned s (bankKey d n)) d n ((bank s (bankKey d n)).since + 32)) :=
  if_pos ⟨hg, by simp [hd], hr⟩

theorem execBankUpComplete_ends {c : Nat} (hc : c = (bank s (bankKey d n)).since + (if (bank s (bankKey d n)).draining then 16447 else 63))
    (hg : (bank s (bankKey d n)).state = .rising) (hr : reaches s c = true) :
    exec (.bankUpComplete d n) s = .next (bankCueDone (setBank (clockTo s c) (bankKey d n) (noBank (bankKey d n))) d n c) := by
  subst hc
  exact if_pos ⟨hg, hr⟩

end Rows

/-! ## What a bank cue leaves -/

section Leaves
variable {s : State} {d : Die} {n : Fin 64} {p : Pending} {c : Nat} (r : Running)

/-- Sent on its way, the bank is as the cue has it; no byte and nothing outside the step has changed. -/
theorem bankSent_leaves (b : Bank) :
    bank (bankSent (atBank s d n p c) d n r b) (bankKey d n) = b ∧ (unit (bankSent (atBank s d n p c) d n r b) (.bank d n)).pending = none ∧
      (bankSent (atBank s d n p c) d n r b).mem.bytes = s.mem.bytes ∧ outsideKept s (bankSent (atBank s d n p c) d n r b) :=
  ⟨bankSent_bank _ d n r b, (bankSent_pending _ d n r b).trans (atBank_pending s d n p c),
    (bankSent_bytes _ d n r b).trans (atBank_bytes s d n p c),
    (outsideKept_iff s (bankSent (atBank s d n p c) d n r b)).2 ((bankSent_outside _ d n r b).trans (atBank_outside s d n p c))⟩

/-- Without effect, the cue completes at once: its unit is free, and memory is as it was. -/
theorem bankDone_leaves (idle : (unit s (.bank d n)).running = none) :
    memKept s (bankDone (atBank s d n p c) (.bank d n) r (c + 4)) ∧
      (unit (bankDone (atBank s d n p c) (.bank d n) r (c + 4)) (.bank d n)).running = none ∧
      (unit (bankDone (atBank s d n p c) (.bank d n) r (c + 4)) (.bank d n)).pending = none ∧
      (bankDone (atBank s d n p c) (.bank d n) r (c + 4)).step.lastDone = max s.step.lastDone (c + 4) ∧
      outsideKept s (bankDone (atBank s d n p c) (.bank d n) r (c + 4)) := by
  have at_ := atBank_ready s d n p c
  have unit_ := bankDone_unit (atBank s d n p c) (.bank d n) r (c + 4)
  refine ⟨(memKept_iff _ _).2 ((bankDone_waits _ _ r _).trans (field_of (fun t => butWaits t.mem) at_ (fun _ => rfl))), ?_, ?_, ?_,
    (outsideKept_iff _ _).2 ((bankDone_outside _ _ r _).trans (outsideOf_of_ready at_))⟩
  · exact (running_of_unmet unit_).trans (finished_running (atBank_running s d n p c idle))
  · exact (pending_none_of_unmet unit_).2 ((finished_pending _ _ _).trans (atBank_pending s d n p c))
  · rw [bankDone_lastDone]
    exact congrArg (max · (c + 4)) (field_of (fun t => t.step.lastDone) at_ (fun _ => rfl))

end Leaves

/-- Settles O30: a bank cue acts as `runBank_acts` says; the ends of its way are rows of their own. -/
theorem banksGoDownAndUp : Obligations.BanksGoDownAndUp := by
  intro d n s
  refine ⟨fun p c x h hx hr hb => ?down, fun p c h hr hb idle => ?downIdle, fun k hk hg hd hr => ?drain, fun k hk hg hd hr => ?downed,
    fun p c h hr hb => ?up, fun p c h hr hb idle => ?upIdle, fun op p c h hr => ?early, fun k hk hg hr => ?raised⟩
  case down =>
    have runs := runBank_acts h hr (fun b => b.state ≠ .on) (fun b d cue now =>
      { b with state := .gated, target := some (if bit d 6 then .off else .retain), cue := cue, draining := true, since := now })
    rw [atBank_bank, if_neg (by simp [hb]), ← hx] at runs
    obtain ⟨bank, free, bytes, outside⟩ := bankSent_leaves (s := s) (d := d) (n := n) (p := p) (c := c) (bankRun 5 p c) _
    refine ⟨_, next_congr runs, ?_, ?_, ?_, ?_, free, bytes, outside⟩ <;> rw [bank]
  case downIdle =>
    have runs := runBank_acts h hr (fun b => b.state ≠ .on) (fun b d cue now =>
      { b with state := .gated, target := some (if bit d 6 then .off else .retain), cue := cue, draining := true, since := now })
    rw [atBank_bank, if_pos (decide_eq_true hb)] at runs
    exact ⟨_, next_congr runs, bankDone_leaves _ idle⟩
  case drain =>
    subst hk
    refine ⟨_, execBankDrainEnd_ends rfl hg hd hr, ?_, ?_, (bankDrained_bytes _ _ _).trans (clockTo_bytes s _),
      (bankDrained_step _ _ _).trans (clockTo_step s _),
      (outsideKept_iff s _).2 ((bankDrained_outside _ _ _).trans (outsideOf_of_ready (clockTo_ready s _)))⟩ <;> rw [bankDrained_bank]
    exact hg
  case downed =>
    subst hk
    have lt := bankKey_lt d n
    have bytes (a : Nat) := physByte_of_bytes (bankCueDone_bytes (bankDowned s (bankKey d n)) d n ((bank s (bankKey d n)).since + 32)) a
    refine ⟨_, execBankDownComplete_ends hg hd hr, ?_, fun ht => (bankCueDone_bytes _ _ _ _).trans (bankDowned_kept s _ ht),
      fun a ha ht => (bytes a).trans (bankDowned_off s _ ht lt ha), fun a ha => (bytes a).trans (bankDowned_others s _ lt ha),
      (outsideKept_iff _ _).2 ((bankCueDone_outside _ _ _ _).trans (bankDowned_outside s _))⟩
    rw [bankCueDone_bank, bankDowned_bank]
  case up =>
    have runs := runBank_acts h hr (fun b => b.state = .on) (fun b _ cue now =>
      { b with state := .rising, target := some .on, cue := cue, draining := decide (b.state = .off), since := now })
    rw [atBank_bank, if_neg (by simp [hb])] at runs
    obtain ⟨bank, free, bytes, outside⟩ := bankSent_leaves (s := s) (d := d) (n := n) (p := p) (c := c) (bankRun 6 p c) _
    exact ⟨_, next_congr runs, by rw [bank], free, bytes, outside⟩
  case upIdle =>
    have runs := runBank_acts h hr (fun b => b.state = .on) (fun b _ cue now =>
      { b with state := .rising, target := some .on, cue := cue, draining := decide (b.state = .off), since := now })
    rw [atBank_bank, if_pos (decide_eq_true hb)] at runs
    obtain ⟨mem, free, -, -, outside⟩ := bankDone_leaves (c := c) (p := p) (bankRun 6 p c) idle
    exact ⟨_, next_congr runs, mem, free, outside⟩
  case early => exact ⟨next_congr (runBank_early h hr _ _ _), next_congr (runBank_early h hr _ _ _)⟩
  case raised =>
    subst hk
    refine ⟨_, execBankUpComplete_ends rfl hg hr, ?_, (bankCueDone_bytes _ _ _ _).trans (clockTo_bytes s _),
      (outsideKept_iff _ _).2 ((bankCueDone_outside _ _ _ _).trans
        ((setBank_outside _ _ _).trans (outsideOf_of_ready (clockTo_ready s _))))⟩
    rw [bankCueDone_bank, bank_setBank]
    rfl

end Sys2Proof.Machine
end

section
/-! Sp. 09 R290-R293: what the scrub engines and the maintenance scrub zero. -/

namespace Sys2Proof.Machine

/-! ## Zeroing a range -/

section Zero
variable (s : State) (a n : Nat)

/-- What each piece's zeroing leaves alone, the range's leaves alone. -/
theorem zeroIssued_field {γ : Type} (π : State → γ) (h : ∀ t b k, π (zeroRange t b k) = π t) : π (zeroIssued s a n) = π s := by
  unfold zeroIssued
  exact ite_field (foldl_field π _ (fun t p => h t _ _) _ _) (h s a n)

variable {s}

/-- With no pair SWAPPED, the range reads zero. -/
theorem zeroIssued_in (h : s.cfg.regions.any (fun e => entryBit e.2 77) = false) {b : Nat} (lo : a ≤ b) (hi : b < a + n) :
    Sparse.get zeroByte (zeroIssued s a n).mem.bytes b = 0 := by
  unfold zeroIssued
  rw [if_neg (by simp [h])]
  exact Sparse.get_clear_in zeroByte s.mem.bytes ⟨lo, hi⟩

/-- Every other byte reads as before. -/
theorem zeroIssued_out (h : s.cfg.regions.any (fun e => entryBit e.2 77) = false) {b : Nat} (hb : b < a ∨ a + n ≤ b) :
    Sparse.get zeroByte (zeroIssued s a n).mem.bytes b = Sparse.get zeroByte s.mem.bytes b := by
  unfold zeroIssued
  rw [if_neg (by simp [h])]
  exact Sparse.get_clear_out zeroByte s.mem.bytes hb

end Zero

/-! ## The end of a tenant's scrub -/

section Complete
variable (s : State) (t : Nat)

/-- The waiting regions take the free entries behind those there. -/
theorem admitWaiting_fences : (admitWaiting s).mem.fences = s.mem.fences ++ s.mem.waiting.take (4096 - s.mem.fences.length) := by
  unfold admitWaiting
  exact foldl_field (fun u => u.mem.fences) markFenced (fun _ _ => rfl) _ _

theorem scrubComplete_mem : (scrubComplete s t).mem = (scrubbed s t).mem := (guardRaise_mem _ _).trans (sendReport_mem _ _ _ _)

/-- Where no region waits, no entry of the tenant is left. -/
theorem scrubComplete_fences (h : s.mem.waiting = []) : ∀ y ∈ (scrubComplete s t).mem.fences, y.tenant ≠ t := by
  have fences : (scrubComplete s t).mem.fences = s.mem.fences.filter (fun f => f.tenant ≠ t) := by
    have waiting : (scrubClosed s t).mem.waiting = [] := h
    have admitted := admitWaiting_fences (scrubClosed s t)
    rw [waiting, List.take_nil, List.append_nil] at admitted
    exact (congrArg Mem.fences (scrubComplete_mem s t)).trans admitted
  rw [fences]
  intro y hy
  simpa using (List.mem_filter.1 hy).2

end Complete

/-! ## The end of a die's part of a region -/

/-- The entry of a tenant as a region's part of `n` bytes is zeroed, with the region states that this leaves. -/
def Tenant.partZeroed (e : Tenant) (region n : Nat) (rs : List Nat) : Tenant :=
  { e with rstate := rs, zeroed := e.zeroed.set region (e.zeroed.getD region 0 + n) }

/-- The region states of its tenant as a die's part is zeroed: with the last part the region is scrubbed. -/
def partStates (s : State) (d : Nat) (f : Fence) : List Nat :=
  if (fenceDies f).all (d :: f.scrubbed).contains then (tenant s f.tenant).rstate.set f.region 3 else (tenant s f.tenant).rstate

/-- State as the fence entry of a region says that a die's part of it is zeroed. -/
def partMarked (s : State) (d : Nat) (f : Fence) : State :=
  let f' := { f with scrubbing := f.scrubbing.filter (· ≠ d), scrubbed := d :: f.scrubbed }
  { s with mem := { s.mem with fences := setFence s.mem.fences f f' } }

/-- It with the part zeroed. -/
def partCleared (s : State) (d : Nat) (f : Fence) (x : Nat × Nat) : State := zeroIssued (partMarked s d f) x.1 x.2

/-- It with the tenant's entry. -/
def partZeroed (s : State) (d : Nat) (f : Fence) (x : Nat × Nat) : State :=
  setTenant (partCleared s d f x) f.tenant ((tenant s f.tenant).partZeroed f.region x.2 (partStates s d f))

section Part
variable (s : State) (d : Nat) (f : Fence) (x : Nat × Nat)

/-- What the mark and each piece's zeroing leave alone, the part's zeroing leaves alone. -/
theorem partCleared_field {γ : Type} (π : State → γ) (hm : π (partMarked s d f) = π s) (h : ∀ t b k, π (zeroRange t b k) = π t) :
    π (partCleared s d f x) = π s := (zeroIssued_field (partMarked s d f) x.1 x.2 π h).trans hm

theorem partCleared_tenant (i : Nat) : tenant (partCleared s d f x) i = tenant s i :=
  partCleared_field s d f x (tenant · i) rfl (fun _ _ _ => rfl)

theorem regionDone_eq : regionDone s d f x =
    if (partStates s d f).all (· = 3) then scrubComplete (partZeroed s d f x) f.tenant else partZeroed s d f x := by
  have same : tenant (partCleared s d f x) f.tenant = tenant s f.tenant := partCleared_tenant s d f x f.tenant
  unfold partZeroed partStates
  rw [← same]
  exact rfl

theorem regionDone_bytes : (regionDone s d f x).mem.bytes = (partCleared s d f x).mem.bytes := by
  rw [regionDone_eq]
  exact ite_field (π := fun t => t.mem.bytes) (scrubComplete_bytes _ _) rfl

theorem partZeroed_tenant : tenant (partZeroed s d f x) f.tenant = (tenant s f.tenant).partZeroed f.region x.2 (partStates s d f) :=
  tenant_setTenant _ _ _

theorem partZeroed_guard : (partZeroed s d f x).guard = s.guard :=
  partCleared_field s d f x State.guard rfl (fun _ _ _ => rfl)

theorem partZeroed_ctl : (partZeroed s d f x).ctl = s.ctl :=
  partCleared_field s d f x State.ctl rfl (fun _ _ _ => rfl)

theorem partZeroed_waiting : (partZeroed s d f x).mem.waiting = s.mem.waiting :=
  partCleared_field s d f x (fun t => t.mem.waiting) rfl (fun _ _ _ => rfl)

end Part

section Engine
variable {s : State} {d : Die} {f : Fence}

theorem execScrubRegionStart_takes (h : nextScrub s d = some f) : exec (.scrubRegionStart d) s =
    .next { s with mem := { s.mem with fences := setFence s.mem.fences f { f with scrubbing := d.val :: f.scrubbing } } } := by
  change execScrubRegionStart d s = _
  unfold execScrubRegionStart
  rw [h]

variable {x : Nat × Nat}

theorem execScrubRegionDone_ends (h : s.mem.fences.find? (fun y => y.scrubbing.contains d.val) = some f)
    (hx : diePart d.val (f.base, f.len) = some x) :
    exec (.scrubRegionDone d) s = if rangeBlocked s x then .next s else .next (regionDone s d.val f x) := by
  change execScrubRegionDone d s = _
  unfold execScrubRegionDone
  rw [h]
  dsimp only
  rw [hx]

/-- With regions of the tenant left, it stays as it is but for this one's state. -/
theorem regionDone_goesOn (h : (partStates s d f).all (fun v => decide (v = 3)) = false) :
    (tenant (regionDone s d f x) f.tenant).st = (tenant s f.tenant).st ∧
      (tenant (regionDone s d f x) f.tenant).rstate = partStates s d f ∧ (regionDone s d f x).guard = s.guard ∧
      (regionDone s d f x).ctl = s.ctl := by
  rw [regionDone_eq, if_neg (by rw [h]; decide), partZeroed_tenant]
  exact ⟨rfl, rfl, partZeroed_guard s d f x, partZeroed_ctl s d f x⟩

/-- With its last region the tenant is CLOSED and its entries are free. -/
theorem regionDone_closes (h : (partStates s d f).all (fun v => decide (v = 3)) = true) :
    (tenant (regionDone s d f x) f.tenant).st = .closed ∧
      (s.mem.waiting = [] → ∀ y ∈ (regionDone s d f x).mem.fences, y.tenant ≠ f.tenant) := by
  rw [regionDone_eq, if_pos h]
  exact ⟨scrubComplete_st _ _, fun hw => scrubComplete_fences _ _ ((partZeroed_waiting s d f x).trans hw)⟩

end Engine

/-! ## The maintenance scrub -/

section Maintenance
variable {s : State}

/-- A REGION_SCRUB that is not refused is owed. -/
theorem regionScrubBody_owed {f : Frame} (o : Owed) (hl : f.payload.length = 13) (hz : zeroAt f.payload 7 1 = true)
    (ha : leAt f.payload 0 7 % 256 = 0) (hn : leAt f.payload 8 5 % 256 = 0) (h0 : leAt f.payload 8 5 ≠ 0) (hb : stepBusy s = false)
    (hi : scrubInside (leAt f.payload 0 7, leAt f.payload 8 5) = true)
    (hh : (heldRegions s 16384).any (fun x => overlaps (leAt f.payload 0 7) (leAt f.payload 8 5) x.1 x.2) = false) :
    regionScrubBody f s o =
      ({ s with mem := { s.mem with scrubs := s.mem.scrubs ++ [{ base := leAt f.payload 0 7, len := leAt f.payload 8 5, owed := o }] } },
        .accepted) := by
  unfold regionScrubBody
  dsimp only
  rw [if_neg (not_not_intro hl), if_neg (by simp [hz, ha, hn, h0]), if_neg (by simp [hb]), if_neg (by simp [hi, hh])]

/-- State as the oldest maintenance scrub has zeroed its range. -/
def scrubZeroed (s : State) (x : RegionScrub) (r : List RegionScrub) : State :=
  zeroIssued (otherWrites { s with mem := { s.mem with scrubs := r } } none [(x.base, x.len)]) x.base x.len

theorem execRegionScrubDone_ends {x : RegionScrub} {r : List RegionScrub} (h : s.mem.scrubs = x :: r) : exec .regionScrubDone s =
    if rangeBlocked s (x.base, x.len) then .next s else .next (finish (scrubZeroed s x r) x.owed stOk []) := by
  change execRegionScrubDone s = _
  unfold execRegionScrubDone
  rw [h]
  rfl

section Zeroed
variable (s) (x : RegionScrub) (r : List RegionScrub)

theorem scrubZeroed_scrubs : (scrubZeroed s x r).mem.scrubs = r :=
  (zeroIssued_field _ x.base x.len (fun t => t.mem.scrubs) (fun _ _ _ => rfl)).trans (congrArg Mem.scrubs (otherWrites_mem _ _ _))

theorem scrubZeroed_ctl : (scrubZeroed s x r).ctl = s.ctl :=
  (zeroIssued_field _ x.base x.len State.ctl (fun _ _ _ => rfl)).trans (otherWrites_field State.ctl (fun _ _ _ => rfl) _ _ _)

variable {s}

/-- With no pair SWAPPED, it has zeroed the range and nothing else. -/
theorem scrubZeroed_zeroes (h : s.cfg.regions.any (fun e => entryBit e.2 77) = false) :
    (∀ a, x.base ≤ a → a < x.base + x.len → Sparse.get zeroByte (scrubZeroed s x r).mem.bytes a = 0) ∧
      ∀ a, (a < x.base ∨ x.base + x.len ≤ a) →
        Sparse.get zeroByte (scrubZeroed s x r).mem.bytes a = Sparse.get zeroByte s.mem.bytes a := by
  have met := otherWrites_field State.cfg (fun _ _ _ => rfl) { s with mem := { s.mem with scrubs := r } } none [(x.base, x.len)]
  have plain : (otherWrites { s with mem := { s.mem with scrubs := r } } none [(x.base, x.len)]).cfg.regions.any
      (fun e => entryBit e.2 77) = false := by
    rw [met]
    exact h
  refine ⟨fun a lo hi => zeroIssued_in _ _ plain lo hi, fun a ha => (zeroIssued_out _ _ plain ha).trans ?_⟩
  rw [otherWrites_mem]

end Zeroed

end Maintenance

/-- Settles O39: each end zeroes its range by `zeroIssued`, which with no pair SWAPPED is the range itself. -/
theorem scrubsZeroWhatTheyCover : Obligations.ScrubsZeroWhatTheyCover := by
  refine ⟨fun d s f => ⟨fun hf => ?starts, fun x rs hf hx hrs => ⟨fun hb => ?held, fun hb => ?ends⟩⟩, fun f s =>
    ⟨fun ha hl hz h256 hn h0 hb hi hh => ?owed, fun x r hs hb => ?scrubHeld, fun x r hs hb => ?scrubEnds⟩⟩
  case starts => exact ⟨_, execScrubRegionStart_takes hf, rfl, rfl, rfl, (outsideKept_iff _ _).2 rfl⟩
  case held => exact (execScrubRegionDone_ends hf hx).trans (if_pos hb)
  case ends =>
    have states : rs = partStates s d f := hrs
    refine ⟨_, (execScrubRegionDone_ends hf hx).trans (if_neg (by simp [hb])), fun plain => ?_, ?_, ?_⟩
    · rw [regionDone_bytes]
      exact ⟨fun a lo hi => zeroIssued_in (s := partMarked s d.val f) _ _ plain lo hi,
        fun a ha => zeroIssued_out (s := partMarked s d.val f) _ _ plain ha⟩
    · rw [states]
      exact regionDone_goesOn
    · rw [states]
      exact regionDone_closes
  case owed =>
    have held : heldRegions (afterAccept s f) 16384 = heldRegions s 16384 := by
      unfold heldRegions
      rw [afterAccept_tenants]
    have body := regionScrubBody_owed (s := afterAccept s f) (owedBy s f 0x93) hl hz h256 hn h0 (by rwa [stepBusy_afterAccept]) hi (by rwa [held])
    have runs := runCommand_accepts (.regionScrub f) (fun s o => regionScrubBody f s o) ha (by decide)
    rw [show (cmd 0x93).opcode = 0x93 from rfl, body] at runs
    refine ⟨_, next_congr runs, ?_, ?_, ?_⟩
    · rw [answer_mem, afterAccept_mem]
    · rw [answer_mem, afterAccept_mem]
    · exact (sendFrame_tenants _ _).trans (afterAccept_tenants s f)
  case scrubHeld => exact (execRegionScrubDone_ends hs).trans (if_pos hb)
  case scrubEnds =>
    refine ⟨_, (execRegionScrubDone_ends hs).trans (if_neg (by simp [hb])), ?_, fun plain => ?_, fun k hk => ?_⟩
    · rw [finish_mem]
      exact scrubZeroed_scrubs s x r
    · rw [finish_mem]
      exact scrubZeroed_zeroes x r plain
    · obtain ⟨y, sent, op, status, seq, -⟩ := finish_appends (s := scrubZeroed s x r) x.owed stOk (p := []) (by simp)
        ((congrArg Control.carrier (scrubZeroed_ctl s x r)).trans hk)
      rw [scrubZeroed_ctl] at sent
      exact ⟨y, sent, op, status, seq⟩

end Sys2Proof.Machine
end

section
/-! Sp. 11 R331-R335: flits handed to a transmitter leave or wait. -/

namespace Sys2Proof.Machine

/-- A flit has left a port or waits there. -/
def Holds (q : Port) (f : OutFlit) : Prop := f ∈ q.out ∨ f ∈ q.waitq

/-- A flit that a port holds is `g` but for the header fields that the sending fills in. -/
def HoldsAs (q : Port) (g : OutFlit) : Prop := ∃ f, Holds q f ∧ f.kind = g.kind ∧ f.cls = g.cls ∧ f.xfer = g.xfer

theorem HoldsAs.mono {q r : Port} {g : OutFlit} (h : ∀ f, Holds q f → Holds r f) : HoldsAs q g → HoldsAs r g :=
  fun ⟨f, hf, same⟩ => ⟨f, h f hf, same⟩

/-! ## One flit leaves -/

/-- What a port receives, and its state. -/
def Port.receives (q : Port) : List RxXfer × PortState := (q.rx, q.st)

section Put
variable (q : Port) (f : OutFlit)

/-- A flit that leaves is the last of those that have left; those that wait, and what the port receives, are as before. -/
theorem putFlit_leaves : ∃ g, (putFlit q f).out = q.out ++ [g] ∧ (g.kind = f.kind ∧ g.cls = f.cls ∧ g.xfer = f.xfer) ∧
    (putFlit q f).waitq = q.waitq ∧ (putFlit q f).receives = q.receives := by
  unfold putFlit
  dsimp only
  split <;> split <;> exact ⟨_, rfl, ⟨rfl, rfl, rfl⟩, rfl, rfl⟩

theorem putFlit_receives : (putFlit q f).receives = q.receives := by
  obtain ⟨-, -, -, -, receives⟩ := putFlit_leaves q f
  exact receives

theorem putFlit_holdsAs : HoldsAs (putFlit q f) f := by
  obtain ⟨g, out, same, -⟩ := putFlit_leaves q f
  exact ⟨g, .inl (by rw [out]; exact List.mem_append_right _ (List.mem_singleton_self g)), same⟩

theorem putFlit_holds {g : OutFlit} (h : Holds q g) : Holds (putFlit q f) g := by
  obtain ⟨_, out, -, waitq, -⟩ := putFlit_leaves q f
  unfold Holds
  rw [out, waitq]
  exact h.imp_left (List.mem_append_left _)

theorem resumeFirst_receives : (resumeFirst q f).receives = q.receives := by
  unfold resumeFirst
  split
  · exact putFlit_receives q { flit 2 f.cls f.xfer [] with snap := f.snap }
  · rfl

theorem resumeFirst_holds {g : OutFlit} (h : Holds q g) : Holds (resumeFirst q f) g := by
  unfold resumeFirst
  split
  · exact putFlit_holds q { flit 2 f.cls f.xfer [] with snap := f.snap } h
  · exact h

end Put

/-! ## The flits of a list leave or wait -/

section One
variable (f : OutFlit) (blocked : List Nat) (q : Port)

/-- The port as a flit that may leave has had its RESUME sent. -/
def resumed : Port := if blocked.contains (flitPort f) then q else resumeFirst q f

/-- The flit may leave. -/
def leaves : Bool := !blocked.contains (flitPort f) && canPut (resumed f blocked q) f.cls

/-- The port as the flit has left. -/
def flitLeft : Port :=
  if f.kind = 1 then { putFlit (resumed f blocked q) f with txXfer := some f.xfer } else putFlit (resumed f blocked q) f

/-- The port as the flit waits. -/
def flitWaits : Port := { resumed f blocked q with waitq := (resumed f blocked q).waitq ++ [f] }

/-- The port as the first of its waiting flits has been taken, with the requester ports that still wait. -/
def drainOne : List Nat × Port :=
  if leaves f blocked q then (blocked, flitLeft f blocked q) else (flitPort f :: blocked, flitWaits f blocked q)

theorem drainFlits_cons (r : List OutFlit) :
    drainFlits (f :: r) blocked q = drainFlits r (drainOne f blocked q).1 (drainOne f blocked q).2 := by
  have step : drainFlits (f :: r) blocked q =
      if leaves f blocked q then drainFlits r blocked (flitLeft f blocked q)
      else drainFlits r (flitPort f :: blocked) (flitWaits f blocked q) := rfl
  rw [step]
  unfold drainOne
  split <;> rfl

theorem resumed_receives : (resumed f blocked q).receives = q.receives := by
  unfold resumed
  split
  · rfl
  · exact resumeFirst_receives q f

theorem resumed_holds {g : OutFlit} (h : Holds q g) : Holds (resumed f blocked q) g := by
  unfold resumed
  split
  · exact h
  · exact resumeFirst_holds q f h

theorem flitLeft_receives : (flitLeft f blocked q).receives = q.receives := by
  have put := (putFlit_receives (resumed f blocked q) f).trans (resumed_receives f blocked q)
  unfold flitLeft
  split
  · exact put
  · exact put

theorem flitLeft_holds {g : OutFlit} (h : Holds (putFlit (resumed f blocked q) f) g) : Holds (flitLeft f blocked q) g := by
  unfold flitLeft
  split
  · exact h
  · exact h

theorem drainOne_receives : (drainOne f blocked q).2.receives = q.receives := by
  unfold drainOne
  split
  · exact flitLeft_receives f blocked q
  · exact resumed_receives f blocked q

theorem drainOne_holds {g : OutFlit} (h : Holds q g) : Holds (drainOne f blocked q).2 g := by
  have first := resumed_holds f blocked q h
  unfold drainOne
  split
  · exact flitLeft_holds f blocked q (putFlit_holds _ f first)
  · exact first.imp_right (List.mem_append_left _)

theorem drainOne_holdsAs : HoldsAs (drainOne f blocked q).2 f := by
  unfold drainOne
  split
  · exact (putFlit_holdsAs (resumed f blocked q) f).mono (fun _ => flitLeft_holds f blocked q)
  · exact ⟨f, .inr (List.mem_append_right _ (List.mem_singleton_self f)), rfl, rfl, rfl⟩

end One

theorem drainFlits_receives (l : List OutFlit) (blocked : List Nat) (q : Port) : (drainFlits l blocked q).receives = q.receives := by
  induction l generalizing blocked q with
  | nil => rfl
  | cons f r ih => rw [drainFlits_cons, ih, drainOne_receives]

theorem drainFlits_holds {g : OutFlit} (l : List OutFlit) (blocked : List Nat) (q : Port) (h : Holds q g) :
    Holds (drainFlits l blocked q) g := by
  induction l generalizing blocked q with
  | nil => exact h
  | cons f r ih =>
    rw [drainFlits_cons]
    exact ih _ _ (drainOne_holds f blocked q h)

/-- Each flit of the list leaves or waits. -/
theorem drainFlits_holdsAs {g : OutFlit} {l : List OutFlit} (h : g ∈ l) (blocked : List Nat) (q : Port) :
    HoldsAs (drainFlits l blocked q) g := by
  induction l generalizing blocked q with
  | nil => cases h
  | cons f r ih =>
    rw [drainFlits_cons]
    rcases List.mem_cons.1 h with rfl | hr
    · exact (drainOne_holdsAs g blocked q).mono (fun _ => drainFlits_holds r _ _)
    · exact ih hr _ _

theorem sendFlits_receives (q : Port) (l : List OutFlit) : (sendFlits q l).receives = q.receives := drainFlits_receives _ _ _

theorem sendFlits_holdsAs {g : OutFlit} (q : Port) {l : List OutFlit} (h : g ∈ l) : HoldsAs (sendFlits q l) g :=
  drainFlits_holdsAs (List.mem_append_right _ h) _ _

end Sys2Proof.Machine
end

section
/-! Sp. 11 R339-R342, R347, R348: how a received transfer lands. -/

namespace Sys2Proof.Machine

/-! ## The pieces of a range -/

theorem piecesFuel_from {f a n : Nat} {q : Nat × Nat} (h : q ∈ piecesFuel f a n) : a ≤ q.1 := by
  induction f generalizing a n with
  | zero => cases h
  | succ f ih =>
    rw [piecesFuel] at h
    split at h
    · cases h
    · rcases List.mem_cons.1 h with rfl | hr
      · exact Nat.le_refl _
      · exact Nat.le_trans (Nat.le_add_right _ _) (ih hr)

theorem slice_length_le (l : List Byte) (o n : Nat) : o + (slice l o n).length ≤ max o l.length := by
  unfold slice
  rw [List.length_take, List.length_drop]
  omega

/-- The pieces of a write cover no byte that the write does not. -/
theorem covers_cutWrite {w : Nat × List Byte} {x : Nat} (h : Covers (cutWrite w) x) : Covers [w] x := by
  obtain ⟨v, hv, i, hi, rfl⟩ := h
  obtain ⟨q, hq, rfl⟩ := List.mem_map.1 hv
  have lo : w.1 ≤ q.1 := piecesFuel_from hq
  have hi' := slice_length_le w.2 (q.1 - w.1) q.2
  dsimp only at hi ⊢
  exact covers_singleton.2 ⟨by omega, by omega⟩

theorem covers_cutWrites {l : List (Nat × List Byte)} {x : Nat} (h : Covers (l.map cutWrite).flatten x) : Covers l x := by
  obtain ⟨v, hv, i, hi, rfl⟩ := h
  obtain ⟨_, hm, hv⟩ := List.mem_flatten.1 hv
  obtain ⟨w, hw, rfl⟩ := List.mem_map.1 hm
  obtain ⟨u, hu, j, hj, e⟩ := covers_cutWrite ⟨v, hv, i, hi, rfl⟩
  obtain rfl := List.mem_singleton.1 hu
  exact ⟨u, hw, j, hj, e⟩

/-! ## One piece -/

/-- An OP writes no more bytes than it takes. -/
theorem combine_length (s : State) (op a : Nat) (p : List Byte) : (combine s op a p).1.length ≤ p.length := by
  have sums (f : List Byte × Nat → Nat → List Byte × Nat) (h : ∀ x i, (f x i).1.length = x.1.length + 4) (l : List Nat)
      (x : List Byte × Nat) : (l.foldl f x).1.length = x.1.length + 4 * l.length := by
    induction l generalizing x with
    | nil => rfl
    | cons i r ih => rw [List.foldl_cons, ih, h, List.length_cons]; omega
  unfold combine
  split
  · exact Nat.le_refl _
  · rw [sums, List.length_range]
    · simp only [List.length_nil]; omega
    · intro x i
      dsimp only
      split
      · rw [List.length_append, toLE_length]
      · rw [List.length_append, toLE_length]

section Piece
variable (who : Who) (snap : Bool) (op : Nat) (l : Landing) (x : Nat × List Byte)

/-- After a failure the bytes of a piece are undefined where they exist. -/
def undefPiece (t : State) (x : Nat × List Byte) : State := if decodes x.1 x.2.length true then storeFree t [(x.1, x.2.length)] else t

/-- State as a piece reaches memory: the bytes already there are read where its OP adds. -/
def pieceRead (who : Who) (op : Nat) (s : State) (x : Nat × List Byte) : State := if op = 0 then s else touchRead who s x.1 x.2.length

/-- A piece is undefined where it or one before it fails, and otherwise is written. -/
theorem landPiece_st : (landPiece who snap op l x).st = undefPiece l.st x ∨
    (landPiece who snap op l x).st = writeMem who (pieceRead who op l.st x) x.1 (combine l.st op x.1 x.2).1 := by
  unfold landPiece
  dsimp only
  split
  · exact .inl rfl
  · split
    · exact .inl rfl
    · exact .inr rfl

theorem undefPiece_only (t : State) : butStored (undefPiece t x) = butStored t := ite_field (storeFree_only t _) rfl

theorem pieceRead_only (s : State) : butAccess (pieceRead who op s x) = butAccess s := ite_field rfl (touchRead_only who s _ _)

theorem landPiece_only : butStored (landPiece who snap op l x).st = butStored l.st := by
  rcases landPiece_st who snap op l x with h | h
  · exact (congrArg butStored h).trans (undefPiece_only x l.st)
  · rw [h]
    exact butStored_of_access ((writeMem_only _ _ _ _).trans (pieceRead_only who op x l.st))

variable {who snap op l x}

/-- It reaches no word but those of its own bytes. -/
theorem physByte_landPiece {a : Nat} (h : Spares l.st [x] a) : physByte (landPiece who snap op l x).st a = physByte l.st a := by
  rcases landPiece_st who snap op l x with e | e
  · rw [e]
    exact ite_field (π := (physByte · a)) (physByte_storeFree (Spares.of_ranges (by simp [zerosAt, rangesOf, zeros_length]) h)) rfl
  · have read : (pieceRead who op l.st x).mem.bytes = l.st.mem.bytes :=
      ite_field (π := fun t : State => t.mem.bytes) rfl (touchRead_bytes who l.st _ _)
    have here : Spares (pieceRead who op l.st x) [(x.1, (combine l.st op x.1 x.2).1)] a := by
      rw [Spares.congr (cfg_of_access (pieceRead_only who op x l.st))]
      refine h.mono (fun b hb => ?_)
      obtain ⟨lo, hi⟩ := covers_singleton.1 hb
      exact covers_singleton.2 ⟨lo, Nat.lt_of_lt_of_le hi (Nat.add_le_add_left (combine_length l.st op x.1 x.2) _)⟩
    rw [e]
    exact (physByte_writeAll here).trans (physByte_of_bytes read a)

end Piece

/-! ## Every piece, and what another party wrote meanwhile -/

section Pieces
variable (who : Who) (snap : Bool) (op : Nat)

theorem landPieces_only (ps : List (Nat × List Byte)) (l : Landing) :
    butStored (ps.foldl (landPiece who snap op) l).st = butStored l.st := by
  induction ps generalizing l with
  | nil => rfl
  | cons x r ih => exact (ih _).trans (landPiece_only who snap op l x)

variable {who snap op}

theorem physByte_landPieces {a : Nat} {ps : List (Nat × List Byte)} {l : Landing} (h : Spares l.st ps a) :
    physByte (ps.foldl (landPiece who snap op) l).st a = physByte l.st a := by
  induction ps generalizing l with
  | nil => rfl
  | cons x r ih =>
    obtain ⟨head, tail⟩ := Spares.cons.1 h
    have cfg : (landPiece who snap op l x).st.cfg = l.st.cfg := field_of State.cfg (landPiece_only who snap op l x) (fun _ => rfl)
    exact (ih ((Spares.congr cfg).2 tail)).trans (physByte_landPiece head)

end Pieces

/-- State with another list of fences. -/
def fencedBy (s : State) (l : List Fence) : State := { s with mem := { s.mem with fences := l } }

theorem fencedBy_only (s : State) (l : List Fence) : butStored (fencedBy s l) = butStored s := rfl

/-- The fences that hold for a transfer: those there, and those that began meanwhile and have gone. -/
def fencedAs (s : State) (x : RxXfer) : State := fencedBy s (s.mem.fences ++ x.fenced.filter (fun f => !s.mem.fences.contains f))

/-- The pieces of a transfer as they land. -/
def piecesLanded (s : State) (p : PortNo) (x : RxXfer) : Landing :=
  ((rxWrites x).1.map cutWrite).flatten.foldl (landPiece (whoPort p) x.head.snap x.head.op.toNat)
    { st := fencedAs s x, bytes := 0, hits := 0, clamps := 0, fail := none }

/-- State as they have landed, with the fences that are there. -/
def afterPieces (s : State) (p : PortNo) (x : RxXfer) : State := fencedBy (piecesLanded s p x).st s.mem.fences

/-- It with what another party wrote meanwhile undefined. -/
def clashLanded (s : State) (p : PortNo) (x : RxXfer) : State := storeFree (afterPieces s p x) x.clash

section All
variable (s : State) (p : PortNo) (x : RxXfer)

theorem afterPieces_only : butStored (afterPieces s p x) = butStored s :=
  (fencedBy_only _ _).trans ((landPieces_only _ _ _ _ _).trans (fencedBy_only s _))

theorem clashLanded_only : butStored (clashLanded s p x) = butStored s := (storeFree_only _ _).trans (afterPieces_only s p x)

/-- The landing is that state but for the fence hits that no rule fixes. -/
theorem landAll_st : (landAll s p x).st = clashLanded s p x ∨
    ∃ n, (landAll s p x).st = (drawUpTo n (blurHits s (clashLanded s p x) x.fenced [])).2 := by
  unfold landAll
  dsimp only
  split
  · exact .inl rfl
  · exact .inr ⟨min (piecesLanded s p x).hits (takenBy x.fenced (rangesOf ((rxWrites x).1.map cutWrite).flatten)).length, rfl⟩

theorem landAll_field {γ : Type} (π : State → γ) (hf : ∀ t, π (butFree t) = π t) (hm : ∀ b a l rd, π (blurHits b a l rd) = π a) :
    π (landAll s p x).st = π (clashLanded s p x) := by
  rcases landAll_st s p x with h | ⟨n, h⟩
  · rw [h]
  · rw [h]
    exact (field_of π (drawUpTo_only n _) hf).trans (hm _ _ _ _)

theorem landAll_only : butStored (landAll s p x).st = butStored s :=
  (landAll_field s p x butStored (fun _ => rfl) (blurHits_field butStored (fun _ => rfl) (fun _ _ _ => rfl))).trans (clashLanded_only s p x)

theorem landAll_bytes : (landAll s p x).st.mem.bytes = (clashLanded s p x).mem.bytes :=
  landAll_field s p x (fun t => t.mem.bytes) (fun _ => rfl) blurHits_bytes

variable {s p x}

/-- A transfer reaches no word but those of its own writes and of what another party wrote of them. -/
theorem physByte_landAll {a : Nat} (h : Spares s ((rxWrites x).1 ++ zerosAt x.clash) a) : physByte (landAll s p x).st a = physByte s a := by
  obtain ⟨own, clash⟩ := Spares.append.1 h
  have pieces : physByte (afterPieces s p x) a = physByte s a :=
    physByte_landPieces (l := { st := fencedAs s x, bytes := 0, hits := 0, clamps := 0, fail := none }) (own.mono (fun _ => covers_cutWrites))
  have cfg : (afterPieces s p x).cfg = s.cfg := field_of State.cfg (afterPieces_only s p x) (fun _ => rfl)
  rw [physByte_of_bytes (landAll_bytes s p x)]
  exact (physByte_storeFree ((Spares.congr cfg).2 clash)).trans pieces

end All

end Sys2Proof.Machine
end

section
/-! Sp. 11 R339-R342, R347; sp. 09 R275: a received transfer becomes visible and is answered. -/

namespace Sys2Proof.Machine

/-! ## What nothing on the way to the answer moves -/

/-- What port `p` receives and its state, and what lies outside the step. -/
def rxAround (p : PortNo) (s : State) : (List RxXfer × PortState) ×
    (Power × Guard × Nor × Session × Control × Cfg × Beat × CueStore × CueStore × List Instr) := ((port s p).receives, outsideOf s)

section Around
variable (p : PortNo)

theorem rxAround_congr {s t : State} (hp : t.ports = s.ports) (ho : outsideOf t = outsideOf s) : rxAround p t = rxAround p s := by
  unfold rxAround port
  rw [hp, ho]

theorem rxAround_of_cut {s t : State} (h : butCut t = butCut s) : rxAround p t = rxAround p s :=
  rxAround_congr p (field_of State.ports h (fun _ => rfl)) (field_of outsideOf h butCut_outside)

theorem rxAround_of_stored {s t : State} (h : butStored t = butStored s) : rxAround p t = rxAround p s := rxAround_of_cut p (butCut_of_stored h)

theorem rxAround_setPort (s : State) {q : Port} (h : q.receives = (port s p).receives) : rxAround p (setPort s p q) = rxAround p s :=
  congrArg (·, outsideOf s) ((congrArg Port.receives (port_setPort s p q)).trans h)

theorem rxAround_raiseAll (s : State) (l : List Event) : rxAround p (raiseAll s l) = rxAround p s :=
  rxAround_of_cut p (butCut_of_access (butAccess_of (raiseAll_only s l)))

theorem rxAround_raise (s : State) (e : Event) : rxAround p (raise s e) = rxAround p s :=
  rxAround_of_cut p (butCut_of_access (butAccess_of (raise_only s e)))

theorem rxAround_applyTally (s : State) (i n : Nat) : rxAround p (applyTally s i n) = rxAround p s :=
  rxAround_congr p (field_of State.ports (applyTally_only s i n) (fun _ => rfl)) (field_of outsideOf (applyTally_only s i n) (fun _ => rfl))

theorem rxAround_restorePut (s : State) (off : Nat) (b : List Byte) : rxAround p (restorePut s off b) = rxAround p s := by
  unfold restorePut
  split <;> rfl

end Around

theorem restorePut_stage (s : State) (off : Nat) (b : List Byte) : (restorePut s off b).stage = s.stage := by
  unfold restorePut
  split <;> rfl

/-! ## The state that the answer leaves from -/

/-- A port that has counted clamps. -/
def Port.clamped (q : Port) (n : Nat) : Port := { q with clamps := stopAt top32 (q.clamps + n) }

/-- State as a transfer has landed and its clamps are counted. -/
def rxCounted (s : State) (p : PortNo) (x : RxXfer) : State :=
  setPort (landAll s p x).st p ((port (landAll s p x).st p).clamped (landAll s p x).clamps)

/-- It with the transfer's rejected tiles recorded. -/
def rxLanded (s : State) (p : PortNo) (x : RxXfer) : State :=
  raiseAll (rxCounted s p x) ((rxWrites x).2.map (fun i => ev 0x09 (portPlace p) 17 p.val 1 i .first))

/-- It with the transfer's remote signal. -/
def rxSignalled (s : State) (p : PortNo) (x : RxXfer) : State :=
  if x.head.sigEn then applyTally (rxLanded s p x) x.head.tally.toNat x.head.inc.toNat else rxLanded s p x

/-- State as the image being restored has taken a transfer's bytes. -/
def rxRestored (s : State) (x : RxXfer) : State := (rxWrites x).1.foldl (fun t w => restorePut t w.1 w.2) s

/-- State as a refusal or a failure is recorded. -/
def rxFailed (s : State) (p : PortNo) (cause addr : Nat) : State :=
  raise s (ev 0x0E (portPlace p) 17 p.val (globalOf s addr) (cause + 16) .every)

/-- State as a DONE has been handed to the port's transmitter. -/
def rxAnswered (u : State) (p : PortNo) (f : OutFlit) : State := setPort u p (sendFlits (port u p) [f])

theorem rxAnswered_holdsAs (u : State) (p : PortNo) (f : OutFlit) : HoldsAs (port (rxAnswered u p f) p) f := by
  unfold rxAnswered
  rw [port_setPort]
  exact sendFlits_holdsAs (port u p) (List.mem_singleton_self f)

section Lands
variable (s : State) (p : PortNo) (x : RxXfer)

theorem rxCounted_stage : (rxCounted s p x).stage = s.stage := (field_of State.stage (landAll_only s p x) (fun _ => rfl) :)

theorem rxCounted_around : rxAround p (rxCounted s p x) = rxAround p s :=
  (rxAround_setPort p _ (q := (port (landAll s p x).st p).clamped (landAll s p x).clamps) rfl).trans (rxAround_of_stored p (landAll_only s p x))

theorem rxLanded_bytes : (rxLanded s p x).mem.bytes = (landAll s p x).st.mem.bytes := congrArg Mem.bytes (raiseAll_mem _ _)

theorem rxLanded_stage : (rxLanded s p x).stage = s.stage := (raiseAll_stage _ _).trans (rxCounted_stage s p x)

theorem rxLanded_around : rxAround p (rxLanded s p x) = rxAround p s := (rxAround_raiseAll p _ _).trans (rxCounted_around s p x)

theorem rxSignalled_bytes : (rxSignalled s p x).mem.bytes = (landAll s p x).st.mem.bytes :=
  (ite_field (π := fun t : State => t.mem.bytes) (congrArg Mem.bytes (applyTally_mem _ _ _)) rfl).trans (rxLanded_bytes s p x)

theorem rxSignalled_around : rxAround p (rxSignalled s p x) = rxAround p s :=
  (ite_field (rxAround_applyTally p _ _ _) rfl).trans (rxLanded_around s p x)

theorem rxRestored_mem : (rxRestored s x).mem = s.mem := foldl_field State.mem _ (fun t _ => restorePut_mem t _ _) _ s
theorem rxRestored_stage : (rxRestored s x).stage = s.stage := foldl_field State.stage _ (fun t _ => restorePut_stage t _ _) _ s
theorem rxRestored_around : rxAround p (rxRestored s x) = rxAround p s := foldl_field (rxAround p) _ (fun t _ => rxAround_restorePut p t _ _) _ s

end Lands

/-! ## The three ways to the answer -/

/-- A DONE of a transfer. -/
def isDone (f : OutFlit) (n : BitVec 16) : Prop := f.kind = 4 ∧ f.cls = 1 ∧ f.xfer = n

/-- State `u`, from which the DONE of transfer `x` leaves, as the state `s` in which it landed tells it. -/
structure RxDone (s : State) (p : PortNo) (x : RxXfer) (u : State) : Prop where
  around : rxAround p u = rxAround p s
  /-- Nothing but what it writes has changed in memory. -/
  bytes : ∀ a, Spares s ((rxWrites x).1 ++ zerosAt x.clash) a → physByte u a = physByte s a
  lands : x.head.snap = false → u.mem.bytes = (landAll s p x).st.mem.bytes
  refuses : x.head.snap = true → admitSnapshot s p.val x = false → u.mem.bytes = s.mem.bytes
  signals : x.head.snap = false → x.head.sigEn = true → (landAll s p x).fail = none →
    tallyOf u x.head.tally.toNat = BitVec.ofNat 32 (min 0xFFFFFFFF ((tallyOf s x.head.tally.toNat).toNat + x.head.inc.toNat))
  quiet : x.head.snap = false → (x.head.sigEn = false ∨ (landAll s p x).fail.isSome) → u.stage.tallies = s.stage.tallies

section Ways
variable {s : State} {p : PortNo} {x : RxXfer}

/-- A snapshot that is not admitted leaves memory and tallies alone. -/
theorem rxDone_of_refused {u : State} (hs : x.head.snap = true) (around : rxAround p u = rxAround p s) (bytes : u.mem.bytes = s.mem.bytes) :
    RxDone s p x u where
  around := around
  bytes a _ := physByte_of_bytes bytes a
  lands h := by rw [hs] at h; cases h
  refuses _ _ := bytes
  signals h := by rw [hs] at h; cases h
  quiet h := by rw [hs] at h; cases h

/-- A transfer that fails lands and signals nothing. -/
theorem rxDone_of_failed (cause addr : Nat) (ha : x.head.snap = true → admitSnapshot s p.val x = true)
    (hf : (landAll s p x).fail.isSome) : RxDone s p x (rxFailed (rxLanded s p x) p cause addr) := by
  have bytes : (rxFailed (rxLanded s p x) p cause addr).mem.bytes = (landAll s p x).st.mem.bytes :=
    (congrArg Mem.bytes (raise_mem _ _)).trans (rxLanded_bytes s p x)
  refine { around := (rxAround_raise p _ _).trans (rxLanded_around s p x), bytes := fun a h => ?_, lands := fun _ => bytes,
           refuses := fun hs hn => ?_, signals := fun _ _ h => ?_, quiet := fun _ _ => ?_ }
  · exact (physByte_of_bytes bytes a).trans (physByte_landAll h)
  · rw [ha hs] at hn
    cases hn
  · rw [h] at hf
    cases hf
  · exact congrArg Stage.tallies ((raise_stage _ _).trans (rxLanded_stage s p x))

/-- One that lands whole signals where it has a signal. -/
theorem rxDone_of_landed (ha : x.head.snap = true → admitSnapshot s p.val x = true) (hf : (landAll s p x).fail = none) :
    RxDone s p x (rxSignalled s p x) := by
  have stage := rxLanded_stage s p x
  refine { around := rxSignalled_around s p x, bytes := fun a h => ?_, lands := fun _ => rxSignalled_bytes s p x,
           refuses := fun hs hn => ?_, signals := fun _ h _ => ?_, quiet := fun _ h => ?_ }
  · exact (physByte_of_bytes (rxSignalled_bytes s p x) a).trans (physByte_landAll h)
  · rw [ha hs] at hn
    cases hn
  · unfold rxSignalled
    rw [if_pos h, applyTally, tallyOf_applyTallyAt_self, tallyOf_congr (congrArg Stage.tallies stage)]
  · have none_ : x.head.sigEn = false := h.resolve_right (by simp [hf])
    unfold rxSignalled
    rw [if_neg (by simp [none_]), stage]

end Ways

/-! ## The transfer becomes visible -/

section Visible
variable (t : State) (p : PortNo) (x : RxXfer) (par : List Detect)

theorem refuseRx_answers (s : State) (cause addr bytes hits : Nat) : ∃ f, isDone f x.xfer ∧
    refuseRx s p x cause addr bytes hits = rxAnswered (rxFailed s p cause addr) p f := ⟨_, ⟨rfl, rfl, rfl⟩, rfl⟩

/-- Its DONE leaves from a state of one of the three ways. -/
theorem visibleRx_answers : ∃ u f, visibleRx t p x par = rxAnswered u p f ∧ isDone f x.xfer ∧ RxDone (rxParity t p par) p x u := by
  generalize hr : rxParity t p par = s
  unfold visibleRx
  rw [hr]
  dsimp only
  split
  case isTrue h =>
    obtain ⟨snap, -⟩ := Bool.and_eq_true_iff.1 h
    split
    · exact ⟨rxRestored s x, _, rfl, ⟨rfl, rfl, rfl⟩,
        rxDone_of_refused snap (rxRestored_around s p x) (congrArg Mem.bytes (rxRestored_mem s x))⟩
    · obtain ⟨f, done, eq⟩ := refuseRx_answers p x s 3 (bits x.head.dst.toNat 55 0) 0 0
      exact ⟨_, f, eq, done, rxDone_of_refused snap (rxAround_raise p _ _) (congrArg Mem.bytes (raise_mem _ _))⟩
  case isFalse h =>
    have admits : x.head.snap = true → admitSnapshot s p.val x = true := fun hs => by simpa [hs] using h
    split
    case h_1 a c hf =>
      obtain ⟨f, done, eq⟩ := refuseRx_answers p x (rxLanded s p x) c a (landAll s p x).bytes (landAll s p x).hits
      exact ⟨_, f, eq, done, rxDone_of_failed c a admits (by simp [hf])⟩
    case h_2 hf => exact ⟨rxSignalled s p x, _, rfl, ⟨rfl, rfl, rfl⟩, rxDone_of_landed admits hf⟩

end Visible

/-! ## The transfer is taken from the port -/

/-- A port that no longer receives a transfer that has ended. -/
def Port.letGo (q : Port) (x : RxXfer) (n : BitVec 16) : Port :=
  { q with rx := q.rx.filter (fun r => !(r.sender = x.sender && r.xfer = n && r.ended)) }

/-- State as a transfer that has ended is no longer being received, with the record of its wait. -/
def rxTaken (s : State) (p : PortNo) (x : RxXfer) (n : BitVec 16) : State := traceRxWait p x (setPort s p ((port s p).letGo x n))

section Taken
variable (p : PortNo) (x : RxXfer)

theorem traceRxWait_only (s : State) : butCut (traceRxWait p x s) = butCut s := by
  unfold traceRxWait
  exact ite_field rfl ((traceOn_only _ _ _ _ _ _ _ _).trans (butCut_of_free (drawBytes_only 4 s)))

/-- What a blur of undefined bytes leaves of a transfer: all but its data. -/
theorem blurRx_only (ks : List Nat) (s : State) :
    butFree (blurRx x ks s).2 = butFree s ∧ ∃ d, (blurRx x ks s).1 = { x with data := d } := by
  unfold blurRx
  dsimp only
  split
  · exact ⟨rfl, x.data, rfl⟩
  · exact ⟨drawBytes_only _ _, _, rfl⟩

theorem rxParity_only (s : State) (l : List Detect) : butStored (rxParity s p l) = butStored s := by
  unfold rxParity busParity
  exact ite_field rfl (butStored_of_access ((butAccess_of (raiseAll_only _ _)).trans rfl))

variable (s : State) (n : BitVec 16) (ks : List Nat) (l : List Detect)

theorem rxTaken_field {γ : Type} (π : State → γ) (h : ∀ t, π (butCut t) = π t) :
    π (rxTaken s p x n) = π (setPort s p ((port s p).letGo x n)) := field_of π (traceRxWait_only p x _) h

theorem rxTaken_cfg : (rxTaken s p x n).cfg = s.cfg := rxTaken_field p x s n State.cfg (fun _ => rfl)

theorem rxTaken_tallies : (rxTaken s p x n).stage.tallies = s.stage.tallies := rxTaken_field p x s n (fun t => t.stage.tallies) (fun _ => rfl)

theorem rxTaken_outside : outsideOf (rxTaken s p x n) = outsideOf s := rxTaken_field p x s n outsideOf butCut_outside

theorem rxTaken_st : (port (rxTaken s p x n) p).st = (port s p).st :=
  (rxTaken_field p x s n (fun t => (port t p).st) (fun _ => rfl)).trans (congrArg Port.st (port_setPort s p ((port s p).letGo x n)) :)

/-- State as the landing begins: of a piece with a parity detection the bytes are free ones, and the detections are recorded. -/
def rxBegun : State := rxParity (blurRx x ks (rxTaken s p x n)).2 p l

theorem rxBegun_cut : butCut (rxBegun p x s n ks l) = butCut (rxTaken s p x n) :=
  (butCut_of_stored (rxParity_only p _ l)).trans (butCut_of_free (blurRx_only x ks _).1)

theorem rxBegun_cfg : (rxBegun p x s n ks l).cfg = s.cfg :=
  (field_of State.cfg (rxBegun_cut p x s n ks l) (fun _ => rfl)).trans (rxTaken_cfg p x s n)

theorem rxBegun_tallies : (rxBegun p x s n ks l).stage.tallies = s.stage.tallies :=
  (field_of (fun t => t.stage.tallies) (rxBegun_cut p x s n ks l) (fun _ => rfl)).trans (rxTaken_tallies p x s n)

theorem rxBegun_around : rxAround p (rxBegun p x s n ks l) = rxAround p (rxTaken s p x n) := rxAround_of_cut p (rxBegun_cut p x s n ks l)

theorem rxBegun_bytes : (rxBegun p x s n ks l).mem.bytes = s.mem.bytes := by
  rw [rxBegun, rxParity_bytes, blurRx_mem, rxTaken, traceRxWait_mem]
  rfl

end Taken

theorem admitSnapshot_congr {s t : State} (h : t.cfg = s.cfg) (p : Nat) (x : RxXfer) (d : List Byte) :
    admitSnapshot t p { x with data := d } = admitSnapshot s p x := by
  unfold admitSnapshot inWindow windowRange
  rw [h]

section Exec
variable {s : State} {p : PortNo} {n : BitVec 16} {par : List Detect} {x : RxXfer}
  (hx : (port s p).rx.find? (fun r => r.xfer = n && r.ended) = some x)
include hx

/-- Without a place among the die's streams it waits. -/
theorem execTransferVisible_waits (hq : x.queued = true) (hp : placeFor s (headDie x.head).val 0 = false) :
    exec (.transferVisible p ⟨n, par⟩) s = .next s := by
  change execTransferVisible p ⟨n, par⟩ s = _
  unfold execTransferVisible
  dsimp only
  rw [hx]
  dsimp only
  rw [if_pos (by simp [hq, hp])]

theorem execTransferVisible_lands (h : x.queued = true → placeFor s (headDie x.head).val 0 = true) :
    exec (.transferVisible p ⟨n, par⟩) s =
      .next (visibleRx (blurRx x (par.map (·.part)) (rxTaken s p x n)).2 p (blurRx x (par.map (·.part)) (rxTaken s p x n)).1 par) := by
  have placed : ¬ (x.queued && !placeFor s (headDie x.head).val 0) = true := by
    cases hq : x.queued
    · simp
    · simp [h hq]
  change execTransferVisible p ⟨n, par⟩ s = _
  unfold execTransferVisible
  dsimp only
  rw [hx]
  dsimp only
  rw [if_neg placed]
  rfl

theorem found_xfer : x.xfer = n := by
  have both := List.find?_some hx
  simp only [Bool.and_eq_true, decide_eq_true_eq] at both
  exact both.1

end Exec

/-- Settles O46: the DONE leaves from a state that `RxDone` describes; what comes before the landing moves nothing that it names. -/
theorem aReceivedTransferBecomesVisible : Obligations.AReceivedTransferBecomesVisible := by
  intro p n par s s' r x y hx hs hy hr
  have taken : s' = rxTaken s p x n := hs
  clear hs
  subst taken
  refine ⟨execTransferVisible_waits hx, fun hq => ⟨fun hpar => ?_, ?_⟩⟩
  · rw [hy, hpar]
    rfl
  · have begun : r = rxBegun p x s n (par.map (·.part)) par := hr
    obtain ⟨d, blurred⟩ := (blurRx_only x (par.map (·.part)) (rxTaken s p x n)).2
    obtain ⟨u, f, answers, ⟨kind, cls, xfer⟩, done⟩ :=
      visibleRx_answers (blurRx x (par.map (·.part)) (rxTaken s p x n)).2 p (blurRx x (par.map (·.part)) (rxTaken s p x n)).1 par
    have runs := execTransferVisible_lands (par := par) hx hq
    rw [← hy, ← hr] at done
    rw [← hy] at answers xfer
    rw [← hy, answers] at runs
    clear hr
    subst begun
    have data : y = { x with data := d } := hy.trans blurred
    have snap : y.head = x.head := by rw [data]
    have clash : y.clash = x.clash := by rw [data]
    have same : y.xfer = x.xfer := by rw [data]
    have cfg := rxBegun_cfg p x s n (par.map (·.part)) par
    have tallies := rxBegun_tallies p x s n (par.map (·.part)) par
    have bytes := rxBegun_bytes p x s n (par.map (·.part)) par
    obtain ⟨around, own, lands, refuses, signals, quiet⟩ := done
    rw [snap] at lands refuses signals quiet
    rw [clash] at own
    rw [data, admitSnapshot_congr cfg, bytes] at refuses
    rw [tallyOf_congr tallies] at signals
    rw [tallies] at quiet
    have kept : rxAround p (rxAnswered u p f) = rxAround p (rxTaken s p x n) :=
      (rxAround_setPort p u (sendFlits_receives _ _)).trans (around.trans (rxBegun_around p x s n _ par))
    obtain ⟨receives, outside⟩ := Prod.ext_iff.1 kept
    obtain ⟨rx, st⟩ := Prod.ext_iff.1 receives
    obtain ⟨g, held, gkind, gcls, gxfer⟩ := rxAnswered_holdsAs u p f
    refine ⟨_, g, runs, onlyWrites_iff.2 (fun a ha => ?_), rx, st.trans (rxTaken_st p x s n), held, gkind.trans kind, gcls.trans cls,
      gxfer.trans (xfer.trans (same.trans (found_xfer hx))), lands, refuses, signals, quiet,
      (outsideKept_iff _ _).2 (outside.trans (rxTaken_outside p x s n))⟩
    exact (own a ((Spares.congr cfg).2 ha)).trans (physByte_of_bytes bytes a)

end Sys2Proof.Machine
end

section
/-! Sp. 10 R311-R315: what a slot of an arbiter sees, and which request it goes to. -/

namespace Sys2Proof.Machine

/-! ## The first of a list by a measure -/

theorem firstBy_eq_none {f : Request → Nat} {l : List Request} (h : firstBy f l = none) : l = [] := by
  cases l with
  | nil => rfl
  | cons x r =>
    unfold firstBy at h
    split at h
    · cases h
    · split at h <;> cases h

theorem firstBy_least {f : Request → Nat} {l : List Request} {x : Request} (h : firstBy f l = some x) : x ∈ l ∧ ∀ y ∈ l, f x ≤ f y := by
  induction l generalizing x with
  | nil => cases h
  | cons z r ih =>
    unfold firstBy at h
    split at h
    · next none_left =>
      obtain rfl := Option.some.inj h
      simp [firstBy_eq_none none_left]
    · next y best =>
      obtain ⟨mem, least⟩ := ih best
      split at h
      · next less =>
        obtain rfl := Option.some.inj h
        exact ⟨List.mem_cons_of_mem _ mem, List.forall_mem_cons.2 ⟨Nat.le_of_lt less, least⟩⟩
      · next more =>
        obtain rfl := Option.some.inj h
        have below : f z ≤ f y := Nat.le_of_not_lt more
        exact ⟨List.mem_cons_self, List.forall_mem_cons.2 ⟨Nat.le_refl _, fun w hw => Nat.le_trans below (least w hw)⟩⟩

/-! ## The choice of a slot outside a lock -/

theorem rankPick_eq_none {a : Arbiter} {l : List Request} (h : rankPick a l = none) : l = [] := by
  unfold rankPick at h
  split at h
  · next none_left => exact firstBy_eq_none none_left
  · next x first =>
    have empty := firstBy_eq_none h
    have own : x ∈ l.filter (fun y => y.rank = x.rank) := List.mem_filter.2 ⟨(firstBy_least first).1, decide_eq_true rfl⟩
    rw [empty] at own
    cases own

/-- The grant by rank goes to the highest rank seen (R314). -/
theorem rankPick_highest {a : Arbiter} {l : List Request} {x : Request} (h : rankPick a l = some x) : ∀ y ∈ l, x.rank ≤ y.rank := by
  unfold rankPick at h
  split at h
  · cases h
  · next z first =>
    have same : x.rank = z.rank := of_decide_eq_true (List.mem_filter.1 (firstBy_least h).1).2
    exact fun y hy => same ▸ (firstBy_least first).2 y hy

theorem pickSlot_eq_none {a : Arbiter} {l : List Request} (h : pickSlot a l = none) : l = [] := by
  unfold pickSlot at h
  split at h
  · exact firstBy_eq_none h
  · exact rankPick_eq_none h

theorem pickSlot_byRank {a : Arbiter} {l : List Request} {x : Request} (h : pickSlot a l = some x) (turn : (a.grant + 1) % 8 ≠ 0) :
    ∀ y ∈ l, x.rank ≤ y.rank := by
  rw [pickSlot, if_neg turn] at h
  exact rankPick_highest h

theorem pickSlot_byAge {a : Arbiter} {l : List Request} {x : Request} (h : pickSlot a l = some x) (turn : (a.grant + 1) % 8 = 0) :
    ∀ y ∈ l, sinceOf a x * 64 + x.port ≤ sinceOf a y * 64 + y.port := by
  rw [pickSlot, if_pos turn] at h
  exact (firstBy_least h).2

/-! ## The request that a slot goes to -/

/-- The owner of a lock has transfers left and is seen with its sequence (R298). -/
theorem lockOwner_owns {a : Arbiter} {l : List (Request × Bool)} {x : Request} {e : Bool} (h : lockOwner a l = some (x, e)) :
    a.left ≠ 0 ∧ a.owner = some x.port ∧ x.chan = a.lockChan := by
  unfold lockOwner at h
  split at h
  · cases h
  · next left =>
    have found := List.find?_some h
    simp only [Bool.and_eq_true, decide_eq_true_eq] at found
    obtain ⟨⟨owner, channel⟩, _⟩ := found
    exact ⟨left, owner, channel⟩

section Grant
variable {a : Arbiter} {still : Bool} {x : Request} {e : Bool}

theorem slotGrant_byLock (h : lockOwner a (seenAt a still) = some (x, e)) : slotGrant a still = some (x, e, true) := by
  unfold slotGrant
  dsimp only
  rw [h]

theorem slotGrant_empty (h : slotGrant a still = none) : seenAt a still = [] := by
  unfold slotGrant at h
  dsimp only at h
  split at h
  · cases h
  · exact List.map_eq_nil_iff.1 (pickSlot_eq_none (Option.map_eq_none_iff.1 h))

theorem slotGrant_picks (h : slotGrant a still = some (x, e, false)) : pickSlot a ((seenAt a still).map (·.1)) = some x := by
  unfold slotGrant at h
  dsimp only at h
  split at h
  · cases h
  · obtain ⟨y, picked, same⟩ := Option.map_eq_some_iff.1 h
    obtain rfl := congrArg Prod.fst same
    exact picked

end Grant

/-! ## What a grant leaves -/

theorem mem_of_mem_dropFirst {x y : Request} {l : List Request} (h : y ∈ dropFirst x l) : y ∈ l := by
  induction l with
  | nil => exact h
  | cons z r ih =>
    unfold dropFirst at h
    split at h
    · exact List.mem_cons_of_mem _ h
    · exact (List.mem_cons.1 h).elim (fun e => e ▸ List.mem_cons_self) (fun e => List.mem_cons_of_mem _ (ih e))

theorem mem_dropFirst_of_ne {x y : Request} {l : List Request} (h : y ∈ l) (hne : y ≠ x) : y ∈ dropFirst x l := by
  induction l with
  | nil => exact h
  | cons z r ih =>
    unfold dropFirst
    split
    · next same => exact (List.mem_cons.1 h).resolve_left (fun e => hne (e.trans same))
    · exact (List.mem_cons.1 h).elim (fun e => e ▸ List.mem_cons_self) (fun e => List.mem_cons_of_mem _ (ih e))

theorem Arbiter.last_setLast (a : Arbiter) (r : Fin 4) (p : Nat) : (a.setLast r p).last r = some p := by
  unfold Arbiter.setLast Arbiter.last
  split
  · rfl
  · split
    · rfl
    · split <;> rfl

section GrantTo
variable (a : Arbiter) (x : Request) (empty lock : Bool)

theorem grantTo_raised : (grantTo a x empty lock).raised = dropFirst x a.raised := by
  unfold grantTo
  dsimp only
  (repeat' split) <;> rfl

/-- A grant by lock takes a transfer of the sequence and counts none; an empty one counts and ends the lock (R314). -/
theorem grantTo_byLock : (empty = false → (grantTo a x empty true).left = a.left - 1 ∧ (grantTo a x empty true).grant = a.grant) ∧
    (empty = true → (grantTo a x empty true).left = 0 ∧ (grantTo a x empty true).grant = a.grant + 1) := by
  constructor <;> rintro rfl <;> exact ⟨rfl, rfl⟩

/-- Another counts, is the last of its rank, and begins the sequence that it asks for (R313, R314). -/
theorem grantTo_picked : (grantTo a x empty false).grant = a.grant + 1 ∧ (grantTo a x empty false).last x.rank = some x.port ∧
    (grantTo a x empty false).left = (if empty = true ∨ x.lock ≤ 1 then 0 else min 32 x.lock - 1) := by
  have last := a.last_setLast x.rank x.port
  cases empty
  · unfold grantTo
    simp only [Bool.false_eq_true, if_false, Bool.false_and, false_or]
    split
    · next one =>
      rw [if_pos (by omega)]
      exact ⟨rfl, last, rfl⟩
    · next more =>
      rw [if_neg (by omega)]
      exact ⟨rfl, last, rfl⟩
  · exact ⟨rfl, last, rfl⟩

end GrantTo

/-! ## A slot is decided -/

/-- A slot that goes to no request. -/
theorem decideSlot_none {a : Arbiter} {still : Bool} (h : slotGrant a still = none) :
    decideSlot a still = { a with owner := none, lockChan := none, left := 0, served := none, slot := a.slot + 1 } := by
  unfold decideSlot
  rw [h]

/-- One that goes to a request. -/
theorem decideSlot_some {a : Arbiter} {still : Bool} {x : Request} {empty lock : Bool} (h : slotGrant a still = some (x, empty, lock)) :
    decideSlot a still = { grantTo a x empty lock with slot := a.slot + 1 } := by
  unfold decideSlot
  rw [h]

/-- No request enters by a decision; one that it does not go to stays raised (R315). -/
theorem decideSlot_raised (a : Arbiter) (still : Bool) : (∀ x ∈ (decideSlot a still).raised, x ∈ a.raised) ∧
    ∀ x ∈ a.raised, (∀ y e k, slotGrant a still = some (y, e, k) → x ≠ y) → x ∈ (decideSlot a still).raised := by
  rcases h : slotGrant a still with _ | ⟨y, e, k⟩
  · rw [decideSlot_none h]
    exact ⟨fun _ hx => hx, fun _ hx _ => hx⟩
  · have raised : (decideSlot a still).raised = dropFirst y a.raised := by rw [decideSlot_some h]; exact grantTo_raised a y e k
    rw [raised]
    exact ⟨fun _ hx => mem_of_mem_dropFirst hx, fun _ hx other => mem_dropFirst_of_ne hx (other y e k rfl)⟩

/-! ## The arbiters of the device -/

/-- One arbiter, changed. -/
def setArbiter (s : State) (i : ArbId) (a : Arbiter) : State := { s with arbs := Sparse.set noArbiter s.arbs (arbKey i) a }

@[simp] theorem arbiter_setArbiter (s : State) (i : ArbId) (a : Arbiter) : arbiter (setArbiter s i a) i = a :=
  Sparse.get_set_self noArbiter s.arbs (arbKey i) a

theorem arbiter_setArbiter_other (s : State) {i j : ArbId} (a : Arbiter) (h : arbKey j ≠ arbKey i) : arbiter (setArbiter s i a) j = arbiter s j :=
  Sparse.get_set_other noArbiter s.arbs a h

/-- The arbiter after a slot: a busy bank leaves it empty (sp. 09 R251). -/
def slotDecided (busy : Bool) (a : Arbiter) (still : Bool) : Arbiter :=
  if busy then { a with served := none, slot := a.slot + 1 } else decideSlot a still

theorem slotDecided_slot (busy : Bool) (a : Arbiter) (still : Bool) : (slotDecided busy a still).slot = a.slot + 1 := by cases busy <;> rfl

theorem slotDecided_raised (busy : Bool) (a : Arbiter) (still : Bool) : (∀ x ∈ (slotDecided busy a still).raised, x ∈ a.raised) ∧
    ∀ x ∈ a.raised, (∀ y e k, slotGrant a still = some (y, e, k) → x ≠ y) → x ∈ (slotDecided busy a still).raised := by
  cases busy
  · exact decideSlot_raised a still
  · exact ⟨fun _ hx => hx, fun _ hx _ => hx⟩

/-- Settles O34: a slot is `slotDecided` on the arbiter with what has been raised; the choice is that of `slotGrant`. -/
theorem arbitersGrantBySlot : Obligations.ArbitersGrantBySlot := by
  intro i l still s b hb
  have runs : exec (.arbiterSlot i ⟨l, still⟩) s = .next (setArbiter s i (slotDecided (bankBusy s i) b still)) := by rw [hb]; rfl
  obtain ⟨within, stays⟩ := slotDecided_raised (bankBusy s i) b still
  refine ⟨_, runs, ?_⟩
  rw [arbiter_setArbiter]
  refine ⟨slotDecided_slot _ b still, within, stays, fun busy => ?busy, fun idle none_seen => ?empty, fun x e idle owns => ?lock,
    fun x e idle picks => ?picked, fun j other => arbiter_setArbiter_other s _ other, rfl, (outsideKept_iff _ _).2 rfl, fun _ => rfl⟩
  case busy =>
    rw [busy]
    exact ⟨rfl, rfl, rfl, rfl, rfl⟩
  case empty =>
    rw [idle, slotDecided, if_neg (by decide), decideSlot_none none_seen]
    exact ⟨rfl, rfl, rfl, rfl, slotGrant_empty none_seen⟩
  case lock =>
    obtain ⟨left, owner, channel⟩ := lockOwner_owns owns
    rw [idle, slotDecided, if_neg (by decide), decideSlot_some (slotGrant_byLock owns)]
    exact ⟨left, owner, channel, grantTo_byLock b x e⟩
  case picked =>
    have picked := slotGrant_picks picks
    obtain ⟨grant, last, left⟩ := grantTo_picked b x e
    rw [idle, slotDecided, if_neg (by decide), decideSlot_some picks]
    exact ⟨grant, last, left, fun turn y hy => pickSlot_byRank picked turn _ (List.mem_map_of_mem hy),
      fun turn y hy => pickSlot_byAge picked turn _ (List.mem_map_of_mem hy)⟩

end Sys2Proof.Machine
end

section
/-! Sp. 10 R303-R310: a bus error is latched; a channel is disabled and enabled; its registers take their writes. -/

namespace Sys2Proof.Machine

/-! ## A bus error is latched (R309) -/

/-- The FAIL fields of a channel that a bus error has met. -/
def Channel.failed (c : Channel) (e : BusError) : Channel :=
  { c with failCause := BitVec.ofNat 4 e.cause, failDir := e.dir, failAddr := BitVec.ofNat 64 e.addr }

/-- The DMA_BUS_ERROR of a channel (sp. 14 Table 14-2). -/
def busEvent (d : Die) (n : Fin 128) (cue : Nat) (e : BusError) : Event :=
  { kind := 0x0E, place := dieplace d, unit := 7, inst := n.val, cue := cue, d0 := e.addr, d1 := e.cause + 16 * b01 e.dir, alarm := .every }

section Latch
variable (s : State) (d : Die) (n : Fin 128) (cue : Nat) (e : BusError)

theorem latchError_eq : latchError s d n cue e = raise (setChan s d n ((chan s d n).failed e)) (busEvent d n cue e) := rfl

theorem latchError_chan : chan (latchError s d n cue e) d n = (chan s d n).failed e := by
  rw [latchError_eq, chan, raise_dma]
  exact chan_setChan s d n _

theorem latchError_outside : outsideOf (latchError s d n cue e) = outsideOf s := by
  rw [latchError_eq, raise_outside]
  rfl

/-- It is one DMA_BUS_ERROR of the die. -/
theorem latchError_counted : oneMore s (latchError s d n cue e) 0x0E (dieplace d) := by
  rw [latchError_eq]
  exact oneMore_congr (oneMore_raise (setChan s d n ((chan s d n).failed e)) (busEvent d n cue e)) rfl rfl

end Latch

/-! ## DISABLE = 1 (R308) -/

/-- State as both sets of a channel are dropped, the bytes that they were to write drawn. -/
def dropFreed (s : State) (d : Die) (n : Fin 128) : State :=
  freeMoves (freeNand ((unit s (chanUnit d n)).running.toList.foldl (fun t r => if r.halted then t else streamBack t d n r) s) (droppedParts s d n))
    (activeMoves s d n ++ shadowMoves s d n)

/-- A channel whose sets are dropped. -/
def Channel.dropped (c : Channel) (bytes : BitVec 32) : Channel :=
  { c with st := .disabled, disable := true, actCue := 0xFFFFFF, actDesc := 0, shdDesc := 0, shdFull := false, firmware := false,
           queued := false, actBytes := bytes }

/-- What it has raised and sent is withdrawn, its unit is idle. -/
def dropTaken (d : Die) (n : Fin 128) (b : List Byte × State) : State :=
  setUnit (withdrawChannel (forgetSends (setChan b.2 d n ((chan b.2 d n).dropped (BitVec.ofNat 32 (ofLE b.1)))) d n) d n) (chanUnit d n) (noUnit 0)

section Drop
variable (s : State) (d : Die) (n : Fin 128)

/-- The step knows that work was dropped, where there was any. -/
theorem dropChannel_eq : dropChannel s d n =
    let t := dropTaken d n (drawBytes 4 (dropFreed s d n))
    if (unit s (chanUnit d n)).running.isSome || (unit s (chanUnit d n)).pending.isSome then { t with step := { t.step with dropped := true } } else t :=
  rfl

section Field
variable {γ : Type} (π : State → γ) (hsecure : ∀ t x, π { t with secure := x } = π t) (hnand : ∀ t x, π { t with nand := x } = π t)
  (hfree : ∀ t, π (butFree t) = π t) (hstore : ∀ t l, π (storeFree t l) = π t)

include hsecure in
theorem streamBack_field (r : Running) : π (streamBack s d n r) = π s := by
  unfold streamBack
  dsimp only
  split
  · rfl
  · exact ite_field (hsecure _ _) rfl

include hnand in
theorem nandPut_field (x : Nat × List Byte) : π (nandPut s x) = π s := by
  unfold nandPut setNandSlot
  exact ite_field (hnand _ _) (hnand _ _)

include hsecure hnand hfree hstore

theorem dropFreed_field : π (dropFreed s d n) = π s := by
  have back (l : List Running) : π (l.foldl (fun t r => if r.halted then t else streamBack t d n r) s) = π s :=
    foldl_field π _ (fun t r => ite_field rfl (streamBack_field t d n π hsecure r)) l s
  refine (hstore _ _).trans ((foldl_field π _ (fun t (x : Nat × Nat) => ?_) _ _).trans (back _))
  exact (nandPut_field _ π hnand _).trans (field_of π (drawBytes_only x.2 t) hfree)

end Field

theorem dropFreed_dma : (dropFreed s d n).dma = s.dma :=
  dropFreed_field s d n State.dma (fun _ _ => rfl) (fun _ _ => rfl) (fun _ => rfl) (fun _ _ => field_of State.dma (storeFree_only _ _) (fun _ => rfl))

theorem dropFreed_err : (dropFreed s d n).err = s.err :=
  dropFreed_field s d n State.err (fun _ _ => rfl) (fun _ _ => rfl) (fun _ => rfl) storeFree_err

theorem dropChannel_chan : ∃ b, chan (dropChannel s d n) d n = (chan s d n).dropped b := by
  have drawn : (drawBytes 4 (dropFreed s d n)).2.dma = s.dma := (field_of State.dma (drawBytes_only _ _) (fun _ => rfl)).trans (dropFreed_dma s d n)
  have before : chan (drawBytes 4 (dropFreed s d n)).2 d n = chan s d n := congrArg (Sparse.get noChannel · (chanKey d n)) drawn
  refine ⟨BitVec.ofNat 32 (ofLE (drawBytes 4 (dropFreed s d n)).1), ?_⟩
  have taken : chan (dropTaken d n (drawBytes 4 (dropFreed s d n))) d n = (chan s d n).dropped (BitVec.ofNat 32 (ofLE (drawBytes 4 (dropFreed s d n)).1)) :=
    (chan_setChan _ d n _).trans (congrArg (Channel.dropped · _) before)
  rw [dropChannel_eq]
  exact ite_field (π := (chan · d n)) taken taken

theorem dropChannel_unit : unit (dropChannel s d n) (.channel d n) = noUnit 0 := by
  rw [dropChannel_eq]
  exact ite_field (π := (unit · (.channel d n))) (unit_setUnit _ _ _) (unit_setUnit _ _ _)

theorem dropChannel_err : (dropChannel s d n).err = s.err := by
  have drawn : (drawBytes 4 (dropFreed s d n)).2.err = s.err := (field_of State.err (drawBytes_only _ _) (fun _ => rfl)).trans (dropFreed_err s d n)
  rw [dropChannel_eq]
  exact ite_field (π := State.err) drawn drawn

theorem dropChannel_outside : outsideOf (dropChannel s d n) = outsideOf s :=
  field_of outsideOf (dropChannel_recycled s d n) (fun u => by unfold outsideOf butRecycled butStored butFree butAccess butEvents; rfl)

end Drop

section Disable
variable {s : State} {d : Die} {n : Fin 128} {err : Option Nat}

theorem execDisable_drops (h : err.bind (chanFault s d n) = none) : exec (.disable d ⟨n, err⟩) s = .next (dropChannel s d n) := by
  change execDisable d ⟨n, err⟩ s = _
  unfold execDisable
  dsimp only
  rw [h]

/-- A bus error of the same cycle is latched before (R321). -/
theorem execDisable_latches {e : BusError} (h : err.bind (chanFault s d n) = some e) :
    ∃ cue, exec (.disable d ⟨n, err⟩) s = .next (dropChannel (latchError s d n cue e) d n) := by
  refine ⟨(unit s (chanUnit d n)).running.elim noCue (·.cue), ?_⟩
  change execDisable d ⟨n, err⟩ s = _
  unfold execDisable
  dsimp only
  rw [h]

end Disable

/-! ## GO and the plain fields (R304, R306) -/

section Registers
variable {s : State} {d : Die} {n : Fin 128}

theorem execGo_kept (h : (chan s d n).st ≠ .idle ∨ channelNamed s d n = true) : exec (.go d n) s = .next s :=
  if_neg (fun both => h.elim (fun busy => busy both.1) (fun named => by simp [named] at both))

/-- Firmware loads a channel and starts it where no armed or running sheet names it. -/
theorem execGo_starts (idle : (chan s d n).st = .idle) (unnamed : channelNamed s d n = false) : exec (.go d n) s =
    .next (setChan (if !placeFor s d.val (goOps d (chan s d n).shdDesc.toNat) then countWait s d (decide (4096 ≤ streamsHeld s d.val)) else s) d n
      { chan s d n with st := .active, firmware := true, queued := !placeFor s d.val (goOps d (chan s d n).shdDesc.toNat),
                        actDesc := (chan s d n).shdDesc, shdDesc := 0, shdFull := false, actBytes := 0, actCue := 0xFFFFFF }) :=
  if_pos ⟨idle, by simp [unnamed]⟩

theorem registerWrite_unnamed (h : channelNamed s d n = false) :
    (∀ v, exec (.registerWrite d n (.shdDesc v)) s = .next (setChan s d n { chan s d n with shdDesc := v, shdFull := true })) ∧
      ∀ v, exec (.registerWrite d n (.irqEn v)) s = .next (setChan s d n { chan s d n with irqEn := v }) :=
  ⟨fun _ => if_neg (by simp [h]), fun _ => if_neg (by simp [h])⟩

theorem registerWrite_named (h : channelNamed s d n = true) :
    (∀ v, exec (.registerWrite d n (.shdDesc v)) s = .next s) ∧ exec (.registerWrite d n (.irqEn true)) s = .next s :=
  ⟨fun _ => if_pos h, if_pos (by simp [h])⟩

end Registers

/-- Settles O33: a DISABLE is `dropChannel`, after `latchError` where a transfer meets a bus error; the other registers by their writes. -/
theorem channelRegistersTakeTheirWrites : Obligations.ChannelRegistersTakeTheirWrites := by
  intro d n s
  refine ⟨fun err => ?disable, fun h => ?enable, fun q hq idle unnamed => hq ▸ execGo_starts idle unnamed, fun busy => execGo_kept (.inl busy),
    fun _ => rfl, registerWrite_unnamed, fun _ => rfl, fun named => ⟨execGo_kept (.inr named), registerWrite_named named⟩⟩
  case disable =>
    have idle (t : State) := dropChannel_unit t d n
    rcases fault : err.bind (chanFault s d n) with _ | e
    · obtain ⟨b, dropped⟩ := dropChannel_chan s d n
      refine ⟨_, execDisable_drops fault, ?_⟩
      rw [dropped, idle]
      exact ⟨rfl, rfl, rfl, rfl, rfl, rfl, rfl, (outsideKept_iff _ _).2 (dropChannel_outside s d n),
        fun _ => ⟨rfl, rfl, dropChannel_err s d n⟩, fun _ h => nomatch h⟩
    · obtain ⟨cue, runs⟩ := execDisable_latches fault
      obtain ⟨b, dropped⟩ := dropChannel_chan (latchError s d n cue e) d n
      refine ⟨_, runs, ?_⟩
      rw [dropped, latchError_chan, idle]
      refine ⟨rfl, rfl, rfl, rfl, rfl, rfl, rfl, (outsideKept_iff _ _).2 ((dropChannel_outside _ d n).trans (latchError_outside s d n cue e)),
        (fun h => nomatch h), fun e' he => ?_⟩
      obtain rfl := Option.some.inj he
      exact ⟨rfl, rfl, rfl, oneMore_congr (latchError_counted s d n cue e) rfl (congrArg Errors.sources (dropChannel_err _ d n))⟩
  case enable =>
    refine ⟨_, if_pos h, ?_⟩
    rw [chan_setChan]
    exact ⟨rfl, rfl, rfl, rfl, rfl, rfl, rfl, rfl, rfl, (outsideKept_iff _ _).2 rfl⟩

end Sys2Proof.Machine
end

section
/-! Sp. 10 R298, R301, R302; sp. 09 R256, R274, R288: the transfers of a channel take effect. -/

namespace Sys2Proof.Machine

theorem load_length (s : State) (a n : Nat) : (load s a n).length = n := by
  induction n generalizing a with
  | zero => rfl
  | succ n ih => rw [load, List.length_cons, ih]

/-! ## One transfer -/

/-- The bytes that a transfer moves, and the state in which its source has been read. -/
def moveRead (who : Who) (s : State) (m : Move) (undefd : Bool) : List Byte × State :=
  if undefd then drawBytes m.len (touchRead who s (localOf m.src) m.len)
  else (load s (localOf m.src) m.len, touchRead who s (localOf m.src) m.len)

theorem applyMove_eq (who : Who) (s : State) (m : Move) (undefd : Bool) : applyMove who s m undefd =
    writeMem who (moveRead who s m undefd).2 (localOf m.dst) (moveRead who s m undefd).1 := by
  cases undefd <;> rfl

theorem moveRead_length (who : Who) (s : State) (m : Move) (undefd : Bool) : (moveRead who s m undefd).1.length = m.len := by
  cases undefd
  · exact load_length s (localOf m.src) m.len
  · exact drawBytes_length m.len (touchRead who s (localOf m.src) m.len)

section Field
variable {γ : Type} (π : State → γ) (hfree : ∀ t, π (butFree t) = π t) (hread : ∀ who t a n, π (touchRead who t a n) = π t)
  (hwrite : ∀ who t a p, π (writeMem who t a p) = π t)

include hfree hread in
theorem moveRead_field (who : Who) (s : State) (m : Move) (undefd : Bool) : π (moveRead who s m undefd).2 = π s := by
  cases undefd
  · exact hread _ _ _ _
  · exact (field_of π (drawBytes_only _ _) hfree).trans (hread _ _ _ _)

include hfree hread hwrite

/-- What reads, writes and draws leave alone, transfers leave alone. -/
theorem applyMoves_field (who : Who) (s : State) (l : List Move) (parts : List Nat) (bad : List (Nat × Nat)) :
    π (applyMoves who s l parts bad) = π s := by
  refine foldl_field π _ (fun t (x : Nat × Move) => ?_) _ _
  rw [applyMove_eq, hwrite, moveRead_field π hfree hread]

end Field

theorem applyMove_stored (who : Who) (s : State) (m : Move) (undefd : Bool) : butStored (applyMove who s m undefd) = butStored s := by
  rw [applyMove_eq]
  exact (butStored_of_access (writeMem_only _ _ _ _)).trans
    (moveRead_field butStored (fun _ => rfl) (fun who t a n => butStored_of_access (touchRead_only who t a n)) who s m undefd)

theorem applyMoves_stored (who : Who) (s : State) (l : List Move) (parts : List Nat) (bad : List (Nat × Nat)) :
    butStored (applyMoves who s l parts bad) = butStored s :=
  applyMoves_field butStored (fun _ => rfl) (fun who t a n => butStored_of_access (touchRead_only who t a n))
    (fun who t a p => butStored_of_access (writeMem_only who t a p)) who s l parts bad

theorem cfg_of_stored {s t : State} (h : butStored t = butStored s) : t.cfg = s.cfg := field_of State.cfg h (fun _ => rfl)

theorem physByte_applyMove {who : Who} {s : State} {m : Move} {a : Nat} (undefd : Bool) (h : Spares s (zerosAt [(localOf m.dst, m.len)]) a) :
    physByte (applyMove who s m undefd) a = physByte s a := by
  have cfg : (moveRead who s m undefd).2.cfg = s.cfg := moveRead_field State.cfg (fun _ => rfl)
    (fun who t a n => cfg_of_access (touchRead_only who t a n)) who s m undefd
  have bytes : (moveRead who s m undefd).2.mem.bytes = s.mem.bytes := moveRead_field (fun t => t.mem.bytes) (fun _ => rfl)
    touchRead_bytes who s m undefd
  have spares : Spares s [(localOf m.dst, (moveRead who s m undefd).1)] a := h.of_ranges (fun q hq => by
    rw [rangesOf_zerosAt]
    rwa [rangesOf, List.map_singleton, moveRead_length] at hq)
  rw [applyMove_eq]
  exact (physByte_writeAll ((Spares.congr cfg).2 spares)).trans (physByte_of_bytes bytes a)

/-! ## The transfers of a cue -/

/-- Transfers land on their destinations alone. -/
theorem physByte_applyMoves {who : Who} {s : State} {l : List Move} (parts : List Nat) (bad : List (Nat × Nat)) {a : Nat}
    (h : Spares s (zerosAt (moveDests l)) a) : physByte (applyMoves who s l parts bad) a = physByte s a := by
  have each (g : Nat × Move → Bool) (k : List (Nat × Move)) (s : State) (h : Spares s (zerosAt (moveDests (k.map (·.2)))) a) :
      physByte (k.foldl (fun t x => applyMove who t x.2 (g x)) s) a = physByte s a := by
    induction k generalizing s with
    | nil => rfl
    | cons x k ih =>
      obtain ⟨head, tail⟩ := Spares.cons.1 h
      exact (ih _ ((Spares.congr (cfg_of_stored (applyMove_stored who s x.2 (g x)))).2 tail)).trans (physByte_applyMove (g x) head)
  exact each _ (numbered l) s (by rwa [numbered_snd])

theorem moveHits_only (s : State) (new : List Fence) (l : List Move) : butFree (moveHits s new l).2 = butFree s := by
  unfold moveHits
  dsimp only
  split
  · rfl
  · exact drawUpTo_only (l.filter (moveTaken new)).length s

theorem chanParity_only (s : State) (d : Die) (n : Fin 128) (cue : Nat) (l : List Detect) : butAccess (chanParity s d n cue l) = butAccess s := by
  unfold chanParity busParity
  exact ite_field rfl ((butAccess_of (raiseAll_only _ _)).trans rfl)

section All
variable (s : State) (d : Die) (n : Fin 128) (r : Running) (par : List Detect)

/-- State in which the transfers of a cue have taken effect, before what the bus and later fences count. -/
def movesApplied : State :=
  underFences (moveHits s r.fenced r.moves).2 r.fenced
    (fun t => applyMoves (whoUnit (chanUnit d n) r.cue) t r.moves (par.map (·.part)) (spoilt r))

theorem moveAll_st : (moveAll s d n r par).st =
    blurHits (moveHits s r.fenced r.moves).2 (chanParity (movesApplied s d n r par) d n r.cue par) r.fenced [] := rfl

theorem moveAll_only : butStored (moveAll s d n r par).st = butStored s := by
  rw [moveAll_st, blurHits_field butStored (fun _ => rfl) (fun _ _ _ => rfl), butStored_of_access (chanParity_only _ _ _ _ _), movesApplied,
    underFences_field butStored (fun _ _ _ => rfl) _ _ _ (fun t => applyMoves_stored _ t _ _ _)]
  exact butStored_of_free (moveHits_only _ _ _)

variable {s r}

theorem physByte_moveAll {a : Nat} (h : Spares s (zerosAt (moveDests r.moves)) a) :
    physByte (moveAll s d n r par).st a = physByte s a := by
  have drawn := moveHits_only s r.fenced r.moves
  obtain ⟨m, m', hm, hm', applied⟩ := underFences_split (moveHits s r.fenced r.moves).2 r.fenced
    (fun t => applyMoves (whoUnit (chanUnit d n) r.cue) t r.moves (par.map (·.part)) (spoilt r))
  have bytes : (moveAll s d n r par).st.mem.bytes = (applyMoves (whoUnit (chanUnit d n) r.cue)
      { (moveHits s r.fenced r.moves).2 with mem := m } r.moves (par.map (·.part)) (spoilt r)).mem.bytes := by
    rw [moveAll_st, blurHits_bytes, chanParity_bytes, movesApplied, applied, hm']
  have cfg : (moveHits s r.fenced r.moves).2.cfg = s.cfg := field_of State.cfg drawn (fun _ => rfl)
  have before : m.bytes = s.mem.bytes := hm.trans (field_of (fun t => t.mem.bytes) drawn (fun _ => rfl))
  rw [physByte_of_bytes bytes, physByte_applyMoves _ _ ((Spares.congr (t := { (moveHits s r.fenced r.moves).2 with mem := m }) cfg).2 h)]
  exact physByte_of_bytes before a

end All

end Sys2Proof.Machine
end

section
/-! Sp. 10 R301, R302: a COPY completes. -/

namespace Sys2Proof.Machine

/-! ## A cue of a channel ends with its record -/

/-- State with the record of a channel's cue, its bytes free where another party wrote. -/
def recordStored (s : State) (d : Die) (n : Fin 128) (r : Running) (record : List Byte) : State :=
  storeFree (writeMem (whoUnit (chanUnit d n) r.cue) s r.recAt record) r.clash

/-- A channel whose stream is released. -/
def Channel.released (x : Channel) (bytes : Nat) : Channel :=
  { x with st := .idle, actCue := 0xFFFFFF, irqPending := true, firmware := false, queued := false,
           actBytes := BitVec.ofNat 32 (stopAt top32 bytes) }

/-- The unit is free in cycle `c`, and the channel IDLE. -/
def chanFreed (s : State) (d : Die) (n : Fin 128) (bytes c : Nat) : State :=
  endOfCount (setUnit s (chanUnit d n) (finished (chanUnit d n) (unit s (chanUnit d n)) c)) d n bytes

/-- Its end is traced, its signal made and its completion noted. -/
def dmaNoted (s : State) (d : Die) (n : Fin 128) (r : Running) (c : Nat) : State :=
  noteDone (signalOpt (traceAt s c 5 (dieplace d) 7 n.val r.cue 0 (c - r.firedAt)) d c r.signal) none d c

section Ends
variable (s : State) (d : Die) (n : Fin 128) (r : Running) (record : List Byte) (bytes c : Nat)

theorem dmaDone_completes (h : bankFault s r.recAt 32 = false) : dmaDone s d n r record bytes c =
    dmaNoted (chanFreed (recordStored s d n r record) d n bytes c) d n r c := by
  unfold dmaDone
  dsimp only
  rw [if_neg (by simp [h])]
  rfl

theorem recordStored_only : butStored (recordStored s d n r record) = butStored s :=
  (storeFree_only _ _).trans (butStored_of_access (writeMem_only _ _ _ _))

theorem physByte_recordStored {a : Nat} (h : Spares s [(r.recAt, record)] a) (clash : Spares s (zerosAt r.clash) a) :
    physByte (recordStored s d n r record) a = physByte s a := by
  have written : (writeMem (whoUnit (chanUnit d n) r.cue) s r.recAt record).cfg = s.cfg := cfg_of_access (writeMem_only _ _ _ _)
  exact (physByte_storeFree ((Spares.congr written).2 clash)).trans (physByte_writeAll h)

theorem dmaNoted_ready : butReady (signalOpt (traceAt s c 5 (dieplace d) 7 n.val r.cue 0 (c - r.firedAt)) d c r.signal) = butReady s :=
  (signalOpt_ready _ _ _ _).trans (traceAt_ready _ _ _ _ _ _ _ _ _)

theorem dmaNoted_chan : chan (dmaNoted s d n r c) d n = chan s d n :=
  congrArg (Sparse.get noChannel · (chanKey d n)) (field_of State.dma (dmaNoted_ready s d n r c) (fun _ => rfl) :)

theorem dmaNoted_bytes : (dmaNoted s d n r c).mem.bytes = s.mem.bytes := by
  rw [dmaNoted, noteDone_bytes, signalOpt_bytes, traceAt_mem]

theorem dmaNoted_lastDone : (dmaNoted s d n r c).step.lastDone = max s.step.lastDone c :=
  congrArg (max · c) (field_of (fun t => t.step.lastDone) (dmaNoted_ready s d n r c) (fun _ => rfl))

theorem dmaNoted_units : unmetUnits (dmaNoted s d n r c) = unmetUnits s :=
  (noteDone_units _ _ _ _).trans ((signalOpt_units _ _ _ _).trans (unmetUnits_of_units (congrArg Stage.units (traceAt_stage s c _ _ _ _ _ _ _))))

theorem dmaNoted_outside : outsideOf (dmaNoted s d n r c) = outsideOf s :=
  (noteDone_outside _ _ _ _).trans (outsideOf_of_ready (dmaNoted_ready s d n r c))

end Ends

/-! ## DMA_COMPLETE of a COPY -/

/-- State in which the transfers of a COPY have taken effect; its wait for a stream is traced before. -/
def copyMoved (s : State) (d : Die) (n : Fin 128) (r : Running) (par : List Detect) : Moved :=
  moveAll (atDone s (chanUnit d n) r (dmaReady r)) d n r par

/-- Its record. -/
def copyRecord (r : Running) (m : Moved) : List Byte := dmaRecord (moveBytes r.moves) r.moves.length m.hits (b01 m.det) 0

/-- State as it has completed. -/
def copyDone (s : State) (d : Die) (n : Fin 128) (r : Running) (par : List Detect) : State :=
  let m := copyMoved s d n r par
  dmaNoted (chanFreed (recordStored m.st d n r (copyRecord r m)) d n (moveBytes r.moves) m.st.now) d n r m.st.now

section Complete
variable {s : State} {d : Die} {n : Fin 128} {par : List Detect} {r : Running} (hrun : (unit s (.channel d n)).running = some r)
include hrun

theorem execDmaComplete_waits (h : r.halted = true ∨ r.port.isSome ∨ (r.queued = true ∧ r.opcode = 0x61) ∨ reaches s (dmaReady r) = false ∨
    streamRuns s (.channel d n) r = false) : exec (.dmaComplete d n par) s = .next s := by
  change execDmaComplete d n par s = _
  unfold execDmaComplete chanUnit
  rw [hrun]
  exact if_pos (by simpa using h)

variable (hh : r.halted = false) (hp : r.port = none) (ho : r.opcode = 0x60) (hr : reaches s (dmaReady r) = true)
  (hs : streamRuns s (.channel d n) r = true)
include hh hp ho hr hs

theorem execDmaComplete_copy : exec (.dmaComplete d n par) s = .next (finishCopy (settle (clockTo s (dmaReady r))) d n r par) := by
  change execDmaComplete d n par s = _
  unfold execDmaComplete chanUnit
  rw [hrun]
  dsimp only
  rw [if_neg (by simp [hh, hp, ho, hr, hs]), if_pos ho]

/-- While a transfer meets a bus error it completes nothing. -/
theorem execDmaComplete_faulted (hf : (r.moves.findSome? (moveFault (settle (clockTo s (dmaReady r))))).isSome) :
    exec (.dmaComplete d n par) s = .next (settle (clockTo s (dmaReady r))) :=
  (execDmaComplete_copy hrun hh hp ho hr hs).trans (next_congr (if_pos hf))

theorem execDmaComplete_completes (hf : r.moves.findSome? (moveFault (settle (clockTo s (dmaReady r)))) = none)
    (hb : bankFault (copyMoved s d n r par).st r.recAt 32 = false) : exec (.dmaComplete d n par) s = .next (copyDone s d n r par) := by
  refine (execDmaComplete_copy hrun hh hp ho hr hs).trans (next_congr ?_)
  unfold finishCopy
  rw [if_neg (by simp [hf])]
  exact dmaDone_completes _ d n r _ _ _ hb

end Complete

section Done
variable (s : State) (d : Die) (n : Fin 128) (r : Running) (par : List Detect)

theorem copyMoved_only : butStored (copyMoved s d n r par).st = butStored (atDone s (chanUnit d n) r (dmaReady r)) := moveAll_only _ d n r par

theorem copyMoved_now : (copyMoved s d n r par).st.now = (settle (clockTo s (dmaReady r))).now :=
  (field_of State.now (copyMoved_only s d n r par) (fun _ => rfl)).trans (field_of State.now (traceWait_only _ _ r) (fun _ => rfl))

/-- What a completion keeps of its state as the record is stored. -/
theorem copyStored_only : butStored (recordStored (copyMoved s d n r par).st d n r (copyRecord r (copyMoved s d n r par))) =
    butStored (atDone s (chanUnit d n) r (dmaReady r)) := (recordStored_only _ d n r _).trans (copyMoved_only s d n r par)

theorem copyDone_chan : ∃ x, chan (copyDone s d n r par) d n = Channel.released x (moveBytes r.moves) :=
  ⟨_, (dmaNoted_chan _ d n r _).trans (chan_setChan _ d n _)⟩

theorem copyDone_bytes : (copyDone s d n r par).mem.bytes =
    (recordStored (copyMoved s d n r par).st d n r (copyRecord r (copyMoved s d n r par))).mem.bytes := dmaNoted_bytes _ d n r _

theorem copyDone_lastDone : (copyDone s d n r par).step.lastDone = max s.step.lastDone (settle (clockTo s (dmaReady r))).now := by
  have before : (recordStored (copyMoved s d n r par).st d n r (copyRecord r (copyMoved s d n r par))).step.lastDone = s.step.lastDone :=
    (field_of (fun t => t.step.lastDone) (copyStored_only s d n r par) (fun _ => rfl)).trans (atDone_reached s (chanUnit d n) r (dmaReady r)).lastDone
  rw [← copyMoved_now s d n r par]
  exact (dmaNoted_lastDone _ d n r _).trans (congrArg (max · _) before)

theorem copyDone_unit : plainUnit (unit (copyDone s d n r par) (.channel d n)) =
    plainUnit (finished (.channel d n) (unit s (.channel d n)) (settle (clockTo s (dmaReady r))).now) := by
  have before : plainUnits (recordStored (copyMoved s d n r par).st d n r (copyRecord r (copyMoved s d n r par))) = plainUnits s :=
    (field_of plainUnits (copyStored_only s d n r par) (fun _ => rfl)).trans (atDone_reached s (chanUnit d n) r (dmaReady r)).units
  have noted := congrFun (plainUnits_of_unmet (dmaNoted_units (chanFreed (recordStored (copyMoved s d n r par).st d n r
    (copyRecord r (copyMoved s d n r par))) d n (moveBytes r.moves) (copyMoved s d n r par).st.now) d n r (copyMoved s d n r par).st.now)) (.channel d n)
  refine noted.trans ((congrArg plainUnit (unit_setUnit _ (.channel d n) _)).trans ?_)
  rw [plainUnit_finished, plainUnit_finished, copyMoved_now]
  exact congrArg (finished (.channel d n) · _) (congrFun before (.channel d n))

theorem copyDone_outside : outsideOf (copyDone s d n r par) = outsideOf s := by
  have freed (t : State) (bytes c : Nat) : outsideOf (chanFreed t d n bytes c) = outsideOf t := rfl
  rw [copyDone, dmaNoted_outside, freed]
  exact (field_of outsideOf (copyStored_only s d n r par) butStored_outside).trans (atDone_reached s (chanUnit d n) r (dmaReady r)).outside

/-- Its transfers, its record and the free bytes alone become visible. -/
theorem copyDone_onlyWrites : onlyWrites s (copyDone s d n r par) (zerosAt (moveDests r.moves ++ [(r.recAt, 32)] ++ r.clash)) := by
  refine onlyWrites_iff.2 (fun a ha => ?_)
  have reached := atDone_reached s (chanUnit d n) r (dmaReady r)
  have parts : zerosAt (moveDests r.moves ++ [(r.recAt, 32)] ++ r.clash) =
      zerosAt (moveDests r.moves) ++ [(r.recAt, zeros 32)] ++ zerosAt r.clash := by simp [zerosAt]
  rw [parts] at ha
  obtain ⟨moves_record, clash⟩ := Spares.append.1 ha
  obtain ⟨moves, record⟩ := Spares.append.1 moves_record
  have cfg : (copyMoved s d n r par).st.cfg = s.cfg := (cfg_of_stored (copyMoved_only s d n r par)).trans reached.cfg
  have full : Spares s [(r.recAt, copyRecord r (copyMoved s d n r par))] a := record.of_ranges (fun q hq => by
    rwa [rangesOf, List.map_singleton, copyRecord, dmaRecord, toLE_length] at hq)
  rw [physByte_of_bytes (copyDone_bytes s d n r par),
    physByte_recordStored _ d n r _ ((Spares.congr cfg).2 full) ((Spares.congr cfg).2 clash)]
  exact (physByte_moveAll d n par ((Spares.congr reached.cfg).2 moves)).trans (physByte_of_bytes reached.bytes a)

end Done

end Sys2Proof.Machine
end

section
/-! Sp. 10 R309, R310: a bus error halts a channel. -/

namespace Sys2Proof.Machine

/-! ## The halt -/

/-- The channel as it halts. -/
def Channel.halts (x : Channel) (e : BusError) (bytes : Nat) : Channel :=
  { x.failed e with st := .halted, actBytes := BitVec.ofNat 32 (stopAt top32 bytes) }

/-- What a bus error leaves alone. -/
def failKept (s : State) : Power × Guard × Cfg × Beat × Sparse (BitVec 32) := (s.pwr, s.guard, s.cfg, s.beat, s.stage.tallies)

theorem countOf_writeMem {kind : Byte} (h : kind.toNat % 128 ≠ 6 ∧ kind.toNat % 128 ≠ 7 ∧ kind.toNat % 128 ≠ 13) (p : Place) (who : Who) (s : State)
    (a : Nat) (l : List Byte) : countOf (writeMem who s a l) kind p = countOf s kind p := countOf_writeAll h p who s [(a, l)]

theorem countOf_touchRead {kind : Byte} (h : kind.toNat % 128 ≠ 6 ∧ kind.toNat % 128 ≠ 7 ∧ kind.toNat % 128 ≠ 13) (p : Place) (who : Who) (s : State)
    (a l : Nat) : countOf (touchRead who s a l) kind p = countOf s kind p :=
  (countOf_raiseAll p (fun _ he => AccessKind.ne h (readEvents_kind he)) _).trans (countOf_congr (readCounts_err s _) _ _)

section Halt
variable (s : State) (d : Die) (n : Fin 128) (cue recAt : Nat) (e : BusError) (bytes transfers hits : Nat)

/-- State with the error latched and the record of the halt written. -/
def haltWritten : State :=
  writeMem whoFirmware (setChan (latchError s d n cue e) d n ((chan s d n).halts e bytes)) recAt (dmaRecord bytes transfers hits 3 e.cause)

theorem haltChannel_eq : haltChannel s d n cue recAt e bytes transfers hits =
    setUnit (haltWritten s d n cue recAt e bytes transfers hits) (chanUnit d n)
      { unit (haltWritten s d n cue recAt e bytes transfers hits) (chanUnit d n) with
        running := (unit (haltWritten s d n cue recAt e bytes transfers hits) (chanUnit d n)).running.map haltRun } := by
  unfold haltChannel haltWritten
  dsimp only
  rw [latchError_chan]
  rfl

theorem haltWritten_only : butAccess (haltWritten s d n cue recAt e bytes transfers hits) =
    butAccess (setChan (latchError s d n cue e) d n ((chan s d n).halts e bytes)) := by
  rw [haltWritten, writeMem_only]

theorem haltWritten_stage : (haltWritten s d n cue recAt e bytes transfers hits).stage = s.stage := by
  rw [field_of State.stage (haltWritten_only s d n cue recAt e bytes transfers hits) (fun _ => rfl), setChan_stage, latchError_eq, raise_stage,
    setChan_stage]

theorem haltChannel_chan : chan (haltChannel s d n cue recAt e bytes transfers hits) d n = (chan s d n).halts e bytes := by
  have written := field_of State.dma (haltWritten_only s d n cue recAt e bytes transfers hits) (fun _ => rfl)
  rw [chan, haltChannel_eq, setUnit_dma, written]
  exact chan_setChan _ d n _

theorem haltChannel_running : (unit (haltChannel s d n cue recAt e bytes transfers hits) (.channel d n)).running =
    (unit s (.channel d n)).running.map haltRun := by
  rw [haltChannel_eq, chanUnit, unit_setUnit, unit_of_stage (haltWritten_stage s d n cue recAt e bytes transfers hits)]

theorem haltChannel_counted : oneMore s (haltChannel s d n cue recAt e bytes transfers hits) 0x0E (dieplace d) := by
  have freed : (haltChannel s d n cue recAt e bytes transfers hits).err = (haltWritten s d n cue recAt e bytes transfers hits).err := by
    rw [haltChannel_eq, setUnit_err]
  have latched := latchError_counted s d n cue e
  unfold oneMore at latched ⊢
  rw [countOf_congr freed, haltWritten, countOf_writeMem (by decide), countOf_congr (setChan_err _ d n _), latched]

theorem haltChannel_stored {γ : Type} (π : State → γ) (ha : ∀ t, π (butAccess t) = π t) (hc : ∀ t c, π (setChan t d n c) = π t)
    (hu : ∀ t v, π (setUnit t (chanUnit d n) v) = π t) : π (haltChannel s d n cue recAt e bytes transfers hits) = π s := by
  rw [haltChannel_eq, hu]
  refine (field_of π (haltWritten_only s d n cue recAt e bytes transfers hits) ha).trans ((hc _ _).trans ?_)
  rw [latchError_eq]
  exact (field_of π (butAccess_of (raise_only _ _)) ha).trans (hc _ _)

end Halt

/-- A channel that a bus error has halted, with its cue `r`. -/
structure Halts (s t : State) (d : Die) (n : Fin 128) (r : Running) (e : BusError) (bytes : Nat) : Prop where
  chan : ∃ x, chan t d n = Channel.halts x e bytes
  running : (unit t (.channel d n)).running = some (haltRun r)
  counted : oneMore s t 0x0E (dieplace d)
  kept : failKept t = failKept s

/-- A halt is one from any state that leaves the cue, the count and what is kept. -/
theorem haltChannel_halts {s t : State} {d : Die} {n : Fin 128} {r : Running} (run : (unit t (.channel d n)).running = some r)
    (count : countOf t 0x0E (dieplace d) = countOf s 0x0E (dieplace d)) (kept : failKept t = failKept s) (cue recAt : Nat) (e : BusError)
    (bytes transfers hits : Nat) : Halts s (haltChannel t d n cue recAt e bytes transfers hits) d n r e bytes where
  chan := ⟨_, haltChannel_chan t d n cue recAt e bytes transfers hits⟩
  running := by rw [haltChannel_running, run]; rfl
  counted := by
    have one := haltChannel_counted t d n cue recAt e bytes transfers hits
    unfold oneMore at one ⊢
    rw [one, count]
  kept := (haltChannel_stored t d n cue recAt e bytes transfers hits failKept (fun _ => rfl) (fun _ _ => rfl) (fun _ _ => rfl)).trans kept

/-! ## A COPY or a FREEZE fails at a transfer -/

/-- State as a COPY or a FREEZE fails at its transfer `k`: the earlier ones have taken effect, the bytes of the others are free. -/
def copyFailed (s : State) (d : Die) (n : Fin 128) (r : Running) (k : Nat) : State :=
  let h := moveHits s r.fenced (r.moves.take k)
  let applied := underFences h.2 r.fenced (fun t => applyEarlier (whoUnit (chanUnit d n) r.cue) t (r.moves.take k) (spoilt r))
  storeFree (freeMoves (blurHits h.2 applied r.fenced []) (r.moves.drop k)) r.clash

theorem failCopy_eq (s : State) (d : Die) (n : Fin 128) (r : Running) (k : Nat) (e : BusError) : failCopy s d n r k e =
    haltChannel (copyFailed s d n r k) d n r.cue r.recAt e (moveBytes (r.moves.take k)) k (moveHits s r.fenced (r.moves.take k)).1 := rfl

section CopyFails
variable {γ : Type} (π : State → γ) (hfree : ∀ t, π (butFree t) = π t) (hmem : ∀ t m x, π { t with mem := m, tenants := x } = π t)
  (hread : ∀ who t a n, π (touchRead who t a n) = π t) (hwrite : ∀ who t a p, π (writeMem who t a p) = π t)
  (hstore : ∀ t l, π (storeFree t l) = π t)
include hfree hmem hread hwrite hstore

theorem copyFailed_field (s : State) (d : Die) (n : Fin 128) (r : Running) (k : Nat) : π (copyFailed s d n r k) = π s := by
  have memory (t : State) (m : Mem) : π { t with mem := m } = π t := hmem t m t.tenants
  have earlier (who : Who) (t : State) (l : List Move) (bad : List (Nat × Nat)) : π (applyEarlier who t l bad) = π t :=
    (memory _ _).trans ((applyMoves_field π hfree hread hwrite who _ l [] bad).trans (memory t _))
  refine (hstore _ _).trans ((hstore _ _).trans ((blurHits_field π hfree hmem _ _ _ _).trans ?_))
  exact (underFences_field π hmem _ _ _ (fun t => earlier _ t _ _)).trans (field_of π (moveHits_only _ _ _) hfree)

end CopyFails

theorem copyFailed_stored (s : State) (d : Die) (n : Fin 128) (r : Running) (k : Nat) : butStored (copyFailed s d n r k) = butStored s :=
  copyFailed_field butStored (fun _ => rfl) (fun _ _ _ => rfl) (fun who t a n => butStored_of_access (touchRead_only who t a n))
    (fun who t a p => butStored_of_access (writeMem_only who t a p)) storeFree_only s d n r k

theorem countOf_copyFailed {kind : Byte} (h : kind.toNat % 128 ≠ 6 ∧ kind.toNat % 128 ≠ 7 ∧ kind.toNat % 128 ≠ 13) (p : Place) (s : State) (d : Die)
    (n : Fin 128) (r : Running) (k : Nat) : countOf (copyFailed s d n r k) kind p = countOf s kind p :=
  copyFailed_field (fun t => countOf t kind p) (fun _ => rfl) (fun _ _ _ => rfl) (countOf_touchRead h p) (countOf_writeMem h p)
    (fun t l => countOf_congr (storeFree_err t l) kind p) s d n r k

section FailCopy
variable {s : State} {d : Die} {n : Fin 128} {r : Running} (k : Nat) (e : BusError) (run : (unit s (.channel d n)).running = some r)
include run

theorem failCopy_halts : Halts s (failCopy s d n r k e) d n r e (moveBytes (r.moves.take k)) := by
  have stored := copyFailed_stored s d n r k
  rw [failCopy_eq]
  refine haltChannel_halts ?_ (countOf_copyFailed (by decide) _ s d n r k) (field_of failKept stored (fun _ => rfl)) _ _ _ _ _ _
  rw [unit_of_stage (field_of State.stage stored (fun _ => rfl)), run]

/-- A securing that fails with it leaves the halt as it is. -/
theorem failSecuring_halts : Halts s (failSecuring (failCopy s d n r k e) d n r) d n r e (moveBytes (r.moves.take k)) := by
  have halts := failCopy_halts k e run
  have kept {γ : Type} (π : State → γ) (hs : ∀ t x, π { t with secure := x } = π t) (hr : ∀ t x, x.kind = 0x18 → π (raise t x) = π t) (t : State) :
      π (failSecuring t d n r) = π t := by
    unfold failSecuring discardImage
    refine ite_field ?_ rfl
    split
    · rfl
    · exact (hr _ _ rfl).trans (hs t _)
  obtain ⟨⟨x, channel⟩, running, counted, fields⟩ := halts
  refine ⟨⟨x, (kept (chan · d n) (fun _ _ => rfl) (fun t e _ => ?_) _).trans channel⟩,
    (kept (fun t => (unit t (.channel d n)).running) (fun _ _ => rfl) (fun t e _ => ?_) _).trans running,
    (kept (countOf · 0x0E (dieplace d)) (fun _ _ => rfl) (fun t e he => ?_) _).trans counted,
    (kept failKept (fun _ _ => rfl) (fun t e _ => ?_) _).trans fields⟩
  · exact congrArg (Sparse.get noChannel · (chanKey d n)) (raise_dma t e)
  · rw [unit_of_stage (raise_stage t e)]
  · exact countOf_raise_ne t e _ (by rw [he]; decide)
  · exact field_of failKept (raise_only t e) (fun _ => rfl)

end FailCopy

/-! ## A send or a stream fails at a source read -/

/-- State as a send or a stream fails: of what it sends only what was read before leaves. -/
def sendFailed (s : State) (d : Die) (n : Fin 128) (r : Running) (k : Nat) : State :=
  let t := streamBack s d n r
  if r.port.isSome then (if r.send.fault.isSome then t else cutSend t r (flitsBefore t d n r k))
  else if t.secure.image.isNone then t
  else deliverParts t (snTier (chan t d n).actDesc.toNat)
    ((r.writes.take 1).map (fun y => (y.1, y.2.take (moveBytes (if r.send.fault.isSome then r.moves else r.moves.take k)))))

theorem failSend_eq (s : State) (d : Die) (n : Fin 128) (r : Running) (k : Nat) (e : BusError) : ∃ bytes transfers hits,
    failSend s d n r k e = haltChannel (sendFailed s d n r k) d n r.cue r.recAt e bytes transfers hits := by
  unfold failSend sendFailed
  dsimp only
  split
  · split
    · exact ⟨_, _, _, rfl⟩
    · exact ⟨_, _, _, rfl⟩
  · exact ⟨_, _, _, rfl⟩

section SendFails
variable {γ : Type} (π : State → γ) (hsecure : ∀ t x, π { t with secure := x } = π t) (hnand : ∀ t x, π { t with nand := x } = π t)
  (hports : ∀ t x, π { t with ports := x } = π t) (hframe : ∀ t k f, π (sendOn t k f) = π t)

include hframe in
theorem readData_field (both : Bool) (f : Nat) (other : Bool) (id : BitVec 32) (off : Nat) (p : List Byte) (s : State) :
    π (readData both f other id off p s) = π s := by
  have data (s : State) (other : Bool) (x : FrameOut) : π (sendData s other x) = π s := by
    unfold sendData
    split
    · rfl
    · exact ite_field (hframe _ _ _) (hframe _ _ _)
  induction f generalizing other off p s with
  | zero => rfl
  | succ f ih => exact ite_field rfl ((ih _ _ _ _).trans (data _ _ _))

include hnand hframe in
theorem deliverParts_field (s : State) (t : Nat) (l : List (Nat × List Byte)) : π (deliverParts s t l) = π s :=
  ite_field (foldl_field π _ (fun t x => nandPut_field t π hnand x) l s)
    (foldl_field π _ (fun _ _ => readData_field π hframe true _ _ _ _ _ _) l s)

include hports in
theorem cutSend_field (s : State) (r : Running) (m : Nat) : π (cutSend s r m) = π s := by
  unfold cutSend
  split
  · rfl
  · exact hports s _

include hsecure hnand hports hframe

theorem sendFailed_field (s : State) (d : Die) (n : Fin 128) (r : Running) (k : Nat) : π (sendFailed s d n r k) = π s := by
  have back := streamBack_field s d n π hsecure r
  unfold sendFailed
  exact ite_field (ite_field back ((cutSend_field π hports _ _ _).trans back)) (ite_field back ((deliverParts_field π hnand hframe _ _ _).trans back))

end SendFails

theorem failSend_halts {s : State} {d : Die} {n : Fin 128} {r : Running} (k : Nat) (e : BusError) (run : (unit s (.channel d n)).running = some r) :
    ∃ bytes, Halts s (failSend s d n r k e) d n r e bytes := by
  obtain ⟨bytes, transfers, hits, fails⟩ := failSend_eq s d n r k e
  have kept {γ : Type} (π : State → γ) (hs : ∀ t x, π { t with secure := x } = π t) (hn : ∀ t x, π { t with nand := x } = π t)
      (hp : ∀ t x, π { t with ports := x } = π t) (hf : ∀ t, π (butFrames t) = π t) : π (sendFailed s d n r k) = π s :=
    sendFailed_field π hs hn hp (fun t k f => field_of π (sendOn_only t k f) hf) s d n r k
  rw [fails]
  exact ⟨bytes, haltChannel_halts ((kept (fun t => (unit t (.channel d n)).running) (fun _ _ => rfl) (fun _ _ => rfl) (fun _ _ => rfl)
    (fun _ => rfl)).trans run) (kept (countOf · 0x0E (dieplace d)) (fun _ _ => rfl) (fun _ _ => rfl) (fun _ _ => rfl) (fun _ => rfl))
    (kept failKept (fun _ _ => rfl) (fun _ _ => rfl) (fun _ _ => rfl) (fun _ => rfl)) _ _ _ _ _ _⟩

/-! ## DMA_BUS_ERROR -/

/-- A cue whose bus errors are those of its transfers: a COPY or a FREEZE. -/
abbrev movesBytes (s : State) (d : Die) (n : Fin 128) (r : Running) : Prop :=
  r.opcode = 0x60 ∨ (r.opcode = 0x62 ∧ snKind (chan s d n).actDesc.toNat = 0)

section Fault
variable {s : State} {d : Die} {n : Fin 128} {k : Nat} {r : Running} {e : BusError} (run : (unit s (.channel d n)).running = some r)
  (fault : chanFault s d n k = some e)
include run fault

theorem moveFault_of_chanFault (moves : movesBytes s d n r) (unread : r.send.fault = none) : (r.moves[k]?).bind (moveFault s) = some e := by
  unfold chanFault chanUnit at fault
  rw [run] at fault
  dsimp only at fault
  split at fault
  · cases fault
  · rw [unread] at fault
    dsimp only at fault
    rw [faultAt] at fault
    split at fault
    · cases fault
    · exact fault

theorem execDmaBusError_fails : exec (.dmaBusError d n k) s =
    .next (if movesBytes s d n r then failSecuring (failCopy s d n r k e) d n r else failSend s d n r k e) := by
  change execDmaBusError d n k s = _
  unfold execDmaBusError chanUnit
  rw [fault, run]
  exact (apply_ite Host.Outcome.next _ _ _).symm

end Fault

/-- Settles O32: a COPY completes by `copyDone`; a bus error halts the channel by `haltChannel`, of a COPY or a FREEZE at the transfer that
meets it. -/
theorem copiesCompleteOrHalt : Obligations.CopiesCompleteOrHalt := by
  refine ⟨fun d n par s s0 r m run hs0 hm => ⟨?completes, execDmaComplete_waits run, ?faulted⟩, fun d n k s r e run fault => ?halts⟩
  case completes =>
    intro hh hp ho hr hs hf hb
    subst hs0
    obtain rfl : m = copyMoved s d n r par := hm
    obtain ⟨x, channel⟩ := copyDone_chan s d n r par
    refine ⟨_, execDmaComplete_completes run hh hp ho hr hs hf hb, ?_⟩
    rw [channel]
    exact ⟨rfl, rfl, rfl, rfl, copyDone_bytes s d n r par, copyDone_onlyWrites s d n r par, copyDone_lastDone s d n r par,
      copyDone_unit s d n r par, (outsideKept_iff _ _).2 (copyDone_outside s d n r par)⟩
  case faulted =>
    intro hh hp ho hr hs hf
    subst hs0
    exact execDmaComplete_faulted run hh hp ho hr hs hf
  case halts =>
    have fails := execDmaBusError_fails run fault
    by_cases moves : movesBytes s d n r
    · rw [if_pos moves] at fails
      obtain ⟨⟨x, channel⟩, running, counted, kept⟩ := failSecuring_halts k e run
      simp only [failKept, Prod.mk.injEq] at kept
      refine ⟨_, haltRun r, fails, ?_⟩
      rw [channel]
      exact ⟨rfl, rfl, rfl, rfl, fun _ unread => ⟨rfl, moveFault_of_chanFault run fault moves unread⟩, running, rfl, rfl, counted, kept⟩
    · rw [if_neg moves] at fails
      obtain ⟨bytes, ⟨x, channel⟩, running, counted, kept⟩ := failSend_halts k e run
      simp only [failKept, Prod.mk.injEq] at kept
      refine ⟨_, haltRun r, fails, ?_⟩
      rw [channel]
      exact ⟨rfl, rfl, rfl, rfl, fun copies => absurd copies moves, running, rfl, rfl, counted, kept⟩

end Sys2Proof.Machine
end

section
/-! Sp. 10 R300; sp. 02 R45: a DMA cue starts on its channel. -/

namespace Sys2Proof.Machine

/-! ## The cue leaves its pending place -/

/-- State 4 cycles after the start of a DMA cue, in which its channel first acts. -/
def atChannel (s : State) (d : Die) (n : Fin 128) (p : Pending) (c : Nat) : State := settle (clockTo (leftAt s (.channel d n) p c) (c + 4))

/-- A channel whose shadow set, of descriptor `w`, has moved to the active set. -/
def Channel.started (x : Channel) (p : Pending) (w : Nat) : Channel :=
  { x with st := .active, actCue := BitVec.ofNat 24 p.cue, actDesc := BitVec.ofNat 512 w, shdDesc := 0, shdFull := false, actBytes := 0,
           firmware := false }

/-- State with the channel ACTIVE for the cue. -/
def chanStarted (s : State) (d : Die) (n : Fin 128) (p : Pending) (w c : Nat) : State :=
  setChan (atChannel s d n p c) d n ((chan (atChannel s d n p c) d n).started p w)

section Starts
variable {s : State} {d : Die} {n : Fin 128} {op : Nat} {p : Pending} {c : Nat} (h : startsAt s (.channel d n) op p c)
include h

/-- A channel takes a cue when its unit is free. -/
theorem running_none_of_startsAt : (unit s (.channel d n)).running = none := by
  obtain ⟨_, starts, _⟩ := h
  rw [← running_of_unmet (congrFun (readyAt_units s (.channel d n)) (.channel d n))]
  rcases run : (unit (readyAt s (.channel d n)) (.channel d n)).running with _ | r
  · rfl
  · have key : 1000 ≤ unitKey (.channel d n) := by change 1000 ≤ 1000 + 128 * d.val + n.val; omega
    have busy : freeSince (unitKey (.channel d n)) (unit (readyAt s (.channel d n)) (.channel d n)) = none := by
      unfold freeSince busyOver
      rw [run]
      dsimp only
      rw [if_neg (fun within => by omega)]
      rfl
    unfold startCycle at starts
    rw [busy] at starts
    split at starts
    · next free _ => cases free
    · cases starts

variable (idle : (chan s d n).st = .idle) (hr : reaches (readyAt s (.channel d n)) (c + 4) = true) {w : Nat}
  (hw : w = leAt ((sheet (readyAt s (.channel d n))).desc (cDesc p.raw) 64) 0 64) {sel : Nat → Bool} (takes : sel w = true)
  (act : State → Pending → Nat → Nat → State)
include idle hr hw takes

theorem startDma_acts : startDma s d n op sel act = act (chanStarted s d n p w c) p w c := by
  have ready : (chan (readyAt s (.channel d n)) d n).st = .idle :=
    (congrArg (fun m => (Sparse.get noChannel m (chanKey d n)).st) (field_of State.dma (readyAt_ready s (.channel d n)) (fun _ => rfl))).trans idle
  unfold startDma chanUnit
  dsimp only
  rw [startable_of_startsAt h]
  dsimp only
  rw [← hw, if_neg (by simp [ready, takes, hr])]
  rfl

/-- A send or a stream that is told of as it starts has not waited for a stream. -/
theorem startOrGo_acts (go : State → Running → Nat → State) :
    startOrGo s d n op sel act go = act (chanStarted s d n p w c) p w c := by
  unfold startOrGo chanUnit
  dsimp only
  rw [running_none_of_startsAt h]
  exact startDma_acts h idle hr hw takes act

end Starts

section Started
variable (s : State) (d : Die) (n : Fin 128) (p : Pending) (w c : Nat)

theorem atChannel_ready : butReady (atChannel s d n p c) = butReady s := (settled_ready _ _).trans (leftAt_ready s _ p c)

theorem chanStarted_field {γ : Type} (π : State → γ) (hr : ∀ t, π (butReady t) = π t) (hc : ∀ t x, π (setChan t d n x) = π t) :
    π (chanStarted s d n p w c) = π s := (hc _ _).trans (field_of π (atChannel_ready s d n p c) hr)

theorem chanStarted_chan : chan (chanStarted s d n p w c) d n = (chan (atChannel s d n p c) d n).started p w := chan_setChan _ d n _

theorem chanStarted_pending : (unit (chanStarted s d n p w c) (.channel d n)).pending = none :=
  (pending_none_of_unmet (congrFun (settled_units _ _) (.channel d n))).2 (leftAt_pending s (.channel d n) p c)

theorem chanStarted_other {v : UnitId} (h : v ≠ .channel d n) : plainUnits (chanStarted s d n p w c) v = plainUnits s v :=
  (congrFun (plainUnits_of_unmet (settled_units (leftAt s (.channel d n) p c) (c + 4))) v).trans (plainUnit_of_unmet (leftAt_other s p c h))

theorem chanStarted_port (q : PortNo) : port (chanStarted s d n p w c) q = port s q :=
  chanStarted_field s d n p w c (port · q) (fun _ => rfl) (fun _ _ => rfl)

theorem countOf_chanStarted {kind : Byte} (h : kind.toNat % 128 ≠ 5) (q : Place) : countOf (chanStarted s d n p w c) kind q = countOf s kind q :=
  (countOf_congr (setChan_err _ d n _) kind q).trans ((countOf_settled h q _ _).trans (countOf_leftAt h q s _ p c))

end Started

/-! ## What a start leaves alone -/

/-- What of the device and of the channel's own unit the first action of a DMA cue leaves alone. -/
def startKept (d : Die) (n : Fin 128) (t : State) :=
  (t.dma, t.mem.bytes, t.nand, outsideOf t, (unit t (.channel d n)).pending)

/-- What tells of a run which cue it is. -/
def Running.ident (r : Running) : Nat × BitVec 8 × Nat := (r.cue, r.opcode, r.startedAt)

/-- The channel runs the cue `r` that has started from `s`. -/
structure ChanRuns (s t : State) (d : Die) (n : Fin 128) (p : Pending) (op w c : Nat) (r : Running) : Prop where
  running : (unit t (.channel d n)).running = some r
  pending : (unit t (.channel d n)).pending = none
  cue : r.cue = p.cue
  opcode : r.opcode = BitVec.ofNat 8 op
  started : r.startedAt = c
  active : ∃ x, chan t d n = Channel.started x p w
  bytes : t.mem.bytes = s.mem.bytes
  nand : t.nand = s.nand
  outside : outsideKept s t

theorem chanRuns_of {s t : State} {d : Die} {n : Fin 128} {p : Pending} {op w c : Nat} {r : Running}
    (run : (unit t (.channel d n)).running = some r) (ident : r.ident = (p.cue, BitVec.ofNat 8 op, c))
    (kept : startKept d n t = startKept d n (chanStarted s d n p w c)) : ChanRuns s t d n p op w c r := by
  simp only [startKept, Prod.mk.injEq] at kept
  simp only [Running.ident, Prod.mk.injEq] at ident
  obtain ⟨dma, bytes, nand, outside, pending⟩ := kept
  obtain ⟨cue, opcode, started⟩ := ident
  have before {γ : Type} (π : State → γ) := chanStarted_field s d n p w c π
  exact ⟨run, pending.trans (chanStarted_pending s d n p w c), cue, opcode, started,
    ⟨_, (congrArg (Sparse.get noChannel · (chanKey d n)) dma).trans (chanStarted_chan s d n p w c)⟩,
    bytes.trans (before (fun t => t.mem.bytes) (fun _ => rfl) (fun _ _ => rfl)), nand.trans (before State.nand (fun _ => rfl) (fun _ _ => rfl)),
    (outsideKept_iff _ _).2 (outside.trans (before outsideOf (fun _ => rfl) (fun _ _ => rfl)))⟩

section Kept
variable {d : Die} {n : Fin 128}

theorem startKept_of {s t : State} (dma : t.dma = s.dma) (bytes : t.mem.bytes = s.mem.bytes) (nand : t.nand = s.nand)
    (outside : outsideOf t = outsideOf s) (own : unit t (.channel d n) = unit s (.channel d n)) : startKept d n t = startKept d n s := by
  unfold startKept
  rw [dma, bytes, nand, outside, own]

theorem startKept_of_access {s t : State} (h : butAccess t = butAccess s) (bytes : t.mem.bytes = s.mem.bytes) : startKept d n t = startKept d n s :=
  startKept_of (field_of State.dma h (fun _ => rfl)) bytes (field_of State.nand h (fun _ => rfl))
    (field_of outsideOf h (fun u => by unfold outsideOf butAccess butEvents; rfl)) (unit_of_stage (field_of State.stage h (fun _ => rfl)) _)

theorem startKept_of_free {s t : State} (h : butFree t = butFree s) : startKept d n t = startKept d n s := field_of (startKept d n) h (fun _ => rfl)

theorem startKept_raise (s : State) (e : Event) : startKept d n (raise s e) = startKept d n s :=
  field_of (startKept d n) (raise_only s e) (fun _ => rfl)

theorem startKept_setRun (s : State) (r : Running) : startKept d n (setRun s d n r) = startKept d n s := by
  unfold startKept setRun chanUnit
  rw [unit_setUnit]
  rfl

theorem startKept_imageError (s : State) (id : BitVec 64) (cause : Nat) : startKept d n (imageError s id cause) = startKept d n s :=
  startKept_raise s _

theorem startKept_discardImage (s : State) (cause : Nat) : startKept d n (discardImage s cause) = startKept d n s := by
  unfold discardImage
  split
  · rfl
  · exact (startKept_imageError _ _ _).trans rfl

end Kept

theorem setRun_running (s : State) (d : Die) (n : Fin 128) (r : Running) : (unit (setRun s d n r) (.channel d n)).running = some r := by
  unfold setRun chanUnit
  rw [unit_setUnit]

/-! ## The cue joins what runs -/

/-- A port but for what it receives. -/
def Port.unreceived (q : Port) : Port := { q with rx := [] }

/-- A port whose transfers being received meet another party's writes. -/
def meetRx (s : State) (wr : List (Nat × Nat)) (e : Nat × Port) : Nat × Port := (e.1, { e.2 with rx := e.2.rx.map (hitRx s e.1 wr) })

theorem otherWrites_port (s : State) (mine : Option Nat) (wr : List (Nat × Nat)) (q : PortNo) :
    (port (otherWrites s mine wr) q).unreceived = (port s q).unreceived := by
  unfold otherWrites
  refine ite_field (π := fun t => (port t q).unreceived) rfl (Eq.symm ?_)
  exact Sparse.get_map_rel (R := fun a b : Port => a.unreceived = b.unreceived) (f := meetRx s wr) (fun _ => rfl) (fun _ => rfl) (fun _ => rfl) s.ports q.val

section Join
variable (s : State) (d : Die) (n : Fin 128) (r : Running)

theorem joinRun_only (k : Nat) : butWork (joinRun s k r).1 = butWork s := otherWrites_only _ _ _

theorem startKept_joinRun : startKept d n (joinRun s (unitKey (.channel d n)) r).1 = startKept d n s :=
  startKept_of (field_of State.dma (joinRun_only s r _) (fun _ => rfl)) (by rw [joinRun_mem]) (field_of State.nand (joinRun_only s r _) (fun _ => rfl))
    (outsideOf_of_work (joinRun_only s r _)) (otherWrites_self s (.channel d n) r.dest)

theorem takeStream_state (u : UnitId) : (takeStream s u r).1 = s ∨ ∃ full, (takeStream s u r).1 = countWait s (unitDie u) full := by
  unfold takeStream
  dsimp only
  split
  · exact .inl rfl
  · exact .inr ⟨_, rfl⟩

/-- A cue waits for a stream only where none is free for it. -/
theorem takeStream_run (u : UnitId) : ∃ q, (takeStream s u r).2 = { r with queued := q } ∧
    (streamsHeld s (unitDie u).val < 4096 → opsHeld s (unitDie u).val + opsOf (unitDie u).val r ≤ 16384 → q = r.queued) := by
  unfold takeStream
  dsimp only
  split
  · exact ⟨r.queued, rfl, fun _ _ => rfl⟩
  · next waits =>
    refine ⟨true, rfl, fun streams ops => absurd ?_ waits⟩
    simp only [Bool.and_eq_true, Bool.not_eq_true', decide_eq_false_iff_not, Bool.and_eq_false_iff]
    exact ⟨by omega, .inr (by omega)⟩

theorem beginRun_field {γ : Type} (π : State → γ) (hm : ∀ t m, π { t with mem := m } = π t) :
    π (beginRun s d n r).1 = π (joinRun s (unitKey (.channel d n)) r).1 := by
  rcases takeStream_state (joinRun s (unitKey (.channel d n)) r).1 (joinRun s (unitKey (.channel d n)) r).2 (.channel d n) with e | ⟨full, e⟩
  · exact congrArg π e
  · exact (congrArg π e).trans (hm _ _)

theorem beginRun_only : butWork (beginRun s d n r).1 = butWork s := (beginRun_field s d n r butWork (fun _ _ => rfl)).trans (joinRun_only s r _)

theorem startKept_beginRun : startKept d n (beginRun s d n r).1 = startKept d n s :=
  startKept_of (field_of State.dma (beginRun_only s d n r) (fun _ => rfl)) (beginRun_bytes s d n r)
    (field_of State.nand (beginRun_only s d n r) (fun _ => rfl)) (outsideOf_of_work (beginRun_only s d n r))
    ((beginRun_field s d n r (unit · (.channel d n)) (fun _ _ => rfl)).trans (otherWrites_self s (.channel d n) r.dest))

theorem beginRun_units : plainUnits (beginRun s d n r).1 = plainUnits s :=
  (beginRun_field s d n r plainUnits (fun _ _ => rfl)).trans (otherWrites_units _ _ _)

theorem beginRun_port (q : PortNo) : (port (beginRun s d n r).1 q).unreceived = (port s q).unreceived :=
  (beginRun_field s d n r (fun t => (port t q).unreceived) (fun _ _ => rfl)).trans (otherWrites_port _ _ _ q)

end Join

end Sys2Proof.Machine
end

section
/-! Sp. 09 R273-R275: the streams that a die holds as a DMA cue starts. -/

namespace Sys2Proof.Machine

/-! ## The channels that firmware started -/

/-- Where neither the old entry of a key nor the new one is selected, a selection of the map stays. -/
theorem Sparse.filter_set {α : Type} [DecidableEq α] {d : Nat → α} {sel : Nat × α → Bool} {k : Nat} {v : α} (hv : v ≠ d k)
    (new : sel (k, v) = false) {m : Sparse α} (old : sel (k, Sparse.get d m k) = false) : (Sparse.set d m k v).filter sel = m.filter sel := by
  induction m with
  | nil => simp [Sparse.set, hv, new]
  | cons e r ih =>
    obtain ⟨j, a⟩ := e
    unfold Sparse.set
    by_cases hj : j = k
    · subst hj
      rw [Sparse.get, if_pos rfl] at old
      simp [hv, new, old]
    · rw [Sparse.get, if_neg hj] at old
      rw [if_neg hj]
      split
      · simp [new]
      · rw [List.filter_cons, List.filter_cons, ih old]

theorem goStreams_setChan {s : State} {d : Die} {n : Fin 128} {x : Channel} (old : (chan s d n).st ≠ .active) (new : x.firmware = false)
    (listed : x ≠ noChannel (chanKey d n)) (k : Nat) : goStreams (setChan s d n x) k = goStreams s k := by
  have quiet : ((chan s d n).st = .active) = False := eq_false old
  unfold goStreams setChan
  dsimp only
  rw [Sparse.filter_set listed]
  · simp [new]
  · rw [← chan]
    simp [quiet]

section Started
variable {s : State} {d : Die} {n : Fin 128} (idle : (chan s d n).st = .idle) (p : Pending) (w c k : Nat)
include idle

theorem goStreams_chanStarted : goStreams (chanStarted s d n p w c) k = goStreams (atChannel s d n p c) k := by
  have before : (chan (atChannel s d n p c) d n).st = .idle :=
    (congrArg (fun m => (Sparse.get noChannel m (chanKey d n)).st) (field_of State.dma (atChannel_ready s d n p c) (fun _ => rfl))).trans idle
  refine goStreams_setChan (by rw [before]; decide) rfl (fun e => ?_) k
  exact absurd (congrArg Channel.st e) (show ChanState.active ≠ ChanState.idle by decide)

theorem streamsHeld_chanStarted : streamsHeld (chanStarted s d n p w c) k = streamsHeld (atChannel s d n p c) k := by
  unfold streamsHeld
  rw [goStreams_chanStarted idle]
  rfl

theorem opsHeld_chanStarted : opsHeld (chanStarted s d n p w c) k = opsHeld (atChannel s d n p c) k := by
  unfold opsHeld
  rw [goStreams_chanStarted idle]
  rfl

end Started

/-! ## What another party's writes leave of the streams -/

section Meets
variable (s : State) (mine : Option Nat) (wr : List (Nat × Nat)) (k : Nat)

/-- A unit as another party's writes meet it. -/
def meetUnit (mine : Option Nat) (wr : List (Nat × Nat)) (e : Nat × UnitSt) : Nat × UnitSt :=
  if mine = some e.1 then e else (e.1, { e.2 with running := e.2.running.map (hitRunning wr), tail := e.2.tail.map (hitRunning wr) })

theorem otherWrites_eq : otherWrites s mine wr = if wr.isEmpty then s else
    { s with stage := { s.stage with units := s.stage.units.map (meetUnit mine wr), windows := s.stage.windows.map (hitWindow wr) },
             ports := s.ports.map (meetRx s wr) } := rfl

/-- The stream that a unit's entry holds on a die. -/
def streamOf (k : Nat) (e : Nat × UnitSt) : Option Running := e.2.running.bind (fun r => if keyDie e.1 = k ∧ isStream e.1 r then some r else none)

theorem runStreams_eq : runStreams s k = s.stage.units.filterMap (streamOf k) := by
  unfold runStreams
  refine List.filterMap_congr (fun e _ => ?_)
  unfold streamOf
  cases e.2.running <;> rfl

theorem streamOf_meetUnit (e : Nat × UnitSt) : (streamOf k (meetUnit mine wr e)).map (opsOf k) = (streamOf k e).map (opsOf k) := by
  unfold meetUnit
  split
  · rfl
  · unfold streamOf
    cases e.2.running with
    | none => rfl
    | some r =>
      have same : isStream e.1 (hitRunning wr r) = isStream e.1 r := rfl
      simp only [Option.map_some, Option.bind_some, same]
      split <;> rfl

/-- The operations of each stream are as before. -/
theorem runStreams_otherWrites : (runStreams (otherWrites s mine wr) k).map (opsOf k) = (runStreams s k).map (opsOf k) := by
  rw [otherWrites_eq]
  split
  · rfl
  · rw [runStreams_eq, runStreams_eq, List.map_filterMap, List.map_filterMap, List.filterMap_map]
    exact List.filterMap_congr (fun e _ => streamOf_meetUnit mine wr k e)

/-- The transfers that a port receives into a die's memory, which hold a stream. -/
def rxStreams (k : Nat) (e : Nat × Port) : Nat := (e.2.rx.filter (fun x => !x.queued && dieOf (bits x.head.dst.toNat 55 0) = k)).length

theorem rxStreams_meetRx (e : Nat × Port) : rxStreams k (meetRx s wr e) = rxStreams k e := by
  unfold rxStreams meetRx
  rw [List.filter_map, List.length_map]
  rfl

theorem streamsHeld_otherWrites : streamsHeld (otherWrites s mine wr) k = streamsHeld s k := by
  have run := congrArg List.length (runStreams_otherWrites s mine wr k)
  rw [List.length_map, List.length_map] at run
  unfold streamsHeld
  rw [run, otherWrites_eq]
  split
  · rfl
  · have received : (s.ports.map (meetRx s wr)).map (rxStreams k) = s.ports.map (rxStreams k) := by
      rw [List.map_map]
      exact List.map_congr_left (fun e _ => rxStreams_meetRx s wr k e)
    exact congrArg (fun l => (runStreams s k).length + (goStreams s k).length + List.sum l + _) received

theorem opsHeld_otherWrites : opsHeld (otherWrites s mine wr) k = opsHeld s k := by
  have go : goStreams (otherWrites s mine wr) k = goStreams s k := by
    rw [otherWrites_eq]
    split <;> rfl
  unfold opsHeld
  rw [runStreams_otherWrites, go]

end Meets

/-- A cue of a channel begins as it is but for what it meets; it waits only where no stream is free for it (R275). -/
theorem beginRun_run (s : State) (d : Die) (n : Fin 128) (r : Running) : ∃ a b q, (beginRun s d n r).2 = { r with raced := a, clash := b, queued := q } ∧
    (streamsHeld s d.val < 4096 → opsHeld s d.val + opsOf d.val r ≤ 16384 → q = r.queued) := by
  obtain ⟨q, run, room⟩ := takeStream_run (joinRun s (unitKey (.channel d n)) r).1 (joinRun s (unitKey (.channel d n)) r).2 (.channel d n)
  refine ⟨_, _, q, run, fun streams ops => room ?_ ?_⟩
  · exact (streamsHeld_otherWrites s _ _ _).trans_lt streams
  · exact (congrArg (· + _) (opsHeld_otherWrites s _ _ _)).trans_le ops

end Sys2Proof.Machine
end

section
/-! Sp. 11 R336-R340; sp. 10 R309: a send starts. -/

namespace Sys2Proof.Machine

/-! ## A port that a transfer is handed to -/

/-- The DONEs that a port awaits, and the number of its next transfer. -/
def Port.awaits (q : Port) : BitVec 16 × List TxXfer := (q.nextXfer, q.tx)

theorem putFlit_awaits (q : Port) (f : OutFlit) : (putFlit q f).awaits = q.awaits := by
  unfold putFlit
  dsimp only
  split <;> split <;> rfl

theorem drainOne_awaits (f : OutFlit) (blocked : List Nat) (q : Port) : (drainOne f blocked q).2.awaits = q.awaits := by
  have first : (resumed f blocked q).awaits = q.awaits := by
    unfold resumed resumeFirst
    split
    · rfl
    · split
      · exact putFlit_awaits q { flit 2 f.cls f.xfer [] with snap := f.snap }
      · rfl
  have put := (putFlit_awaits (resumed f blocked q) f).trans first
  unfold drainOne
  split
  · unfold flitLeft
    split
    · exact put
    · exact put
  · exact first

theorem drainFlits_awaits (l : List OutFlit) (blocked : List Nat) (q : Port) : (drainFlits l blocked q).awaits = q.awaits := by
  induction l generalizing blocked q with
  | nil => rfl
  | cons f r ih => rw [drainFlits_cons, ih, drainOne_awaits]

theorem sendFlits_awaits (q : Port) (l : List OutFlit) : (sendFlits q l).awaits = q.awaits := drainFlits_awaits _ _ _

section Transfer
variable (s : State) (d : Die) (n : Fin 128) (p : PortNo) (h : HeadBody) (payload : List Byte) (whole : Bool)

/-- The transfer takes the port's next number; the channel awaits its DONE. -/
theorem sendTransfer_awaits : (port (sendTransfer s d n p h payload whole) p).nextXfer = (port s p).nextXfer + 1 ∧
    { xfer := (port s p).nextXfer, die := d, chan := n, bytes := payload.length } ∈ (port (sendTransfer s d n p h payload whole) p).tx := by
  have awaits : (port (sendTransfer s d n p h payload whole) p).awaits = _ := (congrArg Port.awaits (port_setPort _ _ _)).trans (sendFlits_awaits _ _)
  obtain ⟨next, tx⟩ := Prod.ext_iff.1 awaits
  have tx' : (port (sendTransfer s d n p h payload whole) p).tx =
      (port s p).tx ++ [{ xfer := (port s p).nextXfer, die := d, chan := n, bytes := payload.length }] := tx
  rw [tx']
  exact ⟨next, List.mem_append_right _ (List.mem_singleton_self _)⟩

theorem startKept_sendTransfer : startKept d n (sendTransfer s d n p h payload whole) = startKept d n s := rfl

theorem sendTransfer_other {q : PortNo} (hq : q ≠ p) : port (sendTransfer s d n p h payload whole) q = port s q := port_setPort_other _ _ hq

end Transfer

/-! ## The source reads -/

section Reads
variable (d : Die) (n : Fin 128) (s : State) (r : Running) (w : Nat)

theorem readSources_only : butAccess (readSources s d n r).1 = butAccess s := foldl_field butAccess _ (fun t (_ : Move) => touchRead_only _ t _ _) _ s

theorem startKept_readSources : startKept d n (readSources s d n r).1 = startKept d n s :=
  startKept_of_access (readSources_only d n s r) (readSources_bytes s d n r)

/-- What a send reads and the state in which it has read it. -/
def sendRead : List Byte × State :=
  let x := readSources s d n r
  sentBytes x.2 (if x.2.send.fault.isNone then sendPayload s w
    else if sendCodec w = 0 then
      ((x.2.moves.map (fun m => load s (localOf m.src) m.len)).flatten).take (moveBytes x.2.moves / 256 * 256)
    else []) x.1

theorem sentBytes_only (p : List Byte) : butFree (sentBytes r p s).2 = butFree s := by
  unfold sentBytes
  split
  · rfl
  · exact drawBytes_only p.length s

theorem startKept_sendRead : startKept d n (sendRead d n s r w).2 = startKept d n s :=
  (startKept_of_free (sentBytes_only _ _ _)).trans (startKept_readSources d n s r)

theorem sendRead_port (q : PortNo) : port (sendRead d n s r w).2 q = port s q :=
  (field_of (port · q) (sentBytes_only _ _ _) (fun _ => rfl)).trans (field_of (port · q) (readSources_only d n s r) (fun _ => rfl))

/-! ## The transfer leaves -/

theorem sendGo_eq : ∃ h whole q, sendGo d n s r w = setRun (sendTransfer (sendRead d n s r w).2 d n (sendPort w) h (sendRead d n s r w).1 whole) d n q ∧
    q.ident = r.ident ∧ q.queued = r.queued ∧ q.port = some (sendPort w, (port (sendRead d n s r w).2 (sendPort w)).nextXfer) ∧ q.send.todo = 1 :=
  ⟨_, _, _, rfl, rfl, rfl, rfl, rfl⟩

/-- A send that has its stream hands its transfer to the port, and awaits one DONE (R338, R340). -/
theorem sendGo_sends : ∃ q, (unit (sendGo d n s r w) (.channel d n)).running = some q ∧ q.ident = r.ident ∧ q.queued = r.queued ∧
    q.port = some (sendPort w, (port s (sendPort w)).nextXfer) ∧ q.send.todo = 1 ∧
    startKept d n (sendGo d n s r w) = startKept d n s ∧ (∀ k, k ≠ sendPort w → port (sendGo d n s r w) k = port s k) ∧
    (port (sendGo d n s r w) (sendPort w)).nextXfer = (port s (sendPort w)).nextXfer + 1 ∧
    ∃ x ∈ (port (sendGo d n s r w) (sendPort w)).tx, x.xfer = (port s (sendPort w)).nextXfer ∧ x.die = d ∧ x.chan = n := by
  obtain ⟨h, whole, q, sends, ident, queued, place, todo⟩ := sendGo_eq d n s r w
  obtain ⟨next, awaited⟩ := sendTransfer_awaits (sendRead d n s r w).2 d n (sendPort w) h (sendRead d n s r w).1 whole
  rw [sendRead_port] at place next awaited
  rw [sends]
  refine ⟨q, setRun_running _ d n q, ident, queued, place, todo, ?_, fun k hk => ?_, next, _, awaited, rfl, rfl, rfl⟩
  · rw [startKept_setRun]
    exact startKept_sendRead d n s r w
  · exact (sendTransfer_other _ d n (sendPort w) h _ whole hk).trans (sendRead_port d n s r w k)

end Reads

/-! ## The first action of a PEER_SEND and of a TALLY_ONLY -/

/-- The run of a send whose source reads are `l`. -/
def sendRun (d : Die) (p : Pending) (w c : Nat) (l : List Move) : Running := dmaRun d c p 0x61 w l (moveSources l) []

section Acts
variable (d : Die) (n : Fin 128) (s : State) (p : Pending) (w c : Nat)

theorem sendAct_up (up : (port s (sendPort w)).st = .up) (data : sendTallyOnly w = false) : sendAct d n s p w c =
    if (beginRun s d n (sendRun d p w c (sendMoves s w))).2.queued then
      setRun (beginRun s d n (sendRun d p w c (sendMoves s w))).1 d n (beginRun s d n (sendRun d p w c (sendMoves s w))).2
    else sendGo d n (beginRun s d n (sendRun d p w c (sendMoves s w))).1 (beginRun s d n (sendRun d p w c (sendMoves s w))).2 w := by
  unfold sendAct
  simp only [data, Bool.false_eq_true, if_false]
  exact if_neg (fun down => down up)

theorem tallyAct_up (up : (port s (sendPort w)).st = .up) : tallyAct d n s p w c =
    if (beginRun s d n (sendRun d p w c [])).2.queued then setRun (beginRun s d n (sendRun d p w c [])).1 d n (beginRun s d n (sendRun d p w c [])).2
    else tallyGo d n (beginRun s d n (sendRun d p w c [])).1 (beginRun s d n (sendRun d p w c [])).2 w := if_neg (fun down => down up)

/-- Where the port is not UP the channel halts with cause 5. -/
theorem sendAct_down (down : (port s (sendPort w)).st ≠ .up) : ∃ r recAt,
    sendAct d n s p w c = haltChannel (setRun s d n r) d n p.cue recAt ⟨5, true, bits w 447 384⟩ 0 0 0 := ⟨_, _, if_pos down⟩

theorem tallyAct_down (down : (port s (sendPort w)).st ≠ .up) : ∃ r recAt,
    tallyAct d n s p w c = haltChannel (setRun s d n r) d n p.cue recAt ⟨5, true, bits w 447 384⟩ 0 0 0 := ⟨_, _, if_pos down⟩

end Acts

end Sys2Proof.Machine
end

section
/-! Sp. 14 R412-R417: a securing cue starts. -/

namespace Sys2Proof.Machine

/-! ## A FREEZE -/

section Freeze
variable (d : Die) (n : Fin 128) (s : State) (p : Pending) (w c : Nat)

/-- The transfers of a FREEZE: none in a step that does not freeze. -/
def freezeList : List Move := if s.step.freezes then freezeMoves w else []

/-- The run of a FREEZE of the transfers `l`. -/
def freezeRun (l : List Move) : Running := dmaRun d c p 0x62 w l (moveSources l) (moveDests l)

/-- A section outside one valid state region discards the image. -/
def freezeChecked (t : State) : State :=
  if t.step.freezes ∧ (sectionRegion t (localOf (bits w 511 448)) (snLength w)).isNone then
    (if t.secure.st = .freezing then discardImage t 2 else t) else t

theorem freezeAct_eq : freezeAct d n s p w c =
    setRun (freezeChecked w (beginRun s d n (freezeRun d p w c (freezeList s w))).1) d n
      (beginRun s d n (freezeRun d p w c (freezeList s w))).2 := rfl

theorem startKept_freezeChecked : startKept d n (freezeChecked w s) = startKept d n s := by
  unfold freezeChecked
  exact ite_field (ite_field (startKept_discardImage s 2) rfl) rfl

theorem sectionRegion_congr {s t : State} (h : t.cfg = s.cfg) (a k : Nat) : sectionRegion t a k = sectionRegion s a k := by
  unfold sectionRegion
  rw [h]

theorem freezeChecked_secure (h : s.step.freezes = false ∨ (sectionRegion s (localOf (bits w 511 448)) (snLength w)).isSome) :
    (freezeChecked w s).secure = s.secure := by
  unfold freezeChecked
  rw [if_neg]
  rintro ⟨freezes, outside⟩
  rcases h with h | h
  · rw [h] at freezes
    cases freezes
  · rw [Option.isNone_iff_eq_none.1 outside] at h
    cases h

end Freeze

/-! ## A STREAM -/

theorem streamImage_congr {s t : State} (secure : t.secure = s.secure) (freezes : t.step.freezes = s.step.freezes) (k : Nat) :
    streamImage t k = streamImage s k := by
  unfold streamImage
  rw [secure, freezes]

/-- The channel runs what `r` has become, from a state like `s`. -/
def Puts (d : Die) (n : Fin 128) (s : State) (r : Running) (t : State) : Prop :=
  ∃ q, (unit t (.channel d n)).running = some q ∧ q.ident = r.ident ∧ q.queued = r.queued ∧ startKept d n t = startKept d n s

section Puts
variable {d : Die} {n : Fin 128} {s : State} {r : Running}

theorem Puts.setRun {t : State} {q : Running} (kept : startKept d n t = startKept d n s) (ident : q.ident = r.ident) (queued : q.queued = r.queued) :
    Puts d n s r (setRun t d n q) := ⟨q, setRun_running t d n q, ident, queued, (startKept_setRun t q).trans kept⟩

theorem Puts.raise {t : State} (h : Puts d n s r t) (e : Event) : Puts d n s r (raise t e) := by
  obtain ⟨q, running, ident, queued, kept⟩ := h
  exact ⟨q, by rw [unit_of_stage (raise_stage t e), running], ident, queued, (startKept_raise t e).trans kept⟩

theorem Puts.imageError {t : State} (h : Puts d n s r t) (id : BitVec 64) (cause : Nat) : Puts d n s r (imageError t id cause) := h.raise _

theorem Puts.discard {t : State} (h : Puts d n s r t) (cause : Nat) : Puts d n s r (discardImage t cause) := by
  unfold discardImage
  split
  · exact h
  · exact Puts.raise (t := { t with secure := { t.secure with image := none, st := .idle, firmware := false } }) h _

theorem Puts.streamTier1 {t : State} {q : Running} (kept : startKept d n t = startKept d n s) (ident : q.ident = r.ident)
    (queued : q.queued = r.queued) (w : Nat) (parts : List (Nat × List Byte)) : Puts d n s r (streamTier1 d n t q w parts) := by
  unfold Machine.streamTier1
  dsimp only
  exact Puts.setRun ((foldl_field (startKept d n) _ (fun _ (_ : Nat × List Byte) => startKept_sendTransfer _ d n _ _ _ _) _ t).trans kept) ident queued

end Puts

section Stream
variable (d : Die) (n : Fin 128) (s : State) (p : Pending) (w c : Nat)

theorem startKept_moveProgress (t adv : Nat) : startKept d n (moveProgress s t adv) = startKept d n s := by
  unfold moveProgress
  split <;> rfl

/-- A STREAM's run as its parts are known. -/
def partsRun (r : Running) (i : Image) : Running :=
  let x := (readSources s d n r).2
  { x with send := { x.send with adv := ((nextParts i (snTier w) (snLength w)).map (·.2)).sum, base := imgSent i (snTier w) } }

/-- A STREAM that has its stream runs on with its parts (R415). -/
theorem streamGo_puts (r : Running) : Puts d n s r (streamGo d n s r w) := by
  unfold streamGo
  dsimp only
  split
  · exact Puts.setRun rfl rfl rfl
  · next i _ =>
    generalize (nextParts i (snTier w) (snLength w)).any (partBad s i) = bad
    have read : startKept d n (moveProgress { (readSources s d n r).1 with secure := { (readSources s d n r).1.secure with st := .draining } }
        (snTier w) (((nextParts i (snTier w) (snLength w)).map (·.2)).sum)) = startKept d n s :=
      (startKept_moveProgress d n _ _ _).trans (startKept_readSources d n s r)
    generalize moveProgress _ _ _ = t at read ⊢
    generalize List.map (fun y : Nat × Nat => (y.1, imgBytes s i y.1 y.2)) _ = parts
    have drawn : startKept d n (if (spoilt (readSources s d n r).2).isEmpty then (parts, t)
        else drawWrites (parts.map (fun y => (y, true))) t).2 = startKept d n s := by
      split
      · exact read
      · exact (startKept_of_free (drawWrites_only _ t).1).trans read
    generalize (if (spoilt (readSources s d n r).2).isEmpty then (parts, t) else drawWrites (parts.map (fun y => (y, true))) t) = b at drawn ⊢
    have runs (q : Running) (ident : q.ident = r.ident) (queued : q.queued = r.queued) : Puts d n s r
        (if snTier w = 1 ∧ (!b.1.isEmpty) = true then Machine.streamTier1 d n b.2 q w b.1 else Machine.setRun b.2 d n { q with writes := b.1, reads := [] }) := by
      split
      · exact Puts.streamTier1 drawn ident queued w b.1
      · exact Puts.setRun drawn ident queued
    split
    · exact (runs (partsRun d n s w r i) rfl rfl).discard 3
    · exact runs (partsRun d n s w r i) rfl rfl

/-- The run of a STREAM with no image to act on. -/
def idleRun : Running := dmaRun d c p 0x62 w [] [] []

/-- It only joins what runs. -/
def streamIdle : State :=
  let j := joinRun s (unitKey (.channel d n)) (idleRun d p w c)
  Machine.setRun j.1 d n j.2

theorem streamAct_none (h : streamImage s (snTier w) = none) : streamAct d n s p w c = streamIdle d n s p w c := by
  unfold streamAct
  dsimp only
  rw [h]
  rfl

theorem streamIdle_puts : Puts d n s (idleRun d p w c) (streamIdle d n s p w c) := Puts.setRun (startKept_joinRun s d n _) rfl rfl

theorem streamIdle_run : ∃ r, (unit (streamIdle d n s p w c) (.channel d n)).running = some r ∧ r.ident = (idleRun d p w c).ident ∧
    r.queued = false ∧ r.writes = [] ∧ r.port = none := ⟨_, setRun_running _ d n _, rfl, rfl, rfl, rfl⟩

theorem streamIdle_secure : (streamIdle d n s p w c).secure = s.secure := by
  have joins : (joinRun s (unitKey (.channel d n)) (idleRun d p w c)).1.secure = s.secure :=
    field_of State.secure (joinRun_only s (idleRun d p w c) _) (fun _ => rfl)
  exact joins

/-- The channel runs the STREAM, which has run on or waits with nothing done. -/
def StreamPlaced (t : State) : Prop :=
  ∃ r, (unit t (.channel d n)).running = some r ∧ r.ident = (idleRun d p w c).ident ∧ startKept d n t = startKept d n s ∧
    (r.queued = true → r.writes = [] ∧ r.port = none ∧ t.secure = s.secure)

variable {d n s p w c} in
theorem Puts.placed {t t' : State} {r : Running} (puts : Puts d n t r t') (kept : startKept d n t = startKept d n s)
    (ident : r.ident = (idleRun d p w c).ident) (queued : r.queued = false) : StreamPlaced d n s p w c t' := by
  obtain ⟨q, running, ident', queued', kept'⟩ := puts
  exact ⟨q, running, ident'.trans ident, kept'.trans kept, fun waits => by rw [queued', queued] at waits; cases waits⟩

/-- A STREAM joins as `r` and runs on where it has its stream. -/
theorem streamBegins_placed {r : Running} (ident : r.ident = (idleRun d p w c).ident) (writes : r.writes = [])
    (port : r.port = none) : StreamPlaced d n s p w c
      (if (beginRun s d n r).2.queued then Machine.setRun (beginRun s d n r).1 d n (beginRun s d n r).2
        else streamGo d n (beginRun s d n r).1 (beginRun s d n r).2 w) := by
  have secure : (beginRun s d n r).1.secure = s.secure := field_of State.secure (beginRun_only s d n r) (fun _ => rfl)
  obtain ⟨a, b, q, run, _⟩ := beginRun_run s d n r
  rw [run]
  cases q with
  | false => exact (streamGo_puts d n (beginRun s d n r).1 w _).placed (startKept_beginRun s d n r) ident rfl
  | true => exact ⟨_, setRun_running _ d n _, ident, (startKept_setRun _ _).trans (startKept_beginRun s d n r),
      fun _ => ⟨writes, port, secure⟩⟩

theorem streamAct_some {i : Image} (h : streamImage s (snTier w) = some i) : StreamPlaced d n s p w c (streamAct d n s p w c) := by
  unfold streamAct
  dsimp only
  rw [h]
  dsimp only
  split
  · exact ((streamIdle_puts d n s p w c).imageError i.id 4).placed rfl rfl rfl
  · exact streamBegins_placed d n s p w c rfl rfl rfl

end Stream

end Sys2Proof.Machine
end

section
/-! The settled statement of sp. 10: DMA cues start on their channels. -/

namespace Sys2Proof.Machine

/-- A run but for what it meets and whether it waits for its stream. -/
def Running.planned (r : Running) : Running := { r with raced := [], clash := [], queued := false }

/-- There is a stream for the cue `r`, and room for its operations (R275). -/
def roomFor (t : State) (d : Die) (r : Running) : Prop := streamsHeld t d.val < 4096 ∧ opsHeld t d.val + opsOf d.val r ≤ 16384

/-- The cue `r` of a channel as it has begun in the state after its start from `s`. -/
structure ChanBegun (s : State) (d : Die) (n : Fin 128) (p : Pending) (w c : Nat) (r : Running) (j : State × Running) : Prop where
  planned : j.2.planned = r.planned
  room : roomFor (atChannel s d n p c) d r → j.2.queued = r.queued
  kept : startKept d n j.1 = startKept d n (chanStarted s d n p w c)
  ports : ∀ q, (port j.1 q).unreceived = (port s q).unreceived
  units : ∀ v, v ≠ .channel d n → unitKept s j.1 v
  cfg : j.1.cfg = s.cfg
  freezes : j.1.step.freezes = s.step.freezes
  secure : j.1.secure = s.secure

section Clauses
variable (s : State) (d : Die) (n : Fin 128) (p : Pending) (w c : Nat)

/-- A cue begins with the streams held that were held before its channel's start. -/
theorem begun_of_idle (idle : (chan s d n).st = .idle) (r : Running) : ChanBegun s d n p w c r (beginRun (chanStarted s d n p w c) d n r) := by
  obtain ⟨a, b, q, run, room⟩ := beginRun_run (chanStarted s d n p w c) d n r
  have before {γ : Type} (π : State → γ) (hwork : ∀ t, π (butWork t) = π t) (hready : ∀ t, π (butReady t) = π t)
      (hc : ∀ t x, π (setChan t d n x) = π t) : π (beginRun (chanStarted s d n p w c) d n r).1 = π s :=
    (field_of π (beginRun_only (chanStarted s d n p w c) d n r) hwork).trans (chanStarted_field s d n p w c π hready hc)
  exact {
    planned := by rw [run]; rfl
    room := fun ⟨streams, ops⟩ => (congrArg Running.queued run).trans (room
      ((streamsHeld_chanStarted idle p w c d.val).trans_lt streams)
      ((congrArg (· + _) (opsHeld_chanStarted idle p w c d.val)).trans_le ops))
    kept := startKept_beginRun _ d n r
    ports := fun q => (beginRun_port _ d n r q).trans (congrArg Port.unreceived (chanStarted_port s d n p w c q))
    units := fun v hv => (congrFun (beginRun_units _ d n r) v).trans (chanStarted_other s d n p w c hv)
    cfg := before State.cfg (fun _ => rfl) (fun _ => rfl) (fun _ _ => rfl)
    freezes := before (fun t => t.step.freezes) (fun _ => rfl) (fun _ => rfl) (fun _ _ => rfl)
    secure := before State.secure (fun _ => rfl) (fun _ => rfl) (fun _ _ => rfl) }

section ChanBegun
variable {s d n p w c} {r : Running} {j : State × Running}

theorem ChanBegun.field (h : ChanBegun s d n p w c r j) {γ : Type} (π : Running → γ) (hp : ∀ x, π (Running.planned x) = π x) : π j.2 = π r := by
  rw [← hp j.2, h.planned, hp]

theorem ChanBegun.port (h : ChanBegun s d n p w c r j) : j.2.port = r.port := h.field (fun x => x.port) (fun _ => rfl)

theorem ChanBegun.ident (h : ChanBegun s d n p w c r j) : j.2.ident = r.ident := h.field Running.ident (fun _ => rfl)

theorem ChanBegun.moves (h : ChanBegun s d n p w c r j) : j.2.moves = r.moves := h.field (fun x => x.moves) (fun _ => rfl)

theorem ChanBegun.runs (h : ChanBegun s d n p w c r j) {op : Nat} (ident : r.ident = (p.cue, BitVec.ofNat 8 op, c)) :
    ChanRuns s (setRun j.1 d n j.2) d n p op w c j.2 :=
  chanRuns_of (setRun_running _ d n _) (h.ident.trans ident) ((startKept_setRun _ _).trans h.kept)

end ChanBegun

/-! ## A COPY -/

/-- The run of a COPY. -/
def copyRun : Running := dmaRun d c p 0x60 w (copyMoves (parseDma w)) (moveSources (copyMoves (parseDma w))) (moveDests (copyMoves (parseDma w)))

theorem copyAct_eq (t : State) :
    copyAct d n t p w c = setRun (beginRun t d n (copyRun d p w c)).1 d n (beginRun t d n (copyRun d p w c)).2 := rfl

theorem copyAct_starts (idle : (chan s d n).st = .idle) : ∃ r, ChanRuns s (copyAct d n (chanStarted s d n p w c) p w c) d n p 0x60 w c r ∧
    r.moves = copyMoves (parseDma w) ∧ r.halted = false ∧ r.signal = doneSignal p.raw ∧
    ∀ v, v ≠ .channel d n → unitKept s (copyAct d n (chanStarted s d n p w c) p w c) v := by
  rw [copyAct_eq]
  have begun := begun_of_idle s d n p w c idle (copyRun d p w c)
  generalize beginRun (chanStarted s d n p w c) d n (copyRun d p w c) = j at begun ⊢
  exact ⟨j.2, begun.runs rfl, begun.moves, begun.field (fun x => x.halted) (fun _ => rfl), begun.field (fun x => x.signal) (fun _ => rfl),
    fun v hv => (congrArg plainUnit (unit_setUnit_ne _ _ hv)).trans (begun.units v hv)⟩

/-! ## A PEER_SEND and a TALLY_ONLY -/

/-- A transfer that its port has taken, and whose DONE the channel awaits. -/
def Sent (t : State) (r : Running) : Prop :=
  r.port = some (sendPort w, (port s (sendPort w)).nextXfer) ∧ r.send.todo = 1 ∧
    (port t (sendPort w)).nextXfer = (port s (sendPort w)).nextXfer + 1 ∧
    ∃ x ∈ (port t (sendPort w)).tx, x.xfer = (port s (sendPort w)).nextXfer ∧ x.die = d ∧ x.chan = n

theorem sendMoves_setChan (t : State) (x : Channel) : sendMoves (setChan t d n x) w = sendMoves t w := rfl

theorem sendMoves_chanStarted : sendMoves (chanStarted s d n p w c) w = sendMoves (atChannel s d n p c) w := sendMoves_setChan d n w _ _

/-- A send that has begun hands its transfer to its port, or waits with the port as it was. -/
theorem sendBegun_starts {r : Running} {j : State × Running} (h : ChanBegun s d n p w c r j) (ident : r.ident = (p.cue, BitVec.ofNat 8 0x61, c))
    (fresh : r.port = none) : ∃ t q, t = (if j.2.queued then setRun j.1 d n j.2 else sendGo d n j.1 j.2 w) ∧ ChanRuns s t d n p 0x61 w c q ∧
      (∀ k, k ≠ sendPort w → (port t k).unreceived = (port s k).unreceived) ∧ q.queued = j.2.queued ∧
      (q.queued = false → Sent s d n w t q) ∧
      (q.queued = true → q.port = none ∧ (port t (sendPort w)).unreceived = (port s (sendPort w)).unreceived) := by
  by_cases waits : j.2.queued = true
  · exact ⟨_, j.2, (if_pos waits).symm, h.runs ident, fun k _ => h.ports k, rfl, fun goes => absurd (waits.symm.trans goes) (by decide),
      fun _ => ⟨h.port.trans fresh, h.ports _⟩⟩
  · obtain ⟨q, running, same, queued, place, todo, keeps, others, next, awaited⟩ := sendGo_sends d n j.1 j.2 w
    have number : (port j.1 (sendPort w)).unreceived.nextXfer = (port s (sendPort w)).unreceived.nextXfer := by rw [h.ports]
    change (port j.1 (sendPort w)).nextXfer = (port s (sendPort w)).nextXfer at number
    rw [number] at place next awaited
    exact ⟨_, q, (if_neg waits).symm, chanRuns_of running ((same.trans h.ident).trans ident) (keeps.trans h.kept),
      fun k hk => (congrArg Port.unreceived (others k hk)).trans (h.ports k), queued, fun _ => ⟨place, todo, next, awaited⟩,
      fun still => absurd (queued.symm.trans still) waits⟩

theorem sendAct_starts (idle : (chan s d n).st = .idle) (data : sendTallyOnly w = false) (up : (port s (sendPort w)).st = .up) :
    ∃ t r, t = sendAct d n (chanStarted s d n p w c) p w c ∧ ChanRuns s t d n p 0x61 w c r ∧
      (∀ q, q ≠ sendPort w → (port t q).unreceived = (port s q).unreceived) ∧
      (roomFor (atChannel s d n p c) d (sendRun d p w c (sendMoves (atChannel s d n p c) w)) → r.queued = false) ∧
      (r.queued = false → Sent s d n w t r) ∧
      (r.queued = true → r.port = none ∧ (port t (sendPort w)).unreceived = (port s (sendPort w)).unreceived) := by
  rw [sendAct_up d n _ p w c (by rw [chanStarted_port]; exact up) data, sendMoves_chanStarted]
  have begun := begun_of_idle s d n p w c idle (sendRun d p w c (sendMoves (atChannel s d n p c) w))
  obtain ⟨t, r, goes, runs, others, queued, sent, waits⟩ := sendBegun_starts s d n p w c begun rfl rfl
  exact ⟨t, r, goes, runs, others, fun space => queued.trans (begun.room space), sent, waits⟩

/-- A TALLY flit of a cue. -/
def tallyFlit : OutFlit := { flit 5 1 0 (tallyBody w) with owner := 1 + chanKey d n }

theorem tallyGo_eq (t : State) (r : Running) : tallyGo d n t r w =
    setRun (setPort t (sendPort w) (sendFlits (port t (sendPort w)) [tallyFlit d n w])) d n { r with port := some (sendPort w, 0) } := rfl

/-- A TALLY_ONLY that has begun sends its flit, or waits with the port as it was. -/
theorem tallyBegun_starts {r : Running} {j : State × Running} (h : ChanBegun s d n p w c r j) (ident : r.ident = (p.cue, BitVec.ofNat 8 0x61, c))
    (fresh : r.port = none) : ∃ t q, t = (if j.2.queued then setRun j.1 d n j.2 else tallyGo d n j.1 j.2 w) ∧ ChanRuns s t d n p 0x61 w c q ∧
      q.queued = j.2.queued ∧ (q.queued = false → q.port = some (sendPort w, 0) ∧ port t (sendPort w) =
        sendFlits (port j.1 (sendPort w)) [tallyFlit d n w]) ∧ (q.queued = true → q.port = none ∧ port t (sendPort w) = port j.1 (sendPort w)) := by
  by_cases waits : j.2.queued = true
  · exact ⟨_, j.2, (if_pos waits).symm, h.runs ident, rfl, fun goes => absurd (waits.symm.trans goes) (by decide), fun _ => ⟨h.port.trans fresh, rfl⟩⟩
  · rw [if_neg waits, tallyGo_eq]
    exact ⟨_, { j.2 with port := some (sendPort w, 0) }, rfl,
      chanRuns_of (setRun_running _ d n _) (h.ident.trans ident) ((startKept_setRun _ _).trans h.kept), rfl,
      fun _ => ⟨rfl, port_setPort _ _ _⟩, fun still => absurd still waits⟩

theorem tallyAct_starts (idle : (chan s d n).st = .idle) (up : (port s (sendPort w)).st = .up) :
    ∃ t r q, t = tallyAct d n (chanStarted s d n p w c) p w c ∧ ChanRuns s t d n p 0x61 w c r ∧ q.unreceived = (port s (sendPort w)).unreceived ∧
      (roomFor (atChannel s d n p c) d (sendRun d p w c []) → r.queued = false) ∧
      (r.queued = false → r.port = some (sendPort w, 0) ∧ port t (sendPort w) = sendFlits q [tallyFlit d n w]) ∧
      (r.queued = true → r.port = none ∧ port t (sendPort w) = q) := by
  rw [tallyAct_up d n _ p w c (by rw [chanStarted_port]; exact up)]
  have begun := begun_of_idle s d n p w c idle (sendRun d p w c [])
  obtain ⟨t, r, goes, runs, queued, sent, waits⟩ := tallyBegun_starts s d n p w c begun rfl rfl
  exact ⟨t, r, _, goes, runs, begun.ports _, fun space => queued.trans (begun.room space), sent, waits⟩

/-- A channel that its port has halted as the cue starts. -/
structure PortDown (s t : State) (d : Die) (n : Fin 128) : Prop where
  halted : (chan t d n).st = .halted
  cause : (chan t d n).failCause = 5
  dir : (chan t d n).failDir = true
  counted : oneMore s t 0x0E (dieplace d)
  outside : outsideKept s t

theorem portDown_of {t : State} (h : ∃ r recAt, t = haltChannel (setRun (chanStarted s d n p w c) d n r) d n p.cue recAt ⟨5, true, bits w 447 384⟩ 0 0 0) :
    PortDown s t d n := by
  obtain ⟨r, recAt, rfl⟩ := h
  have chan := haltChannel_chan (setRun (chanStarted s d n p w c) d n r) d n p.cue recAt ⟨5, true, bits w 447 384⟩ 0 0 0
  have counted := haltChannel_counted (setRun (chanStarted s d n p w c) d n r) d n p.cue recAt ⟨5, true, bits w 447 384⟩ 0 0 0
  have kept := haltChannel_stored (setRun (chanStarted s d n p w c) d n r) d n p.cue recAt ⟨5, true, bits w 447 384⟩ 0 0 0 outsideOf
    (fun t => by unfold outsideOf butAccess butEvents; rfl) (fun _ _ => rfl) (fun _ _ => rfl)
  unfold oneMore at counted
  refine ⟨by rw [chan]; rfl, by rw [chan]; rfl, by rw [chan]; rfl, counted.trans ?_, (outsideKept_iff _ _).2 (kept.trans ?_)⟩
  · have before : countOf (setRun (chanStarted s d n p w c) d n r) 0x0E (dieplace d) = countOf s 0x0E (dieplace d) :=
      (countOf_congr rfl _ _).trans (countOf_chanStarted s d n p w c (by decide) _)
    rw [before]
  · exact chanStarted_field s d n p w c outsideOf (fun _ => rfl) (fun _ _ => rfl)

/-! ## A FREEZE -/

theorem freezeList_chanStarted : freezeList (chanStarted s d n p w c) w = freezeList s w :=
  congrArg (fun b : Bool => if b then freezeMoves w else [])
    (chanStarted_field s d n p w c (fun t => t.step.freezes) (fun _ => rfl) (fun _ _ => rfl))

theorem freezeAct_starts (idle : (chan s d n).st = .idle) : ∃ t r, t = freezeAct d n (chanStarted s d n p w c) p w c ∧
    ChanRuns s t d n p 0x62 w c r ∧ r.moves = freezeList s w ∧
    ((s.step.freezes = false ∨ (sectionRegion s (localOf (bits w 511 448)) (snLength w)).isSome) → t.secure = s.secure) := by
  rw [freezeAct_eq, freezeList_chanStarted]
  have begun := begun_of_idle s d n p w c idle (freezeRun d p w c (freezeList s w))
  generalize beginRun (chanStarted s d n p w c) d n (freezeRun d p w c (freezeList s w)) = j at begun ⊢
  refine ⟨_, j.2, rfl, chanRuns_of (setRun_running _ d n _) begun.ident
    ((startKept_setRun _ _).trans ((startKept_freezeChecked d n _ w).trans begun.kept)), begun.moves, fun valid => ?_⟩
  refine (freezeChecked_secure j.1 w ?_).trans begun.secure
  rw [begun.freezes, sectionRegion_congr begun.cfg]
  exact valid

/-! ## A STREAM -/

theorem streamAct_starts : ∃ r, ChanRuns s (streamAct d n (chanStarted s d n p w c) p w c) d n p 0x62 w c r ∧
    (streamImage s (snTier w) = none → r.queued = false) ∧ ((r.queued = true ∨ streamImage s (snTier w) = none) →
      r.writes = [] ∧ r.port = none ∧ (streamAct d n (chanStarted s d n p w c) p w c).secure = s.secure) := by
  have secure := chanStarted_field s d n p w c State.secure (fun _ => rfl) (fun _ _ => rfl)
  have freezes := chanStarted_field s d n p w c (fun t => t.step.freezes) (fun _ => rfl) (fun _ _ => rfl)
  have same := streamImage_congr secure freezes (snTier w)
  rcases image : streamImage s (snTier w) with _ | i
  · rw [streamAct_none d n _ p w c (same.trans image)]
    obtain ⟨r, running, ident, waits, writes, port⟩ := streamIdle_run d n (chanStarted s d n p w c) p w c
    obtain ⟨_, _, _, _, kept⟩ := streamIdle_puts d n (chanStarted s d n p w c) p w c
    exact ⟨r, chanRuns_of running ident kept, fun _ => waits, fun _ => ⟨writes, port, (streamIdle_secure d n _ p w c).trans secure⟩⟩
  · obtain ⟨r, running, ident, kept, waits⟩ := streamAct_some d n _ p w c (same.trans image)
    refine ⟨r, chanRuns_of running ident kept, fun none => (by cases none), fun h => ?_⟩
    rcases h with queued | none
    · obtain ⟨writes, port, unmoved⟩ := waits queued
      exact ⟨writes, port, unmoved.trans secure⟩
    · cases none

end Clauses

/-- Settles O31, clause by clause: the common first action moves the descriptor to the active set, then each opcode's cue joins what runs. -/
theorem dmaCuesStart : Obligations.DmaCuesStart := by
  intro d n s a s1 p c w ha hs1 hw idle hr
  subst ha
  have at1 : s1 = atChannel s d n p c := hs1
  subst at1
  refine ⟨fun h => ?_, fun h data up => ?_, fun h tally up => ?_, fun h down => ?_, fun h freeze => ?_, fun h stream => ?_⟩
  · obtain ⟨r, runs, moves, halted, signal, others⟩ := copyAct_starts s d n p w c idle
    obtain ⟨x, active⟩ := runs.active
    exact ⟨_, _, next_congr (startDma_acts h idle hr hw rfl (copyAct d n)), runs.running, runs.pending, runs.cue, runs.opcode, runs.started, moves,
      halted, signal, congrArg Channel.st active, congrArg Channel.actCue active, congrArg Channel.actDesc active, others, runs.bytes, runs.outside⟩
  · obtain ⟨t, r, acts, runs, others, room, sent, waits⟩ := sendAct_starts s d n p w c idle data up
    obtain ⟨x, active⟩ := runs.active
    exact ⟨t, r, _, next_congr ((startOrGo_acts h idle hr hw (by rw [data]; rfl) (sendAct d n) (sendGo d n)).trans acts.symm), runs.running, runs.cue,
      runs.opcode, runs.started, runs.pending, congrArg Channel.actDesc active, congrArg Channel.st active, rfl, others,
      fun streams ops => room ⟨streams, ops⟩, sent, waits, runs.bytes, runs.outside⟩
  · obtain ⟨t, r, q, acts, runs, port, room, sent, waits⟩ := tallyAct_starts s d n p w c idle up
    obtain ⟨x, active⟩ := runs.active
    exact ⟨t, r, q, next_congr ((startOrGo_acts h idle hr hw tally (tallyAct d n) (tallyGo d n)).trans acts.symm), runs.running, runs.cue,
      runs.opcode, runs.started, runs.pending, congrArg Channel.actDesc active, congrArg Channel.st active, port,
      fun streams ops => room ⟨streams, ops⟩, sent, waits, runs.bytes, runs.outside⟩
  · have off : (port (chanStarted s d n p w c) (sendPort w)).st ≠ .up := by rw [chanStarted_port]; exact down
    rcases data : sendTallyOnly w with _ | _
    · have fails := portDown_of s d n p w c (sendAct_down d n _ p w c off)
      exact ⟨_, fun _ => next_congr (startOrGo_acts h idle hr hw (by rw [data]; rfl) (sendAct d n) (sendGo d n)), fun tally => (by cases tally),
        fails.halted, fails.cause, fails.dir, fails.counted, fails.outside⟩
    · have fails := portDown_of s d n p w c (tallyAct_down d n _ p w c off)
      exact ⟨_, fun sends => (by cases sends), fun _ => next_congr (startOrGo_acts h idle hr hw data (tallyAct d n) (tallyGo d n)),
        fails.halted, fails.cause, fails.dir, fails.counted, fails.outside⟩
  · obtain ⟨t, r, acts, runs, moves, kept⟩ := freezeAct_starts s d n p w c idle
    obtain ⟨x, active⟩ := runs.active
    exact ⟨t, r, next_congr ((startDma_acts h idle hr hw (by simp [freeze]) (freezeAct d n)).trans acts.symm), runs.running, runs.cue, runs.opcode, runs.started,
      runs.pending, congrArg Channel.actDesc active, moves, congrArg Channel.st active, runs.bytes, kept, runs.outside⟩
  · obtain ⟨r, runs, acts, idles⟩ := streamAct_starts s d n p w c
    obtain ⟨x, active⟩ := runs.active
    exact ⟨_, r, next_congr (startOrGo_acts h idle hr hw (by simp [stream]) (streamAct d n) (streamGo d n)), runs.running, runs.cue, runs.opcode,
      runs.started, runs.pending, congrArg Channel.actDesc active, congrArg Channel.st active, runs.bytes, runs.nand, acts, idles, runs.outside⟩

end Sys2Proof.Machine
end

section
/-! Sp. 11 R324, R326, R348: what the lanes corrected is counted; a port fails. -/

namespace Sys2Proof.Machine

/-! ## What the lanes corrected (sp. 11 R324) -/

/-- State without what the counts of the lanes may touch: the ports and the health counts. -/
def butLanes (s : State) : State := { s with ports := [], health := Health.reset }

/-- One count of corrected symbols, at port `p`. -/
def correctedOne (p : PortNo) (s : State) (x : Fin 8 × Nat) : State :=
  let t := setPort s p { port s p with corrected := Sparse.bump top64 (port s p).corrected x.1.val x.2 }
  { t with health := { t.health with cur := { t.health.cur with fec := Sparse.bump top64 t.health.cur.fec (8 * p.val + x.1.val) x.2 } } }

section Corrected
variable (s : State) (p : PortNo) (l : Corrected)

theorem countCorrected_crosses {s : State} {p : PortNo} (h : flitsCross s p = true) :
    countCorrected s p l = l.foldl (correctedOne p) s := by
  unfold countCorrected
  exact if_neg (by simp [h])

theorem countCorrected_idle {s : State} {p : PortNo} (h : flitsCross s p = false) : countCorrected s p l = s := by
  unfold countCorrected
  exact if_pos (by simp [h])

/-- What one count keeps, the counts of a flit keep. -/
theorem countCorrected_field {γ : Type} (π : State → γ) (h : ∀ t x, π (correctedOne p t x) = π t) : π (countCorrected s p l) = π s := by
  cases crosses : flitsCross s p with
  | false => rw [countCorrected_idle l crosses]
  | true =>
    rw [countCorrected_crosses l crosses]
    exact foldl_field π _ h l s

theorem countCorrected_only : butLanes (countCorrected s p l) = butLanes s := countCorrected_field s p l butLanes (fun _ _ => rfl)

theorem countCorrected_err : (countCorrected s p l).err = s.err := field_of State.err (countCorrected_only s p l) (fun _ => rfl)

theorem countCorrected_outside : outsideOf (countCorrected s p l) = outsideOf s := field_of outsideOf (countCorrected_only s p l) (fun _ => rfl)

/-- The counts are all that the port's own entry gains. -/
theorem port_countCorrected : ∃ m, port (countCorrected s p l) p = { port s p with corrected := m } := by
  have others := countCorrected_field s p l (fun t => { port t p with corrected := [] })
    (fun t x => congrArg (fun q : Port => { q with corrected := [] }) (port_setPort t p _))
  exact ⟨(port (countCorrected s p l) p).corrected,
    congrArg (fun q : Port => { q with corrected := (port (countCorrected s p l) p).corrected }) others⟩

theorem port_countCorrected_other {q : PortNo} (h : q ≠ p) : port (countCorrected s p l) q = port s q :=
  countCorrected_field s p l (port · q) (fun t _ => port_setPort_other t _ h)

theorem countCorrected_st : (port (countCorrected s p l) p).st = (port s p).st := by
  obtain ⟨m, e⟩ := port_countCorrected s p l
  rw [e]

end Corrected

/-! ## A port fails -/

/-- A port whose link is lost, its state aside: one that was UP counts a retrain (sp. 11 R324, R348). -/
def Port.lost (q : Port) : Port := { dropLink q with retrains := if q.st = .up then stopAt top32 (q.retrains + 1) else q.retrains }

/-- The health monitor counts a port that leaves UP (sp. 14 Table 14-4). -/
def countDown (s : State) : State := { s with health := { s.health with cur := { s.health.cur with downs := s.health.cur.downs + 1 } } }

/-- State in which a failing port moves to DOWN: what it was receiving and what was in flight is lost. -/
def linkLost (s : State) (p : PortNo) : State :=
  setPort (if (port s p).st = .up then countDown (leaveRx s p) else leaveRx s p) p (port s p).lost

section Fail
variable (s : State) (p : PortNo)

theorem portFail_moves : portFail s p = portMove (linkLost s p) p .down 0 := by
  unfold portFail portDown linkLost
  rw [port_leaveRx]
  rfl

theorem linkLost_field {γ : Type} (π : State → γ) (hl : ∀ t, π (leaveRx t p) = π t) (hh : ∀ t, π (countDown t) = π t)
    (hp : ∀ t, π (setPort t p (port s p).lost) = π t) : π (linkLost s p) = π s :=
  (hp _).trans (ite_field ((hh _).trans (hl s)) (hl s))

theorem port_linkLost : port (linkLost s p) p = (port s p).lost := port_setPort _ _ _

theorem linkLost_err : (linkLost s p).err = s.err :=
  linkLost_field s p State.err (fun t => leaveRx_err t p) (fun _ => rfl) (fun _ => rfl)

theorem port_portFail : port (portFail s p) p = { (port s p).lost with st := .down } := by
  rw [portFail_moves, port_portMove, port_linkLost]

theorem port_portFail_other {q : PortNo} (h : q ≠ p) : port (portFail s p) q = port s q := by
  rw [portFail_moves, port_portMove_other _ h]
  exact linkLost_field s p (port · q) (fun t => port_leaveRx t p q) (fun _ => rfl) (fun t => port_setPort_other t _ h)

theorem leaveRx_outside : outsideOf (leaveRx s p) = outsideOf s := field_of outsideOf (leaveRx_only s p) butStored_outside

theorem portMove_outside (st : PortState) (d1 : Nat) : outsideOf (portMove s p st d1) = outsideOf s :=
  field_of outsideOf (portMove_only s p st d1) (fun _ => rfl)

theorem portFail_outside : outsideOf (portFail s p) = outsideOf s := by
  rw [portFail_moves, portMove_outside]
  exact linkLost_field s p outsideOf (fun t => leaveRx_outside t p) (fun _ => rfl) (fun _ => rfl)

variable {s p}

theorem portFail_counted (h : (port s p).st ≠ .down) : oneMore s (portFail s p) 0x0F (portPlace p) := by
  rw [portFail_moves]
  refine oneMore_congr (portMove_counted 0 ?_) (congrArg Errors.sources (linkLost_err s p).symm) rfl
  rw [port_linkLost]
  exact h

/-- Its move counts for no other kind. -/
theorem countOf_portFail {kind : Byte} (h : kind.toNat % 128 ≠ 15) (k : Place) : countOf (portFail s p) kind k = countOf s kind k := by
  rw [portFail_moves]
  unfold portMove
  refine (ite_field (π := fun t => countOf t kind k) rfl ?_).trans (countOf_congr (linkLost_err s p) kind k)
  exact (countOf_raise_ne _ _ k h).trans rfl

end Fail

/-- A port is entered afresh as `portMove` tells it, what it was receiving lost. -/
theorem portAgain_moves (s : State) (p : PortNo) : portAgain s p =
    portMove (setPort (leaveRx s p) p (port s p).afresh) p (enteredState (peerEnable (port s p).entry) (lanesOn s p)) 0 := by
  unfold portAgain
  rw [portEnter_moves, port_leaveRx, lanesOn_leaveRx]

end Sys2Proof.Machine
end

section
/-! Sp. 11 R326-R328: peer ports move between their states. -/

namespace Sys2Proof.Machine

/-! ## A move of one port -/

/-- Port `p` has moved from state `s` to state `st` in `t`: recorded once (R326), with the other ports and all outside the step as they were. -/
structure Moves (s t : State) (p : PortNo) (st : PortState) : Prop where
  st : (port t p).st = st
  counted : oneMore s t 0x0F (portPlace p)
  others : ∀ q, q ≠ p → port t q = port s q
  outside : outsideKept s t

/-- A move from a state `r` that differs from `s` at the port alone is one from `s`. -/
theorem portMove_of {s r : State} {p : PortNo} {st : PortState} (d1 : Nat) (from_ : (port r p).st ≠ st) (err : r.err = s.err)
    (others : ∀ q, q ≠ p → port r q = port s q) (outside : outsideOf r = outsideOf s) : Moves s (portMove r p st d1) p st where
  st := congrArg Port.st (port_portMove d1)
  counted := oneMore_congr (portMove_counted d1 from_) (congrArg Errors.sources err.symm) rfl
  others q hq := (port_portMove_other d1 hq).trans (others q hq)
  outside := (outsideKept_iff _ _).2 ((portMove_outside r p st d1).trans outside)

theorem portFail_moved {s : State} {p : PortNo} (h : (port s p).st ≠ .down) : Moves s (portFail s p) p .down where
  st := congrArg Port.st (port_portFail s p)
  counted := portFail_counted h
  others _ hq := port_portFail_other s p hq
  outside := (outsideKept_iff _ _).2 (portFail_outside s p)

/-- A port that was DOWN trains again, or is DISABLED with its entry or a lane (R325, R326). -/
theorem portAgain_moved {s : State} {p : PortNo} (h : (port s p).st = .down) :
    Moves s (portAgain s p) p (enteredState (peerEnable (port s p).entry) (lanesOn s p)) := by
  have from_ : (port s p).st ≠ enteredState (peerEnable (port s p).entry) (lanesOn s p) := by
    rw [h]
    unfold enteredState
    split <;> decide
  rw [portAgain_moves]
  refine portMove_of 0 ?_ (leaveRx_err s p) (fun q hq => ?_) (leaveRx_outside s p)
  · rw [port_setPort]
    exact from_
  · exact (port_setPort_other _ _ hq).trans (port_leaveRx s p q)

/-! ## A flit without SEQ leaves (sp. 11 R328, R332) -/

/-- A LINK or an IDENT leaves at once; it takes no number and no credit. -/
theorem sendBare_leaves (q : Port) {kind : BitVec 4} (h : kind = 7 ∨ kind = 9) (body : List Byte) :
    ∃ f x y, sendBare q kind body = { q with out := q.out ++ [f], rxFreed := x, ackSent := y } ∧
      f.kind = kind ∧ f.body = body ∧ f.ack = q.rxNext := by
  rcases h with rfl | rfl <;> exact ⟨_, _, _, rfl, rfl, rfl, rfl⟩

/-! ## An IDENT arrives (sp. 11 R327, R328) -/

/-- A port that has heard an IDENT: its serial and its token are kept. -/
def Port.heard (q : Port) (b : IdentBody) (now : Nat) : Port := { q with rxSerial := b.serial, lastToken := some (b.token, now) }

/-- It with the latency that the first round trip gives. -/
def Port.timed (q : Port) (b : IdentBody) (now : Nat) : Port :=
  match roundTrip q now b with
  | none => q.heard b now
  | some t => if q.measured then q.heard b now else { q.heard b now with latency := t / 2, measured := true }

theorem Port.timed_eq (q : Port) (b : IdentBody) (now : Nat) : ∃ n m, q.timed b now = { q.heard b now with latency := n, measured := m } := by
  unfold Port.timed
  split
  · exact ⟨_, _, rfl⟩
  · split <;> exact ⟨_, _, rfl⟩

section Ident
variable (s : State) (p : PortNo) (b : IdentBody)

/-- The port as it has heard the IDENT, with the symbols that its lanes corrected. -/
def identHeard : Port := (port (countCorrected s p b.fec) p).timed b (countCorrected s p b.fec).ref

/-- State in which the port moves on an IDENT: with an agreeing identity its link is fresh (R330, R335). -/
def identTaken : State :=
  let t := setPort (countCorrected s p b.fec) p (identHeard s p b)
  if identAgrees s p b then setPort t p (freshLink (identHeard s p b)) else t

theorem identTaken_field {γ : Type} (π : State → γ) (hp : ∀ t q, π (setPort t p q) = π t) :
    π (identTaken s p b) = π (countCorrected s p b.fec) :=
  ite_field ((hp _ _).trans (hp _ _)) (hp _ _)

theorem port_identTaken : port (identTaken s p b) p = if identAgrees s p b then freshLink (identHeard s p b) else identHeard s p b := by
  unfold identTaken
  split
  · exact port_setPort _ _ _
  · exact port_setPort _ _ _

/-- The identity is kept, and the state of the port is as it was. -/
theorem identTaken_keeps : (port (identTaken s p b) p).st = (port s p).st ∧ (port (identTaken s p b) p).rxSerial = b.serial ∧
    (port (identTaken s p b) p).corrected = (port (countCorrected s p b.fec) p).corrected := by
  obtain ⟨n, m, timed⟩ := Port.timed_eq (port (countCorrected s p b.fec) p) b (countCorrected s p b.fec).ref
  have heard : (identHeard s p b).st = (port s p).st ∧ (identHeard s p b).rxSerial = b.serial ∧
      (identHeard s p b).corrected = (port (countCorrected s p b.fec) p).corrected := by
    rw [identHeard, timed]
    exact ⟨countCorrected_st s p b.fec, rfl, rfl⟩
  rw [port_identTaken]
  split
  · exact heard
  · exact heard

/-- The identity that is judged is that of the state before the symbols were counted. -/
theorem identAgrees_countCorrected : identAgrees (countCorrected s p b.fec) p b = identAgrees s p b := by
  obtain ⟨m, e⟩ := port_countCorrected s p b.fec
  have own : ownId (countCorrected s p b.fec) = ownId s := field_of ownId (countCorrected_only s p b.fec) (fun _ => rfl)
  unfold identAgrees
  rw [e, own]

variable {s p}

theorem execIdent_other (h : (port s p).st ≠ .verify) (h' : (port s p).st ≠ .mismatch) :
    exec (.ident p b) s = .next (countCorrected s p b.fec) := by
  rw [← countCorrected_st s p b.fec] at h h'
  exact if_pos ⟨h, h'⟩

theorem execIdent_mismatch (h : (port s p).st = .mismatch) : exec (.ident p b) s =
    .next (setPort (countCorrected s p b.fec) p ((port (countCorrected s p b.fec) p).heard b (countCorrected s p b.fec).ref)) := by
  rw [← countCorrected_st s p b.fec] at h
  change execIdent p b s = _
  unfold execIdent
  dsimp only
  rw [if_neg (by simp [h]), if_pos h]
  rfl

/-- In VERIFY the port moves: to UP where the identity agrees, else to MISMATCH. -/
theorem execIdent_verify (h : (port s p).st = .verify) :
    ∃ d1, exec (.ident p b) s = .next (portMove (identTaken s p b) p (if identAgrees s p b then .up else .mismatch) d1) := by
  have st := (countCorrected_st s p b.fec).trans h
  change ∃ d1, execIdent p b s = _
  unfold execIdent identTaken
  dsimp only
  rw [if_neg (by simp [st]), if_neg (by simp [st]), identAgrees_countCorrected]
  cases identAgrees s p b with
  | false => exact ⟨_, rfl⟩
  | true => exact ⟨_, rfl⟩

theorem identMove_moved (h : (port s p).st = .verify) (d1 : Nat) :
    Moves s (portMove (identTaken s p b) p (if identAgrees s p b then .up else .mismatch) d1) p (if identAgrees s p b then .up else .mismatch) := by
  obtain ⟨st, -, -⟩ := identTaken_keeps s p b
  refine portMove_of d1 ?_ ((identTaken_field s p b State.err (fun _ _ => rfl)).trans (countCorrected_err s p b.fec)) (fun q hq => ?_)
    ((identTaken_field s p b outsideOf (fun _ _ => rfl)).trans (countCorrected_outside s p b.fec))
  · rw [st, h]
    split <;> decide
  · exact (identTaken_field s p b (port · q) (fun t v => port_setPort_other t v hq)).trans (port_countCorrected_other s p b.fec hq)

end Ident

/-! ## The obligation -/

/-- The lanes have locked: the port has measured nothing yet and awaits an IDENT. -/
theorem execPortTrainingDone_moves {s : State} {p : PortNo} (h : (port s p).st = .training) : exec (.portTrainingDone p) s =
    .next (portMove (setPort s p { port s p with measured := false, tokensOut := [], lastToken := none }) p .verify 0) := if_pos h

/-- Settles O42: each move is one `portMove`, whose record and frame `Moves` tells; a failing port loses its link before it moves. -/
theorem portsMoveBetweenTheirStates : Obligations.PortsMoveBetweenTheirStates := by
  intro p s
  refine ⟨fun training => ⟨?done, ?timeout⟩, fun verify => ?identTimeout, fun up => ?lockLost, fun down => ?retrain, fun sends => ?identSend,
    fun b verify => ?ident, fun b mismatch => ?mismatch, execIdent_other, fun l => countCorrected_idle l, fun i n crosses => ?corrected⟩
  case done =>
    have moved := portMove_of (s := s) (r := setPort s p { port s p with measured := false, tokensOut := [], lastToken := none }) (p := p)
      (st := .verify) 0 (by rw [port_setPort, training]; decide) rfl (fun q hq => port_setPort_other s _ hq) rfl
    exact ⟨_, execPortTrainingDone_moves training, moved.st, moved.counted, moved.others,
      field_of State.mem (portMove_only _ p _ 0) (fun _ => rfl), moved.outside⟩
  case timeout =>
    have moved := portFail_moved (s := s) (p := p) (by rw [training]; decide)
    have fails := port_portFail s p
    exact ⟨_, if_pos training, moved.st, moved.counted, congrArg Port.rx fails, congrArg Port.tx fails, moved.others, moved.outside⟩
  case identTimeout =>
    have moved := portFail_moved (s := s) (p := p) (by rw [verify]; decide)
    exact ⟨_, if_pos verify, moved.st, moved.counted, moved.others, moved.outside⟩
  case lockLost =>
    have moved := portFail_moved (s := s) (p := p) (by rw [up]; decide)
    have fails := port_portFail s p
    exact ⟨_, if_pos up, moved.st, congrArg Port.rx fails, congrArg Port.tx fails, congrArg Port.retry fails, congrArg Port.waitq fails,
      (congrArg Port.retrains fails).trans (if_pos up), moved.counted, moved.others, moved.outside⟩
  case retrain =>
    have moved := portAgain_moved down
    exact ⟨_, if_pos down, moved.st, moved.counted, moved.others, moved.outside⟩
  case identSend =>
    obtain ⟨f, x, y, sent, kind, body, -⟩ := sendBare_leaves
      { port s p with token := (port s p).token + 1, tokensOut := (port s p).tokensOut ++ [((port s p).token, s.ref)] } (.inr rfl)
      (identBody s p (port s p).token)
    refine ⟨_, f, if_pos sends, ?_⟩
    rw [port_setPort, sent]
    exact ⟨rfl, rfl, kind, body, rfl, rfl, (outsideKept_iff _ _).2 rfl⟩
  case ident =>
    obtain ⟨d1, runs⟩ := execIdent_verify b verify
    obtain ⟨-, serial, corrected⟩ := identTaken_keeps s p b
    have moved := identMove_moved b verify d1
    have moves := port_portMove (s := identTaken s p b) (p := p) (st := if identAgrees s p b then .up else .mismatch) d1
    refine ⟨_, runs, moved.st, (congrArg Port.rxSerial moves).trans serial, moved.counted, (congrArg Port.corrected moves).trans corrected,
      moved.others, ?_, moved.outside⟩
    exact (field_of State.mem (portMove_only _ p _ d1) (fun _ => rfl)).trans
      ((identTaken_field s p b State.mem (fun _ _ => rfl)).trans (countCorrected_mem s p b.fec))
  case mismatch =>
    refine ⟨_, execIdent_mismatch b mismatch, ?_⟩
    rw [port_setPort]
    exact ⟨(countCorrected_st s p b.fec).trans mismatch, rfl, rfl, countCorrected_mem s p b.fec, countCorrected_err s p b.fec⟩
  case corrected =>
    rw [countCorrected_crosses _ crosses]
    exact congrArg Port.corrected (port_setPort s p _)

end Sys2Proof.Machine
end

section
/-! Sp. 11 R331-R335, R340: what a transmitter touches of a port; the ACK and the credits of a received header. -/

namespace Sys2Proof.Machine

/-! ## What a transmitter touches of a port -/

/-- A port without what its transmitter touches. -/
def Port.unsent (q : Port) : Port :=
  { q with txSeq := 0, retry := [], credits := [], rxFreed := [], txXfer := none, waitq := [], out := [], retries := 0, ackSent := 0 }

section Unsent
variable (q : Port)

theorem putFlit_unsent (f : OutFlit) : (putFlit q f).unsent = q.unsent := by
  unfold putFlit
  dsimp only
  split <;> split <;> rfl

theorem resumed_unsent (f : OutFlit) (blocked : List Nat) : (resumed f blocked q).unsent = q.unsent := by
  unfold resumed resumeFirst
  split
  · rfl
  · split
    · exact putFlit_unsent q { flit 2 f.cls f.xfer [] with snap := f.snap }
    · rfl

theorem drainOne_unsent (f : OutFlit) (blocked : List Nat) : (drainOne f blocked q).2.unsent = q.unsent := by
  have first := resumed_unsent q f blocked
  have put := (putFlit_unsent (resumed f blocked q) f).trans first
  unfold drainOne flitLeft
  split
  · split
    · exact put
    · exact put
  · exact first

theorem drainFlits_unsent (l : List OutFlit) (blocked : List Nat) : (drainFlits l blocked q).unsent = q.unsent := by
  induction l generalizing blocked q with
  | nil => rfl
  | cons f r ih => rw [drainFlits_cons, ih, drainOne_unsent]

theorem drainPort_unsent : (drainPort q).unsent = q.unsent := drainFlits_unsent _ _ _

theorem resend_unsent (sel : BitVec 16 → Bool) : (resend q sel).unsent = q.unsent := rfl

theorem sendLink_unsent (nak : Option (BitVec 16 × BitVec 16)) : (sendLink q nak).unsent = q.unsent := by
  cases nak with
  | none => exact putFlit_unsent q _
  | some x => exact putFlit_unsent q _

variable {q}

/-- With no flit waiting, none leaves. -/
theorem drainPort_empty (h : q.waitq = []) : drainPort q = q := by
  unfold drainPort
  rw [h, drainFlits, ← h]

theorem freshRelays_empty (s : State) (h : q.waitq = []) : freshRelays s q = q := by
  unfold freshRelays
  rw [h, List.filter_nil, List.map_nil, ← h]

end Unsent

/-! ## A cue of a channel ends or halts: the ports, the beat and the step's phase are as before -/

/-- What the end of a transfer leaves alone that a flit may ask for. -/
def flitKept (s : State) : Sparse Port × Beat × BitVec 12 × Phase × Bool := (s.ports, s.beat, s.cycle, s.step.phase, s.step.stopped)

theorem port_of_flitKept {s t : State} (h : flitKept t = flitKept s) (q : PortNo) : port t q = port s q :=
  congrArg (fun x : Sparse Port × Beat × BitVec 12 × Phase × Bool => Sparse.get noPort x.1 q.val) h

section Ends
variable (s : State) (d : Die) (n : Fin 128) (r : Running)

theorem dmaNoted_flitKept (c : Nat) : flitKept (dmaNoted s d n r c) = flitKept s :=
  (field_of flitKept (signalOpt_only (traceAt s c 5 (dieplace d) 7 n.val r.cue 0 (c - r.firedAt)) d c r.signal) (fun _ => rfl) :)

theorem dmaDone_flitKept (record : List Byte) (bytes c : Nat) : flitKept (dmaDone s d n r record bytes c) = flitKept s := by
  cases refused : bankFault s r.recAt 32 with
  | false =>
    have freed : flitKept (chanFreed (recordStored s d n r record) d n bytes c) = flitKept (recordStored s d n r record) := rfl
    rw [dmaDone_completes s d n r record bytes c refused, dmaNoted_flitKept, freed]
    exact field_of flitKept (recordStored_only s d n r record) (fun _ => rfl)
  | true =>
    unfold dmaDone
    dsimp only
    rw [if_pos refused]
    exact haltChannel_stored _ d n _ _ _ _ _ _ flitKept (fun _ => rfl) (fun _ _ => rfl) (fun _ _ => rfl)

theorem streamBack_flitKept : flitKept (streamBack s d n r) = flitKept s := by
  unfold streamBack
  dsimp only
  split
  · rfl
  · exact ite_field rfl rfl

theorem sendDone_flitKept (b : DoneBody) : flitKept (sendDone s d n b) = flitKept s := by
  have back (c : Prop) [Decidable c] (q : Running) : flitKept (if c then s else streamBack s d n q) = flitKept s :=
    ite_field rfl (streamBack_flitKept s d n q)
  unfold sendDone
  split
  · rfl
  · next q _ =>
    refine ite_field rfl (ite_field ?_ ?_)
    · exact (haltChannel_stored _ d n _ _ _ _ _ _ flitKept (fun _ => rfl) (fun _ _ => rfl) (fun _ _ => rfl)).trans (streamBack_flitKept s d n q)
    · exact ite_field ((dmaDone_flitKept _ d n q _ _ _).trans (back _ q)) rfl

theorem tallyAcked_flitKept (owner : Nat) : flitKept (tallyAcked s owner) = flitKept s := by
  unfold tallyAcked
  refine ite_field rfl ?_
  dsimp only
  split
  · exact ite_field (dmaDone_flitKept _ _ _ _ _ _ _) rfl
  · rfl

end Ends

/-! ## A header acts (sp. 11 R332, R335) -/

/-- A port that has freed what an ACK covers and has its credits back. -/
def Port.acked (q : Port) (h : FlitHdr) : Port := { q with retry := q.retry.filter (fun k => !covered h.ack k), credits := creditsBack q h }

/-- A port as a NAK, if there is one, has sent again what it selects. -/
def Port.resent (q : Port) : Option (BitVec 16 → Bool) → Port
  | none => q
  | some sel => resend q sel

theorem Port.resent_unsent (q : Port) (again : Option (BitVec 16 → Bool)) : (q.resent again).unsent = q.unsent := by
  cases again with
  | none => rfl
  | some sel => exact resend_unsent q sel

theorem Port.resent_waitq (q : Port) (again : Option (BitVec 16 → Bool)) : (q.resent again).waitq = q.waitq := by
  cases again with
  | none => rfl
  | some sel => rfl

/-- A port as a header acts, before the flits that waited leave. -/
def headerAt (s : State) (h : FlitHdr) (again : Option (BitVec 16 → Bool)) : Port := ((freshRelays s (port s h.port)).acked h).resent again

section Header
variable (s : State) (h : FlitHdr) (again : Option (BitVec 16 → Bool))

theorem takeHeader_flitKept : flitKept (takeHeader s h again) = flitKept (setPort s h.port (drainPort (headerAt s h again))) := by
  have acked := foldl_field flitKept (fun t (k : Kept) => tallyAcked t k.flit.owner) (fun t k => tallyAcked_flitKept t k.flit.owner)
    ((freshRelays s (port s h.port)).retry.filter (covered h.ack))
  cases again with
  | none => exact acked _
  | some sel => exact acked _

/-- The port after a header: what the ACK completes leaves the ports alone. -/
theorem port_takeHeader : port (takeHeader s h again) h.port = drainPort (headerAt s h again) :=
  (port_of_flitKept (takeHeader_flitKept s h again) h.port).trans (port_setPort _ _ _)

/-- It is as before but for what the transmitter touches. -/
theorem takeHeader_unsent : (port (takeHeader s h again) h.port).unsent = (port s h.port).unsent := by
  rw [port_takeHeader, drainPort_unsent, headerAt, Port.resent_unsent]
  rfl

/-- The beat, the cycle in it, and the step's phase are as before. -/
theorem takeHeader_rest : (flitKept (takeHeader s h again)).2 = (flitKept s).2 := (congrArg Prod.snd (takeHeader_flitKept s h again) :)

variable {s h}

/-- With no flit waiting, those alone leave that are sent again. -/
theorem port_takeHeader_empty (e : (port s h.port).waitq = []) : port (takeHeader s h again) h.port = ((port s h.port).acked h).resent again := by
  rw [port_takeHeader, headerAt, freshRelays_empty s e]
  exact drainPort_empty ((Port.resent_waitq _ again).trans e)

end Header

end Sys2Proof.Machine
end

section
/-! Sp. 11 R329, R332-R335: bad flits and lost ACKs send again or exhaust the port. -/

namespace Sys2Proof.Machine

/-! ## Retry exhaustion (sp. 11 R333) -/

section Exhaust
variable (s : State) (p : PortNo)

/-- State with a port's exhaustion recorded, before it goes DOWN. -/
def exhaustTold : State :=
  raise (setPort s p { port s p with exhausted := stopAt top32 ((port s p).exhausted + 1) })
    (ev 0x10 (portPlace p) 17 p.val (port s p).retries (port s p).naks.length .never)

theorem exhaust_fails : exhaust s p = portFail (exhaustTold s p) p := rfl

theorem exhaust_st : (port (exhaust s p) p).st = .down := by rw [exhaust_fails, port_portFail]

theorem exhaust_counted : oneMore s (exhaust s p) 0x10 (portPlace p) := by
  have told : oneMore _ (exhaustTold s p) 0x10 (portPlace p) := oneMore_raise (setPort s p _) (ev 0x10 (portPlace p) 17 p.val _ _ .never)
  unfold oneMore
  rw [exhaust_fails, countOf_portFail (by decide)]
  exact told

theorem exhaust_outside : outsideOf (exhaust s p) = outsideOf s := by
  have told : butEvents (exhaustTold s p) = butEvents (setPort s p _) := raise_only _ _
  rw [exhaust_fails, portFail_outside]
  exact (field_of outsideOf told (fun _ => rfl) :)

end Exhaust

/-! ## Bad flits (sp. 11 R329, R332) -/

/-- A port that has counted an uncorrectable codeword of a lane, if there was one. -/
def Port.spoilt (q : Port) : Option (Fin 8) → Port
  | none => q
  | some i => { q with uncorrectable := Sparse.bump top32 q.uncorrectable i.val 1 }

/-- The NAKs of the last millisecond, with one of now (sp. 11 R333). -/
def naksNow (q : Port) (now : Nat) : List Nat := q.naks.filter (fun t => decide (now < t + 1000000)) ++ [now]

/-- State with the NAK of bad flits sent. -/
def nakSent (s : State) (p : PortNo) (a b : BitVec 16) (l : Option (Fin 8)) : State :=
  let t := countUncorrectable s p l
  setPort t p (sendLink { port t p with naks := naksNow (port t p) s.ref } (some (a, nakLast a b)))

section Bad
variable {s : State} {p : PortNo} (l : Option (Fin 8))

theorem countUncorrectable_only : butLanes (countUncorrectable s p l) = butLanes s := by
  cases l with
  | none => rfl
  | some i => exact ite_field rfl rfl

theorem port_countUncorrectable (up : (port s p).st = .up) : port (countUncorrectable s p l) p = (port s p).spoilt l := by
  have crosses : flitsCross s p = true := by
    unfold flitsCross
    rw [up]
  cases l with
  | none => rfl
  | some i =>
    unfold countUncorrectable
    dsimp only
    rw [if_neg (by simp [crosses])]
    exact port_setPort s p _

theorem Port.spoilt_keeps (q : Port) : (q.spoilt l).st = q.st ∧ (q.spoilt l).out = q.out ∧ (q.spoilt l).rxNext = q.rxNext ∧
    (q.spoilt l).naks = q.naks := by
  cases l with
  | none => exact ⟨rfl, rfl, rfl, rfl⟩
  | some i => exact ⟨rfl, rfl, rfl, rfl⟩

variable (a b : BitVec 16)

theorem nakSent_field {γ : Type} (π : State → γ) (hl : ∀ t, π (butLanes t) = π t) (hp : ∀ t q, π (setPort t p q) = π t) :
    π (nakSent s p a b l) = π s := (hp _ _).trans (field_of π (countUncorrectable_only l) hl)

theorem nakSent_outside : outsideOf (nakSent s p a b l) = outsideOf s := nakSent_field l a b outsideOf (fun _ => rfl) (fun _ _ => rfl)

theorem port_nakSent (up : (port s p).st = .up) : ∃ f x y, port (nakSent s p a b l) p =
    { (port s p).spoilt l with naks := naksNow (port s p) s.ref, out := (port s p).out ++ [f], rxFreed := x, ackSent := y } ∧
    f.kind = 7 ∧ f.body = toLE 2 a.toNat ++ toLE 2 (nakLast a b).toNat ++ [1] ∧ f.ack = (port s p).rxNext := by
  obtain ⟨-, out, next, naks⟩ := Port.spoilt_keeps l (port s p)
  obtain ⟨f, x, y, sent, kind, body, ack⟩ := sendBare_leaves { (port s p).spoilt l with naks := naksNow ((port s p).spoilt l) s.ref } (.inl rfl)
    (toLE 2 a.toNat ++ toLE 2 (nakLast a b).toNat ++ [1])
  refine ⟨f, x, y, ?_, kind, body, ack.trans next⟩
  have same : naksNow (port s p) s.ref = naksNow ((port s p).spoilt l) s.ref := by rw [naksNow, naksNow, naks]
  unfold nakSent
  rw [port_setPort, port_countUncorrectable l up, same, ← out]
  exact sent

variable {hd : BitVec 8} {raw : List Byte}

theorem execBadFlit_bad (up : (port s p).st = .up) (bad : l.isSome ∨ flitSound hd raw = false) : exec (.badFlit p a b ⟨l, hd, raw⟩) s =
    if 1000 < (naksNow (port s p) s.ref).length then .next (exhaust (nakSent s p a b l) p) else .next (nakSent s p a b l) := by
  have naks : naksNow (port (countUncorrectable s p l) p) s.ref = naksNow (port s p) s.ref := by
    obtain ⟨-, -, -, naks⟩ := Port.spoilt_keeps l (port s p)
    rw [port_countUncorrectable l up, naksNow, naks, naksNow]
  have wrong : ¬(l.isNone ∧ flitSound hd raw) := by
    rintro ⟨none_, sound⟩
    rcases bad with some_ | unsound
    · rw [Option.isNone_iff_eq_none.1 none_] at some_
      cases some_
    · rw [unsound] at sound
      cases sound
  rw [← naks]
  exact if_neg (not_or.2 ⟨not_not.2 up, wrong⟩)

theorem execBadFlit_sound (sound : flitSound hd raw = true) : exec (.badFlit p a b ⟨none, hd, raw⟩) s = .next s :=
  if_pos (.inr ⟨rfl, sound⟩)

end Bad

/-! ## No ACK progress (sp. 11 R332, R333) -/

section Retry
variable {s : State} {p : PortNo}

theorem resend_all (q : Port) : (resend q (fun _ => true)).out = q.out ++ q.retry.map (·.flit) ∧
    (resend q (fun _ => true)).retry = q.retry.map (fun k => { k with resends := k.resends + 1 }) := by
  have all : q.retry.filter (fun _ => true) = q.retry := List.filter_eq_self.2 (fun _ _ => rfl)
  exact ⟨congrArg (fun l : List Kept => q.out ++ l.map (·.flit)) all, rfl⟩

/-- State with every kept flit sent again. -/
def allResent (s : State) (p : PortNo) : State := setPort s p (resend (port s p) (fun _ => true))

theorem allResent_outside (s : State) (p : PortNo) : outsideOf (allResent s p) = outsideOf s := rfl

theorem execRetryTimeout_resends (up : (port s p).st = .up) (kept : (port s p).retry ≠ []) :
    exec (.retryTimeout p) s = .next (checkResends (allResent s p) p) := if_pos ⟨up, by simpa using kept⟩

theorem checkResends_few (h : ∀ k ∈ (port s p).retry, k.resends < 16) : checkResends s p = s := by
  unfold checkResends
  refine if_neg ?_
  simpa using h

theorem checkResends_exhausts {k : Kept} (hk : k ∈ (port s p).retry) (h : 16 ≤ k.resends) : checkResends s p = exhaust s p := by
  unfold checkResends
  exact if_pos (List.any_eq_true.2 ⟨k, hk, decide_eq_true h⟩)

theorem retry_allResent : (port (allResent s p) p).retry = (port s p).retry.map (fun k => { k with resends := k.resends + 1 }) := by
  unfold allResent
  rw [port_setPort]
  exact (resend_all _).2

end Retry

/-! ## The obligation -/

theorem execLink_up {s : State} {h : FlitHdr} (up : (port s h.port).st = .up) : exec (.link h none) s =
    .next (takeHeader (countCorrected s h.port h.fec) h none) :=
  if_neg (not_not.2 up)

theorem execLink_nak {s : State} {h : FlitHdr} (up : (port s h.port).st = .up) (a b : BitVec 16) : exec (.link h (some (a, b))) s =
    .next (checkResends (takeHeader (countCorrected s h.port h.fec) h (some (fun q => decide ((q - a).toNat ≤ (b - a).toNat)))) h.port) :=
  if_neg (not_not.2 up)

/-- With no flit waiting the port after a header differs from `s` by the ACK, the credits, what is sent again, and the lanes' counts. -/
theorem port_takeHeader_counted {s : State} {h : FlitHdr} (e : (port s h.port).waitq = []) (again : Option (BitVec 16 → Bool)) :
    ∃ m, port (takeHeader (countCorrected s h.port h.fec) h again) h.port =
      (({ port s h.port with corrected := m } : Port).acked h).resent again := by
  obtain ⟨m, counted⟩ := port_countCorrected s h.port h.fec
  refine ⟨m, ?_⟩
  rw [← counted]
  exact port_takeHeader_empty again (by rw [counted]; exact e)

/-- Settles O43: a NAK is `nakSent`, exhaustion is `exhaust`; a header frees and sends again by `Port.acked` and `resend`. -/
theorem linkRetrySendsAgain : Obligations.LinkRetrySendsAgain := by
  intro p s up
  refine ⟨fun a b l hd raw bad few => ?nak, fun a b l hd raw bad many => ?many, fun a b hd raw sound => execBadFlit_sound a b sound,
    fun kept few => ?again, fun often => ?often, fun h c hp hc => ?link⟩
  case nak =>
    obtain ⟨f, x, y, nak, kind, body, ack⟩ := port_nakSent l a b up
    obtain ⟨st, -⟩ := Port.spoilt_keeps l (port s p)
    refine ⟨_, f, (execBadFlit_bad l a b up bad).trans (if_neg ?_), (congrArg Port.st nak).trans (st.trans up), congrArg Port.out nak, kind, body,
      ack, (congrArg Port.uncorrectable nak).trans ?_, nakSent_field l a b State.mem ?_ (fun _ _ => rfl),
      nakSent_field l a b State.err (fun _ => rfl) (fun _ _ => rfl), (outsideKept_iff _ _).2 (nakSent_outside l a b)⟩
    · rw [naksNow, List.length_append, List.length_singleton]
      omega
    · cases l with
      | none => rfl
      | some i => rfl
    · exact fun _ => rfl
  case many =>
    refine ⟨_, (execBadFlit_bad l a b up bad).trans (if_pos ?_), exhaust_st _ p, ?_,
      (outsideKept_iff _ _).2 ((exhaust_outside _ p).trans (nakSent_outside l a b))⟩
    · rw [naksNow, List.length_append, List.length_singleton]
      omega
    · exact oneMore_congr (exhaust_counted (nakSent s p a b l) p)
        (congrArg Errors.sources (nakSent_field l a b State.err (fun _ => rfl) (fun _ _ => rfl)).symm) rfl
  case again =>
    obtain ⟨out, retry⟩ := resend_all (port s p)
    have few' : ∀ k ∈ (port (allResent s p) p).retry, k.resends < 16 := by
      rw [retry_allResent]
      intro k hk
      obtain ⟨k', hk', rfl⟩ := List.mem_map.1 hk
      exact Nat.succ_lt_succ (of_decide_eq_true (List.all_eq_true.1 few k' hk'))
    refine ⟨allResent s p, (execRetryTimeout_resends up kept).trans (next_congr (checkResends_few few')), ?_⟩
    have port_ : port (allResent s p) p = resend (port s p) (fun _ => true) := port_setPort _ _ _
    rw [port_]
    exact ⟨out, retry, rfl, up, rfl, rfl, (outsideKept_iff _ _).2 rfl⟩
  case often =>
    obtain ⟨k, hk, many⟩ := List.any_eq_true.1 often
    have kept : { k with resends := k.resends + 1 } ∈ (port (allResent s p) p).retry := by
      rw [retry_allResent]
      exact List.mem_map.2 ⟨k, hk, rfl⟩
    exact ⟨_, (execRetryTimeout_resends up (List.ne_nil_of_mem hk)).trans
        (next_congr (checkResends_exhausts kept (Nat.succ_le_succ (of_decide_eq_true many)))),
      exhaust_st _ p, oneMore_congr (exhaust_counted (allResent s p) p) rfl rfl,
      (outsideKept_iff _ _).2 ((exhaust_outside _ p).trans (allResent_outside s p))⟩
  case link =>
    subst hp hc
    refine ⟨execLink_up up, fun e => ?_, fun a b sel hsel => ⟨?_, fun e => ?_⟩⟩
    · obtain ⟨m, acked⟩ := port_takeHeader_counted e none
      rw [acked]
      rfl
    · rw [hsel]
      exact execLink_nak up a b
    · obtain ⟨m, acked⟩ := port_takeHeader_counted e (some sel)
      rw [acked]
      rfl

end Sys2Proof.Machine
end

section
/-! Sp. 11 R330-R332, R335: the next flit in sequence is taken, delivered and acknowledged. -/

namespace Sys2Proof.Machine

/-! ## The place in sequence -/

/-- A port's place in the sequence: its state, the number expected, the flits held. -/
def Port.place (q : Port) : PortState × BitVec 16 × List Instr := (q.st, q.rxNext, q.reorder)

section Place
variable (s : State) {p : PortNo}

/-- What changes a port but for its place leaves that alone. -/
theorem place_setPort {q : Port} (e : q.place = (port s p).place) : (port (setPort s p q) p).place = (port s p).place :=
  (congrArg Port.place (port_setPort s p q)).trans e

theorem place_raise (e : Event) : (port (raise s e) p).place = (port s p).place := congrArg Port.place (port_raise s e p)

theorem place_setPort_raise {q : Port} (e : q.place = (port s p).place) (x : Event) :
    (port (raise (setPort s p q) x) p).place = (port s p).place := (place_raise _ x).trans (place_setPort s e)

theorem place_of_flitKept {s t : State} (h : flitKept t = flitKept s) : (port t p).place = (port s p).place :=
  congrArg Port.place (port_of_flitKept h p)

end Place

/-! ## A RELAY (sp. 02 R38) -/

/-- State with a RELAY's receive buffer free. -/
def relayFreed (s : State) (p : PortNo) : State := setPort s p (freeBuffer (port s p) 0)

/-- State with a port's run of skews at `n`, the last at beat `b`. -/
def skewSet (s : State) (p : PortNo) (n : Nat) (b : BitVec 48) : State := setPort s p { port s p with skewRun := n, skewBeat := b }

/-- State with a port's run of skews at an end. -/
def skewEnded (s : State) (p : PortNo) : State := skewSet s p 0 (port s p).skewBeat

/-- The run of skews with one at beat `b`: of consecutive beats, else begun anew. -/
def Port.skewsWith (q : Port) (b : BitVec 48) : Nat := if q.skewRun ≠ 0 ∧ b = q.skewBeat + 1 then q.skewRun + 1 else 1

theorem takeRelay_eq (s : State) (h : FlitHdr) (beat : BitVec 48) (tx : BitVec 12) : takeRelay s h beat tx =
    if !beatCounts s then relayFreed s h.port
    else if 2048 < (relaySkew s h.port beat tx).natAbs then beatSkew (relayFreed s h.port) h.port (relaySkew s h.port beat tx)
    else if (relaySkew s h.port beat tx).natAbs ≤ 48 then skewEnded (relayFreed s h.port) h.port
    else if (port (relayFreed s h.port) h.port).skewsWith beat < 4 then
      skewSet (relayFreed s h.port) h.port ((port (relayFreed s h.port) h.port).skewsWith beat) beat
    else beatSkew (skewEnded (relayFreed s h.port) h.port) h.port (relaySkew s h.port beat tx) := rfl

/-! ## What is being received meets other writes (sp. 11 R348) -/

/-- Port `r` is `q` but for what has met the transfers being received. -/
def MeetsOnly (q r : Port) : Prop := ∃ f : RxXfer → List (Nat × Nat), r = { q with rx := q.rx.map (fun x => { x with clash := f x }) }

theorem MeetsOnly.refl (q : Port) : MeetsOnly q q := ⟨RxXfer.clash, congrArg (fun l => { q with rx := l }) (List.map_id q.rx).symm⟩

theorem otherWrites_meets (s : State) (mine : Option Nat) (wr : List (Nat × Nat)) (p : PortNo) :
    MeetsOnly (port s p) (port (otherWrites s mine wr) p) := by
  rw [otherWrites_eq]
  split
  · exact .refl _
  · exact Sparse.get_map_rel (R := MeetsOnly) (f := meetRx s wr) (fun _ => .refl _) (fun _ => rfl) (fun _ => ⟨_, rfl⟩) s.ports p.val

/-! ## Each delivery keeps the place -/

section Deliver
variable (s : State) (h : FlitHdr)

theorem takeHeader_place (again : Option (BitVec 16 → Bool)) : (port (takeHeader s h again) h.port).place = (port s h.port).place :=
  (congrArg Port.place (takeHeader_unsent s h again) :)

theorem takeRelay_place (beat : BitVec 48) (tx : BitVec 12) : (port (takeRelay s h beat tx) h.port).place = (port s h.port).place := by
  have freed : (port (relayFreed s h.port) h.port).place = (port s h.port).place := place_setPort s rfl
  have skew (t : State) (d : Int) : (port (beatSkew t h.port d) h.port).place = (port t h.port).place := place_raise t _
  have run (t : State) (n : Nat) (b : BitVec 48) : (port (skewSet t h.port n b) h.port).place = (port t h.port).place := place_setPort t rfl
  rw [takeRelay_eq]
  split
  · exact freed
  · split
    · exact (skew _ _).trans freed
    · split
      · exact (run _ _ _).trans freed
      · split
        · exact (run _ _ _).trans freed
        · exact (skew _ _).trans ((run _ _ _).trans freed)

/-- State with a HEAD's wait for a stream counted, if it waits (sp. 09 R275). -/
def headWaits (s : State) (b : HeadBody) : State := if decide (4096 ≤ streamsHeld s (headDie b).val) then countWait s (headDie b) true else s

/-- State in which a HEAD's transfer has met what else is written (R348), and the transfer. -/
def headMet (s : State) (h : FlitHdr) (b : HeadBody) : State × RxXfer :=
  joinRx (headWaits s b) h.port { sender := h.sender, xfer := h.xfer, head := b, data := [], ended := false, crcBad := false, clash := [],
                                  fenced := [], queued := decide (4096 ≤ streamsHeld s (headDie b).val) }

theorem takeHead_eq (b : HeadBody) : takeHead s h b = setPort (headMet s h b).1 h.port
    { freeBuffer (port (headMet s h b).1 h.port) b.cls.toNat with
      curXfer := some (h.sender, h.xfer), rx := (port (headMet s h b).1 h.port).rx ++ [(headMet s h b).2] } := rfl

theorem headMet_port (b : HeadBody) : MeetsOnly (port s h.port) (port (headMet s h b).1 h.port) := by
  have waits : port (headWaits s b) h.port = port s h.port := ite_field (π := (port · h.port)) rfl rfl
  rw [← waits]
  exact otherWrites_meets (headWaits s b) none _ h.port

theorem takeHead_place (b : HeadBody) : (port (takeHead s h b) h.port).place = (port s h.port).place := by
  obtain ⟨f, met⟩ := headMet_port s h b
  have same : (port (headMet s h b).1 h.port).place = (port s h.port).place := by rw [met]; rfl
  exact (place_setPort (headMet s h b).1 (by rfl)).trans same

theorem takeResume_place : (port (takeResume s h) h.port).place = (port s h.port).place := place_setPort s rfl

theorem takeData_place (p : PortNo) (payload : List Byte) : (port (takeData s p payload) p).place = (port s p).place := by
  unfold takeData
  dsimp only
  split
  · exact place_setPort s rfl
  · exact place_setPort s rfl

theorem takeEnd_place (bytes : BitVec 64) (crc : BitVec 32) : (port (takeEnd s h bytes crc) h.port).place = (port s h.port).place := by
  unfold takeEnd
  dsimp only
  split
  · exact place_setPort s rfl
  · split
    · exact place_setPort_raise s (by rfl) _
    · exact place_setPort s (by rfl)

theorem takeNotice_place (code : Byte) (stepNo : BitVec 32) : (port (takeNotice s h code stepNo) h.port).place = (port s h.port).place :=
  place_setPort_raise s (by rfl) _

theorem takeTally_place (es : List TallyEntry) : (port (takeTally s h es) h.port).place = (port s h.port).place := by
  have entries : port (es.foldl (fun t e => if e.tally = 0 ∧ e.inc = 0 then t else applyTally t e.tally.toNat e.inc.toNat) s) h.port =
      port s h.port :=
    foldl_field (port · h.port) _ (fun t e => ite_field (π := (port · h.port)) rfl
      (congrArg (Sparse.get noPort · h.port.val) (applyTally_ports t _ _))) es s
  exact (place_setPort _ (by rfl)).trans (congrArg Port.place entries)

theorem restoreStatus_flitKept (b : DoneBody) : flitKept (restoreStatus s h b) = flitKept s := by
  unfold restoreStatus
  split
  · rfl
  · exact ite_field rfl rfl

theorem takeDone_place (b : DoneBody) : (port (takeDone s h b) h.port).place = (port s h.port).place := by
  unfold takeDone
  dsimp only
  split
  · exact place_setPort s rfl
  · exact (place_of_flitKept ((sendDone_flitKept _ _ _ b).trans (restoreStatus_flitKept _ h b))).trans (place_setPort s rfl)

/-- A delivery leaves the place in sequence as it is. -/
theorem deliverFlit_place (p : PortNo) (i : Instr) : (port (deliverFlit s p i) p).place = (port s p).place := by
  have header (hd : FlitHdr) : (port (takeHeader s { hd with port := p } none) p).place = (port s p).place :=
    takeHeader_place s { hd with port := p } none
  unfold deliverFlit
  split
  · exact (takeRelay_place _ _ _ _).trans (header _)
  · exact (takeHead_place _ _ _).trans (header _)
  · exact (takeResume_place _ _).trans (header _)
  · exact takeData_place s p _
  · exact (takeEnd_place _ _ _ _).trans (header _)
  · exact (takeDone_place _ _ _).trans (header _)
  · exact (takeTally_place _ _ _).trans (header _)
  · exact (takeNotice_place _ _ _ _).trans (header _)
  · rfl

end Deliver

/-! ## The next flit in sequence (sp. 11 R330-R332) -/

/-- State in which the next flit has been taken: what its lanes corrected is counted, and the next number is expected. -/
def flitTaken (s : State) (p : PortNo) (i : Instr) : State :=
  let c := countCorrected s p (fecOf i)
  setPort c p { port c p with rxNext := (port c p).rxNext + 1 }

/-- State with a delivered flit acknowledged by a LINK, where one is due (R332, R340). -/
def flitLinked (u : State) (p : PortNo) (i : Instr) : State :=
  if (port u p).st = .up ∧ (isTally i ∨ 256 ≤ ((port u p).rxNext - (port u p).ackSent).toNat) then setPort u p (sendLink (port u p) none) else u

/-- State with the next flit delivered and acknowledged. -/
def flitReceived (s : State) (p : PortNo) (i : Instr) : State := flitLinked (deliverFlit (flitTaken s p i) p i) p i

section Taken
variable (s : State) (p : PortNo) (i : Instr)

theorem port_flitTaken : ∃ m, port (flitTaken s p i) p = { port s p with corrected := m, rxNext := (port s p).rxNext + 1 } := by
  obtain ⟨m, e⟩ := port_countCorrected s p (fecOf i)
  refine ⟨m, ?_⟩
  unfold flitTaken
  rw [port_setPort, e]

theorem flitLinked_field {γ : Type} (π : State → γ) (hp : ∀ t q, π (setPort t p q) = π t) (u : State) : π (flitLinked u p i) = π u :=
  ite_field (hp u _) rfl

theorem flitLinked_unsent (u : State) : (port (flitLinked u p i) p).unsent = (port u p).unsent :=
  ite_field (π := fun t => (port t p).unsent) ((congrArg Port.unsent (port_setPort u p _)).trans (sendLink_unsent _ none)) rfl

theorem flitReceived_unsent : (port (flitReceived s p i) p).unsent = (port (deliverFlit (flitTaken s p i) p i) p).unsent :=
  flitLinked_unsent p i _

theorem flitReceived_delivers {s u : State} {p : PortNo} {i : Instr} (h : deliverFlit (flitTaken s p i) p i = u) :
    (port (flitReceived s p i) p).unsent = (port u p).unsent := by rw [flitReceived_unsent, h]

/-- What no change of a port touches is, as a flit has been received, as its delivery leaves it. -/
theorem flitReceived_field {γ : Type} (π : State → γ) (hp : ∀ t p q, π (setPort t p q) = π t) {s u : State} {p : PortNo} {i : Instr}
    (h : deliverFlit (flitTaken s p i) p i = u) : π (flitReceived s p i) = π u := by
  rw [← h]
  exact flitLinked_field p i π (fun t q => hp t p q) _

theorem flitReceived_place : (port (flitReceived s p i) p).place = ((port s p).st, (port s p).rxNext + 1, (port s p).reorder) := by
  obtain ⟨m, taken⟩ := port_flitTaken s p i
  have linked : (port (flitReceived s p i) p).place = (port (deliverFlit (flitTaken s p i) p i) p).place :=
    (congrArg Port.place (flitReceived_unsent s p i) :)
  rw [linked, deliverFlit_place, taken]
  rfl

theorem flitReceived_rxNext : (port (flitReceived s p i) p).rxNext = (port s p).rxNext + 1 := congrArg (fun x => x.2.1) (flitReceived_place s p i)

variable {s p i}

/-- With no held flit next in sequence, none is delivered. -/
theorem drainHeld_none (h : ∀ x ∈ (port s p).reorder, flitSeq x ≠ (port s p).rxNext) (n : Nat) : drainHeld n s p = s := by
  cases n with
  | zero => rfl
  | succ n =>
    have none_ : (port s p).reorder.find? (fun x => flitSeq x = (port s p).rxNext) = none :=
      List.find?_eq_none.2 (fun x hx => by simpa using h x hx)
    unfold drainHeld
    dsimp only
    rw [none_]

/-- The next flit in sequence is received. -/
theorem receiveFlit_next (h : nextInSequence s p i) : receiveFlit s p i = flitReceived s p i := by
  obtain ⟨up, seq, free⟩ := h
  obtain ⟨m, counted⟩ := port_countCorrected s p (fecOf i)
  have place := flitReceived_place s p i
  have accepted : acceptFlit (countCorrected s p (fecOf i)) p i = flitReceived s p i := rfl
  have ahead : (flitSeq i - (port (countCorrected s p (fecOf i)) p).rxNext).toNat = 0 := by
    rw [counted, seq, BitVec.sub_self]
    rfl
  have held : ∀ x ∈ (port (flitReceived s p i) p).reorder, flitSeq x ≠ (port (flitReceived s p i) p).rxNext := by
    have reorder : (port (flitReceived s p i) p).reorder = (port s p).reorder := congrArg (fun x => x.2.2) place
    rw [reorder, flitReceived_rxNext]
    exact fun x hx => of_decide_eq_true (List.all_eq_true.1 free x hx)
  unfold receiveFlit
  dsimp only
  rw [if_neg (not_not.2 ((countCorrected_st s p _).trans up)), ahead, if_pos rfl, accepted, drainHeld_none held]

end Taken

/-! ## One with a header -/

/-- What a transmitter leaves alone of a port. -/
theorem keeps_of_unsent {q r : Port} (h : q.unsent = r.unsent) :
    q.rx = r.rx ∧ q.tx = r.tx ∧ q.latency = r.latency ∧ q.skewRun = r.skewRun ∧ q.skewBeat = r.skewBeat :=
  ⟨(congrArg Port.rx h :), (congrArg Port.tx h :), (congrArg Port.latency h :), (congrArg Port.skewRun h :), (congrArg Port.skewBeat h :)⟩

theorem rest_of_flitKept {s t : State} (h : (flitKept t).2 = (flitKept s).2) :
    t.beat = s.beat ∧ t.cycle = s.cycle ∧ t.step.phase = s.step.phase ∧ t.step.stopped = s.step.stopped := by
  simpa only [flitKept, Prod.mk.injEq] using h

section Header
variable (s : State) (h : FlitHdr)

/-- What the port receives and awaits, its latency, and its run of skews, are as they were before the header. -/
theorem headerTaken_keeps : (port (headerTaken s h) h.port).rx = (port s h.port).rx ∧ (port (headerTaken s h) h.port).tx = (port s h.port).tx ∧
    (port (headerTaken s h) h.port).latency = (port s h.port).latency ∧ (port (headerTaken s h) h.port).skewRun = (port s h.port).skewRun ∧
    (port (headerTaken s h) h.port).skewBeat = (port s h.port).skewBeat := by
  obtain ⟨m, counted⟩ := port_countCorrected s h.port h.fec
  have unsent : (port (headerTaken s h) h.port).unsent =
      ({ port s h.port with corrected := m, rxNext := (port s h.port).rxNext + 1 } : Port).unsent := by
    refine (takeHeader_unsent _ h none).trans ?_
    rw [port_setPort, counted]
  obtain ⟨rx, tx, latency, run, beat⟩ := keeps_of_unsent unsent
  exact ⟨rx, tx, latency, run, beat⟩

/-- The beat, the cycle in it, and the step's phase are as before. -/
theorem headerTaken_rest : (flitKept (headerTaken s h)).2 = (flitKept s).2 :=
  (takeHeader_rest _ h none).trans
    (countCorrected_field s h.port h.fec (fun t => (flitKept t).2) (fun _ _ => rfl))

/-! A flit with a header is delivered once that has acted. -/

theorem deliver_head (b : HeadBody) : deliverFlit (flitTaken s h.port (.head h b)) h.port (.head h b) = takeHead (headerTaken s h) h b := rfl
theorem deliver_resume : deliverFlit (flitTaken s h.port (.resumeFlit h)) h.port (.resumeFlit h) = takeResume (headerTaken s h) h := rfl
theorem deliver_end (n : BitVec 64) (c : BitVec 32) :
    deliverFlit (flitTaken s h.port (.endFlit h n c)) h.port (.endFlit h n c) = takeEnd (headerTaken s h) h n c := rfl
theorem deliver_done (b : DoneBody) : deliverFlit (flitTaken s h.port (.done h b)) h.port (.done h b) = takeDone (headerTaken s h) h b := rfl
theorem deliver_tally (es : List TallyEntry) :
    deliverFlit (flitTaken s h.port (.tally h es)) h.port (.tally h es) = takeTally (headerTaken s h) h es := rfl
theorem deliver_notice (c : Byte) (n : BitVec 32) (x : Byte) :
    deliverFlit (flitTaken s h.port (.notice h c n x)) h.port (.notice h c n x) = takeNotice (headerTaken s h) h c n := rfl
theorem deliver_relay (b : BitVec 48) (c : BitVec 12) :
    deliverFlit (flitTaken s h.port (.relay h b c)) h.port (.relay h b c) = takeRelay (headerTaken s h) h b c := rfl

end Header

end Sys2Proof.Machine
end

section
/-! Sp. 11 R331, R332, R338, R341: flits are delivered in sequence. -/

namespace Sys2Proof.Machine

/-! ## The transfers being received -/

/-- What a list finds is found as `v` where `v` takes the place of all that is looked for. -/
theorem find_replaced {α : Type} {P : α → Bool} {l : List α} {r v : α} (found : l.find? P = some r) (hv : P v = true) :
    (l.map (fun x => if P x then v else x)).find? P = some v := by
  induction l with
  | nil => cases found
  | cons x l ih =>
    cases hx : P x with
    | true => simp [hx, hv]
    | false =>
      rw [List.find?_cons_of_neg (by simp [hx])] at found
      simpa [hx] using ih found

/-- A port is receiving the transfer of a sender and number. -/
def openRx (a : Byte) (n : BitVec 16) (x : RxXfer) : Bool := x.sender = a && x.xfer = n && !x.ended

theorem openRx_iff {a : Byte} {n : BitVec 16} {x : RxXfer} : openRx a n x = true ↔ x.sender = a ∧ x.xfer = n ∧ x.ended = false := by
  simp [openRx, and_assoc]

theorem curRx_eq (q : Port) : curRx q = q.curXfer.bind (fun c => q.rx.find? (openRx c.1 c.2)) := by
  unfold curRx
  cases q.curXfer <;> rfl

theorem curXfer_of_unsent {q r : Port} (h : q.unsent = r.unsent) : q.curXfer = r.curXfer := (congrArg Port.curXfer h :)

theorem curRx_of_unsent {q r : Port} (h : q.unsent = r.unsent) : curRx q = curRx r := (congrArg curRx h :)

/-- A changed transfer stands where the old one stood. -/
theorem find_setRx {q : Port} {r v : RxXfer} (found : q.rx.find? (openRx v.sender v.xfer) = some r) (open_ : v.ended = false) :
    (setRx q v).rx.find? (openRx v.sender v.xfer) = some v := find_replaced found (openRx_iff.2 ⟨rfl, rfl, open_⟩)

theorem curRx_setRx {q : Port} {r v : RxXfer} (cur : curRx q = some r) (sender : v.sender = r.sender) (xfer : v.xfer = r.xfer)
    (open_ : v.ended = false) : curRx (setRx q v) = some v := by
  rw [curRx_eq] at cur
  obtain ⟨c, named, found⟩ := Option.bind_eq_some_iff.1 cur
  obtain ⟨a, n, -⟩ := openRx_iff.1 (List.find?_some found)
  have same : openRx c.1 c.2 = openRx v.sender v.xfer := by rw [sender, xfer, a, n]
  have named' : (setRx q v).curXfer = some c := named
  rw [same] at found
  rw [curRx_eq, named', Option.bind_some, same]
  exact find_setRx found open_

theorem curRx_open {q : Port} {r : RxXfer} (cur : curRx q = some r) : r.ended = false := by
  rw [curRx_eq] at cur
  obtain ⟨c, -, found⟩ := Option.bind_eq_some_iff.1 cur
  obtain ⟨-, -, open_⟩ := openRx_iff.1 (List.find?_some found)
  exact open_

theorem mem_setRx {q : Port} {r v : RxXfer} (found : q.rx.find? (openRx v.sender v.xfer) = some r) : v ∈ (setRx q v).rx := by
  have is_ : openRx v.sender v.xfer r = true := List.find?_some found
  exact List.mem_map.2 ⟨r, List.mem_of_find?_eq_some found, if_pos is_⟩

/-! ## Each kind of flit is delivered -/

/-- The transfer that a HEAD opens, of which bytes `l` have met other writes, and which waits for a stream by `w`. -/
def openedRx (h : FlitHdr) (b : HeadBody) (l : List (Nat × Nat)) (w : Bool) : RxXfer :=
  { sender := h.sender, xfer := h.xfer, head := b, data := [], ended := false, crcBad := false, clash := l, fenced := [], queued := w }

section Deliver
variable (s : State) (h : FlitHdr)

/-- A HEAD opens its transfer behind those being received, and names it (R338). -/
theorem takeHead_opens (b : HeadBody) : ∃ l w ys, (port (takeHead s h b) h.port).curXfer = some (h.sender, h.xfer) ∧
    (port (takeHead s h b) h.port).rx = ys ++ [openedRx h b l w] ∧
    ys.map (fun x => { x with clash := [] }) = (port s h.port).rx.map (fun x => { x with clash := [] }) := by
  obtain ⟨f, met⟩ := headMet_port s h b
  refine ⟨(headMet s h b).2.clash, (headMet s h b).2.queued, (port (headMet s h b).1 h.port).rx, ?_, ?_, ?_⟩
  · rw [takeHead_eq, port_setPort]
  · rw [takeHead_eq, port_setPort]
    rfl
  · rw [met]
    exact List.map_map

/-- A RESUME names a transfer (R331). -/
theorem takeResume_names : (port (takeResume s h) h.port).curXfer = some (h.sender, h.xfer) ∧
    (port (takeResume s h) h.port).rx = (port s h.port).rx := by
  unfold takeResume
  rw [port_setPort]
  exact ⟨rfl, rfl⟩

/-- Data join the transfer named last (R331). -/
theorem takeData_joins {p : PortNo} {r : RxXfer} (cur : curRx (port s p) = some r) (d : List Byte) :
    curRx (port (takeData s p d) p) = some { r with data := r.data ++ d } := by
  have open_ : r.ended = false := curRx_open cur
  unfold takeData
  dsimp only
  rw [cur]
  dsimp only
  rw [port_setPort]
  exact curRx_setRx (q := freeBuffer (port s p) r.head.cls.toNat) cur rfl rfl open_

theorem takeData_field {γ : Type} (π : State → γ) {p : PortNo} (hp : ∀ t q, π (setPort t p q) = π t) (d : List Byte) :
    π (takeData s p d) = π s := by
  unfold takeData
  dsimp only
  split
  · exact hp s _
  · exact hp s _

/-- A transfer as its END closes it: its CRC is bad where the payload's differs, or its length (R342). -/
def RxXfer.closed (r : RxXfer) (n : BitVec 64) (crc : BitVec 32) : RxXfer :=
  { r with data := r.data.take n.toNat, ended := true,
           crcBad := decide (crc32c (r.data.take n.toNat) ≠ crc.toNat ∨ (r.data.take n.toNat).length ≠ n.toNat) }

/-- State with a transfer closed. -/
def rxClosed (x : RxXfer) : State := setPort s h.port (setRx (freeBuffer (port s h.port) x.head.cls.toNat) x)

variable {s h}

theorem takeEnd_closes {r : RxXfer} (n : BitVec 64) (crc : BitVec 32) (found : (port s h.port).rx.find? (openRx h.sender h.xfer) = some r) :
    takeEnd s h n crc = if (r.closed n crc).crcBad then
      raise (rxClosed s h (r.closed n crc)) (ev 0x11 (portPlace h.port) 17 h.port.val h.xfer.toNat h.sender.toNat .first)
    else rxClosed s h (r.closed n crc) := by
  have found' : (port s h.port).rx.find? (fun x => x.sender = h.sender && x.xfer = h.xfer && !x.ended) = some r := found
  unfold takeEnd
  dsimp only
  rw [found']
  rfl

/-- The closed transfer is among those received. -/
theorem takeEnd_received {r : RxXfer} (n : BitVec 64) (crc : BitVec 32) (found : (port s h.port).rx.find? (openRx h.sender h.xfer) = some r) :
    r.closed n crc ∈ (port (takeEnd s h n crc) h.port).rx ∧ r.sender = h.sender ∧ r.xfer = h.xfer := by
  obtain ⟨sender, xfer, -⟩ := openRx_iff.1 (List.find?_some found)
  have found' : (port s h.port).rx.find? (openRx (r.closed n crc).sender (r.closed n crc).xfer) = some r := by
    rw [← found]
    exact congrArg₂ (fun a m => (port s h.port).rx.find? (openRx a m)) sender xfer
  have closed : r.closed n crc ∈ (port (rxClosed s h (r.closed n crc)) h.port).rx := by
    unfold rxClosed
    rw [port_setPort]
    exact mem_setRx (q := freeBuffer (port s h.port) _) found'
  refine ⟨?_, sender, xfer⟩
  rw [takeEnd_closes n crc found]
  split
  · rw [port_raise]
    exact closed
  · exact closed

theorem takeEnd_counted {r : RxXfer} (n : BitVec 64) (crc : BitVec 32) (found : (port s h.port).rx.find? (openRx h.sender h.xfer) = some r)
    (bad : (r.closed n crc).crcBad = true) : oneMore s (takeEnd s h n crc) 0x11 (portPlace h.port) := by
  have counted : oneMore (rxClosed s h (r.closed n crc)) _ 0x11 (portPlace h.port) :=
    oneMore_raise _ (ev 0x11 (portPlace h.port) 17 h.port.val h.xfer.toNat h.sender.toNat .first)
  rw [takeEnd_closes n crc found, if_pos bad]
  exact oneMore_congr counted rfl rfl

/-- A DONE ends the transfer that awaits it (R340). -/
theorem takeDone_ends {x : TxXfer} (b : DoneBody) (awaits : (port s h.port).tx.find? (fun x => x.xfer = h.xfer) = some x) :
    (port (takeDone s h b) h.port).tx = (port s h.port).tx.filter (fun y => y.xfer ≠ h.xfer) := by
  have awaits' : (freeBuffer (port s h.port) 1).tx.find? (fun x => x.xfer = h.xfer) = some x := awaits
  unfold takeDone
  dsimp only
  rw [awaits']
  dsimp only
  rw [port_of_flitKept ((sendDone_flitKept _ _ _ b).trans (restoreStatus_flitKept _ h b)), port_setPort]
  rfl

end Deliver

/-! ## Flits out of turn (sp. 11 R332) -/

section OutOfTurn
variable {s : State} {p : PortNo} (i : Instr)

theorem receiveFlit_notUp (h : (port s p).st ≠ .up) : receiveFlit s p i = countCorrected s p (fecOf i) := by
  unfold receiveFlit
  exact if_pos (by rw [countCorrected_st]; exact h)

/-- Whether a flit is ahead of its turn is asked with the lanes' counts made, which leave the place in sequence as it is. -/
theorem receiveFlit_up (up : (port s p).st = .up) (late : (flitSeq i - (port s p).rxNext).toNat ≠ 0) : receiveFlit s p i =
    if 32768 ≤ (flitSeq i - (port s p).rxNext).toNat ∨ (port s p).reorder.any (fun x => flitSeq x = flitSeq i) then countCorrected s p (fecOf i)
    else if 1024 ≤ (port s p).reorder.length then exhaust (countCorrected s p (fecOf i)) p
    else setPort (countCorrected s p (fecOf i)) p { port (countCorrected s p (fecOf i)) p with reorder := (port s p).reorder ++ [i] } := by
  obtain ⟨m, counted⟩ := port_countCorrected s p (fecOf i)
  have next : (port (countCorrected s p (fecOf i)) p).rxNext = (port s p).rxNext := by rw [counted]
  have held : (port (countCorrected s p (fecOf i)) p).reorder = (port s p).reorder := by rw [counted]
  unfold receiveFlit
  dsimp only
  rw [if_neg (not_not.2 ((countCorrected_st s p _).trans up)), next, if_neg late, held]

theorem receiveFlit_held (up : (port s p).st = .up) (ahead : 1 ≤ (flitSeq i - (port s p).rxNext).toNat)
    (near : (flitSeq i - (port s p).rxNext).toNat < 32768) (new : ∀ x ∈ (port s p).reorder, flitSeq x ≠ flitSeq i)
    (room : (port s p).reorder.length < 1024) : receiveFlit s p i =
      setPort (countCorrected s p (fecOf i)) p { port (countCorrected s p (fecOf i)) p with reorder := (port s p).reorder ++ [i] } := by
  have first : ¬(32768 ≤ (flitSeq i - (port s p).rxNext).toNat ∨ (port s p).reorder.any (fun x => flitSeq x = flitSeq i) = true) := by
    rw [List.any_eq_true]
    rintro (far | ⟨x, hx, same⟩)
    · exact absurd far (Nat.not_le.2 near)
    · exact new x hx (of_decide_eq_true same)
  rw [receiveFlit_up i up (Nat.ne_of_gt ahead), if_neg first, if_neg (Nat.not_le.2 room)]

theorem receiveFlit_dropped (up : (port s p).st = .up) (past : 32768 ≤ (flitSeq i - (port s p).rxNext).toNat) :
    receiveFlit s p i = countCorrected s p (fecOf i) := by
  rw [receiveFlit_up i up (by omega), if_pos (.inl past)]

end OutOfTurn

/-! ## The obligation -/

/-- Settles O44: the next flit is taken, delivered and acknowledged (`flitReceived`); out of turn it is held or dropped. -/
theorem flitsAreDeliveredInSequence : Obligations.FlitsAreDeliveredInSequence := by
  intro s h
  obtain ⟨rx, tx, -⟩ := headerTaken_keeps s h
  refine ⟨fun b next => ?head, fun next => ?resume, fun p q d l r next cur => ?data, fun n c r next found => ?end_, fun b next => ?done,
    fun i down => receiveFlit_notUp i down, fun i c hc up ahead near new room => ?held, fun i up past => receiveFlit_dropped i up past⟩
  case head =>
    obtain ⟨l, w, ys, named, received, met⟩ := takeHead_opens (headerTaken s h) h b
    have kept := flitReceived_delivers (deliver_head s h b)
    obtain ⟨rx', -⟩ := keeps_of_unsent kept
    exact ⟨_, next_congr (receiveFlit_next next), flitReceived_rxNext s h.port _, (curXfer_of_unsent kept).trans named, l, w, ys,
      rx'.trans received, by rw [met, rx]⟩
  case resume =>
    obtain ⟨named, received⟩ := takeResume_names (headerTaken s h) h
    have kept := flitReceived_delivers (deliver_resume s h)
    obtain ⟨rx', -⟩ := keeps_of_unsent kept
    exact ⟨_, next_congr (receiveFlit_next next), flitReceived_rxNext s h.port _, (curXfer_of_unsent kept).trans named,
      rx'.trans (received.trans rx)⟩
  case data =>
    obtain ⟨m, taken⟩ := port_flitTaken s p (.dataFlit p q ⟨d, l⟩)
    have cur' : curRx (port (flitTaken s p (.dataFlit p q ⟨d, l⟩)) p) = some r := by rw [taken]; exact cur
    have field {γ : Type} (π : State → γ) (hp : ∀ t k v, π (setPort t k v) = π t) (hc : ∀ t, π (countCorrected t p l) = π t) :
        π (flitReceived s p (.dataFlit p q ⟨d, l⟩)) = π s :=
      (flitReceived_field π hp rfl).trans ((takeData_field _ π (fun t v => hp t p v) d).trans ((hp _ _ _).trans (hc s)))
    exact ⟨_, next_congr (receiveFlit_next next), flitReceived_rxNext s p _,
      (curRx_of_unsent (flitReceived_unsent s p _)).trans (takeData_joins _ cur' d),
      field State.mem (fun _ _ _ => rfl) (fun t => countCorrected_mem t p l),
      (outsideKept_iff _ _).2 (field outsideOf (fun _ _ _ => rfl) (fun t => countCorrected_outside t p l))⟩
  case end_ =>
    have found' : (port (headerTaken s h) h.port).rx.find? (openRx h.sender h.xfer) = some r := by rw [rx]; exact found
    obtain ⟨received, sender, xfer⟩ := takeEnd_received n c found'
    obtain ⟨rx', -⟩ := keeps_of_unsent (flitReceived_delivers (deliver_end s h n c))
    refine ⟨_, r.closed n c, next_congr (receiveFlit_next next), flitReceived_rxNext s h.port _, ?_, sender, xfer, rfl, rfl, decide_eq_true_iff,
      fun bad => ?_⟩
    · rw [rx']
      exact received
    · exact oneMore_congr (takeEnd_counted n c found' bad) rfl
        (congrArg Errors.sources (flitReceived_field State.err (fun _ _ _ => rfl) (deliver_end s h n c)))
  case done =>
    refine ⟨_, next_congr (receiveFlit_next next), flitReceived_rxNext s h.port _, fun x awaits y hy => ?_⟩
    obtain ⟨-, tx', -⟩ := keeps_of_unsent (flitReceived_delivers (deliver_done s h b))
    rw [tx', takeDone_ends (x := x) b (by rw [tx]; exact awaits)] at hy
    exact of_decide_eq_true (List.mem_filter.1 hy).2
  case held =>
    subst hc
    exact receiveFlit_held i up ahead near new room

end Sys2Proof.Machine
end

section
/-! Sp. 11 R340, R344, R345; sp. 02 R38: TALLY, NOTICE and RELAY flits act. -/

namespace Sys2Proof.Machine

/-! ## TALLY and NOTICE -/

section Told
variable (s : State) (h : FlitHdr)

/-- An entry reaches its tally; the padding entry, of nothing to tally 0, leaves it as it is. -/
theorem takeTally_adds (e : TallyEntry) : tallyOf (takeTally s h [e]) e.tally.toNat =
    BitVec.ofNat 32 (min 0xFFFFFFFF ((tallyOf s e.tally.toNat).toNat + e.inc.toNat)) := by
  change tallyOf (if e.tally = 0 ∧ e.inc = 0 then s else applyTally s e.tally.toNat e.inc.toNat) e.tally.toNat = _
  split
  case isTrue padding =>
    obtain ⟨-, none_⟩ := padding
    have nothing : e.inc.toNat = 0 := by rw [none_]; rfl
    have small := (tallyOf s e.tally.toNat).isLt
    rw [nothing, Nat.add_zero, Nat.min_eq_right (by omega), BitVec.ofNat_toNat, BitVec.setWidth_eq]
  case isFalse => exact tallyOf_applyTallyAt_self s _ _ _

theorem takeNotice_counted (code : Byte) (stepNo : BitVec 32) : oneMore s (takeNotice s h code stepNo) 0x12 (portPlace h.port) := by
  have counted : oneMore (setPort s h.port (freeBuffer (port s h.port) 0)) (takeNotice s h code stepNo) 0x12 (portPlace h.port) :=
    oneMore_raise _ (ev 0x12 (portPlace h.port) 17 h.port.val (code.toNat + 2 ^ 8 * h.sender.toNat) stepNo.toNat .never)
  exact oneMore_congr counted rfl rfl

theorem takeNotice_rest (code : Byte) (stepNo : BitVec 32) : (flitKept (takeNotice s h code stepNo)).2 = (flitKept s).2 :=
  (field_of (fun t => (flitKept t).2) (raise_only (setPort s h.port (freeBuffer (port s h.port) 0)) _) (fun _ => rfl) :)

end Told

/-! ## RELAY (sp. 02 R38) -/

section Relay
variable {s : State} {h : FlitHdr} {b : BitVec 48} {c : BitVec 12}

theorem takeRelay_unlocked (lock : s.beat.lock = .unlocked) : (takeRelay s h b c).err = s.err := by
  rw [takeRelay_eq, if_pos (by simp [beatCounts, lock])]
  rfl

theorem beatSkew_counted (t : State) (p : PortNo) (d : Int) : oneMore t (beatSkew t p d) 0x02 (portPlace p) :=
  oneMore_raise t (ev 0x02 (portPlace p) 21 p.val p.val (unsigned 64 d) .every)

/-- The run of skews is ended, and the error records are those of `s`. -/
theorem skewEnded_keeps (s : State) (p : PortNo) :
    (port (skewEnded (relayFreed s p) p) p).skewRun = 0 ∧ (skewEnded (relayFreed s p) p).err = s.err :=
  ⟨congrArg Port.skewRun (port_setPort _ p _), rfl⟩

variable (lock : s.beat.lock ≠ .unlocked)
include lock

theorem takeRelay_judged : takeRelay s h b c =
    if 2048 < (relaySkew s h.port b c).natAbs then beatSkew (relayFreed s h.port) h.port (relaySkew s h.port b c)
    else if (relaySkew s h.port b c).natAbs ≤ 48 then skewEnded (relayFreed s h.port) h.port
    else if (port s h.port).skewsWith b < 4 then skewSet (relayFreed s h.port) h.port ((port s h.port).skewsWith b) b
    else beatSkew (skewEnded (relayFreed s h.port) h.port) h.port (relaySkew s h.port b c) := by
  have freed : (port (relayFreed s h.port) h.port).skewsWith b = (port s h.port).skewsWith b :=
    (congrArg (Port.skewsWith · b) (port_setPort s h.port (freeBuffer (port s h.port) 0)) :)
  rw [takeRelay_eq, if_neg (by simp [beatCounts, lock]), freed]

/-- A relay of another beat. -/
theorem takeRelay_far (far : 2048 < (relaySkew s h.port b c).natAbs) : oneMore s (takeRelay s h b c) 0x02 (portPlace h.port) := by
  rw [takeRelay_judged lock, if_pos far]
  exact oneMore_congr (beatSkew_counted (relayFreed s h.port) h.port _) rfl rfl

theorem takeRelay_near (near : (relaySkew s h.port b c).natAbs ≤ 48) :
    (port (takeRelay s h b c) h.port).skewRun = 0 ∧ (takeRelay s h b c).err = s.err := by
  rw [takeRelay_judged lock, if_neg (by omega), if_pos near]
  exact skewEnded_keeps s h.port

theorem takeRelay_skewed (beyond : 48 < (relaySkew s h.port b c).natAbs) (same : (relaySkew s h.port b c).natAbs ≤ 2048)
    (few : (port s h.port).skewsWith b < 4) : (port (takeRelay s h b c) h.port).skewRun = (port s h.port).skewsWith b ∧
      (port (takeRelay s h b c) h.port).skewBeat = b ∧ (takeRelay s h b c).err = s.err := by
  have set_ := port_setPort (relayFreed s h.port) h.port
    { port (relayFreed s h.port) h.port with skewRun := (port s h.port).skewsWith b, skewBeat := b }
  rw [takeRelay_judged lock, if_neg (by omega), if_neg (by omega), if_pos few]
  exact ⟨congrArg Port.skewRun set_, congrArg Port.skewBeat set_, rfl⟩

/-- The fourth skew in a row. -/
theorem takeRelay_fourth (beyond : 48 < (relaySkew s h.port b c).natAbs) (same : (relaySkew s h.port b c).natAbs ≤ 2048)
    (fourth : 4 ≤ (port s h.port).skewsWith b) :
    (port (takeRelay s h b c) h.port).skewRun = 0 ∧ oneMore s (takeRelay s h b c) 0x02 (portPlace h.port) := by
  obtain ⟨run, err⟩ := skewEnded_keeps s h.port
  have counted := beatSkew_counted (skewEnded (relayFreed s h.port) h.port) h.port (relaySkew s h.port b c)
  rw [takeRelay_judged lock, if_neg (by omega), if_neg (by omega), if_neg (by omega)]
  exact ⟨(congrArg Port.skewRun (port_raise _ _ h.port)).trans run, oneMore_congr counted (congrArg Errors.sources err.symm) rfl⟩

end Relay

/-! ## What the header of a flit leaves of the beat -/

section Header
variable (s : State) (h : FlitHdr) (b : BitVec 48) (c : BitVec 12)

theorem headerTaken_beat : (headerTaken s h).beat = s.beat := by
  obtain ⟨beat, -⟩ := rest_of_flitKept (headerTaken_rest s h)
  exact beat

theorem headerTaken_relaySkew : relaySkew (headerTaken s h) h.port b c = relaySkew s h.port b c := by
  obtain ⟨-, -, latency, -⟩ := headerTaken_keeps s h
  obtain ⟨beat, cycle, -⟩ := rest_of_flitKept (headerTaken_rest s h)
  unfold relaySkew
  rw [latency, cycle, beat]

theorem headerTaken_skewsWith : (port (headerTaken s h) h.port).skewsWith b = (port s h.port).skewsWith b := by
  obtain ⟨-, -, -, run, beat⟩ := headerTaken_keeps s h
  unfold Port.skewsWith
  rw [run, beat]

end Header

/-! ## The obligation -/

/-- Settles O45: the header acts, and the flit's own delivery follows; the LINK that may answer it touches the port alone. -/
theorem talliesNoticesAndRelaysAct : Obligations.TalliesNoticesAndRelaysAct := by
  intro s h
  refine ⟨fun e next => ?tally, fun c n x next => ?notice, fun b c d n next lock hd hn => ?relay, fun b c next lock => ?unlocked⟩
  case tally =>
    have tally := flitReceived_field (tallyOf · e.tally.toNat) (fun _ _ _ => rfl) (deliver_tally s h [e])
    exact ⟨_, next_congr (receiveFlit_next next), flitReceived_rxNext s h.port _, tally.trans (takeTally_adds _ h e)⟩
  case notice =>
    have err := flitReceived_field State.err (fun _ _ _ => rfl) (deliver_notice s h c n x)
    have kept := flitReceived_field (fun t => (flitKept t).2) (fun _ _ _ => rfl) (deliver_notice s h c n x)
    obtain ⟨-, -, phase, stopped⟩ := rest_of_flitKept (kept.trans ((takeNotice_rest _ h c n).trans (headerTaken_rest s h)))
    exact ⟨_, next_congr (receiveFlit_next next), flitReceived_rxNext s h.port _,
      oneMore_congr (takeNotice_counted _ h c n) rfl (congrArg Errors.sources err), phase, stopped⟩
  case relay =>
    have err := flitReceived_field State.err (fun _ _ _ => rfl) (deliver_relay s h b c)
    obtain ⟨-, -, -, run, beat⟩ := keeps_of_unsent (flitReceived_delivers (deliver_relay s h b c))
    have counted : oneMore (headerTaken s h) (takeRelay (headerTaken s h) h b c) 0x02 (portPlace h.port) →
        oneMore (headerTaken s h) (flitReceived s h.port (.relay h b c)) 0x02 (portPlace h.port) :=
      fun one => oneMore_congr one rfl (congrArg Errors.sources err)
    have lock' : (headerTaken s h).beat.lock ≠ .unlocked := by rw [headerTaken_beat]; exact lock
    have hd' : d = (relaySkew (headerTaken s h) h.port b c).natAbs := by rw [headerTaken_relaySkew]; exact hd
    have hn' : n = (port (headerTaken s h) h.port).skewsWith b := by rw [headerTaken_skewsWith]; exact hn
    subst hd' hn'
    refine ⟨_, next_congr (receiveFlit_next next), flitReceived_rxNext s h.port _, fun far => counted (takeRelay_far lock' far), fun near => ?_,
      fun beyond same few => ?_, fun beyond same fourth => ?_⟩
    · obtain ⟨ended, kept⟩ := takeRelay_near (h := h) lock' near
      exact ⟨run.trans ended, err.trans kept⟩
    · obtain ⟨runs, at_, kept⟩ := takeRelay_skewed (h := h) lock' beyond same few
      exact ⟨run.trans runs, beat.trans at_, err.trans kept⟩
    · obtain ⟨ended, one⟩ := takeRelay_fourth (h := h) lock' beyond same fourth
      exact ⟨run.trans ended, counted one⟩
  case unlocked =>
    have err := flitReceived_field State.err (fun _ _ _ => rfl) (deliver_relay s h b c)
    exact ⟨_, next_congr (receiveFlit_next next), err.trans (takeRelay_unlocked (by rw [headerTaken_beat]; exact lock))⟩

end Sys2Proof.Machine
end

section
/-! Sp. 13 R365, R370, R371: a frame at the ingest meets its link, its credit and its opcode. -/

namespace Sys2Proof.Machine

/-! ## What the ingest runs of a frame -/

theorem frame_of_commandOf {c : Instr} {f : Frame} {i : CmdInfo} (h : commandOf c = some (f, i)) : c.frame? = some f := by
  cases c with
  | _ => simp_all [commandOf, Instr.frame?]

/-- A command that carries a frame is a command with a reply, a data frame, or one whose opcode no table lists. -/
theorem exec_frame {c : Instr} {f : Frame} (h : c.frame? = some f) :
    (∃ i body, ∀ s, exec c s = .next (runCommand s f c i body)) ∨ (∃ i body, ∀ s, exec c s = .next (runData s f i body)) ∨
      ∃ opcode, c = .unknownOpcode opcode f := by
  rcases hc : commandOf c with _ | ⟨g, i⟩
  case some =>
    obtain rfl : g = f := Option.some.inj ((frame_of_commandOf hc).symm.trans h)
    obtain ⟨body, -, runs⟩ := exec_command hc
    exact .inl ⟨i, body, runs⟩
  case none =>
    cases c with
    | sheetData g => cases h; exact .inr (.inl ⟨_, _, fun _ => rfl⟩)
    | writeData g => cases h; exact .inr (.inl ⟨_, _, fun _ => rfl⟩)
    | fwSlotData g => cases h; exact .inr (.inl ⟨_, _, fun _ => rfl⟩)
    | unknownOpcode opcode g => cases h; exact .inr (.inr ⟨opcode, rfl⟩)
    | _ => simp [Instr.frame?, commandOf] at h hc

section Ingest
variable {s : State} {f : Frame}

theorem runCommand_down {c : Instr} {i : CmdInfo} (body : State → Owed → State × Ans) (ht : s.taking = none) (hu : (kcp s f.port).up = false) :
    runCommand s f c i body = s := by
  unfold runCommand
  rw [ht, hu]
  rfl

theorem runCommand_overrun {c : Instr} {i : CmdInfo} (body : State → Owed → State × Ans) (ht : s.taking = none) (hu : (kcp s f.port).up = true)
    (hc : creditHeld (kcp s f.port) f.cls = false) : runCommand s f c i body = creditOverrun s f.port f.cls := by
  unfold runCommand
  rw [ht, hu, hc]
  rfl

theorem runCommand_checks {c : Instr} {i : CmdInfo} (body : State → Owed → State × Ans) (ht : s.taking = none) (hu : (kcp s f.port).up = true)
    (hc : creditHeld (kcp s f.port) f.cls = true) : runCommand s f c i body = checkCommand (creditUse s f.port f.cls) f c i body := by
  unfold runCommand
  rw [ht, hu, hc]
  rfl

theorem runData_down {i : CmdInfo} (body : State → Option State) (hu : (kcp s f.port).up = false) : runData s f i body = s := by
  unfold runData
  rw [hu]
  rfl

theorem runData_overrun {i : CmdInfo} (body : State → Option State) (hu : (kcp s f.port).up = true)
    (hc : creditHeld (kcp s f.port) f.cls = false) : runData s f i body = creditOverrun s f.port f.cls := by
  unfold runData
  rw [hu, hc]
  rfl

theorem execUnknownOpcode_down (opcode : Byte) (hu : (kcp s f.port).up = false) : execUnknownOpcode opcode f s = .next s := by
  unfold execUnknownOpcode
  rw [hu]
  rfl

theorem execUnknownOpcode_overrun (opcode : Byte) (hu : (kcp s f.port).up = true) (hc : creditHeld (kcp s f.port) f.cls = false) :
    execUnknownOpcode opcode f s = .next (creditOverrun s f.port f.cls) := by
  unfold execUnknownOpcode
  rw [hu, hc]
  rfl

theorem execUnknownOpcode_heard (opcode : Byte) (hu : (kcp s f.port).up = true) (hc : creditHeld (kcp s f.port) f.cls = true) :
    execUnknownOpcode opcode f s = .next (if f.cls = 2 then stray (creditUse s f.port f.cls) f.port opcode
      else refuse (creditUse s f.port f.cls) opcode f.seq stUnknownOpcode) := by
  unfold execUnknownOpcode
  rw [hu, hc]
  exact (apply_ite Host.Outcome.next _ _ _).symm

/-- Nothing arrives on a link that is down. -/
theorem exec_frame_down {c : Instr} (h : c.frame? = some f) (ht : s.taking = none) (hu : (kcp s f.port).up = false) : exec c s = .next s := by
  obtain ⟨i, body, runs⟩ | ⟨i, body, runs⟩ | ⟨opcode, rfl⟩ := exec_frame h
  · rw [runs, runCommand_down body ht hu]
  · rw [runs, runData_down body hu]
  · exact execUnknownOpcode_down opcode hu

/-- A frame without a credit is an overrun. -/
theorem exec_frame_overrun {c : Instr} (h : c.frame? = some f) (ht : s.taking = none) (hu : (kcp s f.port).up = true)
    (hc : creditHeld (kcp s f.port) f.cls = false) : exec c s = .next (creditOverrun s f.port f.cls) := by
  obtain ⟨i, body, runs⟩ | ⟨i, body, runs⟩ | ⟨opcode, rfl⟩ := exec_frame h
  · rw [runs, runCommand_overrun body ht hu hc]
  · rw [runs, runData_overrun body hu hc]
  · exact execUnknownOpcode_overrun opcode hu hc

end Ingest

/-! ## A frame that the ingest counts and records -/

@[simp] theorem kcp_raise (s : State) (e : Event) (k : Kcp) : kcp (raise s e) k = kcp s k := by
  cases k
  · exact congrArg Control.a (raise_ctl s e)
  · exact congrArg Control.b (raise_ctl s e)

@[simp] theorem setKcp_sent (s : State) (k : Kcp) (v : KcpSt) : (setKcp s k v).ctl.sent = s.ctl.sent := by cases k <;> rfl

@[simp] theorem setKcp_carrier (s : State) (k : Kcp) (v : KcpSt) : (setKcp s k v).ctl.carrier = s.ctl.carrier := by cases k <;> rfl

@[simp] theorem creditUse_sent (s : State) (k : Kcp) (c : BitVec 2) : (creditUse s k c).ctl.sent = s.ctl.sent := setKcp_sent _ _ _

/-- A frame taken moves the counters of its class alone. -/
theorem kcp_creditUse (s : State) (k : Kcp) (c : BitVec 2) : kcp (creditUse s k c) k = (kcp s k).setCred c
    { (kcp s k).cred c with arrived := ((kcp s k).cred c).arrived + 1, freed := ((kcp s k).cred c).freed + 1 } := kcp_setKcp _ _ _

theorem setCred_stray (k : KcpSt) (c : BitVec 2) (v : Credit) : (k.setCred c v).stray = k.stray := by
  unfold KcpSt.setCred
  repeat' split
  all_goals rfl

section Counted
variable (s : State) (k : Kcp)

theorem creditOverrun_kcp (c : BitVec 2) : kcp (creditOverrun s k c) k = { kcp s k with overrun := stopAt top32 ((kcp s k).overrun + 1) } := by
  unfold creditOverrun
  rw [kcp_raise, kcp_setKcp]

theorem creditOverrun_cred (c d : BitVec 2) : (kcp (creditOverrun s k c) k).cred d = (kcp s k).cred d := by
  rw [creditOverrun_kcp]
  rfl

theorem creditOverrun_counted (c : BitVec 2) : oneMore s (creditOverrun s k c) 0x14 (kcpPlace k) :=
  oneMore_congr (oneMore_raise (setKcp s k _) (ev 0x14 (kcpPlace k) 18 (kcpNo k) c.toNat (kcpNo k) .never))
    (congrArg Errors.sources (setKcp_err s k _).symm) rfl

theorem creditOverrun_sent (c : BitVec 2) : (creditOverrun s k c).ctl.sent = s.ctl.sent := by
  unfold creditOverrun
  rw [raise_ctl, setKcp_sent]

theorem creditOverrun_ses (c : BitVec 2) : (creditOverrun s k c).ses = s.ses := by
  unfold creditOverrun
  rw [raise_ses, setKcp_ses]

theorem stray_kcp (opcode : Byte) : kcp (stray s k opcode) k = { kcp s k with stray := stopAt top32 ((kcp s k).stray + 1) } := by
  unfold stray
  rw [kcp_raise, kcp_setKcp]

theorem stray_counted (opcode : Byte) : oneMore s (stray s k opcode) 0x15 (kcpPlace k) :=
  oneMore_congr (oneMore_raise (setKcp s k _) (ev 0x15 (kcpPlace k) 18 (kcpNo k) opcode.toNat (kcpNo k) .never))
    (congrArg Errors.sources (setKcp_err s k _).symm) rfl

theorem stray_sent (opcode : Byte) : (stray s k opcode).ctl.sent = s.ctl.sent := by
  unfold stray
  rw [raise_ctl, setKcp_sent]

theorem stray_ses (opcode : Byte) : (stray s k opcode).ses = s.ses := by
  unfold stray
  rw [raise_ses, setKcp_ses]

end Counted

/-- Settles O7: a frame meets its link and its credit before all else (`exec_frame_down`, `exec_frame_overrun`); of an opcode that no table lists a
class 2 frame is `stray`, another is refused. -/
theorem aFrameNeedsALinkAndACredit : Obligations.AFrameNeedsALinkAndACredit := by
  refine ⟨fun c f s h ht hu => exec_frame_down h ht hu, fun c f s h ht hu hc => ?overrun, fun opcode f s hu hc => ⟨fun other => ?refused, fun data => ?stray⟩⟩
  case overrun =>
    have port := creditOverrun_kcp s f.port f.cls
    exact ⟨_, exec_frame_overrun h ht hu hc, congrArg KcpSt.overrun port, creditOverrun_sent s f.port f.cls,
      creditOverrun_cred s f.port f.cls f.cls, creditOverrun_ses s f.port f.cls, creditOverrun_counted s f.port f.cls⟩
  case refused => exact (execUnknownOpcode_heard opcode hu hc).trans (next_congr (if_neg other))
  case stray =>
    refine ⟨_, (execUnknownOpcode_heard opcode hu hc).trans (next_congr (if_pos data)), ?_, ?_, ?_, ?_⟩
    · rw [stray_kcp, kcp_creditUse, setCred_stray]
    · rw [stray_sent, creditUse_sent]
    · rw [stray_ses, creditUse_ses_exp]
    · exact oneMore_congr (stray_counted _ f.port opcode) (congrArg Errors.sources (creditUse_err s f.port f.cls).symm) rfl

end Sys2Proof.Machine
end

section
/-! Sp. 13 R367, R368, R373-R377: the frame that leaves, and the one frame of a short final reply. -/

namespace Sys2Proof.Machine

/-! ## The frame that leaves -/

/-- The frame that leaves on a port with a SEQ. -/
def frameOn (s : State) (k : Kcp) (f : FrameOut) (q : BitVec 32) : OutFrame :=
  { port := k, opcode := f.opcode, cls := f.cls, more := f.more, report := f.report, status := f.status, seq := q, refSeq := f.refSeq,
    session := s.ses.current.getD 0, cred0 := BitVec.ofNat 8 (kcp s k).cred0.freed, cred1 := BitVec.ofNat 8 (kcp s k).cred1.freed,
    cred2 := BitVec.ofNat 8 (kcp s k).cred2.freed, beat := beatNow s, payload := f.payload }

/-- The SEQ that it takes: its class counter, or 0 without a session. -/
def frameSeq (s : State) (f : FrameOut) : BitVec 32 := if s.ses.current.isSome then s.ses.out f.cls else 0

theorem emit_sent (s : State) (k : Kcp) (f : FrameOut) (q : BitVec 32) : (emit s k f q).ctl.sent = s.ctl.sent ++ [frameOn s k f q] := by
  cases k <;> rfl

theorem sendOn_sent (s : State) (k : Kcp) (f : FrameOut) : (sendOn s k f).ctl.sent = s.ctl.sent ++ [frameOn s k f (frameSeq s f)] := by
  unfold sendOn frameSeq
  split
  case h_1 none_ => rw [none_]; exact emit_sent s k f 0
  case h_2 _ some_ => rw [some_]; exact emit_sent s k f _

theorem sendFrame_carried {s : State} {k : Kcp} (f : FrameOut) (h : s.ctl.carrier = some k) : sendFrame s f = sendOn s k f := by
  unfold sendFrame
  rw [h]

/-! ## What of the session a frame sent leaves -/

/-- The session without its frame counters and stored replies. -/
def Session.uncounted (t : Session) : Session := { t with out0 := 0, out1 := 0, out2 := 0, out3 := 0, stored := [] }

theorem bump_uncounted (t : Session) (c : BitVec 2) : (t.bump c).uncounted = t.uncounted := by
  unfold Session.bump
  repeat' split
  all_goals rfl

theorem bump_stored (t : Session) (c : BitVec 2) : (t.bump c).stored = t.stored := by
  unfold Session.bump
  repeat' split
  all_goals rfl

theorem sendOn_uncounted (s : State) (k : Kcp) (f : FrameOut) : (sendOn s k f).ses.uncounted = s.ses.uncounted := by
  unfold sendOn
  split
  · cases k <;> rfl
  · exact bump_uncounted _ _

theorem sendOn_stored (s : State) (k : Kcp) (f : FrameOut) : (sendOn s k f).ses.stored = s.ses.stored := by
  unfold sendOn
  split
  · cases k <;> rfl
  · exact bump_stored _ _

theorem sendFrame_uncounted (s : State) (f : FrameOut) : (sendFrame s f).ses.uncounted = s.ses.uncounted := by
  unfold sendFrame
  split
  · rfl
  · exact sendOn_uncounted _ _ _

theorem replyFrames_uncounted (s : State) (opcode : Byte) (refSeq : BitVec 32) (status : Byte) (l : List (List Byte)) :
    (replyFrames s opcode refSeq status l).ses.uncounted = s.ses.uncounted := by
  induction l generalizing s with
  | nil => rfl
  | cons p r ih =>
    cases r with
    | nil => exact sendFrame_uncounted _ _
    | cons q r => exact (ih _).trans (sendFrame_uncounted _ _)

theorem storeReply_uncounted (s : State) (o : Owed) (status : Byte) (frames : List (List Byte)) :
    (storeReply s o status frames).ses.uncounted = s.ses.uncounted := by
  unfold storeReply
  exact ite_field (π := fun t : State => t.ses.uncounted) rfl rfl

theorem finish_uncounted (s : State) (o : Owed) (status : Byte) (p : List Byte) : (finish s o status p).ses.uncounted = s.ses.uncounted :=
  (replyFrames_uncounted _ _ _ _ _).trans (storeReply_uncounted _ _ _ _)

theorem uncounted_current {t u : Session} (h : t.uncounted = u.uncounted) : t.current = u.current :=
  (congrArg Session.current h :)

theorem uncounted_last {t u : Session} (h : t.uncounted = u.uncounted) : t.last = u.last := (congrArg Session.last h :)

@[simp] theorem finish_current (s : State) (o : Owed) (status : Byte) (p : List Byte) : (finish s o status p).ses.current = s.ses.current :=
  uncounted_current (finish_uncounted s o status p)

@[simp] theorem finish_last (s : State) (o : Owed) (status : Byte) (p : List Byte) : (finish s o status p).ses.last = s.ses.last :=
  uncounted_last (finish_uncounted s o status p)

/-! ## A short final reply -/

/-- The frame of a final reply that fits one. -/
def finalFrame (o : Owed) (status : Byte) (p : List Byte) : FrameOut :=
  { opcode := o.opcode, cls := 1, more := false, report := false, status := status, refSeq := o.seq, payload := p }

section Final
variable {s : State} {k : Kcp} (o : Owed) (status : Byte) {p : List Byte} (hp : p.length ≤ 8156)
include hp

theorem finish_short : finish s o status p = sendFrame (storeReply s o status [p]) (finalFrame o status p) := by
  unfold finish
  rw [framesOf_short hp]
  rfl

theorem finish_carried (hk : s.ctl.carrier = some k) : finish s o status p = sendOn (storeReply s o status [p]) k (finalFrame o status p) :=
  (finish_short o status hp).trans (sendFrame_carried _ ((congrArg Control.carrier (storeReply_ctl _ _ _ _)).trans hk))

/-- It is one frame on the port that carries control. -/
theorem finish_sent (hk : s.ctl.carrier = some k) : ∃ x, (finish s o status p).ctl.sent = s.ctl.sent ++ [x] ∧ x.port = k ∧ x.opcode = o.opcode ∧
    x.cls = 1 ∧ x.more = false ∧ x.report = false ∧ x.status = status ∧ x.refSeq = o.seq ∧ x.session = s.ses.current.getD 0 ∧ x.payload = p := by
  have current : (storeReply s o status [p]).ses.current = s.ses.current := uncounted_current (storeReply_uncounted _ _ _ _)
  have sent := sendOn_sent (storeReply s o status [p]) k (finalFrame o status p)
  rw [← finish_carried o status hp hk, storeReply_ctl] at sent
  exact ⟨_, sent, rfl, rfl, rfl, rfl, rfl, rfl, rfl, congrArg (Option.getD · 0) current, rfl⟩

/-- A command of the session has its reply stored. -/
theorem finish_stores (hk : s.ctl.carrier = some k) (some_ : o.session.isSome) (current : o.session = s.ses.current) :
    { cls := o.cls, seq := o.seq, opcode := o.opcode, status := status, frames := [p] } ∈ (finish s o status p).ses.stored := by
  rw [finish_carried o status hp hk, sendOn_stored]
  unfold storeReply
  rw [if_pos ⟨some_, current⟩]
  exact List.mem_append_right _ (List.mem_singleton_self _)

end Final

/-- What only the ports and the session distinguish is one state. -/
theorem eq_of_butFrames {s t : State} (h : butFrames t = butFrames s) : { t with ctl := s.ctl, ses := s.ses } = s :=
  congrArg (fun u : State => { u with ctl := s.ctl, ses := s.ses }) h

/-- Settles O9: a payload that fits is one frame (`finish_sent`), stored before it leaves (`finish_stores`). -/
theorem finalReplyIsOneFrame : Obligations.FinalReplyIsOneFrame := by
  intro s o status p k hk hp
  obtain ⟨x, sent, port, opcode, cls, more, report, st, refSeq, -, payload⟩ := finish_sent o status hp hk
  exact ⟨x, sent, port, opcode, cls, more, report, st, refSeq, payload, finish_stores o status hp hk, eq_of_butFrames (finish_only s o status p)⟩

end Sys2Proof.Machine
end

section
/-! Sp. 13 R366: a move of control, its record and its report. -/

namespace Sys2Proof.Machine

/-! ## What a report leaves of the ports -/

theorem kcp_sendOn (s : State) (k : Kcp) (f : FrameOut) : kcp (sendOn s k f) k = creditsReported (kcp s k) := by
  unfold sendOn
  split <;> cases k <;> rfl

theorem kcp_sendOn_other (s : State) {k j : Kcp} (f : FrameOut) (h : j ≠ k) : kcp (sendOn s k f) j = kcp s j := by
  have emitted (q : BitVec 32) : kcp (emit s k f q) j = kcp s j := kcp_setKcp_other s (creditsReported (kcp s k)) h
  unfold sendOn
  split
  · exact emitted 0
  · exact emitted (s.ses.out f.cls)

/-- A port that does not carry control is left alone by a frame. -/
theorem kcp_sendFrame_other {s : State} {j : Kcp} (f : FrameOut) (h : s.ctl.carrier ≠ some j) : kcp (sendFrame s f) j = kcp s j := by
  unfold sendFrame
  split
  case h_1 => rfl
  case h_2 k hk => exact kcp_sendOn_other s f fun e => h (e ▸ hk)

/-- A port that has reported its credits is left alone too. -/
theorem kcp_sendFrame_reported {s : State} {j : Kcp} (f : FrameOut) (h : creditsReported (kcp s j) = kcp s j) :
    kcp (sendFrame s f) j = kcp s j := by
  by_cases hc : s.ctl.carrier = some j
  · rw [sendFrame_carried f hc, kcp_sendOn, h]
  · exact kcp_sendFrame_other f hc

theorem sendReport_sends {s : State} {k : Kcp} (opcode : Byte) (cls : BitVec 2) (p : List Byte) (h : s.ctl.carrier = some k) :
    ∃ x, (sendReport s opcode cls p).ctl.sent = s.ctl.sent ++ [x] ∧ x.opcode = opcode ∧ x.cls = cls ∧ x.report = true ∧ x.port = k := by
  unfold sendReport
  rw [sendFrame_carried _ h, sendOn_sent]
  exact ⟨_, rfl, rfl, rfl, rfl, rfl⟩

/-! ## The beat source follows control -/

section Source
variable (s : State) (k : Kcp)

/-- What neither the lock's moves nor the run of wrong numbers touch, a move of the source leaves alone. -/
theorem moveSource_field {γ : Type} (π : State → γ) (hl : ∀ t n, π (setLock t n) = π t)
    (hw : ∀ t, π { t with beat := { t.beat with wrongRun := 0 } } = π t) : π (moveSource s k) = π s := by
  unfold moveSource
  dsimp only
  split
  · exact ite_field (hw s) ((hl _ _).trans (hw s))
  · exact (hl _ _).trans (hw s)
  · exact hw s

@[simp] theorem moveSource_ctl : (moveSource s k).ctl = s.ctl := moveSource_field s k State.ctl setLock_ctl fun _ => rfl

theorem setLock_ses (n : Lock) : (setLock s n).ses = s.ses := setLock_field State.ses (fun _ => rfl) (fun _ => rfl) (fun _ _ => rfl) s n

@[simp] theorem moveSource_ses : (moveSource s k).ses = s.ses := moveSource_field s k State.ses setLock_ses fun _ => rfl

/-- A move of the lock records a BEAT_LOCK alone. -/
theorem setLock_countOf (n : Lock) {kind : Byte} (p : Place) (h : kind.toNat % 128 ≠ 1) : countOf (setLock s n) kind p = countOf s kind p := by
  have moved : countOf (lockMoved s n) kind p = countOf s kind p :=
    (countOf_raise_ne { s with beat := s.beat.moved n } (lockEvent s n) p h).trans (countOf_congr rfl _ _)
  by_cases hl : s.beat.lock = n
  · rw [setLock_same hl]
  by_cases hn : n = .lost
  · subst hn
    rw [setLock_lost hl, countOf_congr (stepLost_field State.err (fun _ => rfl) _), moved]
  · rw [setLock_kept hl hn, moved]

theorem moveSource_countOf {kind : Byte} (p : Place) (h : kind.toNat % 128 ≠ 1) : countOf (moveSource s k) kind p = countOf s kind p :=
  moveSource_field s k (countOf · kind p) (fun t n => setLock_countOf t n p h) fun _ => rfl

end Source

/-! ## Control moves -/

/-- State when control has gone to a port and the beat source has followed. -/
def carriedBy (s : State) (k : Kcp) : State := moveSource { s with ctl := { s.ctl with carrier := some k, lost := none } } k

section Moves
variable {s : State} (k : Kcp) (cause : Nat)

theorem takeControl_moves {c : Kcp} (h : s.ctl.carrier = some c) (hc : c ≠ k) : takeControl s k cause = controlMoved (carriedBy s k) k cause := by
  simp only [takeControl, h, if_neg hc]
  rfl

theorem takeControl_first (h : s.ctl.carrier = none) (hl : s.ctl.lost = none) : takeControl s k cause = carriedBy s k := by
  simp only [takeControl, h, hl]
  rfl

theorem takeControl_back {w : Nat} (h : s.ctl.carrier = none) (hl : s.ctl.lost = some (k, w)) : takeControl s k cause = carriedBy s k := by
  simp only [takeControl, h, hl, if_pos]
  rfl

theorem takeControl_lost {c : Kcp} {w : Nat} (h : s.ctl.carrier = none) (hl : s.ctl.lost = some (c, w)) (hc : c ≠ k) :
    takeControl s k cause = controlMoved (carriedBy s k) k w := by
  simp only [takeControl, h, hl, if_neg hc]
  rfl

variable (s)

/-- Either control was there, or it has gone there, with a record and a report or without. -/
theorem takeControl_cases : (s.ctl.carrier = some k ∧ takeControl s k cause = s) ∨ takeControl s k cause = carriedBy s k ∨
    ∃ w, takeControl s k cause = controlMoved (carriedBy s k) k w := by
  rcases h : s.ctl.carrier with _ | c
  · rcases hl : s.ctl.lost with _ | ⟨c, w⟩
    · exact .inr (.inl (takeControl_first k cause h hl))
    · by_cases hc : c = k
      · subst hc
        exact .inr (.inl (takeControl_back c cause h hl))
      · exact .inr (.inr ⟨w, takeControl_lost k cause h hl hc⟩)
  · by_cases hc : c = k
    · subst hc
      exact .inl ⟨rfl, takeControl_carrier h cause⟩
    · exact .inr (.inr ⟨cause, takeControl_moves k cause h hc⟩)

theorem carriedBy_ctl : (carriedBy s k).ctl = { s.ctl with carrier := some k, lost := none } := moveSource_ctl _ _

theorem carriedBy_ses : (carriedBy s k).ses = s.ses := moveSource_ses _ _

theorem carriedBy_countOf {kind : Byte} (p : Place) (h : kind.toNat % 128 ≠ 1) : countOf (carriedBy s k) kind p = countOf s kind p :=
  moveSource_countOf _ _ p h

theorem kcp_carriedBy (j : Kcp) : kcp (carriedBy s k) j = kcp s j := by
  unfold kcp
  rw [carriedBy_ctl]

theorem controlMoved_carries : (controlMoved s k cause).ctl.carrier = s.ctl.carrier := by
  unfold controlMoved sendReport
  dsimp only
  rw [sendFrame_carrier, raise_ctl]

theorem controlMoved_uncounted : (controlMoved s k cause).ses.uncounted = s.ses.uncounted := by
  unfold controlMoved sendReport
  dsimp only
  rw [sendFrame_uncounted, raise_ses]

/-- A move of control is recorded at its new port. -/
theorem controlMoved_counted : oneMore s (controlMoved s k cause) 0x13 (kcpPlace k) := by
  refine oneMore_congr (oneMore_raise s (ev 0x13 (kcpPlace k) 18 (kcpNo k) (kcpNo k) cause .every)) rfl ?_
  unfold controlMoved sendReport
  rw [sendFrame_err]

/-- It is reported on its new port. -/
theorem controlMoved_sent {c : Kcp} (h : s.ctl.carrier = some c) :
    ∃ y, (controlMoved s k cause).ctl.sent = s.ctl.sent ++ [y] ∧ y.opcode = 0x06 ∧ y.port = c := by
  unfold controlMoved
  obtain ⟨y, sent, opcode, -, -, port⟩ := sendReport_sends (s := raise s _) 0x06 1 [BitVec.ofNat 8 (kcpNo k), BitVec.ofNat 8 cause]
    ((congrArg Control.carrier (raise_ctl s (ev 0x13 (kcpPlace k) 18 (kcpNo k) (kcpNo k) cause .every))).trans h)
  rw [raise_ctl] at sent
  exact ⟨y, sent, opcode, port⟩

theorem kcp_controlMoved_other {j : Kcp} (h : s.ctl.carrier ≠ some j) : kcp (controlMoved s k cause) j = kcp s j := by
  unfold controlMoved sendReport
  rw [kcp_sendFrame_other _ (by rwa [raise_ctl]), kcp_raise]

theorem kcp_controlMoved_reported {j : Kcp} (h : creditsReported (kcp s j) = kcp s j) : kcp (controlMoved s k cause) j = kcp s j := by
  unfold controlMoved sendReport
  rw [kcp_sendFrame_reported _ (by rwa [kcp_raise]), kcp_raise]

/-- Control is where it was taken. -/
theorem takeControl_carries : (takeControl s k cause).ctl.carrier = some k := by
  have carried : (carriedBy s k).ctl.carrier = some k := by rw [carriedBy_ctl]
  obtain ⟨h, same⟩ | taken | ⟨w, moved⟩ := takeControl_cases s k cause
  · rw [same, h]
  · rw [taken, carried]
  · rw [moved, controlMoved_carries, carried]

theorem takeControl_uncounted : (takeControl s k cause).ses.uncounted = s.ses.uncounted := by
  have carried : (carriedBy s k).ses.uncounted = s.ses.uncounted := congrArg Session.uncounted (carriedBy_ses s k)
  obtain ⟨-, same⟩ | taken | ⟨w, moved⟩ := takeControl_cases s k cause
  · rw [same]
  · rw [taken, carried]
  · rw [moved, controlMoved_uncounted, carried]

variable {s}

/-- Control taken from the other port is one more CONTROL_MOVED. -/
theorem takeControl_counted {c : Kcp} (h : s.ctl.carrier = some c) (hc : c ≠ k) : oneMore s (takeControl s k cause) 0x13 (kcpPlace k) := by
  rw [takeControl_moves k cause h hc]
  have counted := controlMoved_counted (carriedBy s k) k cause
  unfold oneMore at *
  rwa [carriedBy_countOf s k _ (by decide)] at counted

end Moves

end Sys2Proof.Machine
end

section
/-! Sp. 13 R366, R378, Table 13-6: the session's commands. -/

namespace Sys2Proof.Machine

/-- A payload that has no byte lets the body run. -/
theorem noPayload_empty (s : State) {f : Frame} (r : State → State × Ans) (h : f.payload = []) : noPayload f s r = r s := by
  unfold noPayload
  rw [h]
  rfl

/-! ## SESSION_CLOSE, CONTROL_TAKE, BEAT_REACQUIRE -/

section Accepted
variable {s : State} {f : Frame}

/-- State when SESSION_CLOSE has sent its reply and ended the session. -/
def sessionClosed (s : State) (o : Owed) : State :=
  { finish s o stOk [] with ses := { (finish s o stOk []).ses with current := none, stored := [] } }

theorem exec_sessionClose (ha : accepts s f (cmdEarly 0x02) = true) (hp : f.payload = []) :
    exec (.sessionClose f) s = .next (sessionClosed (afterAccept s f) (owedBy s f 0x02)) := by
  refine next_congr ((runCommand_accepts _ _ ha (by decide)).trans ?_)
  rw [noPayload_empty _ _ hp]
  rfl

theorem exec_controlTake (ha : accepts s f { opcode := 0x03, cls := 0, needSession := true, standby := true, stages := [4, 5, 7] } = true)
    (hp : f.payload = []) : exec (.controlTake f) s = .next (replies s f 0x03 [] (takeControl (afterAccept s f) f.port 1)) :=
  next_congr (runCommand_replies _ _ ha (by decide) (noPayload_empty _ _ hp))

theorem exec_beatReacquire (ha : accepts s f (cmdEarly 0x04) = true) (hp : f.payload = []) (h : stepBusy s = false ∨ s.beat.lock = .lost) :
    exec (.beatReacquire f) s = .next (replies s f 0x04 [BitVec.ofNat 8 Lock.unlocked.code] (setLock (afterAccept s f) .unlocked)) := by
  refine next_congr (runCommand_replies _ _ ha (by decide) ((noPayload_empty _ _ hp).trans ((if_neg ?_).trans ?_)))
  · rw [stepBusy_afterAccept, afterAccept_beat]
    rintro ⟨busy, held⟩
    rcases h with h | h
    · rw [h] at busy
      exact absurd busy Bool.false_ne_true
    · exact held h
  · exact congrArg (fun l : Lock => ok (setLock (afterAccept s f) .unlocked) [BitVec.ofNat 8 l.code]) (setLock_lock _ _)

theorem exec_beatReacquire_busy (ha : accepts s f (cmdEarly 0x04) = true) (hp : f.payload = []) (hb : stepBusy s = true) (hl : s.beat.lock ≠ .lost) :
    exec (.beatReacquire f) s = .next (finish (afterAccept s f) (owedBy s f 0x04) stBusy []) := by
  refine next_congr ((runCommand_accepts _ _ ha (by decide)).trans ?_)
  rw [noPayload_empty _ _ hp, if_pos ⟨by rwa [stepBusy_afterAccept], by rwa [afterAccept_beat]⟩]
  rfl

end Accepted

/-- Settles O12: the reply of SESSION_CLOSE leaves before the session ends; CONTROL_TAKE is `takeControl`, BEAT_REACQUIRE `setLock`. -/
theorem sessionCommandsTakeEffect : Obligations.SessionCommandsTakeEffect := by
  refine fun f s => ⟨fun k hk ha hp => ?close, fun ha hp => ?take, fun ha hp h => ?reacquire, exec_beatReacquire_busy⟩
  case close =>
    obtain ⟨-, -, -, -, current, -⟩ := (accepts_iff _ _ _).1 ha
    obtain ⟨x, sent, port, -, -, -, -, status, -, session, -⟩ :=
      finish_sent (p := []) (owedBy s f 0x02) stOk (by decide) ((afterAccept_carrier s f).trans hk)
    rw [afterAccept_sent] at sent
    rw [afterAccept_current, current] at session
    refine ⟨_, x, exec_sessionClose ha hp, rfl, ?_, sent, port, session, status, ?_, ?_⟩
    · exact (finish_last _ _ _ _).trans (afterAccept_last s f)
    · exact (finish_xfers _ _ _ _).trans (afterAccept_xfers s f)
    · exact (finish_step _ _ _ _).trans (afterAccept_step s f)
  case take =>
    refine ⟨_, exec_controlTake ha hp, (finish_carrier _ _ _ _).trans (takeControl_carries _ _ _), ?_, ?_, fun hc => ?_, fun hc => ?_⟩
    · simp [replies]
    · rw [replies, finish_current, uncounted_current (takeControl_uncounted _ _ _), afterAccept_current]
    · have counted := takeControl_counted (s := afterAccept s f) f.port 1 ((afterAccept_carrier s f).trans hc) (by cases f.port <;> decide)
      exact oneMore_congr counted (congrArg Errors.sources (afterAccept_err s f).symm) (congrArg Errors.sources (finish_err _ _ _ _))
    · rw [takeControl_carrier ((afterAccept_carrier s f).trans hc) 1, replies, finish_err, finish_beat]
      exact ⟨afterAccept_err s f, afterAccept_beat s f⟩
  case reacquire =>
    refine ⟨_, exec_beatReacquire ha hp h, ?_, ?_, ?_⟩
    · rw [replies, finish_beat, setLock_lock]
    · simp [replies]
    · rw [replies, finish_step, setLock_field (fun t => t.step.phase) (fun _ => rfl) (fun _ => rfl) (fun _ _ => rfl)]
      exact congrArg StepSt.phase (afterAccept_step s f)

/-! ## SESSION_OPEN -/

/-- State without what the end of the waiting frames of transfers touches: the ports, the session, the events. -/
def butHeld (s : State) : State := butFrames (butEvents s)

theorem butHeld_of_frames {s t : State} (h : butFrames s = butFrames t) : butHeld s = butHeld t := by
  change butEvents (butFrames s) = butEvents (butFrames t)
  rw [h]

theorem butHeld_of_events {s t : State} (h : butEvents s = butEvents t) : butHeld s = butHeld t := congrArg butFrames h

theorem stray_only (s : State) (k : Kcp) (opcode : Byte) : butHeld (stray s k opcode) = butHeld s := by
  unfold stray
  exact (butHeld_of_events (raise_only _ _)).trans (butHeld_of_frames (setKcp_only _ _ _))

theorem cancelHeld_only (s : State) (c : Instr) : butHeld (cancelHeld s c) = butHeld s := by
  unfold cancelHeld
  split
  · exact (stray_only _ _ _).trans (butHeld_of_frames (setKcp_only _ _ _))
  · exact butHeld_of_frames (finish_only _ _ _ _)
  · exact butHeld_of_frames (finish_only _ _ _ _)
  · rfl

theorem freshSeqs_only (s : State) : butHeld (freshSeqs s) = butHeld s := rfl

/-- State when the waiting frames of transfers have ended. -/
def heldEnded (s : State) : State :=
  freshSeqs ((s.fwHeld.filter ofTransfer).foldl cancelHeld { s with fwHeld := s.fwHeld.filter (fun i => !ofTransfer i) })

theorem heldEnded_only (s : State) : butHeld (heldEnded s) = butHeld { s with fwHeld := s.fwHeld.filter (fun i => !ofTransfer i) } :=
  (freshSeqs_only _).trans (foldl_field butHeld cancelHeld cancelHeld_only _ _)

/-- The next session, as SESSION_OPEN starts it for a control node. -/
def Session.next (t : Session) (node : Byte) : Session := { Session.reset with current := some (t.last + 1), last := t.last + 1, node := node }

/-- State when the next session has begun and the port carries control. -/
def sessionBegun (s : State) (f : Frame) : State :=
  takeControl { heldEnded s with ses := s.ses.next (f.payload.getD 0 0), xfers := [] } f.port 1

/-- Its reply: the number and the port. -/
def openReply (t : Session) (f : Frame) : List Byte := toLE 4 (t.last + 1).toNat ++ [BitVec.ofNat 8 (kcpNo f.port)]

/-- The reply is owed outside any session. -/
def openOwed (f : Frame) : Owed := { opcode := 0x01, cls := f.cls, seq := f.seq, session := none }

theorem sessionOpenBody_opens {s : State} {f : Frame} (h : f.payload.length = 1) : sessionOpenBody f s = ok (sessionBegun s f) (openReply s.ses f) :=
  if_neg (not_not_intro h)

theorem exec_sessionOpen {s : State} {f : Frame} (h1 : s.taking = none) (h2 : (kcp s f.port).up = true)
    (h3 : creditHeld (kcp s f.port) f.cls = true) (h4 : f.cls = 1) (h5 : s.pwr.stage = 6) (h6 : s.guard.lifecycle ≠ .scrapped)
    (h7 : s.guard.zero = none) (h8 : f.payload.length = 1) :
    exec (.sessionOpen f) s = .next (finish (sessionBegun (creditUse s f.port f.cls) f)
      (openOwed f) stOk (openReply s.ses f)) := by
  refine next_congr ((runCommand_opens _ _ h2 h3 h4 rfl rfl rfl h5 h6 h7 h1).trans ?_)
  rw [sessionOpenBody_opens h8, creditUse_ses_exp]
  rfl

section Begun
variable (s : State) (f : Frame)

/-- The session begun is the next one, whose expectations are 0. -/
theorem sessionBegun_uncounted : (sessionBegun s f).ses.uncounted = s.ses.next (f.payload.getD 0 0) :=
  takeControl_uncounted _ _ _

/-- What neither the end of the waiting frames nor a move of control touches stays. -/
theorem sessionBegun_field {γ : Type} (π : State → γ) (hs : ∀ t, π (butStops t) = π t) (he : ∀ t, π (butEvents t) = π t)
    (hf : ∀ t, π (butFrames t) = π t) (hb : ∀ t b, π { t with beat := b } = π t) (hx : ∀ t n x, π { t with ses := n, xfers := x } = π t) :
    π (sessionBegun s f) = π { s with fwHeld := s.fwHeld.filter (fun i => !ofTransfer i) } := by
  unfold sessionBegun
  rw [takeControl_reads π hs he hf (fun t n => hb t _) (fun t _ _ _ _ => hb t _), hx]
  exact field_of π (heldEnded_only s) fun t => (hf _).trans (he t)

theorem sessionBegun_xfers : (sessionBegun s f).xfers = [] :=
  takeControl_reads State.xfers (fun _ => rfl) (fun _ => rfl) (fun _ => rfl) (fun _ _ => rfl) (fun _ _ _ _ _ => rfl) _ _ _

theorem sessionBegun_mem : (sessionBegun s f).mem = s.mem :=
  sessionBegun_field s f State.mem (fun _ => rfl) (fun _ => rfl) (fun _ => rfl) (fun _ _ => rfl) fun _ _ _ => rfl

theorem sessionBegun_cfg : (sessionBegun s f).cfg = s.cfg :=
  sessionBegun_field s f State.cfg (fun _ => rfl) (fun _ => rfl) (fun _ => rfl) (fun _ _ => rfl) fun _ _ _ => rfl

theorem sessionBegun_guard : (sessionBegun s f).guard = s.guard :=
  sessionBegun_field s f State.guard (fun _ => rfl) (fun _ => rfl) (fun _ => rfl) (fun _ _ => rfl) fun _ _ _ => rfl

theorem sessionBegun_fwHeld : (sessionBegun s f).fwHeld = s.fwHeld.filter (fun i => !ofTransfer i) :=
  sessionBegun_field s f State.fwHeld (fun _ => rfl) (fun _ => rfl) (fun _ => rfl) (fun _ _ => rfl) fun _ _ _ => rfl

end Begun

/-- Settles O11: the body's state is `sessionBegun`, and the reply leaves in the session begun, on the port that has just taken control. -/
theorem sessionOpenStartsASession : Obligations.SessionOpenStartsASession := by
  intro f s h1 h2 h3 h4 h5 h6 h7 h8
  have fits : (openReply s.ses f).length ≤ 8156 := by
    unfold openReply
    rw [List.length_append, toLE_length]
    change 4 + 1 ≤ 8156
    decide
  have begun := sessionBegun_uncounted (creditUse s f.port f.cls) f
  rw [creditUse_ses_exp] at begun
  have runs := exec_sessionOpen h1 h2 h3 h4 h5 h6 h7 h8
  have replied := (finish_uncounted _ (openOwed f) stOk (openReply s.ses f)).trans begun
  obtain ⟨x, sent, port, opcode, -, -, -, status, refSeq, session, payload⟩ := finish_sent (openOwed f) stOk fits (takeControl_carries _ f.port 1)
  obtain ⟨b, hb⟩ := List.length_eq_one_iff.1 h8
  refine ⟨_, x, runs, (congrArg Session.current replied :), (congrArg Session.last replied :), ?node, (congrArg Session.exp0 replied :),
    (congrArg Session.exp1 replied :), ?xfers, (finish_carrier _ _ _ _).trans (takeControl_carries _ _ _), ?held, ?mem, ?cfg, ?guard, ?last, port,
    opcode, status, ?session, refSeq, payload⟩
  case node =>
    rw [hb] at replied ⊢
    exact congrArg some (congrArg Session.node replied :)
  case xfers => rw [finish_xfers, sessionBegun_xfers]
  case held => rw [finish_fwHeld, sessionBegun_fwHeld, creditUse_fwHeld]
  case mem => rw [finish_mem, sessionBegun_mem, creditUse_mem]
  case cfg => rw [finish_cfg, sessionBegun_cfg, creditUse_cfg]
  case guard => rw [finish_guard, sessionBegun_guard, creditUse_guard]
  case last => exact (congrArg List.getLast? sent).trans List.getLast?_concat
  case session => exact session.trans (congrArg (Option.getD · 0) (congrArg Session.current begun :))

end Sys2Proof.Machine
end

section
/-! Sp. 13 R365, R366, R371, R372; sp. 16 R466: the links of the control ports. -/

namespace Sys2Proof.Machine

theorem otherKcp_ne (k : Kcp) : otherKcp k ≠ k := by cases k <;> decide

theorem kcp_of_ctl {s t : State} (h : t.ctl = s.ctl) (k : Kcp) : kcp t k = kcp s k := by
  unfold kcp
  rw [h]

/-! ## The link comes up -/

/-- A port whose link has come up: fresh credits, no frame. -/
def KcpSt.fresh (v : KcpSt) : KcpSt := { v with up := true, cred0 := ⟨0, 0, 0⟩, cred1 := ⟨0, 0, 0⟩, cred2 := ⟨0, 0, 0⟩, queue0 := [] }

theorem fresh_cred (v : KcpSt) (c : BitVec 2) : v.fresh.cred c = ⟨0, 0, 0⟩ := by
  unfold KcpSt.cred
  repeat' split
  all_goals rfl

theorem startReport_carrier (s : State) : (startReport s).ctl.carrier = s.ctl.carrier := sendFrame_carrier _ _

section Up
variable {s : State} {k : Kcp}

/-- State when the link is up and the port is fresh. -/
def linkUp (s : State) (k : Kcp) : State := setKcp s k (kcp s k).fresh

theorem linkUp_carrier : (linkUp s k).ctl.carrier = s.ctl.carrier := setKcp_carrier _ _ _

theorem linkUp_sent : (linkUp s k).ctl.sent = s.ctl.sent := setKcp_sent _ _ _

theorem linkUp_lost : (linkUp s k).ctl.lost = s.ctl.lost := by cases k <;> rfl

theorem linkUp_err : (linkUp s k).err = s.err := setKcp_err _ _ _

theorem kcp_linkUp : kcp (linkUp s k) k = (kcp s k).fresh := kcp_setKcp _ _ _

/-- State when it has taken the control that no port carries. -/
def controlFound (s : State) (k : Kcp) : State := if s.ctl.carrier.isNone then takeControl s k 0 else s

theorem exec_kcpLinkUp (hu : (kcp s k).up = false) (hd : diesOn s = true) (hr : s.pwr.released = true) (he : kcpEnabled s k = true) :
    exec (.kcpLinkUp k) s = .next (startReport (controlFound (linkUp s k) k)) := if_neg (by simp [hu, hd, hr, he])

theorem controlFound_here {c : Kcp} (h : s.ctl.carrier = some c) : controlFound s k = s := by
  unfold controlFound
  rw [h]
  rfl

theorem controlFound_taken (h : s.ctl.carrier = none) : controlFound s k = takeControl s k 0 := by
  unfold controlFound
  rw [h]
  rfl

theorem controlFound_carrier : (controlFound s k).ctl.carrier = some (s.ctl.carrier.getD k) := by
  rcases h : s.ctl.carrier with _ | c
  · rw [controlFound_taken h]
    exact takeControl_carries _ _ _
  · rw [controlFound_here h]
    exact h

/-- A port that has reported its credits stays as it is when control moves. -/
theorem kcp_takeControl_reported {j : Kcp} (cause : Nat) (h : creditsReported (kcp s j) = kcp s j) : kcp (takeControl s k cause) j = kcp s j := by
  have carried := kcp_carriedBy s k j
  obtain ⟨-, same⟩ | taken | ⟨w, moved⟩ := takeControl_cases s k cause
  · rw [same]
  · rw [taken, carried]
  · rw [moved, kcp_controlMoved_reported _ _ _ (by rwa [carried]), carried]

theorem kcp_controlFound_reported {j : Kcp} (h : creditsReported (kcp s j) = kcp s j) : kcp (controlFound s k) j = kcp s j :=
  ite_field (π := (kcp · j)) (kcp_takeControl_reported 0 h) rfl

theorem controlFound_mem : (controlFound s k).mem = s.mem := ite_field (π := State.mem) (takeControl_mem _ _ _) rfl

/-- The port is fresh after the report too. -/
theorem kcp_linkedUp : kcp (startReport (controlFound (linkUp s k) k)) k = (kcp s k).fresh := by
  have fresh : creditsReported (kcp (linkUp s k) k) = kcp (linkUp s k) k := by rw [kcp_linkUp]; rfl
  have found := kcp_controlFound_reported (k := k) fresh
  unfold startReport sendReport
  rw [kcp_sendFrame_reported _ (by rw [found, fresh]), found, kcp_linkUp]

/-- Where control is or was nowhere lost, the report alone is sent. -/
theorem linkedUp_sent (h : s.ctl.carrier.isSome ∨ s.ctl.lost = none) : ∃ x, (startReport (controlFound (linkUp s k) k)).ctl.sent = s.ctl.sent ++ [x] ∧
    x.opcode = 0x07 ∧ x.cls = 1 ∧ x.report = true ∧ x.port = s.ctl.carrier.getD k := by
  have silent : (controlFound (linkUp s k) k).ctl.sent = s.ctl.sent := by
    rcases hc : s.ctl.carrier with _ | c
    · have lost : s.ctl.lost = none := h.resolve_left (by simp [hc])
      rw [controlFound_taken (linkUp_carrier.trans hc), takeControl_first k 0 (linkUp_carrier.trans hc) (linkUp_lost.trans lost), carriedBy_ctl]
      exact linkUp_sent
    · rw [controlFound_here (linkUp_carrier.trans hc), linkUp_sent]
  obtain ⟨x, sent, rest⟩ := sendReport_sends 0x07 1 _ (controlFound_carrier (s := linkUp s k) (k := k))
  rw [silent] at sent
  rw [linkUp_carrier] at rest
  exact ⟨x, sent, rest⟩

/-- Where the other port lost it, the move is recorded and reported before that. -/
theorem linkedUp_moves {w : Nat} (hc : s.ctl.carrier = none) (hl : s.ctl.lost = some (otherKcp k, w)) :
    oneMore s (startReport (controlFound (linkUp s k) k)) 0x13 (kcpPlace k) ∧
    ∃ y x, (startReport (controlFound (linkUp s k) k)).ctl.sent = s.ctl.sent ++ [y, x] ∧ y.opcode = 0x06 ∧ x.opcode = 0x07 ∧ y.port = k ∧ x.port = k := by
  have found : controlFound (linkUp s k) k = controlMoved (carriedBy (linkUp s k) k) k w :=
    (controlFound_taken (linkUp_carrier.trans hc)).trans
      (takeControl_lost k 0 (linkUp_carrier.trans hc) (linkUp_lost.trans hl) (otherKcp_ne k))
  have carried : (carriedBy (linkUp s k) k).ctl.carrier = some k := by rw [carriedBy_ctl]
  obtain ⟨y, told, y6, yk⟩ := controlMoved_sent (carriedBy (linkUp s k) k) k w carried
  have carrier := controlFound_carrier (s := linkUp s k) (k := k)
  rw [linkUp_carrier, hc] at carrier
  obtain ⟨x, sent, x7, -, -, xk⟩ := sendReport_sends 0x07 1 _ carrier
  refine ⟨?counted, y, x, ?sent, y6, x7, yk, xk⟩
  case counted =>
    have counted := controlMoved_counted (carriedBy (linkUp s k) k) k w
    rw [← found] at counted
    unfold oneMore at *
    rw [carriedBy_countOf _ _ _ (by decide), countOf_congr linkUp_err] at counted
    exact (countOf_congr (sendFrame_err _ _) _ _).trans counted
  case sent =>
    rw [carriedBy_ctl] at told
    refine sent.trans ?_
    rw [found, told]
    exact (congrArg (· ++ [y] ++ [x]) linkUp_sent).trans (List.append_assoc _ _ _)

end Up

/-! ## The link goes down -/

section Down
variable {s : State} {k : Kcp}

theorem linkDown_ctl : (linkDown s k).ctl = (setKcp s k { kcp s k with up := false, queue0 := [] }).ctl :=
  foldl_field State.ctl (requeuePlace k _ _) (fun _ _ => rfl) _ _

theorem kcp_linkDown : kcp (linkDown s k) k = { kcp s k with up := false, queue0 := [] } := (kcp_of_ctl linkDown_ctl k).trans (kcp_setKcp _ _ _)

theorem kcp_linkDown_other : kcp (linkDown s k) (otherKcp k) = kcp s (otherKcp k) :=
  (kcp_of_ctl linkDown_ctl _).trans (kcp_setKcp_other s _ (otherKcp_ne k))

theorem linkDown_carrier : (linkDown s k).ctl.carrier = s.ctl.carrier := (congrArg Control.carrier linkDown_ctl).trans (setKcp_carrier _ _ _)

theorem linkDown_err : (linkDown s k).err = s.err := 
  (foldl_field State.err (requeuePlace k _ _) (fun _ _ => rfl) _ _).trans (setKcp_err _ _ _)

theorem exec_kcpLinkDown_other (hu : (kcp s k).up = true) (hc : s.ctl.carrier ≠ some k) : exec (.kcpLinkDown k) s = .next (linkDown s k) :=
  (if_neg (by simp [hu])).trans (if_neg hc)

theorem exec_kcpLinkDown_last (hu : (kcp s k).up = true) (hc : s.ctl.carrier = some k) (ho : (kcp s (otherKcp k)).up = false) :
    exec (.kcpLinkDown k) s = .next (loseControl (linkDown s k) 2) :=
  (if_neg (by simp [hu])).trans ((if_pos hc).trans (if_neg (by simp [ho])))

theorem exec_controlPortLost (hc : s.ctl.carrier = some k) (ho : (kcp s (otherKcp k)).up = true) :
    exec .controlPortLost s = .next (takeControl (linkDown s k) (otherKcp k) 2) := by
  change execControlPortLost s = _
  unfold execControlPortLost
  rw [hc]
  exact if_pos ho

/-- Control that goes to the other port leaves the lost one as it went down. -/
theorem kcp_lostControl (cause : Nat) (hc : s.ctl.carrier = some k) :
    kcp (takeControl (linkDown s k) (otherKcp k) cause) k = { kcp s k with up := false, queue0 := [] } := by
  have carried : (carriedBy (linkDown s k) (otherKcp k)).ctl.carrier ≠ some k := by
    rw [carriedBy_ctl]
    exact fun h => otherKcp_ne k (Option.some.inj h)
  rw [takeControl_moves _ _ (linkDown_carrier.trans hc) (otherKcp_ne k).symm, kcp_controlMoved_other _ _ _ carried, kcp_carriedBy, kcp_linkDown]

end Down

/-! ## A bad frame and LINK_CREDIT -/

section Bad
variable (v : KcpSt) (c : BitVec 2) (w : Credit)

theorem setCred_cred (h : c ≠ 3) : (v.setCred c w).cred c = w := by
  have classes : ∀ d : BitVec 2, d ≠ 3 → d = 0 ∨ d = 1 ∨ d = 2 := by decide
  obtain rfl | rfl | rfl := classes c h
  · rfl
  · rfl
  · rfl

theorem setCred_bad : (v.setCred c w).bad = v.bad := by
  unfold KcpSt.setCred
  repeat' split
  all_goals rfl

theorem setCred_fec : (v.setCred c w).fec = v.fec := by
  unfold KcpSt.setCred
  repeat' split
  all_goals rfl

end Bad

/-- State when the uncorrectable codewords of the units have been counted. -/
def fecCounted (s : State) (k : Kcp) (n : Nat) : State := setKcp s k { kcp s k with fec := stopAt top32 ((kcp s k).fec + n) }

theorem kcp_fecCounted (s : State) (k : Kcp) (n : Nat) : kcp (fecCounted s k n) k = { kcp s k with fec := stopAt top32 ((kcp s k).fec + n) } :=
  kcp_setKcp _ _ _

theorem exec_badFrame {s : State} {k : Kcp} (raw : List Byte) {marks : Bool} (fec : Nat) (hu : (kcp s k).up = true)
    (h : marks = false ∨ frameSound raw = false) : exec (.badFrame k raw ⟨marks, fec⟩) s =
      .next (badFrame (fecCounted s k fec) k (BitVec.ofNat 2 (bits (leAt raw 0 32) 247 246))) := by
  refine (if_neg (by simp [hu])).trans (if_pos ?_)
  rcases h with h | h <;> simp [h]

theorem kcp_badFrame (s : State) (k : Kcp) (c : BitVec 2) :
    kcp (badFrame s k c) k = { kcp (creditUse s k c) k with bad := stopAt top32 ((kcp (creditUse s k c) k).bad + 1) } := kcp_setKcp _ _ _

/-- Its credit returns. -/
theorem badFrame_freed (s : State) (k : Kcp) {c : BitVec 2} (h : c ≠ 3) :
    ((kcp (badFrame s k c) k).cred c).freed = ((kcp s k).cred c).freed + 1 := by
  have used : (kcp (creditUse s k c) k).cred c = _ := (congrArg (KcpSt.cred · c) (kcp_creditUse s k c)).trans (setCred_cred _ _ _ h)
  rw [kcp_badFrame]
  exact congrArg Credit.freed used

theorem badFrame_sent (s : State) (k : Kcp) (c : BitVec 2) : (badFrame s k c).ctl.sent = s.ctl.sent := (setKcp_sent _ _ _).trans (creditUse_sent _ _ _)

theorem exec_linkCredit {s : State} {k : Kcp} (hu : (kcp s k).up = true) (ho : owesCredits (kcp s k) = true) :
    exec (.linkCredit k) s = .next (emit s k { opcode := 0x0F, cls := 3, more := false, report := true, status := 0, refSeq := 0, payload := [] } 0) :=
  if_pos (by simp [hu, ho])

theorem kcp_emit (s : State) (k : Kcp) (f : FrameOut) (q : BitVec 32) : kcp (emit s k f q) k = creditsReported (kcp s k) := by cases k <;> rfl

theorem owesCredits_reported (v : KcpSt) : owesCredits (creditsReported v) = false := by simp [owesCredits, creditsReported]

theorem emit_ses (s : State) (k : Kcp) (f : FrameOut) (q : BitVec 32) : (emit s k f q).ses = s.ses := by cases k <;> rfl

/-- Settles O15: a fresh port stays fresh while control is found and reported (`kcp_linkedUp`); a link that goes down is `linkDown`, and the loss of
control is a move to the other port. -/
theorem controlLinksComeAndGo : Obligations.ControlLinksComeAndGo := by
  refine fun k s => ⟨fun hu hd hr he => ?up, fun hu hc => ?down, fun hu hc ho => ?last, fun hc ho => ?lost, fun raw marks fec c hcls hu h => ?bad,
    fun hu ho => ?credit⟩
  case up =>
    refine ⟨_, exec_kcpLinkUp hu hd hr he, ?_, fun c => ?_, ?_, ?_, linkedUp_sent, fun w hc hl => linkedUp_moves hc hl⟩
    · rw [kcp_linkedUp]
      rfl
    · rw [kcp_linkedUp, fresh_cred]
    · rw [startReport_carrier, controlFound_carrier, linkUp_carrier]
    · rw [startReport_mem, controlFound_mem]
      exact setKcp_mem _ _ _
  case down =>
    have port := kcp_linkDown (s := s) (k := k)
    exact ⟨_, exec_kcpLinkDown_other hu hc, congrArg KcpSt.up port, congrArg KcpSt.queue0 port, linkDown_carrier, kcp_linkDown_other, linkDown_mem s k⟩
  case last =>
    have port : kcp (loseControl (linkDown s k) 2) k = _ := (by cases k <;> rfl : _ = kcp (linkDown s k) k).trans kcp_linkDown
    exact ⟨_, exec_kcpLinkDown_last hu hc ho, congrArg KcpSt.up port, congrArg KcpSt.queue0 port, rfl, linkDown_mem s k⟩
  case lost =>
    have counted := takeControl_counted (s := linkDown s k) (otherKcp k) 2 (linkDown_carrier.trans hc) (otherKcp_ne k).symm
    refine ⟨_, exec_controlPortLost hc ho, takeControl_carries _ _ _, congrArg KcpSt.up (kcp_lostControl 2 hc), ?_, ?_⟩
    · exact oneMore_congr counted (congrArg Errors.sources linkDown_err.symm) rfl
    · rw [takeControl_mem, linkDown_mem]
  case bad =>
    subst hcls
    refine ⟨_, exec_badFrame raw fec hu h, ?_, ?_, fun hc => ?_, ?_, ?_, ?_⟩
    · rw [kcp_badFrame, kcp_creditUse, setCred_bad, kcp_fecCounted]
    · rw [kcp_badFrame, kcp_creditUse]
      dsimp only
      rw [setCred_fec, kcp_fecCounted]
    · rw [badFrame_freed _ _ hc, kcp_fecCounted]
      rfl
    · rw [badFrame_sent, fecCounted, setKcp_sent]
    · simp [badFrame, fecCounted]
    · simp [badFrame, fecCounted]
  case credit =>
    refine ⟨_, _, exec_linkCredit hu ho, emit_sent _ _ _ _, rfl, rfl, rfl, rfl, rfl, rfl, rfl, rfl, ?_, emit_ses _ _ _ _⟩
    rw [kcp_emit, owesCredits_reported]

end Sys2Proof.Machine
end

section
/-! Sp. 13 R381, Table 13-7: the cue sheets' commands. -/

namespace Sys2Proof.Machine

/-! ## Data frames in their turn -/

/-- A class 2 frame that nothing of its port waits before does what its body says. -/
theorem inTurn_next {f : Frame} {s : State} (c : Instr) (body : State → Option State) (h : dataWaits f.port s.fwHeld = false) :
    inTurn f c body s = body s := if_neg (by simp [h])

theorem inTurn_waits {f : Frame} {s : State} (c : Instr) (body : State → Option State) (h : dataWaits f.port s.fwHeld = true) :
    inTurn f c body s = some (holdData s f c) := if_pos h

section Hold
variable (s : State) (f : Frame) (c : Instr)

/-- A frame that waits keeps its buffer and joins the waiting ones. -/
theorem holdData_only : butFrames (holdData s f c) = butFrames { s with fwHeld := s.fwHeld ++ [c] } := setKcp_only _ _ _

theorem holdData_fwHeld : (holdData s f c).fwHeld = s.fwHeld ++ [c] := field_of State.fwHeld (holdData_only s f c) (fun _ => rfl)

theorem holdData_sent : (holdData s f c).ctl.sent = s.ctl.sent := setKcp_sent _ _ _

end Hold

/-! ## The stores -/

theorem storeAt_congr {s t : State} (h0 : t.store0 = s.store0) (h1 : t.store1 = s.store1) (k : Fin 2) : storeAt t k = storeAt s k := by
  unfold storeAt
  rw [h0, h1]

theorem storeAt_afterAccept (s : State) (f : Frame) (k : Fin 2) : storeAt (afterAccept s f) k = storeAt s k :=
  storeAt_congr (afterAccept_store0 s f) (afterAccept_store1 s f) k

theorem storeAt_creditUse (s : State) (j : Kcp) (c : BitVec 2) (k : Fin 2) : storeAt (creditUse s j c) k = storeAt s k :=
  storeAt_congr (creditUse_store0 s j c) (creditUse_store1 s j c) k

theorem dropVerify_none {s : State} {k : Fin 2} (h : (storeAt s k).verify = none) : dropVerify s k = s := by
  unfold dropVerify
  rw [h]

theorem dropVerify_some {s : State} {k : Fin 2} {o : Owed} (h : (storeAt s k).verify = some o) : dropVerify s k = finish s o stBusy [] := by
  unfold dropVerify
  rw [h]

section Sheets
variable {s : State} {f : Frame}

/-- A store begun anew with a size and a hash. -/
def CueStore.begun (p : List Byte) : CueStore :=
  { st := .loading, size := leAt p 8 8, expected := BitVec.ofNat 256 (ofBE (slice p 16 32)), bytes := [], chunks := [], dups := 0, verify := none }

theorem exec_sheetBegin (ha : accepts s f (cmd 0x20) = true) (hl : f.payload.length = 48) (hn : storeNamed f.payload = true)
    (hz : zeroAt f.payload 1 7 = true) (h32 : leAt f.payload 8 8 % 32 = 0) (h64 : 64 ≤ leAt f.payload 8 8) (h30 : leAt f.payload 8 8 ≤ 2 ^ 30)
    (hd : s.cfg.deviceId.isSome) (hv : (storeAt s (storeNo f.payload)).st ≠ .verified) (hu : (storeAt s (storeNo f.payload)).st ≠ .inUse) :
    exec (.sheetBegin f) s = .next (replies s f 0x20 [] (setStore (dropVerify (afterAccept s f) (storeNo f.payload)) (storeNo f.payload)
      (CueStore.begun f.payload))) := by
  refine next_congr (runCommand_replies _ _ ha (by decide) ?_)
  unfold sheetBeginBody
  rw [if_neg (not_not_intro hl), if_neg (by simp [hn, hz, h32]; omega), if_neg (by simpa using Option.isSome_iff_ne_none.1 hd),
    if_neg (by rw [storeAt_afterAccept]; exact not_or_intro hv hu)]
  rfl

/-- The store that a chunk leaves. -/
def CueStore.chunked (v : CueStore) (p : List Byte) : CueStore :=
  { v with bytes := Sparse.put zeroByte v.bytes (leAt p 8 8) (p.drop 16),
           chunks := if v.chunks.contains (leAt p 8 8) then v.chunks else leAt p 8 8 :: v.chunks,
           dups := v.dups + b01 (v.chunks.contains (leAt p 8 8)) }

theorem chunked_mem (v : CueStore) (p : List Byte) : leAt p 8 8 ∈ (v.chunked p).chunks := by
  unfold CueStore.chunked
  split
  case isTrue h => exact List.contains_iff_mem.1 h
  case isFalse => exact List.mem_cons_self

/-- The chunk of a payload fits a store that loads. -/
structure SheetChunkFits (v : CueStore) (p : List Byte) : Prop where
  long : 17 ≤ p.length
  named : storeNamed p = true
  zero : zeroAt p 1 7 = true
  loading : v.st = .loading
  aligned : leAt p 8 8 % 8128 = 0
  inside : leAt p 8 8 < v.size
  whole : (p.drop 16).length = min 8128 (v.size - leAt p 8 8)

theorem sheetDataBody_fits (h : SheetChunkFits (storeAt s (storeNo f.payload)) f.payload) :
    sheetDataBody f s = some (setStore s (storeNo f.payload) ((storeAt s (storeNo f.payload)).chunked f.payload)) := by
  obtain ⟨long, named, zero, loading, aligned, inside, whole⟩ := h
  unfold sheetDataBody
  refine if_neg ?_
  simp [named, zero, loading, sheetChunk, aligned, -List.length_drop, whole]
  omega

theorem exec_sheetData (ha : acceptsData s f sheetDataInfo = true) (hw : dataWaits f.port s.fwHeld = false)
    (h : SheetChunkFits (storeAt s (storeNo f.payload)) f.payload) : exec (.sheetData f) s =
      .next (setStore (creditUse s f.port f.cls) (storeNo f.payload) ((storeAt s (storeNo f.payload)).chunked f.payload)) := by
  refine next_congr (runData_accepts _ ha ?_)
  rw [inTurn_next _ _ (by rwa [creditUse_fwHeld]), ← storeAt_creditUse s f.port f.cls]
  exact sheetDataBody_fits (by rwa [storeAt_creditUse])

theorem exec_sheetData_waits (ha : acceptsData s f sheetDataInfo = true) (hw : dataWaits f.port s.fwHeld = true) :
    exec (.sheetData f) s = .next (holdData (creditUse s f.port f.cls) f (.sheetData f)) :=
  next_congr (runData_accepts _ ha (inTurn_waits _ _ (by rwa [creditUse_fwHeld])))

theorem exec_sheetVerify (ha : accepts s f (cmd 0x22) = true) (hl : f.payload.length = 1) (hn : storeNamed f.payload = true)
    (hs : (storeAt s (storeNo f.payload)).st = .loading) (hv : (storeAt s (storeNo f.payload)).verify = none)
    (hm : sheetMissing (storeAt s (storeNo f.payload)) = []) :
    exec (.sheetVerify f) s = .next (acceptedReply f 0x22 (setStore (afterAccept s f) (storeNo f.payload)
      { storeAt s (storeNo f.payload) with verify := some (owedBy s f 0x22) })) := by
  refine next_congr ((runCommand_accepts _ _ ha (by decide)).trans ?_)
  have body (o : Owed) : sheetVerifyBody f (afterAccept s f) o = (setStore (afterAccept s f) (storeNo f.payload)
      { storeAt s (storeNo f.payload) with verify := some o }, .accepted) := by
    unfold sheetVerifyBody
    dsimp only
    rw [storeAt_afterAccept, if_neg (not_not_intro hl), if_neg (by simp [hn]), if_neg (by simp [hs]), if_neg (by simp [hs, hv]), if_neg (by simp [hm])]
  rw [body]
  rfl

theorem exec_sheetStatus (ha : accepts s f (cmd 0x23) = true) (hp : f.payload = []) :
    exec (.sheetStatus f) s = .next (replies s f 0x23 (storeStatus s.store0 ++ storeStatus s.store1) (afterAccept s f)) := by
  refine next_congr (runCommand_replies _ _ ha (by decide) ?_)
  unfold sheetStatusBody
  rw [hp, afterAccept_store0, afterAccept_store1]
  rfl

theorem exec_sheetClear (ha : accepts s f (cmd 0x24) = true) (hl : f.payload.length = 1) (hn : storeNamed f.payload = true)
    (hu : (storeAt s (storeNo f.payload)).st ≠ .inUse) : exec (.sheetClear f) s =
      .next (replies s f 0x24 [] (setStore (dropVerify (afterAccept s f) (storeNo f.payload)) (storeNo f.payload) CueStore.reset)) := by
  refine next_congr (runCommand_replies _ _ ha (by decide) ?_)
  unfold sheetClearBody
  dsimp only
  rw [storeAt_afterAccept, if_neg (not_not_intro hl), if_neg (by simp [hn]), if_neg hu]

theorem exec_sheetVerifyDone {k : Fin 2} {o : Owed} (h : (storeAt s k).verify = some o) :
    exec (.sheetVerifyDone k) s = .next (verifyDone s k (storeAt s k) o) := by
  change execSheetVerifyDone k s = _
  unfold execSheetVerifyDone
  dsimp only
  rw [h]

theorem verifyDone_passed {v : CueStore} (k : Fin 2) (o : Owed) (h : sheetCheck s v = none) :
    verifyDone s k v o = finish (setStore s k { v with st := .verified, verify := none }) o stOk [] := by
  unfold verifyDone
  rw [h]

theorem verifyDone_failed {v : CueStore} (k : Fin 2) (o : Owed) {r : Rejection} (h : sheetCheck s v = some r) :
    verifyDone s k v o = finish (setStore s k { v with st := .rejected, verify := none }) o stSheetRejected
      (toLE 4 r.die ++ toLE 4 r.cue ++ toLE 1 r.item) := by
  unfold verifyDone
  rw [h]

end Sheets

/-- Settles O40: each command of a store that is accepted, a chunk in its turn, and the end of a verification. -/
theorem sheetsAreLoadedAndVerified : Obligations.SheetsAreLoadedAndVerified := by
  intro f s k hk
  subst hk
  refine ⟨exec_sheetBegin, fun ha hl hn hz hs h0 h1 h2 hw => ?chunk, fun ha hw => ?waits, exec_sheetVerify, exec_sheetStatus, exec_sheetClear,
    dropVerify_none, fun o => dropVerify_some, fun o h => ⟨fun hc => ?passed, fun r hc => ?failed⟩⟩
  case chunk =>
    have fits : SheetChunkFits (storeAt s (storeNo f.payload)) f.payload := ⟨hl, hn, hz, hs, h0, h1, h2⟩
    refine ⟨_, exec_sheetData ha hw fits, ?_, ?_, ?_, ?_, ?_, ?_⟩
    · rw [storeAt_setStore]
      rfl
    · rw [storeAt_setStore]
      exact chunked_mem _ _
    · rw [storeAt_setStore]
      rfl
    · rw [storeAt_setStore]
      exact hs
    · rw [setStore_mem, creditUse_mem]
    · rw [setStore_ctl, creditUse_sent]
  case waits =>
    refine ⟨_, exec_sheetData_waits ha hw, ?_, ?_, ?_, ?_⟩
    · rw [holdData_fwHeld, creditUse_fwHeld]
    · rw [← storeAt_creditUse s f.port f.cls]
      exact storeAt_congr (field_of State.store0 (holdData_only _ _ _) fun _ => rfl) (field_of State.store1 (holdData_only _ _ _) fun _ => rfl) _
    · rw [holdData_mem, creditUse_mem]
    · rw [holdData_sent, creditUse_sent]
  case passed => rw [exec_sheetVerifyDone h, verifyDone_passed _ _ hc]
  case failed => rw [exec_sheetVerifyDone h, verifyDone_failed _ _ hc]

end Sys2Proof.Machine
end

section
/-! Sp. 13 R383-R387, Tables 13-8, 13-10: the commands that control the step. -/

namespace Sys2Proof.Machine

/-- What reads neither the ports nor the session reads after acceptance what it read before. -/
theorem afterAccept_field {γ : Type} (π : State → γ) (h : ∀ t, π (butFrames t) = π t) (s : State) (f : Frame) : π (afterAccept s f) = π s :=
  field_of π (afterAccept_only s f) h

/-! ## ARM -/

theorem setActive_keeps (l : List Nat) (m : Sparse Tenant) (i : Nat) (h : (Sparse.get noTenant m i).active = true) :
    (Sparse.get noTenant (setActive m l) i).active = true := by
  induction l generalizing m with
  | nil => exact h
  | cons j r ih =>
    refine ih _ ?_
    by_cases hi : i = j
    · subst hi
      rw [Sparse.get_set_self]
    · rwa [Sparse.get_set_other _ _ _ hi]

/-- ACTIVE is set for a tenant of the list. -/
theorem setActive_active {l : List Nat} (m : Sparse Tenant) {i : Nat} (h : i ∈ l) : (Sparse.get noTenant (setActive m l) i).active = true := by
  induction l generalizing m with
  | nil => exact absurd h List.not_mem_nil
  | cons j r ih =>
    rcases List.mem_cons.1 h with rfl | h
    · exact setActive_keeps r _ i (by rw [Sparse.get_set_self])
    · exact ih _ h

section Accepted
variable {s : State} {f : Frame}

theorem exec_arm {k : Fin 2} (ha : accepts s f (cmd 0x40) = true) (hn : leAt f.payload 80 2 ≤ 1024) (hz : zeroAt f.payload 82 14 = true)
    (hl : f.payload.length = 96 + 2 * leAt f.payload 80 2)
    (ht : (armTenants f.payload (leAt f.payload 80 2)).any (fun i => decide (16383 < i)) = false) (hb : stepBusy s = false)
    (hf : armAllowed s (leAt f.payload 80 2) = true) (hk : storeWith s (BitVec.ofNat 256 (ofBE (slice f.payload 0 32))) = some k)
    (hd : s.step.dirty = false) (hc : armDetail s (storeAt s k) (armTenants f.payload (leAt f.payload 80 2)) = none) :
    exec (.arm f) s =
      .next (replies s f 0x40 [] (armed (afterAccept s f) k f.payload (armTenants f.payload (leAt f.payload 80 2)))) := by
  have allowed : armAllowed (afterAccept s f) (leAt f.payload 80 2) = true := (afterAccept_field (armAllowed · _) (fun _ => rfl) s f).trans hf
  have store : storeWith (afterAccept s f) (BitVec.ofNat 256 (ofBE (slice f.payload 0 32))) = some k :=
    (afterAccept_field (storeWith · _) (fun _ => rfl) s f).trans hk
  have passed (v : CueStore) (l : List Nat) : armDetail (afterAccept s f) v l = armDetail s v l :=
    afterAccept_field (armDetail · v l) (fun _ => rfl) s f
  refine next_congr (runCommand_replies _ _ ha (by decide) ?_)
  unfold armBody
  dsimp only
  rw [if_neg (not_not_intro hl), if_neg (by simp [hz]; omega), if_neg (by rw [ht]; exact Bool.false_ne_true),
    if_neg (by rw [stepBusy_afterAccept, hb]; exact Bool.false_ne_true), if_neg (by simp [allowed]), store]
  dsimp only
  rw [if_neg (by rw [afterAccept_step, hd]; exact Bool.false_ne_true), storeAt_afterAccept, passed, hc]

theorem armed_store (s : State) (k : Fin 2) (p : List Byte) (l : List Nat) : storeAt (armed s k p l) k = { storeAt s k with st := .inUse } :=
  storeAt_setStore _ _ _

/-! ## START_AT_BEAT, HOLD, RESUME -/

theorem beatNow_afterAccept : beatNow (afterAccept s f) = beatNow s := afterAccept_field beatNow (fun _ => rfl) s f

theorem stepStarted_afterAccept : stepStarted (afterAccept s f) = stepStarted s := afterAccept_field stepStarted (fun _ => rfl) s f

theorem exec_startAtBeat (ha : accepts s f (cmd 0x41) = true) (hl : f.payload.length = 6) (hp : s.step.phase = .armed) (hb : beatRuns s = true)
    (he : startTooEarly s (leAt f.payload 0 6) = false) (hw : s.secure.firmware = false) :
    exec (.startAtBeat f) s = .next (replies s f 0x41 [] (started (afterAccept s f) (leAt f.payload 0 6))) := by
  have runs : beatRuns (afterAccept s f) = true := (afterAccept_field beatRuns (fun _ => rfl) s f).trans hb
  have early : startTooEarly (afterAccept s f) (leAt f.payload 0 6) = false := (afterAccept_field (startTooEarly · _) (fun _ => rfl) s f).trans he
  refine next_congr (runCommand_replies _ _ ha (by decide) ?_)
  unfold startBody
  dsimp only
  rw [if_neg (not_not_intro hl), if_neg (by rw [afterAccept_step]; exact not_not_intro hp), if_neg (by simp [runs]),
    if_neg (by simp [early]), if_neg (by rw [afterAccept_secure, hw]; exact Bool.false_ne_true)]

theorem exec_hold (ha : accepts s f (cmd 0x42) = true) (hl : f.payload.length = 6) (hs : stepStarted s = true) (hh : s.step.hold = none)
    (hp : s.step.phase ≠ .held) (h4 : (beatNow s).toNat + 4 ≤ leAt f.payload 0 6)
    (hb : s.step.phase = .starting → s.step.startBeat.toNat ≤ leAt f.payload 0 6) (hu : holdUnsafe s (leAt f.payload 0 6) = false) :
    exec (.hold f) s = .next (acceptedReply f 0x42 { afterAccept s f with
      step := { (afterAccept s f).step with hold := some (BitVec.ofNat 48 (leAt f.payload 0 6), owedBy s f 0x42) } }) := by
  have safe : holdUnsafe (afterAccept s f) (leAt f.payload 0 6) = false := (afterAccept_field (holdUnsafe · _) (fun _ => rfl) s f).trans hu
  have late : ¬(leAt f.payload 0 6 < (beatNow s).toNat + 4 ∨ (s.step.phase = .starting ∧ leAt f.payload 0 6 < s.step.startBeat.toNat)) := by
    rintro (h | ⟨h, h'⟩)
    · omega
    · exact absurd (hb h) (by omega)
  have body (o : Owed) : holdBody f (afterAccept s f) o = ({ afterAccept s f with
      step := { (afterAccept s f).step with hold := some (BitVec.ofNat 48 (leAt f.payload 0 6), o) } }, .accepted) := by
    unfold holdBody
    dsimp only
    rw [if_neg (not_not_intro hl), if_neg (by simp [stepStarted_afterAccept, hs]), if_neg (by simp [hh, hp]),
      if_neg (by rwa [beatNow_afterAccept, afterAccept_step]), if_neg (by rw [safe]; exact Bool.false_ne_true)]
  refine next_congr ((runCommand_accepts _ _ ha (by decide)).trans ?_)
  rw [body]
  rfl

theorem exec_resume (ha : accepts s f (cmd 0x43) = true) (hl : f.payload.length = 6) (hp : s.step.phase = .held)
    (h4 : (beatNow s).toNat + 4 ≤ leAt f.payload 0 6) : exec (.resume f) s = .next (replies s f 0x43 [] { afterAccept s f with
      step := { (afterAccept s f).step with resume := some (BitVec.ofNat 48 (leAt f.payload 0 6)) } }) := by
  refine next_congr (runCommand_replies _ _ ha (by decide) ?_)
  unfold resumeBody
  dsimp only
  rw [if_neg (not_not_intro hl), if_neg (by rw [afterAccept_step]; exact not_not_intro hp), if_neg (by rw [beatNow_afterAccept]; omega)]

/-! ## STEP_ABORT, STEP_STATUS -/

theorem exec_stepAbort_armed (ha : accepts s f abortInfo = true) (hl : f.payload = []) (hp : s.step.phase = .armed) :
    exec (.stepAbort f) s = .next (replies s f 0x44 [0] (withdrawArm (afterAccept s f))) := by
  refine next_congr (runCommand_replies _ _ ha (by decide) ?_)
  unfold abortBody
  rw [hl, afterAccept_step, hp]
  rfl

theorem exec_stepAbort_started (ha : accepts s f abortInfo = true) (hl : f.payload = []) (hs : stepStarted s = true) :
    exec (.stepAbort f) s = .next (replies s f 0x44 (toLE 1 s.step.phase.code) (stopFiring (afterAccept s f) 5 true (afterAccept s f).now)) := by
  refine next_congr (runCommand_replies _ _ ha (by decide) ?_)
  unfold abortBody
  unfold stepStarted at hs
  rw [hl, afterAccept_step]
  cases hp : s.step.phase with
  | idle => simp [hp] at hs
  | armed => simp [hp] at hs
  | _ => rfl

theorem exec_stepStatus (ha : accepts s f (cmd 0x45) = true) (hl : f.payload = []) :
    exec (.stepStatus f) s = .next (replies s f 0x45 (toLE 1 s.step.phase.code ++ toLE 1 s.beat.lock.code ++ zeros 6 ++
      toLE 8 s.step.number.toNat ++ toLE 4 (relBeatNow s) ++ toBE 32 s.step.hash.toNat) (afterAccept s f)) := by
  have rel : relBeatNow (afterAccept s f) = relBeatNow s := afterAccept_field relBeatNow (fun _ => rfl) s f
  refine next_congr (runCommand_replies _ _ ha (by decide) ?_)
  unfold statusBody
  rw [hl, afterAccept_step, afterAccept_beat, rel]
  rfl

end Accepted

/-! ## The channels recycled leave the tenants -/

theorem writeByte_tenants (s : State) (a : Nat) (v : Byte) : (writeByte s a v).tenants = s.tenants := by
  have poked (p : Nat) : (pokeByte s p v).tenants = s.tenants := by
    unfold pokeByte
    dsimp only
    split <;> split <;> rfl
  unfold writeByte
  exact ite_field (π := State.tenants) rfl (ite_field (π := State.tenants) rfl (poked _))

theorem store_tenants (s : State) (a : Nat) (p : List Byte) : (store s a p).tenants = s.tenants := by
  induction p generalizing s a with
  | nil => rfl
  | cons b r ih => exact (ih _ _).trans (writeByte_tenants s a b)

theorem storeFree_tenants (s : State) (l : List (Nat × Nat)) : (storeFree s l).tenants = s.tenants :=
  foldl_field State.tenants (fun t (x : Nat × Nat) => store (drawBytes x.2 t).2 x.1 (drawBytes x.2 t).1)
    (fun t x => (store_tenants _ _ _).trans (field_of State.tenants (drawBytes_only x.2 t) fun _ => rfl)) l s

theorem dropChannel_tenants (s : State) (d : Die) (n : Fin 128) : (dropChannel s d n).tenants = s.tenants := by
  have freed : (dropFreed s d n).tenants = s.tenants :=
    dropFreed_field s d n State.tenants (fun _ _ => rfl) (fun _ _ => rfl) (fun _ => rfl) storeFree_tenants
  have drawn : (drawBytes 4 (dropFreed s d n)).2.tenants = s.tenants := (field_of State.tenants (drawBytes_only _ _) fun _ => rfl).trans freed
  rw [dropChannel_eq]
  exact ite_field (π := State.tenants) drawn drawn

theorem recycleChannels_tenants (s : State) : (recycleChannels s).tenants = s.tenants :=
  foldl_field State.tenants (fun t (e : Nat × Channel) => recycleOne t (Fin.ofNat 4 (e.1 / 128)) (Fin.ofNat 128 e.1))
    (fun t _ => dropChannel_tenants t _ _) _ s

/-! ## The arm withdrawn -/

section Withdraw
variable (s : State)

/-- The arm withdrawn, before firmware recycles the channels. -/
def armWithdrawn : State :=
  let s1 := setStore s s.step.store { storeAt s s.step.store with st := .verified }
  { s1 with step := { s1.step with phase := .idle }, tenants := clearActive s1.tenants }

theorem withdrawArm_field {γ : Type} (π : State → γ) (h : ∀ t, π (butRecycled t) = π t) : π (withdrawArm s) = π (armWithdrawn s) :=
  field_of π (recycleChannels_only (armWithdrawn s)) h

theorem withdrawArm_phase : (withdrawArm s).step.phase = .idle := withdrawArm_field s (fun t => t.step.phase) fun _ => rfl

theorem withdrawArm_number : (withdrawArm s).step.number = s.step.number :=
  (withdrawArm_field s (fun t => t.step.number) fun _ => rfl).trans 
    (congrArg StepSt.number (setStore_step s s.step.store { storeAt s s.step.store with st := .verified }) :)

theorem withdrawArm_store : (storeAt (withdrawArm s) s.step.store).st = .verified :=
  (withdrawArm_field s (fun t => (storeAt t s.step.store).st) fun _ => rfl).trans
    (congrArg CueStore.st (storeAt_setStore s s.step.store { storeAt s s.step.store with st := .verified }))

theorem withdrawArm_inactive (i : Nat) : (tenant (withdrawArm s) i).active = false :=
  (congrArg Tenant.active (tenant_congr (recycleChannels_tenants (armWithdrawn s)) i)).trans (clearActive_inactive _ i)

variable {s}

/-- With no channel left over no byte changes. -/
theorem withdrawArm_mem (h : s.dma.filter (fun e => leftOver e.2) = []) : (withdrawArm s).mem = s.mem := by
  have none_ : (armWithdrawn s).dma.filter (fun e => leftOver e.2) = [] := (congrArg (List.filter _) (setStore_dma _ _ _)).trans h
  exact (congrArg State.mem (recycleChannels_none none_)).trans (setStore_mem _ _ _)

end Withdraw

/-- Settles O27: each command's body on the state after acceptance, and what it leaves. -/
theorem stepControlCommandsTakeEffect : Obligations.StepControlCommandsTakeEffect := by
  refine fun f s => ⟨fun k ha hn hz hl ht hb hf hk hd hc => ?arm, fun ha hl hp hb he hw => ?start, exec_hold, exec_resume, fun ha hl hp => ?withdrawn,
    fun ha hl hs => ?stopped, exec_stepStatus⟩
  case arm =>
    refine ⟨_, exec_arm ha hn hz hl ht hb hf hk hd hc, rfl, rfl, ?_, ?_, rfl, rfl, fun i => rfl, rfl, rfl, ?_, fun i hi => setActive_active _ hi⟩
    · rw [armed_store]
    · exact congrArg CueStore.expected (storeAt_afterAccept s f k)
    · rw [armed_mem, afterAccept_mem]
  case start =>
    refine ⟨_, exec_startAtBeat ha hl hp hb he hw, rfl, rfl, rfl, rfl, rfl, ?_, ?_, ?_⟩
    · exact (congrArg StepSt.number (afterAccept_step s f) :)
    · exact afterAccept_mem s f
    · exact afterAccept_stage s f
  case withdrawn =>
    refine ⟨_, exec_stepAbort_armed ha hl hp, withdrawArm_phase _, ?_, fun hd => ?_, ?_, withdrawArm_inactive _⟩
    · rw [← afterAccept_step s f]
      exact withdrawArm_store _
    · rw [withdrawArm_mem (by rwa [afterAccept_dma]), afterAccept_mem]
    · rw [withdrawArm_number, afterAccept_step]
  case stopped =>
    refine ⟨_, exec_stepAbort_started ha hl hs, stopFiring_stopped _ _ _ _, ?_, ?_, fun hc => ?_, fun hc => ?_⟩
    · rw [field_of (fun t : State => t.step.phase) (stopFiring_stops _ _ _ _) fun _ => rfl, afterAccept_step]
    · rw [stopFiring_mem, afterAccept_mem]
    · exact stopFiring_first _ _ _ _ (by rwa [afterAccept_step])
    · rw [(stopFiring_later _ _ _ _ (by rwa [afterAccept_step])).1, afterAccept_step]

end Sys2Proof.Machine
end

section
/-! Sp. 13 R384, R385; sp. 15 R440: the step at its start beat. -/

namespace Sys2Proof.Machine

/-! ## The step decides whether it freezes -/

/-- State without what that decision sets. -/
def butFreeze (s : State) : State := { s with step := { s.step with freezes := false }, secure := State.reset.secure }

theorem decideFreeze_only (s : State) : butFreeze (decideFreeze s) = butFreeze s := by
  unfold decideFreeze
  split
  · rfl
  · exact ite_field rfl rfl

/-- With no tier due, or an image held, no step freezes. -/
theorem decideFreeze_not {s : State} (h : s.secure.due = [] ∨ s.secure.image.isSome = true) : decideFreeze s = s := by
  unfold decideFreeze
  split
  · rfl
  · refine if_pos ?_
    rcases h with h | h <;> simp [h]

/-! ## A step that ends without a commit -/

section Ends
variable (s : State) {state : Byte} (cause : Byte) (h : state ≠ 1)
include h

theorem closeStep_frees : closeStep s state cause =
    storeFree (endStep (recycleChannels s) state cause) (undefinedRanges (sheet s).inPlace s) := by
  have recycled : (recycleChannels s).cfg = s.cfg := field_of State.cfg (recycleChannels_only s) fun _ => rfl
  have regions : (endStep (recycleChannels s) state cause).cfg.regions = s.cfg.regions := by
    rw [endStep_cfg, decide_eq_false h, recycled]
    rfl
  unfold closeStep
  rw [leaveState_drained _ _ h, undefinedRanges_congr regions]

/-- What no stored byte touches is as the step's end leaves it. -/
theorem closeStep_reads {γ : Type} (π : State → γ) (hs : ∀ t, π (butStored t) = π t) :
    π (closeStep s state cause) = π (endStep (recycleChannels s) state cause) := by
  rw [closeStep_frees s cause h]
  exact field_of π (storeFree_only _ _) hs

/-- With no channel left over only the state regions that such an end leaves undefined change. -/
theorem closeStep_writes (idle : s.dma.filter (fun e => leftOver e.2) = []) : onlyWrites s (closeStep s state cause) (leftUndefined s) := by
  refine onlyWrites_iff.2 fun a spared => ?_
  have cfg : (endStep s state cause).cfg = s.cfg := by
    rw [endStep_cfg, decide_eq_false h]
    rfl
  have free : Spares (endStep s state cause) (zerosAt (undefinedRanges (sheet s).inPlace s)) a := by
    rw [Spares.congr cfg]
    exact spared.of_ranges fun q hq => by rwa [rangesOf_zerosAt, ← rangesOf_leftUndefined] at hq
  rw [closeStep_frees s cause h, recycleChannels_none idle, physByte_storeFree free]
  exact physByte_of_bytes (by rw [endStep_mem]) a

end Ends

/-! ## A start beat in the hold -/

/-- State with the ORIGIN of the step's end. -/
def withOrigin (s : State) (o : Option Origin) : State := { s with step := { s.step with originS := o } }

/-- In the hold the step ends SUSPECT, with its cause and ORIGIN. -/
theorem startInHold_closes (s : State) : ∃ o c, startInHold s = closeStep (withOrigin s o) 2 c := by
  have early : withOrigin s s.step.originS = s := rfl
  unfold startInHold
  dsimp only
  split
  · split
    · exact ⟨s.step.originS, 0x11, by rw [early]⟩
    · exact ⟨_, 0x10, rfl⟩
  · exact ⟨_, 0x10, rfl⟩

/-- The state that the step runs in from its start beat. -/
def stepBegun (s : State) : State :=
  { s with step := { s.step with phase := .running, relBeat := 0, next := [], lastDone := 0, curtains := [], curtainAt := 0 } }

section Start
variable {s : State} (hp : s.step.phase = .starting) (hr : beatRuns s = true) (hb : beatNow s = s.step.startBeat) (hs : s.step.stopped = false)
include hp hr hb hs

theorem exec_stepStart (hh : inHold s = false) : exec .stepStart s = .next (decideFreeze (stepBegun s)) :=
  (if_pos ⟨hp, hr, hb, by rw [hs]; rfl⟩).trans (if_neg (by simp [hh]))

theorem exec_stepStart_hold (hh : inHold s = true) : exec .stepStart s = .next (startInHold s) :=
  (if_pos ⟨hp, hr, hb, by rw [hs]; rfl⟩).trans (if_pos hh)

end Start

/-- The report of a step's end begins with its number and how it ended. -/
theorem endStep_report9 (s : State) (state cause : Byte) {k : Kcp} (h : s.ctl.carrier = some k) :
    ∃ x ∈ (endStep s state cause).ctl.sent, x.opcode = 0x46 ∧ x.report = true ∧ x.payload.take 9 = toLE 8 s.step.number.toNat ++ [state] := by
  obtain ⟨x, hx, opcode, report, payload⟩ := endStep_report s state cause h
  refine ⟨x, hx, opcode, report, ?_⟩
  have nine : (toLE 8 s.step.number.toNat ++ [state]).length = 9 := by rw [List.length_append, toLE_length]; rfl
  have first : toLE 8 s.step.number.toNat ++ [state, cause] = (toLE 8 s.step.number.toNat ++ [state]) ++ [cause] := by simp
  calc x.payload.take 9 = (x.payload.take 10).take 9 := by rw [List.take_take]; rfl
    _ = _ := by rw [payload, first, List.take_left' nine]

/-- Settles O26: outside the hold the step runs and `decideFreeze` touches its securing alone; in it `closeStep` ends it SUSPECT. -/
theorem theStepStartsAtItsBeat : Obligations.TheStepStartsAtItsBeat := by
  refine fun s hp hr hb hs => ⟨fun hh => ?runs, fun hh => ?ends⟩
  case runs =>
    have kept {γ : Type} (π : State → γ) (h : ∀ t, π (butFreeze t) = π t) : π (decideFreeze (stepBegun s)) = π (stepBegun s) :=
      field_of π (decideFreeze_only (stepBegun s)) h
    exact ⟨_, exec_stepStart hp hr hb hs hh, kept (fun t => t.step.phase) fun _ => rfl, kept (fun t => t.step.relBeat) fun _ => rfl,
      kept (fun t => t.step.next) fun _ => rfl, kept (fun t => t.step.curtains) fun _ => rfl, kept State.mem fun _ => rfl,
      kept State.ctl fun _ => rfl, kept State.stage fun _ => rfl,
      fun due => (congrArg State.secure (decideFreeze_not (s := stepBegun s) (.inl due)) :),
      fun held => (congrArg State.secure (decideFreeze_not (s := stepBegun s) (.inr held)) :)⟩
  case ends =>
    obtain ⟨o, c, closes⟩ := startInHold_closes s
    have reads {γ : Type} (π : State → γ) (h : ∀ t, π (butStored t) = π t) :=
      closeStep_reads (withOrigin s o) (state := 2) c (by decide) π h
    have recycled {γ : Type} (π : State → γ) (h : ∀ t, π (butRecycled t) = π t) : π (recycleChannels (withOrigin s o)) = π (withOrigin s o) :=
      field_of π (recycleChannels_only _) h
    refine ⟨_, exec_stepStart_hold hp hr hb hs hh, ?_, fun idle => ?_, ?_, fun k hk => ?_⟩
    · rw [closes, reads (fun t => t.step.phase) fun _ => rfl, endStep_phase]
    · rw [closes]
      exact closeStep_writes (withOrigin s o) c (by decide) idle
    · rw [closes, reads (fun t => t.stage.units) fun _ => rfl, endStep_stage]
    · obtain ⟨x, sent, rest⟩ := endStep_report9 (recycleChannels (withOrigin s o)) 2 c ((recycled (fun t => t.ctl.carrier) fun _ => rfl).trans hk)
      rw [recycled (fun t => t.step.number) fun _ => rfl] at rest
      exact ⟨x, by rwa [closes, reads State.ctl fun _ => rfl], rest⟩

end Sys2Proof.Machine
end

section
/-! Sp. 13 R370, Table 13-4 step 9: a command whose length or parameters are wrong. -/

namespace Sys2Proof.Machine

/-! ## An answer that says so changes nothing -/

/-- A status that says that the length or a parameter is wrong. -/
abbrev FormStatus (st : Byte) : Prop := st = stBadLength ∨ st = stBadParam

/-- Where the body's answer says that its frame is malformed, the body has changed nothing. -/
def FormPlain (s : State) (r : State × Ans) : Prop := formFault r.2 = true → ∃ st, FormStatus st ∧ r = no s st

section Plain
variable (s t : State)

/-- An answer that does not say so. -/
theorem FormPlain.fine {r : State × Ans} (h : formFault r.2 = false) : FormPlain s r := fun e => by rw [h] at e; exact Bool.noConfusion e

@[simp] theorem formPlain_no (st : Byte) : FormPlain s (no s st) := by
  intro h
  have status : FormStatus st := by simpa [formFault, no] using h
  exact ⟨st, status, rfl⟩

@[simp] theorem formPlain_ok (p : List Byte) : FormPlain s (ok t p) := .fine s rfl

@[simp] theorem formPlain_accepted : FormPlain s (t, .accepted) := .fine s rfl

@[simp] theorem formPlain_later : FormPlain s (t, .later) := .fine s rfl

variable {s}

theorem formPlain_ite {c : Prop} [Decidable c] {a b : State × Ans} (ha : FormPlain s a) (hb : FormPlain s b) : FormPlain s (if c then a else b) := by
  split
  · exact ha
  · exact hb

theorem formPlain_noPayload (f : Frame) {r : State → State × Ans} (h : FormPlain s (r s)) : FormPlain s (noPayload f s r) :=
  formPlain_ite (formPlain_no s _) h

theorem formPlain_tenantArg (f : Frame) {r : Nat → State × Ans} (h : ∀ n, FormPlain s (r n)) : FormPlain s (tenantArg f s r) :=
  formPlain_ite (formPlain_no s _) (formPlain_ite (formPlain_no s _) (h _))

end Plain

/-- A malformed frame changes nothing; of a GUARD_COMMAND a malformed envelope is recorded (sp. 13 R389). -/
def FormChecked (f : Frame) (i : CmdInfo) (body : State → Owed → State × Ans) : Prop :=
  ∀ s o, formFault (body s o).2 = true → ∃ st, FormStatus st ∧ (body s o = no s st ∨
    (i.opcode = 0x80 ∧ body s o = (raise s (gev s 0x16 st.toNat (envCounter f.payload).toNat .never), .final st [])))

theorem formChecked_plain {f : Frame} {i : CmdInfo} {body : State → Owed → State × Ans} (h : ∀ s o, FormPlain s (body s o)) : FormChecked f i body := by
  intro s o e
  obtain ⟨st, status, same⟩ := h s o e
  exact ⟨st, status, .inl same⟩

/-! ## The bodies -/

section Bodies
variable (f : Frame) (s : State) (o : Owed)

theorem sessionOpenBody_plain : FormPlain s (sessionOpenBody f s) := formPlain_ite (formPlain_no _ _) (formPlain_ok _ _ _)

theorem attestReply_plain : FormPlain s (attestReply f s) := by
  unfold attestReply
  (repeat' split) <;> simp

theorem neighbourWriteBody_plain : FormPlain s (neighbourWriteBody f s) := by
  unfold neighbourWriteBody
  dsimp only
  (repeat' split) <;> simp

theorem stateRegionWriteBody_plain : FormPlain s (stateRegionWriteBody f s) := by
  unfold stateRegionWriteBody
  dsimp only
  (repeat' split) <;> simp

theorem wingWriteBody_plain : FormPlain s (wingWriteBody f s) := by
  unfold wingWriteBody
  dsimp only
  (repeat' split) <;> simp

theorem beatDelayWriteBody_plain : FormPlain s (beatDelayWriteBody f s) := by
  unfold beatDelayWriteBody
  dsimp only
  (repeat' split) <;> simp

theorem environmentBody_plain : FormPlain s (environmentBody f s) := by
  unfold environmentBody
  dsimp only
  (repeat' split) <;> simp

theorem sheetBeginBody_plain : FormPlain s (sheetBeginBody f s) := by
  unfold sheetBeginBody
  dsimp only
  (repeat' split) <;> simp

theorem sheetVerifyBody_plain : FormPlain s (sheetVerifyBody f s o) :=
  formPlain_ite (formPlain_no _ _) (formPlain_ite (formPlain_no _ _) (formPlain_ite (formPlain_no _ _) (formPlain_ite (formPlain_no _ _)
    (formPlain_ite (.fine s rfl) (formPlain_accepted _ _)))))

theorem sheetStatusBody_plain : FormPlain s (sheetStatusBody f s) := formPlain_ite (formPlain_no _ _) (formPlain_ok _ _ _)

theorem sheetClearBody_plain : FormPlain s (sheetClearBody f s) := by
  unfold sheetClearBody
  dsimp only
  (repeat' split) <;> simp

theorem writeOpenBody_plain : FormPlain s (writeOpenBody f s) := by
  unfold writeOpenBody
  dsimp only
  (repeat' split) <;> simp

theorem closeReply_fine (id : BitVec 32) : formFault (.final (closeReply s id).2.1 (closeReply s id).2.2) = false := by
  unfold closeReply
  dsimp only
  (repeat' split) <;> rfl

theorem writeCloseBody_plain : FormPlain s (writeCloseBody f s) :=
  formPlain_ite (formPlain_no _ _) (formPlain_ite (formPlain_later _ _) (.fine s (closeReply_fine s _)))

theorem readBody_plain : FormPlain s (readBody f s) := by
  unfold readBody
  dsimp only
  repeat' split
  all_goals simp

theorem cancelBody_plain : FormPlain s (cancelBody f s) := by
  unfold cancelBody
  dsimp only
  (repeat' split) <;> simp

theorem armBody_plain : FormPlain s (armBody f s) := by
  have refused (d i : Nat) : FormPlain s (s, .final stArmRefused (toLE 4 d ++ toLE 4 i)) := .fine s rfl
  unfold armBody
  dsimp only
  (repeat' split) <;> simp [refused]

theorem startBody_plain : FormPlain s (startBody f s) := by
  unfold startBody
  dsimp only
  (repeat' split) <;> simp

theorem holdBody_plain : FormPlain s (holdBody f s o) := by
  unfold holdBody
  dsimp only
  (repeat' split) <;> simp

theorem resumeBody_plain : FormPlain s (resumeBody f s) := by
  unfold resumeBody
  dsimp only
  (repeat' split) <;> simp

theorem abortBody_plain : FormPlain s (abortBody f s) := by
  unfold abortBody
  (repeat' split) <;> simp

theorem statusBody_plain : FormPlain s (statusBody f s) := formPlain_ite (formPlain_no _ _) (formPlain_ok _ _ _)

theorem tenantOpenBody_plain : FormPlain s (tenantOpenBody f s) := by
  unfold tenantOpenBody
  dsimp only
  (repeat' split) <;> simp

theorem secureNowBody_plain : FormPlain s (secureNowBody f s o) := by
  unfold secureNowBody
  dsimp only
  repeat' split
  all_goals simp

theorem secureFloorBody_plain : FormPlain s (secureFloorBody f s) := formPlain_ite (formPlain_no _ _) (formPlain_ok _ _ _)

theorem understudyWriteBody_plain : FormPlain s (understudyWriteBody f s) := by
  unfold understudyWriteBody
  dsimp only
  (repeat' split) <;> simp

theorem understudyReadBody_plain : FormPlain s (understudyReadBody f s) := formPlain_ite (formPlain_no _ _) (formPlain_ok _ _ _)

theorem journalReadBody_plain : FormPlain s (journalReadBody f s) := formPlain_ite (formPlain_no _ _) (formPlain_ok _ _ _)

theorem refuseRestore_plain (id : BitVec 64) (cause : Nat) : FormPlain s (refuseRestore s id cause) := .fine s rfl

theorem beginRestore_plain (t : State) (tier : Nat) (id : BitVec 64) (bytes : Sparse Byte) (sends : List (BitVec 16)) :
    FormPlain s (beginRestore t tier id bytes sends o) := formPlain_accepted _ _

theorem restoreFrom_plain (take : Nat → Option Nat) (id : BitVec 64) : FormPlain s (restoreFrom s take f id o) := by
  unfold restoreFrom sendRestore
  dsimp only
  (repeat' split) <;> simp [refuseRestore_plain, beginRestore_plain]

theorem restoreBody_plain : FormPlain s (restoreBody f s o) := by
  unfold restoreBody
  dsimp only
  (repeat' split) <;> simp [refuseRestore_plain, beginRestore_plain, restoreFrom_plain]

theorem errorReadBody_plain : FormPlain s (errorReadBody f s) := formPlain_ite (formPlain_no _ _) (formPlain_ok _ _ _)

theorem alarmReadBody_plain : FormPlain s (alarmReadBody f s) := by
  unfold alarmReadBody
  dsimp only
  (repeat' split) <;> simp

theorem hostFiguresBody_plain : FormPlain s (hostFiguresBody f s) := by
  unfold hostFiguresBody
  dsimp only
  (repeat' split) <;> simp

theorem dmaStateBody_plain : FormPlain s (dmaStateBody f s) := by
  unfold dmaStateBody
  dsimp only
  (repeat' split) <;> simp

theorem regionScrubBody_plain : FormPlain s (regionScrubBody f s o) := by
  unfold regionScrubBody
  dsimp only
  (repeat' split) <;> simp

theorem fwSlotCommitBody_plain : FormPlain s (fwSlotCommitBody f s o) := by
  unfold fwSlotCommitBody
  dsimp only
  (repeat' split) <;> simp

/-- TENANT_CLOSE's and TENANT_KILL's: the tenant's state refuses it, or it is closed. -/
theorem closeTenantBody_plain (kill : Bool) (t : Nat) {wrong : Prop} [Decidable wrong] :
    FormPlain s (if wrong then no s stTenantState else closeTenant s o t kill) :=
  formPlain_ite (formPlain_no _ _) (formPlain_later _ _)

end Bodies

/-! ## Guard commands -/

/-- The effect of a guard body that has passed says no more that its frame is malformed. -/
def EffectFine (b : GuardBody) : Prop := ∀ s p o c, formFault (b.effect s p o c).2 = false

theorem setRegisterBody_fine : EffectFine setRegisterBody := by
  intro s p o c
  unfold setRegisterBody
  dsimp only
  split <;> rfl

theorem guardBody_checked {f : Frame} {i : CmdInfo} {b : GuardBody} (hi : i.opcode = 0x80) (hb : EffectFine b) : FormChecked f i (guardBody b f) := by
  intro s o e
  unfold guardBody at e ⊢
  dsimp only at e ⊢
  split at e
  case isTrue hl => exact ⟨stBadLength, .inl rfl, .inl (if_pos hl)⟩
  case isFalse hl =>
    rw [if_neg hl]
    split at e
    case h_1 st _ =>
      have status : FormStatus st := by simpa [formFault] using e
      exact ⟨st, status, .inr ⟨hi, rfl⟩⟩
    case h_2 => rw [hb] at e; exact Bool.noConfusion e

/-! ## The commands -/

/-- Each command with a reply runs a body whose malformed frames change nothing. -/
theorem exec_command_checked {c : Instr} {f : Frame} {i : CmdInfo} (h : commandOf c = some (f, i)) :
    ∃ body, FormChecked f i body ∧ ∀ s, exec c s = .next (runCommand s f c i body) := by
  cases c with
  | identity f => cases h; exact ⟨_, formChecked_plain fun s o => formPlain_noPayload f (formPlain_ok _ _ _), fun _ => rfl⟩
  | sessionOpen f => cases h; exact ⟨_, formChecked_plain fun s _ => sessionOpenBody_plain f s, fun _ => rfl⟩
  | sessionClose f => cases h; exact ⟨_, formChecked_plain fun s o => formPlain_noPayload f (formPlain_later _ _), fun _ => rfl⟩
  | controlTake f => cases h; exact ⟨_, formChecked_plain fun s o => formPlain_noPayload f (formPlain_ok _ _ _), fun _ => rfl⟩
  | beatReacquire f => cases h; exact ⟨_, formChecked_plain fun s o => formPlain_noPayload f (by split <;> simp), fun _ => rfl⟩
  | attest f => cases h; exact ⟨_, formChecked_plain fun s _ => attestReply_plain f s, fun _ => rfl⟩
  | deviceIdSet f => cases h; exact ⟨_, formChecked_plain fun s _ => by dsimp only; (repeat' split) <;> simp, fun _ => rfl⟩
  | neighbourWrite f => cases h; exact ⟨_, formChecked_plain fun s _ => neighbourWriteBody_plain f s, fun _ => rfl⟩
  | neighbourRead f => cases h; exact ⟨_, formChecked_plain fun s _ => by dsimp only; (repeat' split) <;> simp, fun _ => rfl⟩
  | stateRegionWrite f => cases h; exact ⟨_, formChecked_plain fun s _ => stateRegionWriteBody_plain f s, fun _ => rfl⟩
  | stateRegionRead f => cases h; exact ⟨_, formChecked_plain fun s _ => by (repeat' split) <;> simp, fun _ => rfl⟩
  | wingWrite f => cases h; exact ⟨_, formChecked_plain fun s _ => wingWriteBody_plain f s, fun _ => rfl⟩
  | wingRead f => cases h; exact ⟨_, formChecked_plain fun s _ => by (repeat' split) <;> simp, fun _ => rfl⟩
  | panelThreshWrite f => cases h; exact ⟨_, formChecked_plain fun s _ => by (repeat' split) <;> simp, fun _ => rfl⟩
  | panelThreshRead f => cases h; exact ⟨_, formChecked_plain fun s o => formPlain_noPayload f (formPlain_ok _ _ _), fun _ => rfl⟩
  | beatDelayWrite f => cases h; exact ⟨_, formChecked_plain fun s _ => beatDelayWriteBody_plain f s, fun _ => rfl⟩
  | beatDelayRead f => cases h; exact ⟨_, formChecked_plain fun s _ => by (repeat' split) <;> simp, fun _ => rfl⟩
  | environment f => cases h; exact ⟨_, formChecked_plain fun s _ => environmentBody_plain f s, fun _ => rfl⟩
  | sheetBegin f => cases h; exact ⟨_, formChecked_plain fun s _ => sheetBeginBody_plain f s, fun _ => rfl⟩
  | sheetVerify f => cases h; exact ⟨_, formChecked_plain fun s o => sheetVerifyBody_plain f s o, fun _ => rfl⟩
  | sheetStatus f => cases h; exact ⟨_, formChecked_plain fun s _ => sheetStatusBody_plain f s, fun _ => rfl⟩
  | sheetClear f => cases h; exact ⟨_, formChecked_plain fun s _ => sheetClearBody_plain f s, fun _ => rfl⟩
  | writeOpen f => cases h; exact ⟨_, formChecked_plain fun s _ => writeOpenBody_plain f s, fun _ => rfl⟩
  | writeClose f => cases h; exact ⟨_, formChecked_plain fun s _ => writeCloseBody_plain f s, fun _ => rfl⟩
  | read f => cases h; exact ⟨_, formChecked_plain fun s _ => readBody_plain f s, fun _ => rfl⟩
  | cancel f => cases h; exact ⟨_, formChecked_plain fun s _ => cancelBody_plain f s, fun _ => rfl⟩
  | arm f => cases h; exact ⟨_, formChecked_plain fun s _ => armBody_plain f s, fun _ => rfl⟩
  | startAtBeat f => cases h; exact ⟨_, formChecked_plain fun s _ => startBody_plain f s, fun _ => rfl⟩
  | hold f => cases h; exact ⟨_, formChecked_plain fun s o => holdBody_plain f s o, fun _ => rfl⟩
  | resume f => cases h; exact ⟨_, formChecked_plain fun s _ => resumeBody_plain f s, fun _ => rfl⟩
  | stepAbort f => cases h; exact ⟨_, formChecked_plain fun s _ => abortBody_plain f s, fun _ => rfl⟩
  | stepStatus f => cases h; exact ⟨_, formChecked_plain fun s _ => statusBody_plain f s, fun _ => rfl⟩
  | tenantOpen f => cases h; exact ⟨_, formChecked_plain fun s _ => tenantOpenBody_plain f s, fun _ => rfl⟩
  | tenantClose f => cases h; exact ⟨_, formChecked_plain fun s o => formPlain_tenantArg f fun _ => closeTenantBody_plain s o _ _, fun _ => rfl⟩
  | tenantKill f => cases h; exact ⟨_, formChecked_plain fun s o => formPlain_tenantArg f fun _ => closeTenantBody_plain s o _ _, fun _ => rfl⟩
  | tenantStatus f => cases h; exact ⟨_, formChecked_plain fun s _ => formPlain_tenantArg f fun _ => formPlain_ok _ _ _, fun _ => rfl⟩
  | scrubStatus f => cases h; exact ⟨_, formChecked_plain fun s _ => formPlain_tenantArg f fun _ => formPlain_ok _ _ _, fun _ => rfl⟩
  | secureNow f => cases h; exact ⟨_, formChecked_plain fun s o => secureNowBody_plain f s o, fun _ => rfl⟩
  | secureFloor f => cases h; exact ⟨_, formChecked_plain fun s _ => secureFloorBody_plain f s, fun _ => rfl⟩
  | understudyWrite f => cases h; exact ⟨_, formChecked_plain fun s _ => understudyWriteBody_plain f s, fun _ => rfl⟩
  | understudyRead f => cases h; exact ⟨_, formChecked_plain fun s _ => understudyReadBody_plain f s, fun _ => rfl⟩
  | journalRead f => cases h; exact ⟨_, formChecked_plain fun s _ => journalReadBody_plain f s, fun _ => rfl⟩
  | restore f => cases h; exact ⟨_, formChecked_plain fun s o => restoreBody_plain f s o, fun _ => rfl⟩
  | healthRead f => cases h; exact ⟨_, formChecked_plain fun s o => formPlain_noPayload f (formPlain_ok _ _ _), fun _ => rfl⟩
  | countersRead f => cases h; exact ⟨_, formChecked_plain fun s _ => by (repeat' split) <;> simp, fun _ => rfl⟩
  | errorRead f => cases h; exact ⟨_, formChecked_plain fun s _ => errorReadBody_plain f s, fun _ => rfl⟩
  | alarmRead f => cases h; exact ⟨_, formChecked_plain fun s _ => alarmReadBody_plain f s, fun _ => rfl⟩
  | hostFigures f => cases h; exact ⟨_, formChecked_plain fun s _ => hostFiguresBody_plain f s, fun _ => rfl⟩
  | traceConfig f => cases h; exact ⟨_, formChecked_plain fun s _ => by (repeat' split) <;> simp, fun _ => rfl⟩
  | guardRead f => cases h; exact ⟨_, formChecked_plain fun s _ => by (repeat' split) <;> simp, fun _ => rfl⟩
  | setLimits f => cases h; exact ⟨_, guardBody_checked rfl (fun _ _ _ _ => rfl), fun _ => rfl⟩
  | setPorts f => cases h; exact ⟨_, guardBody_checked rfl (fun _ _ _ _ => rfl), fun _ => rfl⟩
  | setFwMinSv f => cases h; exact ⟨_, guardBody_checked rfl (fun _ _ _ _ => rfl), fun _ => rfl⟩
  | rotateOperatorKey f => cases h; exact ⟨_, guardBody_checked rfl (fun _ _ _ _ => rfl), fun _ => rfl⟩
  | enterField f => cases h; exact ⟨_, guardBody_checked rfl (fun _ _ _ _ => rfl), fun _ => rfl⟩
  | scrap f => cases h; exact ⟨_, guardBody_checked rfl (fun _ _ _ _ => rfl), fun _ => rfl⟩
  | enterMakerAnalysis f => cases h; exact ⟨_, guardBody_checked rfl (fun _ _ _ _ => rfl), fun _ => rfl⟩
  | generateDeviceKey f => cases h; exact ⟨_, guardBody_checked rfl (fun _ _ _ _ => rfl), fun _ => rfl⟩
  | completeProvision f => cases h; exact ⟨_, guardBody_checked rfl (fun _ _ _ _ => rfl), fun _ => rfl⟩
  | setRegister f => cases h; exact ⟨_, guardBody_checked rfl setRegisterBody_fine, fun _ => rfl⟩
  | fuseMapRead f => cases h; exact ⟨_, formChecked_plain fun s o => formPlain_noPayload f (formPlain_ok _ _ _), fun _ => rfl⟩
  | tableImageRead f => cases h; exact ⟨_, formChecked_plain fun s _ => by dsimp only; (repeat' split) <;> simp, fun _ => rfl⟩
  | dmaStateRead f => cases h; exact ⟨_, formChecked_plain fun s _ => dmaStateBody_plain f s, fun _ => rfl⟩
  | regionScrub f => cases h; exact ⟨_, formChecked_plain fun s o => regionScrubBody_plain f s o, fun _ => rfl⟩
  | fwSlotCommit f => cases h; exact ⟨_, formChecked_plain fun s o => fwSlotCommitBody_plain f s o, fun _ => rfl⟩
  | deviceReset f => cases h; exact ⟨_, formChecked_plain fun s _ => by dsimp only; (repeat' split) <;> simp, fun _ => rfl⟩
  | _ => cases h

end Sys2Proof.Machine
end

section
/-! Sp. 13 R370, R373, R374, Table 13-4: the checks of a command frame, in their order. -/

namespace Sys2Proof.Machine

/-! ## Steps 5 to 8 -/

section Checks
variable {s : State} {f : Frame} {c : Instr} {i : CmdInfo} (body : State → Owed → State × Ans)

theorem checkCommand_stray (hc : f.cls ≠ i.cls) (h2 : f.cls = 2) : checkCommand s f c i body = stray s f.port i.opcode := if_pos ⟨h2, hc⟩

theorem checkCommand_wrongClass (hc : f.cls ≠ i.cls) (h2 : f.cls ≠ 2) : checkCommand s f c i body = refuse s i.opcode f.seq stWrongClass :=
  (if_neg fun e => h2 e.1).trans (if_pos hc)

section Class
variable (hc : f.cls = i.cls)
include hc

theorem checkCommand_notControl (hs : isStandby s f.port = true) (hi : i.standby = false) :
    checkCommand s f c i body = refuseOn s f.port i.opcode f.seq stNotControl := by
  unfold checkCommand
  rw [if_neg fun e => e.2 hc, if_neg (not_not_intro hc), if_pos ⟨hs, by rw [hi]; rfl⟩]

section Carried
variable (hs : isStandby s f.port = false)
include hs

theorem checkCommand_noSession (hn : s.ses.current ≠ some f.session) (hi : i.needSession = true) (h2 : s.pwr.stage ≠ 2) :
    checkCommand s f c i body = refuse s i.opcode f.seq stNoSession := by
  have needs : sessionFree s i = false := by simp [sessionFree, hi, h2]
  unfold checkCommand
  rw [if_neg fun e => e.2 hc, if_neg (not_not_intro hc), if_neg (by simp [hs]), if_pos ⟨hn, by rw [needs]; rfl⟩]

section Session
variable (hn : s.ses.current = some f.session) (hi : i.opcode ≠ 0x01) (h2 : s.pwr.stage ≠ 2)
include hn hi h2

/-- A frame of the session is judged by its SEQ. -/
theorem checkCommand_seq : checkCommand s f c i body =
    match seqCheck (s.ses.exp f.cls) f.seq with
    | .expected => takeCommand { s with ses := s.ses.advance f.cls } f c (owedBy s f i.opcode) i body
    | .duplicate => duplicate s f.cls f.seq
    | .wrong => refuse s i.opcode f.seq stSeqError := by
  have judged : seqFree s i = false := by simpa [seqFree, hn, h2] using hi
  unfold checkCommand
  rw [if_neg fun e => e.2 hc, if_neg (not_not_intro hc), if_neg (by simp [hs]), if_neg (by simp [hn]), judged]
  rfl

theorem checkCommand_wrong (hq : seqCheck (s.ses.exp f.cls) f.seq = .wrong) :
    checkCommand s f c i body = refuse s i.opcode f.seq stSeqError := by rw [checkCommand_seq body hc hs hn hi h2, hq]

theorem checkCommand_duplicate (hq : seqCheck (s.ses.exp f.cls) f.seq = .duplicate) :
    checkCommand s f c i body = duplicate s f.cls f.seq := by rw [checkCommand_seq body hc hs hn hi h2, hq]

theorem checkCommand_expected (hq : f.seq = s.ses.exp f.cls) :
    checkCommand s f c i body = takeCommand { s with ses := s.ses.advance f.cls } f c (owedBy s f i.opcode) i body := by
  have expected : seqCheck (s.ses.exp f.cls) f.seq = .expected := if_pos hq
  rw [checkCommand_seq body hc hs hn hi h2, expected]

end Session

end Carried

end Class

end Checks

/-! ## A command taken -/

section Taken
variable {s : State} {f : Frame} (c : Instr) (o : Owed) {i : CmdInfo} (body : State → Owed → State × Ans)

/-- A class 1 command waits while another is owed its final reply. -/
theorem takeCommand_waits (h1 : f.cls = 1) (hi : i.opcode ≠ 0x01) (hw : class1Open s = true ∨ s.waiting1 ≠ []) :
    takeCommand s f c o i body = { holdCredit s f with waiting1 := s.waiting1 ++ [(c, o)] } :=
  if_pos ⟨h1, hi, hw.imp_right fun h => by simpa using h⟩

theorem takeCommand_runs (h : f.cls ≠ 1 ∨ (class1Open s = false ∧ s.waiting1 = [])) : takeCommand s f c o i body = runBody s o i body := by
  refine if_neg ?_
  rintro ⟨h1, -, hw⟩
  obtain ⟨closed, none_⟩ := h.resolve_left (not_not_intro h1)
  simp [closed, none_] at hw

end Taken

/-! ## Step 9 -/

section Refused
variable {s : State} {i : CmdInfo}

theorem stateRefuses_stage (h : stageRefuses s i = true) : stateRefuses s i = some stBusy := if_pos h

theorem stateRefuses_scrapped (h : stageRefuses s i = false) (hl : s.guard.lifecycle = .scrapped) (h0 : i.opcode ≠ 0x00) (h5 : i.opcode ≠ 0x05)
    (h80 : i.opcode ≠ 0x80) : stateRefuses s i = some stLifecycle := by
  unfold stateRefuses
  rw [if_neg (by simp [h]), if_neg h80, if_pos (by simpa [scrapRefuses, hl] using And.intro h0 h5)]

theorem stateRefuses_zeroising (h : stageRefuses s i = false) (hl : s.guard.lifecycle ≠ .scrapped) (hz : zeroStart s = true) (h0 : i.opcode ≠ 0x00)
    (h5 : i.opcode ≠ 0x05) (h80 : i.opcode ≠ 0x80) : stateRefuses s i = some stBusy := by
  unfold stateRefuses
  rw [if_neg (by simp [h]), if_neg h80, if_neg (by simp [scrapRefuses, hl]), if_pos ⟨hz, by simpa using And.intro h0 h5⟩]

/-- What the state refuses is refused, unless its frame is malformed: that is said first, and changes nothing but a record of a malformed envelope. -/
theorem runBody_refused {f : Frame} {body : State → Owed → State × Ans} (o : Owed) {st : Byte} (hb : FormChecked f i body)
    (h : stateRefuses s i = some st) : runBody s o i body = finish s o st [] ∨ ∃ st', FormStatus st' ∧ (runBody s o i body = finish s o st' [] ∨
      (i.opcode = 0x80 ∧ runBody s o i body = finish (raise s (gev s 0x16 st'.toNat (envCounter f.payload).toNat .never)) o st' [])) := by
  unfold runBody
  dsimp only
  by_cases hf : formFault (body s o).2 = true
  · obtain ⟨st', status, same | ⟨guard, recorded⟩⟩ := hb s o hf
    · exact .inr ⟨st', status, .inl (by rw [if_pos hf, same]; rfl)⟩
    · exact .inr ⟨st', status, .inr ⟨guard, by rw [if_pos hf, recorded]; rfl⟩⟩
  · exact .inl (by rw [if_neg hf, h])

/-- A command other than a GUARD_COMMAND leaves no record. -/
theorem runBody_refused_plain {f : Frame} {body : State → Owed → State × Ans} (o : Owed) {st : Byte} (hb : FormChecked f i body)
    (h : stateRefuses s i = some st) (h80 : i.opcode ≠ 0x80) :
    runBody s o i body = finish s o st [] ∨ ∃ st', FormStatus st' ∧ runBody s o i body = finish s o st' [] :=
  (runBody_refused o hb h).imp_right fun ⟨st', status, e⟩ => ⟨st', status, e.resolve_right fun g => h80 g.1⟩

end Refused

/-! ## The frame at the ingest -/

theorem isStandby_creditUse (s : State) (k j : Kcp) (c : BitVec 2) : isStandby (creditUse s k c) j = isStandby s j := by
  unfold isStandby creditUse
  rw [setKcp_carrier]

theorem class1Open_afterAccept (s : State) (f : Frame) : class1Open (afterAccept s f) = class1Open s := afterAccept_field class1Open (fun _ => rfl) s f

theorem stageRefuses_afterAccept (s : State) (f : Frame) (i : CmdInfo) : stageRefuses (afterAccept s f) i = stageRefuses s i :=
  afterAccept_field (stageRefuses · i) (fun _ => rfl) s f

theorem zeroStart_afterAccept (s : State) (f : Frame) : zeroStart (afterAccept s f) = zeroStart s := afterAccept_field zeroStart (fun _ => rfl) s f

/-- The expected frame of the session is taken after acceptance. -/
theorem runCommand_takes {s : State} {f : Frame} {c : Instr} {i : CmdInfo} (body : State → Owed → State × Ans) (ht : s.taking = none)
    (hu : (kcp s f.port).up = true) (hh : creditHeld (kcp s f.port) f.cls = true) (hc : f.cls = i.cls) (hs : isStandby s f.port = false)
    (hn : s.ses.current = some f.session) (hi : i.opcode ≠ 0x01) (h2 : s.pwr.stage ≠ 2) (hq : f.seq = s.ses.exp f.cls) :
    runCommand s f c i body = takeCommand (afterAccept s f) f c (owedBy s f i.opcode) i body := by
  have owed : owedBy (creditUse s f.port f.cls) f i.opcode = owedBy s f i.opcode :=
    congrArg (fun t : Session => ({ opcode := i.opcode, cls := f.cls, seq := f.seq, session := t.current } : Owed)) (creditUse_ses_exp s f.port f.cls)
  rw [runCommand_checks body ht hu hh, checkCommand_expected body hc (by rwa [isStandby_creditUse]) (by rwa [creditUse_ses_exp]) hi
    (by rwa [creditUse_pwr]) (by rwa [creditUse_ses_exp]), owed]
  rfl

/-- Settles O8: `checkCommand` refuses check by check; what passes is taken (`runCommand_takes`), waits, or is refused by the state (`runBody_refused`). -/
theorem checksRefuseInOrder : Obligations.ChecksRefuseInOrder := by
  refine ⟨fun c f i s h ht hu hh => ?checks, fun c f i s h hi ht hu hh hc hs hn hq h2 => ?taken⟩
  case checks =>
    obtain ⟨body, -, runs⟩ := exec_command h
    have standby := isStandby_creditUse s f.port f.port f.cls
    have session := creditUse_ses_exp s f.port f.cls
    have stage := creditUse_pwr s f.port f.cls
    rw [runs, runCommand_checks body ht hu hh]
    refine ⟨fun hc h2 => ?_, fun hc h2 => ?_, fun hc hs hi => ?_, fun hc hs hn hi h2 => ?_, fun hc hs hn hi h2 hq => ?_, fun hc hs hn hi h2 hq => ?_⟩
    · rw [checkCommand_stray body hc h2]
    · rw [checkCommand_wrongClass body hc h2]
    · rw [checkCommand_notControl body hc (standby.trans hs) hi]
    · rw [checkCommand_noSession body hc (standby.trans hs) (by rwa [session]) hi (by rwa [stage])]
    · rw [checkCommand_wrong body hc (standby.trans hs) (by rwa [session]) hi (by rwa [stage]) (by rwa [session])]
    · rw [checkCommand_duplicate body hc (standby.trans hs) (by rwa [session]) hi (by rwa [stage]) (by rwa [session])]
  case taken =>
    obtain ⟨body, checked, runs⟩ := exec_command_checked h
    rw [runs, runCommand_takes body ht hu hh hc hs hn hi h2 hq]
    refine ⟨fun h1 hw => ?waits, ?refused⟩
    case waits =>
      rw [takeCommand_waits _ _ _ h1 hi (by rwa [class1Open_afterAccept, afterAccept_waiting1]), afterAccept_waiting1]
    case refused =>
      rintro a o rfl rfl hw
      rw [takeCommand_runs _ _ _ (by rwa [class1Open_afterAccept, afterAccept_waiting1])]
      refine ⟨fun hg => ?stage, fun hg hl h0 h5 h80 => ?scrapped, fun hg hl hz h0 h5 h80 => ?zeroising⟩
      case stage =>
        have refused := stateRefuses_stage ((stageRefuses_afterAccept s f i).trans hg)
        exact (runBody_refused _ checked refused).imp next_congr fun ⟨st, status, e⟩ =>
          ⟨st, status, e.imp next_congr fun ⟨guard, recorded⟩ => ⟨guard, next_congr recorded⟩⟩
      case scrapped =>
        have refused := stateRefuses_scrapped ((stageRefuses_afterAccept s f i).trans hg) (by rwa [afterAccept_guard]) h0 h5 h80
        exact (runBody_refused_plain _ checked refused h80).imp next_congr fun ⟨st, status, e⟩ => ⟨st, status, next_congr e⟩
      case zeroising =>
        have refused := stateRefuses_zeroising ((stageRefuses_afterAccept s f i).trans hg) (by rwa [afterAccept_guard])
          ((zeroStart_afterAccept s f).trans hz) h0 h5 h80
        exact (runBody_refused_plain _ checked refused h80).imp next_congr fun ⟨st, status, e⟩ => ⟨st, status, next_congr e⟩

end Sys2Proof.Machine
end

section
/-! Sp. 13 R388, R389; sp. 15 R430, R435, Table 15-7: the signed guard commands. -/

namespace Sys2Proof.Machine

/-! ## The counter is stored -/

section Counter
variable (s : State) (kind : Nat) (n : BitVec 64)

/-- State without the guard's registers and their records. -/
def butGuard (s : State) : State := { s with guard := State.reset.guard, nor := State.reset.nor }

theorem storeCounter_only : butGuard (storeCounter s kind n) = butGuard s := by
  unfold storeCounter
  split <;> rfl

theorem storeCounter_lifecycle : (storeCounter s kind n).guard.lifecycle = s.guard.lifecycle := by
  unfold storeCounter
  split <;> rfl

/-- The counter stored is the same after acceptance. -/
theorem storeCounter_guard_afterAccept (f : Frame) : (storeCounter (afterAccept s f) kind n).guard = (storeCounter s kind n).guard := by
  refine afterAccept_field (fun t => (storeCounter t kind n).guard) (fun t => ?_) s f
  unfold storeCounter
  split <;> rfl

end Counter

/-! ## A guard command runs its row -/

/-- The state in which the envelope has passed and its counter is stored. -/
def guardPassed (s : State) (f : Frame) : State := storeCounter (afterAccept s f) (envKind f.payload) (envCounter f.payload)

section Passed
variable (s : State) (f : Frame)

theorem guardPassed_field {γ : Type} (π : State → γ) (hg : ∀ t, π (butGuard t) = π t) (hf : ∀ t, π (butFrames t) = π t) : π (guardPassed s f) = π s :=
  (field_of π (storeCounter_only _ _ _) hg).trans (afterAccept_field π hf s f)

theorem guardPassed_guard : (guardPassed s f).guard = (storeCounter s (envKind f.payload) (envCounter f.payload)).guard :=
  storeCounter_guard_afterAccept s _ _ f

theorem guardPassed_mem : (guardPassed s f).mem = s.mem := guardPassed_field s f State.mem (fun _ => rfl) fun _ => rfl

theorem guardPassed_ports : (guardPassed s f).ports = s.ports := guardPassed_field s f State.ports (fun _ => rfl) fun _ => rfl

theorem guardPassed_sources : (guardPassed s f).err.sources = s.err.sources :=
  guardPassed_field s f (fun t => t.err.sources) (fun _ => rfl) fun _ => rfl

theorem guardPassed_ctl : (guardPassed s f).ctl = (afterAccept s f).ctl := field_of State.ctl (storeCounter_only _ _ _) fun _ => rfl

theorem guardPassed_sent : (guardPassed s f).ctl.sent = s.ctl.sent := by rw [guardPassed_ctl, afterAccept_sent]

theorem guardPlace_guardPassed : guardPlace (guardPassed s f) = guardPlace s := by
  rw [guardPlace_congr (congrArg Control.carrier (guardPassed_ctl s f)), guardPlace_afterAccept]

variable {s f}

theorem firmwareUp_guardPassed {i : CmdInfo} (ha : accepts s f i = true) : firmwareUp (guardPassed s f) = true :=
  (field_of firmwareUp (storeCounter_only _ _ _) fun _ => rfl).trans (firmwareUp_afterAccept ha)

end Passed

section Run
variable {s : State} {f : Frame} {b : GuardBody} (c : Instr) (ha : accepts s f (cmdEarly 0x80) = true) (hl : 129 ≤ f.payload.length)
  (hn : f.payload.length = 128 + envBodyLen f.payload)
include ha hl hn

/-- A refused envelope is recorded and answered. -/
theorem runGuard_refused {st : Byte} (h : envelopeFault (afterAccept s f) f.payload b = some st) : runGuard c b f s =
    .next (finish (raise (afterAccept s f) (gev (afterAccept s f) 0x16 st.toNat (envCounter f.payload).toNat .never)) (owedBy s f 0x80) st []) := by
  have body (o : Owed) : guardBody b f (afterAccept s f) o =
      (raise (afterAccept s f) (gev (afterAccept s f) 0x16 st.toNat (envCounter f.payload).toNat .never), .final st []) := by
    unfold guardBody
    dsimp only
    rw [if_neg (by omega), h]
  refine next_congr ((runCommand_accepts _ _ ha (by decide)).trans ?_)
  rw [body]
  rfl

/-- One that passes does what its row says. -/
theorem runGuard_passed (h : envelopeFault (afterAccept s f) f.payload b = none) : runGuard c b f s =
    .next (answer (b.effect (guardPassed s f) (envBody f.payload) (owedBy s f 0x80) (envCounter f.payload)).1 (owedBy s f 0x80)
      (b.effect (guardPassed s f) (envBody f.payload) (owedBy s f 0x80) (envCounter f.payload)).2) := by
  have body (o : Owed) : guardBody b f (afterAccept s f) o = b.effect (guardPassed s f) (envBody f.payload) o (envCounter f.payload) := by
    unfold guardBody
    dsimp only
    rw [if_neg (by omega), h]
    rfl
  refine next_congr ((runCommand_accepts _ _ ha (by decide)).trans ?_)
  rw [body]
  rfl

/-- Where the row answers at once, the reply follows. -/
theorem runGuard_replies {t : State} {p : List Byte} (h : envelopeFault (afterAccept s f) f.payload b = none)
    (he : b.effect (guardPassed s f) (envBody f.payload) (owedBy s f 0x80) (envCounter f.payload) = ok t p) :
    runGuard c b f s = .next (replies s f 0x80 p t) := by
  rw [runGuard_passed c ha hl hn h, he]
  rfl

end Run

/-- Copies that disagree refuse every envelope (sp. 15 R430). -/
theorem envelopeFault_disagree {s : State} (p : List Byte) (b : GuardBody) (h : s.guard.agree = false) : envelopeFault s p b = some stBusy :=
  if_pos (by rw [h]; rfl)

/-- An envelope that passes is one of the row's lifecycle states. -/
theorem envelopeFault_states {s : State} {p : List Byte} {b : GuardBody} (h : envelopeFault s p b = none) :
    s.guard.lifecycle ∈ b.states := by
  by_contra hs
  have out : (!b.states.contains s.guard.lifecycle) = true := by simpa using hs
  unfold envelopeFault at h
  dsimp only at h
  rw [if_pos out] at h
  repeat' split at h
  all_goals cases h

/-! ## Records of the guard partition -/

/-- Such a record leaves every register. -/
theorem guardRaise_kept (s : State) (e : Event) : guardKept (guardRaise s e).guard = guardKept s.guard :=
  ite_field (π := fun t : State => guardKept t.guard) (congrArg guardKept (raise_guard s e)) rfl

section Lifecycle
variable {s : State} {l : Lifecycle} (n : BitVec 64) (hl : s.guard.lifecycle ≠ l) (hf : firmwareUp s = true)
include hl hf

/-- The move's record. -/
def lifecycleEvent (s : State) (l : Lifecycle) (n : BitVec 64) : Event :=
  gev s 0x48 (l.code + 8 * s.guard.lifecycle.code) n.toNat .every

/-- State when the move is recorded. -/
def lifecycleTold (s : State) (l : Lifecycle) (n : BitVec 64) : State := raise { s with err := { s.err with busyUntil := [] } } (lifecycleEvent s l n)

theorem lifecycleMove_moves : lifecycleMove s l n =
    norWrite { lifecycleTold s l n with guard := { s.guard with lifecycle := l } } [.lifecycle] := by
  have told : guardRaise { s with err := { s.err with busyUntil := [] } } (lifecycleEvent s l n) = lifecycleTold s l n := if_pos hf
  have guard : (lifecycleTold s l n).guard = s.guard := raise_guard _ _
  rw [← guard, ← told]
  exact if_neg hl

theorem lifecycleMove_guard : (lifecycleMove s l n).guard = { s.guard with lifecycle := l } := by
  rw [lifecycleMove_moves n hl hf]
  rfl

/-- It is one record more. -/
theorem lifecycleMove_counted : oneMore s (lifecycleMove s l n) 0x48 (guardPlace s) := by
  rw [lifecycleMove_moves n hl hf]
  exact oneMore_congr (oneMore_raise { s with err := { s.err with busyUntil := [] } } (lifecycleEvent s l n)) rfl rfl

end Lifecycle

/-! ## PORT_ENABLE is written (sp. 15 R435) -/

section Ports
variable (was : BitVec 64) (s : State) (p : PortNo)

/-- State in which a disabled port has told its peer that it leaves. -/
def portLeft (s : State) (p : PortNo) : State :=
  let s1 := if (port s p).st = .up then leaveRx (setPort s p (sendFlits (port s p) [flit 8 0 0 ([2] ++ zeros 8)])) p else s
  setPort s1 p (dropLink (port s1 p))

/-- A port that the write disables leaves its peer and is DISABLED; one that it enables again trains. -/
theorem portEnableOne_eq : portEnableOne was s p =
    if (decide (bits was.toNat (15 + 8 * p.val) (8 + 8 * p.val) = 0xFF) && !lanesOn s p) = true then portMove (portLeft s p) p .disabled 0
    else if (!decide (bits was.toNat (15 + 8 * p.val) (8 + 8 * p.val) = 0xFF) && lanesOn s p) && (port s p).st = .disabled then portEnter s p
    else s := rfl

/-- State without the ports and what the loss of their transfers and their records touch. -/
def butPorts (s : State) : State := butMoved (butStored s)

theorem butPorts_of_moved {s t : State} (h : butMoved s = butMoved t) : butPorts s = butPorts t :=
  congrArg (fun u : State => butStored u) h

theorem butPorts_of_stored {s t : State} (h : butStored s = butStored t) : butPorts s = butPorts t := congrArg butMoved h

theorem portLeft_only : butPorts (portLeft s p) = butPorts s := by
  have dropped (t : State) (v : Port) : butPorts (setPort t p v) = butPorts t := rfl
  unfold portLeft
  dsimp only
  rw [dropped]
  exact ite_field ((butPorts_of_stored (leaveRx_only _ p)).trans (dropped s _)) rfl

theorem portEnter_only : butPorts (portEnter s p) = butPorts s := by
  rw [portEnter_moves]
  exact butPorts_of_moved (portMove_only _ _ _ _)

theorem portEnableOne_only : butPorts (portEnableOne was s p) = butPorts s := by
  rw [portEnableOne_eq]
  exact ite_field ((butPorts_of_moved (portMove_only _ _ _ _)).trans (portLeft_only s p)) (ite_field (portEnter_only s p) rfl)

variable {p}

theorem portEnableOne_other {q : PortNo} (h : q ≠ p) : port (portEnableOne was s p) q = port s q := by
  have left : port (portLeft s p) q = port s q := by
    have told (v : Port) : port (setPort s p v) q = port s q := port_setPort_other s v h
    unfold portLeft
    dsimp only
    rw [port_setPort_other _ _ h]
    exact ite_field (π := (port · q)) ((port_leaveRx _ p q).trans (told _)) rfl
  have entered : port (portEnter s p) q = port s q := by
    rw [portEnter_moves, port_portMove_other _ h, port_setPort_other _ _ h]
  rw [portEnableOne_eq]
  exact ite_field (π := (port · q)) ((port_portMove_other _ h).trans left) (ite_field (π := (port · q)) entered rfl)

variable {was s}

theorem portEnableOne_disables (hw : bits was.toNat (15 + 8 * p.val) (8 + 8 * p.val) = 0xFF) (hn : lanesOn s p = false) :
    (port (portEnableOne was s p) p).st = .disabled := by
  rw [portEnableOne_eq, if_pos (by simp [hw, hn]), port_portMove]

/-- Of the ports written each that is newly disabled is DISABLED. -/
theorem foldl_portEnableOne_disables {l : List PortNo} (hp : p ∈ l) (hw : bits was.toNat (15 + 8 * p.val) (8 + 8 * p.val) = 0xFF)
    (hn : lanesOn s p = false) : (port (l.foldl (portEnableOne was) s) p).st = .disabled := by
  have kept (t : State) (q : PortNo) : lanesOn (portEnableOne was t q) p = lanesOn t p :=
    field_of (lanesOn · p) (portEnableOne_only was t q) fun _ => rfl
  have stays (l : List PortNo) (t : State) (hn : lanesOn t p = false) (hd : (port t p).st = .disabled) :
      (port (l.foldl (portEnableOne was) t) p).st = .disabled := by
    induction l generalizing t with
    | nil => exact hd
    | cons q r ih =>
      refine ih _ ((kept t q).trans hn) ?_
      by_cases hq : p = q
      · subst hq
        exact portEnableOne_disables hw hn
      · rw [portEnableOne_other was t hq, hd]
  induction l generalizing s with
  | nil => exact absurd hp List.not_mem_nil
  | cons q r ih =>
    by_cases hq : p = q
    · subst hq
      exact stays r _ ((kept s p).trans hn) (portEnableOne_disables hw hn)
    · exact ih ((List.mem_cons.1 hp).resolve_left hq) ((kept s q).trans hn)

end Ports

section Kcps
variable {s : State} {k : Kcp}

theorem loseControl_only (s : State) (cause : Nat) : butFrames (loseControl s cause) = butFrames s := rfl

theorem requeuePlace_only (k : Kcp) (lost other : List Queued0) (s : State) (p : Nat) :
    butEvents (requeuePlace k lost other s p) = butEvents s := rfl

theorem linkDown_reads {γ : Type} (π : State → γ) (he : ∀ t, π (butEvents t) = π t) (hf : ∀ t, π (butFrames t) = π t) (s : State) (k : Kcp) :
    π (linkDown s k) = π s := by
  have requeued (lost other : List Queued0) (t : State) (p : Nat) : π (requeuePlace k lost other t p) = π t :=
    field_of π (requeuePlace_only k lost other t p) he
  unfold linkDown
  exact (foldl_field π _ (requeued _ _) _ _).trans (field_of π (setKcp_only _ _ _) hf)

/-- What neither a link that goes down nor a move of control touches stays. -/
theorem kcpDisable_reads {γ : Type} (π : State → γ) (hs : ∀ t, π (butStops t) = π t) (he : ∀ t, π (butEvents t) = π t)
    (hf : ∀ t, π (butFrames t) = π t) (hm : ∀ t n, π { t with beat := t.beat.moved n } = π t)
    (hr : ∀ t g w a b, π { t with beat := { t.beat with goodRun := g, wrongRun := w, holdA := a, holdB := b } } = π t) (s : State) (k : Kcp) :
    π (kcpDisable s k) = π s := by
  have down := linkDown_reads π he hf s k
  have taken := takeControl_reads π hs he hf hm hr (linkDown s k) (otherKcp k) 3
  have lost := field_of π (loseControl_only (linkDown s k) 3) hf
  unfold kcpDisable
  split
  · rfl
  · split
    · split
      · exact taken.trans down
      · exact lost.trans down
    · exact down

theorem kcpDisable_guard (s : State) (k : Kcp) : (kcpDisable s k).guard = s.guard :=
  kcpDisable_reads State.guard (fun _ => rfl) (fun _ => rfl) (fun _ => rfl) (fun _ _ => rfl) (fun _ _ _ _ _ => rfl) s k

theorem kcpDisable_ports (s : State) (k : Kcp) : (kcpDisable s k).ports = s.ports :=
  kcpDisable_reads State.ports (fun _ => rfl) (fun _ => rfl) (fun _ => rfl) (fun _ _ => rfl) (fun _ _ _ _ _ => rfl) s k

/-- A control port that is disabled is down. -/
theorem kcpDisable_down (h : kcpEnabled s k = false) : (kcp (kcpDisable s k) k).up = false := by
  have down : (kcp (linkDown s k) k).up = false := congrArg KcpSt.up kcp_linkDown
  have lost : kcp (loseControl (linkDown s k) 3) k = kcp (linkDown s k) k := by cases k <;> rfl
  unfold kcpDisable
  rw [h, Bool.false_or]
  split
  case isTrue hu => simpa using hu
  case isFalse =>
    split
    case isTrue hc =>
      exact ite_field (π := fun t => (kcp t k).up) (congrArg KcpSt.up (kcp_lostControl 3 hc)) ((congrArg KcpSt.up lost).trans down)
    case isFalse => exact down

/-- The other port stays down. -/
theorem kcpDisable_other (h : (kcp s (otherKcp k)).up = false) : (kcp (kcpDisable s k) (otherKcp k)).up = false := by
  have down : (kcp (linkDown s k) (otherKcp k)).up = false := (congrArg KcpSt.up kcp_linkDown_other).trans h
  have lost : kcp (loseControl (linkDown s k) 3) (otherKcp k) = kcp (linkDown s k) (otherKcp k) := by cases k <;> rfl
  unfold kcpDisable
  rw [h, Bool.false_and, if_neg (c := false = true) Bool.false_ne_true]
  exact ite_field (π := fun t => (kcp t (otherKcp k)).up) h
    (ite_field (π := fun t => (kcp t (otherKcp k)).up) ((congrArg KcpSt.up lost).trans down) down)

end Kcps

section Write
variable (s : State) (v : BitVec 64)

/-- State when the peer ports have taken the new PORT_ENABLE. -/
def portsTaken : State := allPorts.foldl (portEnableOne s.guard.portEnable) { s with guard := { s.guard with portEnable := v } }

theorem writePorts_eq : writePorts s v = kcpDisable (kcpDisable (portsTaken s v) .a) .b := rfl

theorem portsTaken_guard : (portsTaken s v).guard = { s.guard with portEnable := v } :=
  foldl_field State.guard _ (fun t p => field_of State.guard (portEnableOne_only _ t p) fun _ => rfl) _ _

theorem writePorts_guard : (writePorts s v).guard = { s.guard with portEnable := v } := by
  rw [writePorts_eq, kcpDisable_guard, kcpDisable_guard, portsTaken_guard]

theorem port_writePorts (p : PortNo) : port (writePorts s v) p = port (portsTaken s v) p := by
  unfold port
  rw [writePorts_eq, kcpDisable_ports, kcpDisable_ports]

variable {s v}

/-- A peer port that the write disables is DISABLED. -/
theorem writePorts_disables {p : PortNo} (hw : lanesOn s p = true) (hn : lanesOn (writePorts s v) p = false) :
    (port (writePorts s v) p).st = .disabled := by
  have now : lanesOn { s with guard := { s.guard with portEnable := v } } p = false := by
    rw [← hn]
    unfold lanesOn
    rw [writePorts_guard]
  rw [port_writePorts]
  exact foldl_portEnableOne_disables (mem_allPorts p) (of_decide_eq_true hw) now

/-- A control port that the write disables, or that is disabled, is down. -/
theorem writePorts_down {k : Kcp} (h : kcpEnabled (writePorts s v) k = false) : (kcp (writePorts s v) k).up = false := by
  have enabled (t : State) (j : Kcp) : kcpEnabled (kcpDisable t j) k = kcpEnabled t k := by
    unfold kcpEnabled
    rw [kcpDisable_guard]
  rw [writePorts_eq] at h ⊢
  cases k with
  | a => exact kcpDisable_other (k := .b) (kcpDisable_down (by rwa [enabled, enabled] at h))
  | b => exact kcpDisable_down (by rwa [enabled] at h)

end Write

end Sys2Proof.Machine
end

section
/-! Sp. 13 R389; sp. 15 R434-R436, R450, R453, Table 15-7: what each signed guard command does. -/

namespace Sys2Proof.Machine

/-- Each guard command runs its row. -/
theorem exec_guard {f : Frame} {c : Instr} {b : GuardBody} (h : (c, b) ∈ [(Instr.setLimits f, setLimitsBody), (.setPorts f, setPortsBody),
    (.setFwMinSv f, setFwMinSvBody), (.rotateOperatorKey f, rotateBody), (.enterField f, enterFieldBody), (.scrap f, scrapBody),
    (.enterMakerAnalysis f, enterMakerBody), (.generateDeviceKey f, generateBody), (.completeProvision f, completeBody),
    (.setRegister f, setRegisterBody)]) (s : State) : exec c s = runGuard c b f s := by
  have rows : ∀ x ∈ [(Instr.setLimits f, setLimitsBody), (.setPorts f, setPortsBody), (.setFwMinSv f, setFwMinSvBody),
      (.rotateOperatorKey f, rotateBody), (.enterField f, enterFieldBody), (.scrap f, scrapBody), (.enterMakerAnalysis f, enterMakerBody),
      (.generateDeviceKey f, generateBody), (.completeProvision f, completeBody), (.setRegister f, setRegisterBody)],
      exec x.1 s = runGuard x.1 x.2 f s := by
    simp only [List.forall_mem_cons, List.not_mem_nil, false_imp_iff, implies_true, and_true]
    exact ⟨rfl, rfl, rfl, rfl, rfl, rfl, rfl, rfl, rfl, rfl⟩
  exact rows (c, b) h

/-! ## The rows -/

section Rows
variable (s : State)

theorem keyRecord_kept (which : Nat) (pub : List Byte) : guardKept (keyRecord s which pub).guard = guardKept s.guard := guardRaise_kept _ _

theorem keyRecord_free (which : Nat) (pub : List Byte) : (keyRecord s which pub).free = s.free :=
  ite_field (π := State.free) (raise_free s _) rfl

/-- The operator key and the certificate that COMPLETE_PROVISION installs, with their records (sp. 15 Table 15-7). -/
def provisioned (s : State) (b : List Byte) : State :=
  norWrite { s with guard := { s.guard with operatorPub := slice b 4 65, counterOp := 0, deviceCert := b.drop 80 } }
    [.operatorKey, .counters, .deviceCert]

theorem provisioned_err (b : List Byte) : (provisioned s b).err = s.err := rfl
theorem provisioned_mem (b : List Byte) : (provisioned s b).mem = s.mem := rfl
theorem provisioned_lifecycle (b : List Byte) : (provisioned s b).guard.lifecycle = s.guard.lifecycle := rfl
theorem guardPlace_provisioned (b : List Byte) : guardPlace (provisioned s b) = guardPlace s := rfl
theorem firmwareUp_provisioned (b : List Byte) : firmwareUp (provisioned s b) = firmwareUp s := rfl

theorem provisioned_guard (b : List Byte) :
    (provisioned s b).guard = { s.guard with operatorPub := slice b 4 65, counterOp := 0, deviceCert := b.drop 80 } := rfl

theorem completeBody_moves (b : List Byte) (o : Owed) (n : BitVec 64) :
    completeBody.effect s b o n = ok (lifecycleMove (provisioned s b) .provisioned n) [] := rfl

/-- A SET_REGISTER of PORT_ENABLE writes the ports; another writes its register (sp. 15 Table 15-7). -/
def registerWritten (s : State) (index v : Nat) : State :=
  if index = 5 then writePorts s (BitVec.ofNat 64 v) else { s with guard := setGuardWord s.guard index v }

theorem registerWritten_guard (index v : Nat) : (registerWritten s index v).guard = setGuardWord s.guard index v := by
  unfold registerWritten
  split
  case isTrue h =>
    subst h
    exact writePorts_guard _ _
  case isFalse => rfl

theorem setRegisterBody_writes (b : List Byte) (o : Owed) (n : BitVec 64) : setRegisterBody.effect s b o n =
    ok (registerWritten s (leAt b 4 2) (takenWord (leAt b 4 2) (leAt b 8 (if leAt b 4 2 ≤ 3 then 4 else 8)))) [] := by
  unfold setRegisterBody registerWritten
  dsimp only
  split
  · rfl
  · rfl

end Rows

section Passed
variable {s : State} {f : Frame}

/-- The lifecycle in which a passed envelope is judged is that in which it takes effect. -/
theorem guardPassed_lifecycle {b : GuardBody} (h : envelopeFault (afterAccept s f) f.payload b = none) :
    (guardPassed s f).guard.lifecycle ∈ b.states := by
  unfold guardPassed
  rw [storeCounter_lifecycle]
  exact envelopeFault_states h

theorem guardPassed_lifecycle_ne {b : GuardBody} {l : Lifecycle} (h : envelopeFault (afterAccept s f) f.payload b = none) (hl : l ∉ b.states) :
    (guardPassed s f).guard.lifecycle ≠ l := fun e => hl (e ▸ guardPassed_lifecycle h)

theorem lanesOn_guardPassed (p : PortNo) : lanesOn (guardPassed s f) p = lanesOn s p := by
  have stored : (storeCounter s (envKind f.payload) (envCounter f.payload)).guard.portEnable = s.guard.portEnable := by
    unfold storeCounter
    split <;> rfl
  unfold lanesOn
  rw [guardPassed_guard, stored]

/-- An envelope that starts a zeroisation is answered when that is complete (sp. 15 R453). -/
theorem runGuard_zeroises {b : GuardBody} {l : Lifecycle} (c : Instr) (ha : accepts s f (cmdEarly 0x80) = true) (hl : 129 ≤ f.payload.length)
    (hn : f.payload.length = 128 + envBodyLen f.payload) (h : envelopeFault (afterAccept s f) f.payload b = none)
    (he : ∀ t p o n, b.effect t p o n = zeroiseBegin t l o n) : ∃ t, runGuard c b f s = .next t ∧ t.ctl.sent = s.ctl.sent ∧
      t.guard = { (guardPassed s f).guard with zeroising := true, zeroAfter := some l,
                                               zero := some { reply := some (owedBy s f 0x80), counter := envCounter f.payload } } ∧ t.mem = s.mem := by
  have begins := runGuard_passed c ha hl hn h
  rw [he] at begins
  exact ⟨_, begins, guardPassed_sent s f, rfl, guardPassed_mem s f⟩

/-- COMPLETE_PROVISION installs the key and the certificate and moves the lifecycle, with a record. -/
theorem runGuard_completes (ha : accepts s f (cmdEarly 0x80) = true) (hl : 129 ≤ f.payload.length)
    (hn : f.payload.length = 128 + envBodyLen f.payload) (h : envelopeFault (afterAccept s f) f.payload completeBody = none) :
    ∃ t, exec (.completeProvision f) s = .next (replies s f 0x80 [] t) ∧
      guardKept t.guard = guardKept { (guardPassed s f).guard with
        lifecycle := .provisioned, operatorPub := slice (envBody f.payload) 4 65, counterOp := 0, deviceCert := (envBody f.payload).drop 80 } ∧
      oneMore s t 0x48 (guardPlace s) ∧ t.mem = s.mem := by
  have other : (provisioned (guardPassed s f) (envBody f.payload)).guard.lifecycle ≠ .provisioned := by
    rw [provisioned_lifecycle]
    exact guardPassed_lifecycle_ne h (by decide)
  have up : firmwareUp (provisioned (guardPassed s f) (envBody f.payload)) = true := by
    rw [firmwareUp_provisioned, firmwareUp_guardPassed ha]
  have counted := lifecycleMove_counted (envCounter f.payload) other up
  rw [guardPlace_provisioned, guardPlace_guardPassed] at counted
  refine ⟨_, runGuard_replies _ ha hl hn h (completeBody_moves _ _ _ _), ?_, ?_, ?_⟩
  · rw [lifecycleMove_guard _ other up, provisioned_guard]
  · exact oneMore_congr counted (by rw [provisioned_err, guardPassed_sources]) rfl
  · rw [lifecycleMove_mem, provisioned_mem, guardPassed_mem]

end Passed

/-- Settles O57: a refused envelope is `runGuard_refused`; each row that passes is its effect on the state whose counter is stored. -/
theorem guardCommandsTakeEffect : Obligations.GuardCommandsTakeEffect := by
  intro f s ha hl hn
  refine ⟨fun c b hb => ⟨fun hg => ?agree, fun st h => ?refused⟩, fun g hg => ?_⟩
  case agree => exact envelopeFault_disagree _ _ (by rwa [afterAccept_guard])
  case refused =>
    refine ⟨_, (exec_guard hb s).trans (runGuard_refused c ha hl hn h), ?_, ?_, ?_, ?_, ?_⟩
    · rw [← guardPlace_afterAccept (s := s) (f := f)]
      exact oneMore_congr (oneMore_raise (afterAccept s f) (gev (afterAccept s f) 0x16 st.toNat (envCounter f.payload).toNat .never))
        (congrArg Errors.sources (afterAccept_err s f).symm) rfl
    · rw [raise_guard, afterAccept_guard]
    · rw [raise_nor, afterAccept_nor]
    · rw [raise_mem, afterAccept_mem]
    · rw [raise_ports, afterAccept_ports]
  rw [← guardPassed_guard] at hg
  subst hg
  have place := guardPlace_guardPassed s f
  have mem := guardPassed_mem s f
  refine ⟨fun h => ?limits, fun h => ?ports, fun h => ?minSv, fun h => ?rotate, fun h => ?field, fun h => ?scrap, fun h => ?analysis, fun h => ?key,
    fun h => ?complete, fun h => ?register⟩
  case limits => exact ⟨_, runGuard_replies _ ha hl hn h rfl, rfl, mem, guardPassed_ports s f⟩
  case ports =>
    refine ⟨_, runGuard_replies _ ha hl hn h rfl, ?_, fun p hp hq => ?_, fun k => writePorts_down⟩
    · rw [writePorts_guard]
      rfl
    · exact writePorts_disables ((lanesOn_guardPassed p).trans hp) hq
  case minSv => exact ⟨_, runGuard_replies _ ha hl hn h rfl, rfl, rfl, rfl, mem⟩
  case rotate => exact ⟨_, runGuard_replies _ ha hl hn h rfl, keyRecord_kept _ _ _, (keyRecord_mem _ _ _).trans mem⟩
  case field =>
    have other := guardPassed_lifecycle_ne (l := .field) h (by decide)
    have up := firmwareUp_guardPassed ha
    refine ⟨_, runGuard_replies _ ha hl hn h rfl, ?_, ?_, ?_⟩
    · rw [lifecycleMove_guard _ other up]
    · rw [← place]
      exact oneMore_congr (lifecycleMove_counted _ other up) (guardPassed_sources s f).symm rfl
    · rw [lifecycleMove_mem, mem]
  case scrap => exact runGuard_zeroises _ ha hl hn h fun _ _ _ _ => rfl
  case analysis => exact runGuard_zeroises _ ha hl hn h fun _ _ _ _ => rfl
  case key =>
    have free : (guardPassed s f).free = s.free := guardPassed_field s f State.free (fun _ => rfl) fun _ => rfl
    refine ⟨_, runGuard_replies _ ha hl hn h (by rw [← free]; rfl), ?_, ?_, ?_⟩
    · rw [keyRecord_free, ← free]
    · rw [← free, keyRecord_kept]
    · exact (keyRecord_mem _ _ _).trans mem
  case complete => exact runGuard_completes ha hl hn h
  case register =>
    refine ⟨_, runGuard_replies _ ha hl hn h (setRegisterBody_writes _ _ _ _), ?_⟩
    rw [registerWritten_guard]

end Sys2Proof.Machine
end

section
/-! Sp. 10 R306, R307, R309, R310: what a transfer of firmware on a channel touches, and which bytes it writes. -/

namespace Sys2Proof.Machine

/-! ## The state around a transfer -/

/-- State without what a transfer of firmware may touch: memory, events, free values, the channel and the cues that it meets. -/
def butTransfer (s : State) : State := { butRecycled s with stage := Stage.reset }

theorem butTransfer_of_recycled {s t : State} (h : butRecycled s = butRecycled t) : butTransfer s = butTransfer t :=
  congrArg (fun u : State => { u with stage := Stage.reset }) h

theorem butTransfer_of_stored {s t : State} (h : butStored s = butStored t) : butTransfer s = butTransfer t :=
  butTransfer_of_recycled (butRecycled_of_stored h)

theorem butTransfer_of_access {s t : State} (h : butAccess s = butAccess t) : butTransfer s = butTransfer t :=
  butTransfer_of_stored (butStored_of_access h)

theorem butTransfer_of_free {s t : State} (h : butFree s = butFree t) : butTransfer s = butTransfer t :=
  butTransfer_of_stored (butStored_of_free h)

theorem butTransfer_of_work {s t : State} (h : butWork s = butWork t) : butTransfer s = butTransfer t :=
  congrArg (fun u : State => { u with
    dma := [], secure := State.reset.secure, nand := State.reset.nand, ports := [], arbs := [], stage := Stage.reset,
    step := { u.step with dropped := false } }) h

section Frame
variable (s : State) (k : Nat)

theorem fwHalt_only (e : BusError) (bytes transfers hits : Nat) : butTransfer (fwHalt s k e bytes transfers hits) = butTransfer s := by
  have halted : butTransfer (haltChannel s (chanDie k) (chanNum k) noCue (fwRecAt k) e bytes transfers hits) = butTransfer s :=
    haltChannel_stored s _ _ _ _ _ _ _ _ butTransfer (fun _ => rfl) (fun _ _ => rfl) (fun _ _ => rfl)
  unfold fwHalt
  refine ite_field halted (Eq.trans ?_ halted)
  exact (butTransfer_of_recycled (setChan_recycled _ _ _ _)).trans (butTransfer_of_recycled (dropChannel_recycled _ _ _))

/-- State as the record of a transfer is written. -/
def fwRecorded (c : FwCount) : State :=
  writeMem (whoUnit (chanUnit (chanDie k) (chanNum k)) noCue) (drawBytes 64 s).2 (fwRecAt k) (dmaRecord c.bytes c.transfers c.hits (b01 c.det) 0)

theorem fwRecorded_only (c : FwCount) : butTransfer (fwRecorded s k c) = butTransfer s :=
  (butTransfer_of_access (writeMem_only _ _ _ _)).trans (butTransfer_of_free (drawBytes_only 64 s))

theorem fwEnd_halts (c : FwCount) (h : bankFault s (fwRecAt k) 32 = true) :
    fwEnd s k c = fwHalt s k ⟨1, true, globalOf s (fwRecAt k)⟩ c.bytes c.transfers c.hits := if_pos h

/-- A transfer that ends changes its channel after its record. -/
theorem fwEnd_ends (c : FwCount) (h : bankFault s (fwRecAt k) 32 = false) :
    ∃ v w, fwEnd s k c = setChan (setChan (fwRecorded s k c) (chanDie k) (chanNum k) v) (chanDie k) (chanNum k) w := by
  unfold fwEnd
  rw [if_neg (by simp [h])]
  exact ⟨_, _, rfl⟩

theorem fwEnd_only (c : FwCount) : butTransfer (fwEnd s k c) = butTransfer s := by
  cases h : bankFault s (fwRecAt k) 32 with
  | true => rw [fwEnd_halts s k c h, fwHalt_only]
  | false =>
    obtain ⟨v, w, ends⟩ := fwEnd_ends s k c h
    rw [ends, butTransfer_of_recycled (setChan_recycled _ _ _ w), butTransfer_of_recycled (setChan_recycled _ _ _ v), fwRecorded_only]

theorem fwClose_only (good : List (Nat × Nat)) (fail : Option BusError) (hits : Nat) (det : Bool) :
    butTransfer (fwClose s k good fail hits det) = butTransfer s := by
  unfold fwClose
  split
  · exact fwEnd_only s k _
  · exact fwHalt_only s k _ _ _ _

theorem fwWrite_only (a : Nat) (p : List Byte) : butTransfer (fwWrite s k a p) = butTransfer s := by
  unfold fwWrite
  dsimp only
  exact (fwClose_only _ k _ _ _ _).trans ((butTransfer_of_stored (storeFree_only _ _)).trans
    ((butTransfer_of_access (writeMem_only _ _ _ _)).trans (butTransfer_of_work (otherWrites_only s none _))))

theorem blurBytes_only (a : Nat) (p : List Byte) (l : List (Nat × Nat)) : butFree (blurBytes a p l s).2 = butFree s := by
  unfold blurBytes
  split
  · rfl
  · exact drawBytes_only _ _

theorem fwRead_only (a n : Nat) : butTransfer (fwRead s k a n).2 = butTransfer s := by
  have closed (t : State) (g : List (Nat × Nat)) (e : Option BusError) (h : Nat) (d : Bool) (w : Who) (b : Nat)
      (ht : butFree t = butFree s) : butTransfer (fwClose (touchRead w t a b) k g e h d) = butTransfer s :=
    (fwClose_only _ k _ _ _ _).trans ((butTransfer_of_access (touchRead_only _ _ _ _)).trans (butTransfer_of_free ht))
  unfold fwRead
  dsimp only
  split
  · exact (butTransfer_of_free (drawBytes_only _ _)).trans (closed _ _ _ _ _ _ _ (blurBytes_only s _ _ _))
  · exact closed _ _ _ _ _ _ _ (blurBytes_only s _ _ _)

end Frame

/-! ## Fences and banks stand -/

/-- What decides which accesses reach memory. -/
def gates (s : State) : List Fence × Sparse Bank := (s.mem.fences, s.mem.banks)

theorem countHit_gates (s : State) (p : Nat × Nat) : gates (countHit s p) = gates s := by
  unfold countHit
  dsimp only
  split <;> rfl

theorem countWord_gates (s : State) (w : Nat) : gates (countWord s w) = gates s := by
  unfold countWord
  dsimp only
  split
  · exact ite_field rfl (ite_field rfl rfl)
  · exact ite_field rfl (ite_field rfl rfl)

theorem queueRead_gates (s : State) (a n : Nat) : gates (queueRead s a n) = gates s := by
  unfold queueRead
  split <;> rfl

theorem queueWrite_gates (s : State) (a : Nat) (m : BitVec 256) : gates (queueWrite s a m) = gates s := by
  unfold queueWrite
  split <;> rfl

theorem touchRead1_gates (s : State) (p : Nat × Nat) : gates (touchRead1 s p) = gates s := by
  have hit : gates (if pieceFenced s p then countHit s p else s) = gates s := ite_field (countHit_gates s p) rfl
  unfold touchRead1
  exact ite_field hit (ite_field hit ((queueRead_gates _ _ _).trans hit))

theorem touchWrite1_gates (s : State) (p : Nat × BitVec 256) : gates (touchWrite1 s p) = gates s :=
  ite_field (countHit_gates s _) (ite_field rfl (queueWrite_gates s _ _))

theorem gates_of_mem {s t : State} (h : t.mem = s.mem) : gates t = gates s := by
  unfold gates
  rw [h]

theorem touchRead_gates (w : Who) (s : State) (a n : Nat) : gates (touchRead w s a n) = gates s :=
  (gates_of_mem (raiseAll_mem _ _)).trans
    ((foldl_field gates _ countWord_gates _ _).trans (foldl_field gates _ touchRead1_gates _ s))

theorem writeByte_gates (s : State) (a : Nat) (v : Byte) : gates (writeByte s a v) = gates s :=
  ite_field rfl (ite_field rfl (congrArg (fun m : Mem => (m.fences, m.banks)) (pokeByte_butStore s _ v) :))

theorem store_gates (s : State) (a : Nat) (p : List Byte) : gates (store s a p) = gates s := by
  induction p generalizing s a with
  | nil => rfl
  | cons v r ih => exact (ih _ _).trans (writeByte_gates s a v)

theorem writeMem_gates (w : Who) (s : State) (a : Nat) (p : List Byte) : gates (writeMem w s a p) = gates s := by
  have counted : gates (writeCounts s (coverOf [(a, p.length)])) = gates s :=
    (foldl_field gates _ countWord_gates _ _).trans (foldl_field gates _ touchWrite1_gates _ s)
  exact (gates_of_mem (raiseAll_mem _ _)).trans ((store_gates _ a p).trans counted)

theorem storeFree_gates (s : State) (l : List (Nat × Nat)) : gates (storeFree s l) = gates s :=
  foldl_field gates _ (fun t (x : Nat × Nat) => (store_gates _ _ _).trans (gates_of_mem (drawBytes_mem x.2 t))) l s

/-- Which banks refuse a range depends on fences, banks and the swap. -/
theorem bankFault_congr {s t : State} (hg : gates t = gates s) (hc : t.cfg = s.cfg) (a n : Nat) : bankFault t a n = bankFault s a n := by
  have fences : t.mem.fences = s.mem.fences := congrArg Prod.fst hg
  have banks : t.mem.banks = s.mem.banks := congrArg Prod.snd hg
  unfold bankFault
  exact congrArg (List.any _) (funext fun i => by rw [fencedAt_congr fences, swapAddr_congr hc, gatedAt_congr banks])

theorem cfg_of_transfer {s t : State} (h : butTransfer t = butTransfer s) : t.cfg = s.cfg := field_of State.cfg h (fun _ => rfl)

/-! ## The bytes that a transfer writes -/

theorem piecesFuel_sum (f a n : Nat) : ((piecesFuel f a n).map (·.2)).sum ≤ n := by
  induction f generalizing a n with
  | zero => exact Nat.zero_le _
  | succ f ih =>
    rw [piecesFuel]
    split
    · exact Nat.zero_le _
    · have tail := ih (a + min n (256 - a % 256)) (n - min n (256 - a % 256))
      rw [List.map_cons, List.sum_cons]
      dsimp only
      omega

theorem sum_takeWhile_le (l : List (Nat × Nat)) (g : Nat × Nat → Bool) : ((l.takeWhile g).map (·.2)).sum ≤ (l.map (·.2)).sum := by
  induction l with
  | nil => exact Nat.le_refl _
  | cons x r ih =>
    rw [List.takeWhile_cons]
    split
    · simp only [List.map_cons, List.sum_cons]; omega
    · exact Nat.zero_le _

/-- The transfers before a fault lie in the range. -/
theorem untilFault_sum (s : State) (a n : Nat) (write : Bool) : ((untilFault s a n write).1.map (·.2)).sum ≤ n :=
  (sum_takeWhile_le _ _).trans (piecesFuel_sum _ _ _)

section Bytes
variable {s : State} {k x : Nat}

theorem dmaRecord_length (bytes transfers hits status cause : Nat) : (dmaRecord bytes transfers hits status cause).length = 32 := toLE_length _ _

/-- A transfer that ends writes its record. -/
theorem physByte_fwEnd (c : FwCount) (hb : bankFault s (fwRecAt k) 32 = false) (hs : Spares s [(fwRecAt k, zeros 32)] x) :
    physByte (fwEnd s k c) x = physByte s x := by
  have drawn : butFree (drawBytes 64 s).2 = butFree s := drawBytes_only 64 s
  have spares : Spares (drawBytes 64 s).2 [(fwRecAt k, dmaRecord c.bytes c.transfers c.hits (b01 c.det) 0)] x := by
    rw [Spares.congr (field_of State.cfg drawn (fun _ => rfl))]
    exact hs.mono (fun y hy => by rw [covers_singleton] at hy ⊢; rwa [dmaRecord_length, ← zeros_length 32] at hy)
  have recorded : physByte (fwRecorded s k c) x = physByte s x :=
    (physByte_writeAll spares).trans (physByte_of_bytes (by rw [drawBytes_mem]) x)
  obtain ⟨v, w, ends⟩ := fwEnd_ends s k c hb
  rw [ends]
  exact (physByte_of_bytes (by rw [setChan_mem, setChan_mem]) x).trans recorded

/-- A write that meets no fault reaches its own bytes and its record. -/
theorem physByte_fwWrite {a : Nat} {p : List Byte} (hf : (untilFault s a p.length true).2 = none) (hb : bankFault s (fwRecAt k) 32 = false)
    (hs : Spares s [(a, p), (fwRecAt k, zeros 32)] x) : physByte (fwWrite s k a p) x = physByte s x := by
  obtain ⟨data, record⟩ := Spares.cons.1 hs
  unfold fwWrite
  dsimp only
  rw [hf]
  generalize hn : ((untilFault s a p.length true).1.map (·.2)).sum = n
  generalize hs0 : otherWrites s none [(a, p.length)] = s0
  generalize hs1 : writeMem (whoUnit (chanUnit (chanDie k) (chanNum k)) noCue) s0 a (p.take n) = s1
  generalize hs2 : storeFree s1 _ = s2
  have le : n ≤ p.length := hn ▸ untilFault_sum s a p.length true
  have taken : Spares s [(a, p.take n)] x := data.mono (fun y hy => by
    rw [covers_singleton] at hy ⊢
    rw [List.length_take] at hy
    omega)
  have mem0 : s0.mem = s.mem := by rw [← hs0, otherWrites_mem]
  have cfg0 : s0.cfg = s.cfg := by rw [← hs0]; exact cfg_of_transfer (butTransfer_of_work (otherWrites_only s none _))
  have cfg1 : s1.cfg = s.cfg := by rw [← hs1]; exact (cfg_of_access (writeMem_only _ _ _ _)).trans cfg0
  have cfg2 : s2.cfg = s.cfg := by rw [← hs2, storeFree_cfg, cfg1]
  have gates2 : gates s2 = gates s := by rw [← hs2, storeFree_gates, ← hs1, writeMem_gates, gates_of_mem mem0]
  have byte1 : physByte s1 x = physByte s x := by
    rw [← hs1]
    exact (physByte_writeAll ((Spares.congr cfg0).2 taken)).trans (physByte_of_bytes (by rw [mem0]) x)
  have byte2 : physByte s2 x = physByte s1 x := by
    rw [← hs2]
    refine physByte_storeFree ((Spares.congr cfg1).2 ?_)
    have ranges : rangesOf [(a, p.take n)] = [(a, n)] := by simp [rangesOf, le]
    rw [if_neg (by simp), List.append_nil, ← ranges]
    exact taken.shared
  refine (physByte_fwEnd _ ?_ ((Spares.congr cfg2).2 record)).trans (byte2.trans byte1)
  rw [bankFault_congr gates2 cfg2, hb]

/-- A read that meets no fault writes its record alone. -/
theorem physByte_fwRead {a n : Nat} (hf : (untilFault s a n false).2 = none) (hb : bankFault s (fwRecAt k) 32 = false)
    (hs : Spares s [(fwRecAt k, zeros 32)] x) : physByte (fwRead s k a n).2 x = physByte s x := by
  unfold fwRead
  dsimp only
  rw [hf, if_neg (by simp)]
  generalize hs0 : (blurBytes a _ _ s).2 = s0
  generalize hs1 : touchRead _ s0 a _ = s1
  have free0 : butFree s0 = butFree s := by rw [← hs0]; exact blurBytes_only s _ _ _
  have mem0 : s0.mem = s.mem := field_of State.mem free0 (fun _ => rfl)
  have cfg1 : s1.cfg = s.cfg := by
    rw [← hs1]
    exact (cfg_of_access (touchRead_only _ _ _ _)).trans (field_of State.cfg free0 (fun _ => rfl))
  have gates1 : gates s1 = gates s := by rw [← hs1, touchRead_gates, gates_of_mem mem0]
  refine (physByte_fwEnd _ ?_ ((Spares.congr cfg1).2 hs)).trans (physByte_of_bytes ?_ x)
  · rw [bankFault_congr gates1 cfg1, hb]
  · rw [← hs1, touchRead_bytes, mem0]

end Bytes

end Sys2Proof.Machine
end

section
/-! Sp. 13 R382, Table 13-7: the commands of the tensor transfers, and the frames of them that wait for a channel. -/

namespace Sys2Proof.Machine

/-! ## Numbers of a payload -/

theorem ofLE_lt (l : List Byte) : ofLE l < 256 ^ l.length := by
  induction l with
  | nil => exact Nat.one_pos
  | cons b r ih =>
    have byte := b.isLt
    rw [ofLE, List.length_cons, Nat.pow_succ]
    omega

theorem leAt_lt (p : List Byte) (off n : Nat) : leAt p off n < 256 ^ n :=
  (ofLE_lt _).trans_le (Nat.pow_le_pow_right (by decide) (List.length_take_le _ _))

/-- A frame whose ID is the tier-3 one is no frame of a tensor transfer. -/
theorem ofTransfer_id {f : Frame} (h : ofTransfer (.writeData f) = true) : xferId f.payload ≠ tier3Id := by
  intro same
  have small := leAt_lt f.payload 0 4
  have value : leAt f.payload 0 4 = tier3Id.toNat := by
    rw [← same, xferId, BitVec.toNat_ofNat]
    exact (Nat.mod_eq_of_lt small).symm
  exact absurd value (of_decide_eq_true h)

/-! ## The open transfers -/

theorem xferOf_id {s : State} {i : BitVec 32} {x : Xfer} (h : xferOf s i = some x) : x.id = i := of_decide_eq_true (List.find?_some h :)

theorem xferOf_congr {s t : State} (h : t.xfers = s.xfers) (i : BitVec 32) : xferOf t i = xferOf s i := by
  unfold xferOf
  rw [h]

theorem xferOf_setXfer {s : State} {i : BitVec 32} {x y : Xfer} (h : xferOf s i = some x) (hy : y.id = i) : xferOf (setXfer s y) i = some y := by
  have same : (fun z : Xfer => decide (z.id = i)) ∘ (fun z => if z.id = y.id then y else z) = fun z => decide (z.id = i) := by
    funext z
    by_cases hz : z.id = i <;> simp [hy, hz]
  have found : List.find? (fun z : Xfer => decide (z.id = i)) s.xfers = some x := h
  unfold xferOf setXfer
  rw [List.find?_map, same, found, Option.map_some, if_pos ((xferOf_id h).trans hy.symm)]

/-- The transfer of an ID is gone from those of other IDs. -/
theorem xferOf_closed {s t : State} {i : BitVec 32} (h : t.xfers = s.xfers.filter (fun y => y.id ≠ i)) : xferOf t i = none := by
  unfold xferOf
  rw [h]
  refine List.find?_eq_none.2 (fun y hy => ?_)
  have other := (List.mem_filter.1 hy).2
  simpa using other

/-- The transfer with a chunk written, whose bytes `h` fenced transactions touch: a second copy is counted. -/
def Xfer.chunked (x : Xfer) (p : List Byte) (h : Nat) : Xfer :=
  { x with chunks := if x.chunks.contains (leAt p 8 8) then x.chunks else x.chunks ++ [leAt p 8 8],
           dups := x.dups + b01 (x.chunks.contains (leAt p 8 8)), hits := x.hits + h,
           written := if x.chunks.contains (leAt p 8 8) then x.written else x.written + (p.drop 16).length }

section Chunked
variable (x : Xfer) (p : List Byte) (h : Nat)

theorem chunked_chunks : leAt p 8 8 ∈ (x.chunked p h).chunks := by
  unfold Xfer.chunked
  dsimp only
  split
  case isTrue old => exact List.contains_iff_mem.1 old
  case isFalse => exact List.mem_append_right _ (List.mem_singleton_self _)

theorem chunked_new (hn : leAt p 8 8 ∉ x.chunks) :
    (x.chunked p h).written = x.written + (p.length - 16) ∧ (x.chunked p h).dups = x.dups := by
  simp [Xfer.chunked, hn, b01]

theorem chunked_again (ho : leAt p 8 8 ∈ x.chunks) : (x.chunked p h).written = x.written ∧ (x.chunked p h).dups = x.dups + 1 := by
  simp [Xfer.chunked, ho, b01]

end Chunked

section ChunkWrite
variable {s : State} {k : Nat} {x : Xfer} {p : List Byte}

theorem chunkWrite_eq : chunkWrite s k x p = setXfer (fwWrite s k (x.base + leAt p 8 8) (p.drop 16))
    (x.chunked p (hitsOf s (x.base + leAt p 8 8) (p.drop 16).length)) := rfl

theorem chunkWrite_mem : (chunkWrite s k x p).mem = (fwWrite s k (x.base + leAt p 8 8) (p.drop 16)).mem := rfl

theorem chunkWrite_fwHeld : (chunkWrite s k x p).fwHeld = s.fwHeld := by
  have written (a : Nat) (l : List Byte) : (fwWrite s k a l).fwHeld = s.fwHeld := field_of State.fwHeld (fwWrite_only s k a l) (fun _ => rfl)
  rw [chunkWrite_eq, setXfer, written]

theorem xferOf_chunkWrite {i : BitVec 32} (h : xferOf s i = some x) :
    xferOf (chunkWrite s k x p) i = some (x.chunked p (hitsOf s (x.base + leAt p 8 8) (p.drop 16).length)) := by
  have xfers : (fwWrite s k (x.base + leAt p 8 8) (p.drop 16)).xfers = s.xfers := field_of State.xfers (fwWrite_only s k _ _) (fun _ => rfl)
  rw [chunkWrite_eq]
  exact xferOf_setXfer (x := x) ((xferOf_congr xfers i).trans h) (xferOf_id h :)

theorem chunkWrite_onlyWrites (hf : (untilFault s (x.base + leAt p 8 8) (p.drop 16).length true).2 = none)
    (hb : bankFault s (fwRecAt k) 32 = false) :
    onlyWrites s (chunkWrite s k x p) [(x.base + leAt p 8 8, p.drop 16), (fwRecAt k, zeros 32)] :=
  onlyWrites_iff.2 fun _ ha => physByte_fwWrite hf hb ha

end ChunkWrite

section DoRead
variable {s : State} {k : Nat} {p : List Byte}

theorem doRead_field {γ : Type} (π : State → γ) (hframe : ∀ t k f, π (sendOn t k f) = π t) (hπ : ∀ t, π (butTransfer t) = π t) :
    π (doRead s k p).1 = π s :=
  (readData_field π hframe _ _ _ _ _ _ _).trans (field_of π (fwRead_only s k _ _) hπ)

theorem doRead_carrier : (doRead s k p).1.ctl.carrier = s.ctl.carrier :=
  doRead_field (fun t => t.ctl.carrier) sendOn_carrier (fun _ => rfl)

theorem doRead_fwHeld : (doRead s k p).1.fwHeld = s.fwHeld :=
  doRead_field State.fwHeld (fun t k f => field_of State.fwHeld (sendOn_only t k f) (fun _ => rfl)) (fun _ => rfl)

theorem doRead_cfg : (doRead s k p).1.cfg = s.cfg :=
  doRead_field State.cfg (fun t k f => field_of State.cfg (sendOn_only t k f) (fun _ => rfl)) (fun _ => rfl)

theorem doRead_phase : (doRead s k p).1.step.phase = s.step.phase :=
  doRead_field (fun t => t.step.phase) (fun t k f => field_of (fun t => t.step.phase) (sendOn_only t k f) (fun _ => rfl)) (fun _ => rfl)

/-- The final reply of a READ: its length, the fenced transactions, the CRC of its bytes. -/
theorem doRead_payload : (doRead s k p).2 = toLE 8 (leAt p 16 5) ++ toLE 4 (stopAt top32 (hitsOf s (leAt p 8 7) (leAt p 16 5))) ++
    toLE 4 (crc32c (fwRead s k (leAt p 8 7) (leAt p 16 5)).1) := rfl

theorem doRead_payload_short : (doRead s k p).2.length ≤ 8156 := by
  rw [doRead_payload]
  simp [toLE_length]

/-- A READ that meets no fault writes its record alone. -/
theorem doRead_onlyWrites (hf : (untilFault s (leAt p 8 7) (leAt p 16 5) false).2 = none) (hb : bankFault s (fwRecAt k) 32 = false) :
    onlyWrites s (doRead s k p).1 [(fwRecAt k, zeros 32)] :=
  onlyWrites_iff.2 fun a ha => (physByte_of_bytes (congrArg Mem.bytes (readData_mem _ _ _ _ _ _ _)) a).trans (physByte_fwRead hf hb ha)

end DoRead

/-- Which writes a state's bytes show depends on its memory and the swap. -/
theorem onlyWrites_congr {s s' t t' : State} {ws : List (Nat × List Byte)} (hm : s'.mem = s.mem) (hc : s'.cfg = s.cfg) (ht : t'.mem = t.mem)
    (h : onlyWrites s t ws) : onlyWrites s' t' ws := by
  rw [onlyWrites_iff] at h ⊢
  intro a ha
  rw [physByte_of_bytes (congrArg Mem.bytes ht), physByte_of_bytes (congrArg Mem.bytes hm)]
  exact h a ((Spares.congr hc).1 ha)

/-! ## The close of a transfer -/

theorem closeReply_complete {s : State} {i : BitVec 32} {x : Xfer} (hx : xferOf s i = some x) (hc : ∀ o ∈ chunkOffsets x.len, o ∈ x.chunks) :
    closeReply s i = ({ s with xfers := s.xfers.filter (fun y => y.id ≠ i) }, stOk,
      toLE 8 x.written ++ toLE 4 x.chunks.length ++ toLE 4 x.dups ++ toLE 4 (stopAt top32 x.hits)) := by
  have all : (chunkOffsets x.len).filter (fun o => !x.chunks.contains o) = [] :=
    List.filter_eq_nil_iff.2 fun o ho => by simp [hc o ho]
  unfold closeReply
  rw [hx]
  dsimp only
  rw [all]
  exact if_neg (by simp)

/-- Whatever it answers, memory and the waiting frames stay. -/
theorem closeReply_keeps (s : State) (i : BitVec 32) : (closeReply s i).1.mem = s.mem ∧ (closeReply s i).1.fwHeld = s.fwHeld := by
  unfold closeReply
  split
  · exact ⟨rfl, rfl⟩
  · dsimp only
    split <;> exact ⟨rfl, rfl⟩

/-! ## The frames that wait -/

theorem readsOf_dropReads (i : BitVec 32) (l : List Instr) : readsOf i (dropReads i l) = [] := by
  induction l using dropReads.induct i with
  | case1 => rfl
  | case2 f r hi ih => rw [dropReads, if_pos hi, ih]
  | case3 f r hi ih => rw [dropReads, if_neg hi, readsOf, if_neg hi, ih]
  | case4 c r hc ih => rw [dropReads.eq_3 i c r hc, readsOf.eq_3 i c _ hc, ih]

theorem dataOf_dropData (i : BitVec 32) (l : List Instr) : dataOf i (dropData i l) = [] := by
  induction l using dropData.induct i with
  | case1 => rfl
  | case2 f r hi ih => rw [dropData, if_pos hi, ih]
  | case3 f r hi ih => rw [dropData, if_neg hi, dataOf, if_neg hi, ih]
  | case4 c r hc ih => rw [dropData.eq_3 i c r hc, dataOf.eq_3 i c _ hc, ih]

/-- Data dropped leaves the reads that wait. -/
theorem readsOf_dropData (i : BitVec 32) (l : List Instr) : readsOf i (dropData i l) = readsOf i l := by
  induction l using dropData.induct i with
  | case1 => rfl
  | case2 f r hi ih => rw [dropData, if_pos hi, ih]; rfl
  | case3 f r hi ih => rw [dropData, if_neg hi]; exact ih
  | case4 c r hc ih =>
    rw [dropData.eq_3 i c r hc]
    by_cases read : ∃ f, c = .read f
    · obtain ⟨f, rfl⟩ := read
      rw [readsOf, readsOf, ih]
    · rw [readsOf.eq_3 i c _ fun f e => read ⟨f, e⟩, readsOf.eq_3 i c _ fun f e => read ⟨f, e⟩, ih]

end Sys2Proof.Machine
end

section
/-! Sp. 13 R382, Table 13-7: the tensor transfers' commands as they are taken, and what waited for a channel. -/

namespace Sys2Proof.Machine

section Accepted
variable {s : State} {f : Frame}

/-! ## WRITE_OPEN -/

/-- A transfer as its payload opens it. -/
def Xfer.opened (p : List Byte) : Xfer :=
  { id := xferId p, base := leAt p 8 7, len := leAt p 16 5, chunks := [], dups := 0, hits := 0, written := 0 }

theorem exec_writeOpen (ha : accepts s f (cmd 0x30) = true) (hl : f.payload.length = 21) (h4 : zeroAt f.payload 4 4 = true)
    (h15 : zeroAt f.payload 15 1 = true) (hn : leAt f.payload 16 5 ≠ 0) (hr : tensorRange (leAt f.payload 8 7) (leAt f.payload 16 5) = true)
    (hx : xferLimit s (xferId f.payload) = false) : exec (.writeOpen f) s =
      .next (replies s f 0x30 [] { afterAccept s f with xfers := (afterAccept s f).xfers ++ [Xfer.opened f.payload] }) := by
  have free : xferLimit (afterAccept s f) (xferId f.payload) = false := (afterAccept_field (xferLimit · _) (fun _ => rfl) s f).trans hx
  refine next_congr (runCommand_replies _ _ ha (by decide) ?_)
  unfold writeOpenBody
  dsimp only
  rw [if_neg (not_not_intro hl), if_neg (by simp [h4, h15, hn]), if_neg (by simp [hr]), if_neg (by simp [free])]
  rfl

/-! ## WRITE_DATA -/

/-- What of the state the use of a credit leaves. -/
theorem creditUse_field {γ : Type} (π : State → γ) (h : ∀ t, π (butFrames t) = π t) : π (creditUse s f.port f.cls) = π s :=
  field_of π (creditUse_only s f.port f.cls) h

section Data
variable {x : Xfer} (ha : acceptsData s f { cmd 0x31 with cls := 2, standby := true } = true) (h3 : xferId f.payload ≠ tier3Id)
  (hx : xferOf s (xferId f.payload) = some x) (hf : chunkFits x f.payload = true)
include ha h3 hx hf

theorem exec_writeData {k : Nat} (hw : s.fwHeld = []) (hk : fwChannel s (dieOf x.base) = some k) :
    exec (.writeData f) s = .next (chunkWrite (creditUse s f.port f.cls) k x f.payload) := by
  have open_ : xferOf (creditUse s f.port f.cls) (xferId f.payload) = some x := (creditUse_field (xferOf · _) (fun _ => rfl)).trans hx
  have free : fwChannel (creditUse s f.port f.cls) (dieOf x.base) = some k := (creditUse_field (fwChannel · _) (fun _ => rfl)).trans hk
  refine next_congr (runData_accepts _ ha ?_)
  unfold writeDataBody
  dsimp only
  rw [if_neg h3, open_]
  dsimp only
  rw [if_neg (by simp [hf]), creditUse_fwHeld, hw, if_pos List.isEmpty_nil, free]

theorem exec_writeData_waits (hw : s.fwHeld ≠ [] ∨ fwChannel s (dieOf x.base) = none) :
    exec (.writeData f) s = .next (holdData (creditUse s f.port f.cls) f (.writeData f)) := by
  have open_ : xferOf (creditUse s f.port f.cls) (xferId f.payload) = some x := (creditUse_field (xferOf · _) (fun _ => rfl)).trans hx
  have same : fwChannel (creditUse s f.port f.cls) (dieOf x.base) = fwChannel s (dieOf x.base) := creditUse_field (fwChannel · _) (fun _ => rfl)
  have taken : (if s.fwHeld.isEmpty then fwChannel s (dieOf x.base) else none) = none := by
    rcases hw with held | busy
    · exact if_neg (by simpa using held)
    · rw [busy, ite_self]
  refine next_congr (runData_accepts _ ha ?_)
  unfold writeDataBody
  dsimp only
  rw [if_neg h3, open_]
  dsimp only
  rw [if_neg (by simp [hf]), creditUse_fwHeld, same, taken]

end Data

/-! ## WRITE_CLOSE -/

theorem exec_writeClose {x : Xfer} (ha : accepts s f (cmd 0x32) = true) (hl : f.payload.length = 4)
    (hd : heldData (xferId f.payload) s.fwHeld = false) (hx : xferOf s (xferId f.payload) = some x) (hc : ∀ o ∈ chunkOffsets x.len, o ∈ x.chunks) :
    exec (.writeClose f) s = .next (replies s f 0x32
      (toLE 8 x.written ++ toLE 4 x.chunks.length ++ toLE 4 x.dups ++ toLE 4 (stopAt top32 x.hits))
      { afterAccept s f with xfers := (afterAccept s f).xfers.filter (fun y => y.id ≠ xferId f.payload) }) := by
  have open_ : xferOf (afterAccept s f) (xferId f.payload) = some x := (afterAccept_field (xferOf · _) (fun _ => rfl) s f).trans hx
  refine next_congr (runCommand_replies _ _ ha (by decide) ?_)
  unfold writeCloseBody
  dsimp only
  rw [if_neg (not_not_intro hl), if_neg (by rw [afterAccept_fwHeld, hd]; exact Bool.false_ne_true), closeReply_complete open_ hc]
  rfl

/-! ## READ -/

theorem exec_read {k : Nat} (ha : accepts s f (cmd 0x33) = true) (hl : f.payload.length = 21) (h2 : byteAt f.payload 4 < 2)
    (h5 : zeroAt f.payload 5 3 = true) (h15 : zeroAt f.payload 15 1 = true) (hn : leAt f.payload 16 5 ≠ 0)
    (hr : tensorRange (leAt f.payload 8 7) (leAt f.payload 16 5) = true) (hx : xferLimit s (xferId f.payload) = false) (hw : s.fwHeld = [])
    (hk : fwChannel s (dieOf (leAt f.payload 8 7)) = some k) : exec (.read f) s =
      .next (replies s f 0x33 (doRead (afterAccept s f) k f.payload).2 (doRead (afterAccept s f) k f.payload).1) := by
  have id_ : xferLimit (afterAccept s f) (xferId f.payload) = false := (afterAccept_field (xferLimit · _) (fun _ => rfl) s f).trans hx
  have free : fwChannel (afterAccept s f) (dieOf (leAt f.payload 8 7)) = some k :=
    (afterAccept_field (fwChannel · _) (fun _ => rfl) s f).trans hk
  refine next_congr (runCommand_replies _ _ ha (by decide) ?_)
  unfold readBody
  dsimp only
  rw [if_neg (not_not_intro hl), if_neg (by simp [h5, h15, hn]; omega), if_neg (by simp [hr]), if_neg (by simp [id_]), afterAccept_fwHeld, hw,
    if_pos List.isEmpty_nil, free]

/-! ## CANCEL -/

/-- State when a transfer has gone with the frames of it that wait. -/
def xferCancelled (s : State) (i : BitVec 32) : State :=
  (readsOf i s.fwHeld).foldl (fun t g => finish t (owedOf g 0x33) stOk (zeros 12 ++ toLE 4 (crc32c [])))
    { (dataOf i s.fwHeld).foldl freeCredit s with
      xfers := s.xfers.filter (fun y => y.id ≠ i), fwHeld := dropData i (dropReads i s.fwHeld) }

theorem exec_cancel {x : Xfer} (ha : accepts s f (cmd 0x35) = true) (hl : f.payload.length = 4)
    (hx : xferOf s (xferId f.payload) = some x) :
    exec (.cancel f) s = .next (replies s f 0x35 [] (xferCancelled (afterAccept s f) (xferId f.payload))) := by
  have open_ : xferOf (afterAccept s f) (xferId f.payload) = some x := (afterAccept_field (xferOf · _) (fun _ => rfl) s f).trans hx
  refine next_congr (runCommand_replies _ _ ha (by decide) ?_)
  unfold cancelBody
  dsimp only
  rw [if_neg (not_not_intro hl), if_neg (by simp [open_])]
  rfl

end Accepted

section Cancelled
variable (s : State) (i : BitVec 32)

/-- The ends of the waiting reads touch the ports and the session alone. -/
theorem xferCancelled_field {γ : Type} (π : State → γ) (h : ∀ t, π (butFrames t) = π t) : π (xferCancelled s i) =
    π { (dataOf i s.fwHeld).foldl freeCredit s with
        xfers := s.xfers.filter (fun y => y.id ≠ i), fwHeld := dropData i (dropReads i s.fwHeld) } :=
  foldl_field π _ (fun _ _ => field_of π (finish_only _ _ _ _) h) _ _

theorem xferCancelled_xfers : (xferCancelled s i).xfers = s.xfers.filter (fun y => y.id ≠ i) := xferCancelled_field s i State.xfers fun _ => rfl

theorem xferCancelled_fwHeld : (xferCancelled s i).fwHeld = dropData i (dropReads i s.fwHeld) := xferCancelled_field s i State.fwHeld fun _ => rfl

theorem xferCancelled_mem : (xferCancelled s i).mem = s.mem :=
  (xferCancelled_field s i State.mem fun _ => rfl).trans (foldl_field State.mem freeCredit freeCredit_mem _ s)

end Cancelled

/-! ## What waited for a channel -/

section Waiting
variable {s : State}

theorem dataDone_transfer (before : List Instr) (s : State) {c : Instr} (h : ofTransfer c = true) : dataDone before s c = none := by
  unfold dataDone
  split
  · exact absurd h Bool.false_ne_true
  · exact absurd h Bool.false_ne_true
  · exact if_pos (.inr (ofTransfer_id h))
  · rfl

/-- Frames of tensor transfers need a channel: none goes without. -/
theorem dataTurns_transfers (s : State) (before l : List Instr) (h : l.all ofTransfer = true) :
    dataTurns before s l = { s with fwHeld := before ++ l } := by
  induction l generalizing before with
  | nil => rw [dataTurns, List.append_nil]
  | cons c r ih =>
    rw [List.all_cons, Bool.and_eq_true] at h
    rw [dataTurns, dataDone_transfer before s h.1]
    dsimp only
    rw [ih _ h.2, List.append_assoc, List.singleton_append]

theorem exec_firmwareTransferStart (h : s.fwHeld.all ofTransfer = true) (ht : (takeOldest s).fwHeld.all ofTransfer = true) :
    exec .firmwareTransferStart s = .next (takeOldest s) := by
  have turns (t : State) (h : t.fwHeld.all ofTransfer = true) : dataTurns [] t t.fwHeld = t := dataTurns_transfers t [] t.fwHeld h
  change execFirmwareTransferStart s = _
  unfold execFirmwareTransferStart
  rw [turns s h]
  exact next_congr (turns _ ht)

theorem takeOldest_takes {c : Instr} {r : List Instr} {k : Nat} (hw : s.fwHeld = c :: r) (hp : portless s c = false)
    (hk : fwChannel s (heldHome s c) = some k) : takeOldest s = takeHeld { s with fwHeld := r } k c := by
  unfold takeOldest
  rw [hw]
  dsimp only
  rw [hp, if_neg Bool.false_ne_true, hk]

/-- The oldest waiting transfer starts; what waits behind it goes on waiting. -/
theorem firmwareTransferStart_takes {c : Instr} {r : List Instr} {k : Nat} (hw : s.fwHeld = c :: r) (hc : ofTransfer c = true)
    (hr : r.all ofTransfer = true) (hp : portless s c = false) (hk : fwChannel s (heldHome s c) = some k)
    (ht : (takeHeld { s with fwHeld := r } k c).fwHeld = r) :
    exec .firmwareTransferStart s = .next (takeHeld { s with fwHeld := r } k c) := by
  have takes := takeOldest_takes hw hp hk
  have start : exec .firmwareTransferStart s = .next (takeOldest s) :=
    exec_firmwareTransferStart (by rw [hw, List.all_cons, hc, hr]; rfl) (by rw [takes, ht, hr])
  rw [start, takes]

theorem takeHeld_read_fwHeld (s : State) (k : Nat) (g : Frame) : (takeHeld s k (.read g)).fwHeld = s.fwHeld :=
  (finish_fwHeld _ _ _ _).trans doRead_fwHeld

theorem takeHeld_close_keeps (s : State) (k : Nat) (g : Frame) :
    (takeHeld s k (.writeClose g)).fwHeld = s.fwHeld ∧ (takeHeld s k (.writeClose g)).mem = s.mem := by
  obtain ⟨mem, held⟩ := closeReply_keeps s (xferId g.payload)
  exact ⟨(finish_fwHeld _ _ _ _).trans held, (finish_mem _ _ _ _).trans mem⟩

/-- What of the state a buffer freed leaves. -/
theorem freeCredit_field {γ : Type} (π : State → γ) (h : ∀ t, π (butFrames t) = π t) (s : State) (f : Frame) : π (freeCredit s f) = π s :=
  field_of π (setKcp_only _ _ _) h

theorem takeHeld_data {k : Nat} {g : Frame} {x : Xfer} (hx : xferOf s (xferId g.payload) = some x) (hf : chunkFits x g.payload = true) :
    takeHeld s k (.writeData g) = chunkWrite (freeCredit s g) k x g.payload := by
  have open_ : xferOf (freeCredit s g) (xferId g.payload) = some x := (freeCredit_field (xferOf · _) (fun _ => rfl) s g).trans hx
  unfold takeHeld
  dsimp only
  rw [open_]
  exact if_pos hf

/-- A chunk behind which nothing of its port waits is taken without a channel. -/
theorem firmwareTransferStart_sheet {g : Frame} (h : s.fwHeld = [.sheetData g]) :
    exec .firmwareTransferStart s = .next { takeChunk s g 0x21 (sheetDataBody g) with fwHeld := [] } := by
  change execFirmwareTransferStart s = _
  unfold execFirmwareTransferStart
  rw [h]
  rfl

theorem firmwareTransferStart_none (h : s.fwHeld = []) : exec .firmwareTransferStart s = .next s := by
  have idle : takeOldest s = s := by
    unfold takeOldest
    rw [h]
  rw [exec_firmwareTransferStart (by rw [h]; rfl) (by rw [idle, h]; rfl), idle]

end Waiting

/-- Settles O41: each command is one `exec_` equation above; a transfer writes its chunk and its record by `physByte_fwWrite` and
`physByte_fwRead`, and a waiting one starts as `takeHeld` does. -/
theorem tensorTransfersMoveTheirBytes : Obligations.TensorTransfersMoveTheirBytes := by
  rintro f s i rfl
  refine ⟨exec_writeOpen, fun x ha h3 hx hf => ⟨fun k hw hk => ?data, fun hw => ?wait⟩, fun x ha hl hd hx hc => ?close,
    fun k ha hl h2 h5 h15 hn hr hx hw hk => ?read, fun x ha hl hx => ?cancel, fun g r k hw hr hk => ?heldRead, fun g r k hw hr hk => ?heldClose,
    fun g r x k hw hall hx hf hk => ?heldData, fun g h => firmwareTransferStart_sheet h, firmwareTransferStart_none⟩
  case data =>
    have cfg : (creditUse s f.port f.cls).cfg = s.cfg := creditUse_field State.cfg fun _ => rfl
    have faults (a n : Nat) : untilFault (creditUse s f.port f.cls) a n true = untilFault s a n true :=
      creditUse_field (untilFault · a n true) fun _ => rfl
    have banks (a n : Nat) : bankFault (creditUse s f.port f.cls) a n = bankFault s a n := creditUse_field (bankFault · a n) fun _ => rfl
    refine ⟨_, _, exec_writeData ha h3 hx hf hw hk, chunkWrite_mem, fun hu hb => ?_,
      xferOf_chunkWrite ((creditUse_field (xferOf · _) fun _ => rfl).trans hx), chunked_chunks _ _ _, rfl, rfl, chunked_new _ _ _, chunked_again _ _ _⟩
    exact onlyWrites_congr (creditUse_mem _ _ _).symm cfg.symm rfl (chunkWrite_onlyWrites (by rw [faults, hu]) (by rw [banks, hb]))
  case wait =>
    refine ⟨_, exec_writeData_waits ha h3 hx hf hw, ?_, ?_, ?_⟩
    · rw [holdData_fwHeld, creditUse_fwHeld]
    · rw [holdData_mem, creditUse_mem]
    · exact (field_of State.xfers (holdData_only _ _ _) fun _ => rfl).trans (creditUse_xfers _ _ _)
  case close =>
    refine ⟨_, exec_writeClose ha hl hd hx hc, ?_, ?_, fun k hk => ?_⟩
    · exact xferOf_closed ((finish_xfers _ _ _ _).trans (congrArg (List.filter _) (afterAccept_xfers s f)))
    · exact (finish_mem _ _ _ _).trans (afterAccept_mem s f)
    · obtain ⟨y, sent, -, -, -, -, -, status, -, -, payload⟩ := finish_sent (owedBy s f 0x32) stOk
        (p := toLE 8 x.written ++ toLE 4 x.chunks.length ++ toLE 4 x.dups ++ toLE 4 (stopAt top32 x.hits))
        (by simp [toLE_length]) (s := { afterAccept s f with xfers := (afterAccept s f).xfers.filter (fun y => y.id ≠ xferId f.payload) })
        ((afterAccept_carrier s f).trans hk)
      exact ⟨y, sent.trans (congrArg (· ++ [y]) (afterAccept_sent s f)), status, payload⟩
  case read =>
    have faults (a n : Nat) : untilFault (afterAccept s f) a n false = untilFault s a n false :=
      afterAccept_field (untilFault · a n false) (fun _ => rfl) s f
    have banks (a n : Nat) : bankFault (afterAccept s f) a n = bankFault s a n := afterAccept_field (bankFault · a n) (fun _ => rfl) s f
    have hits (a n : Nat) : hitsOf (afterAccept s f) a n = hitsOf s a n := afterAccept_field (hitsOf · a n) (fun _ => rfl) s f
    refine ⟨_, exec_read ha hl h2 h5 h15 hn hr hx hw hk, ?_, ?_, fun hu hb => ?_, fun c hc => ?_⟩
    · exact (congrArg StepSt.phase (finish_step _ _ _ _)).trans (doRead_phase.trans (congrArg StepSt.phase (afterAccept_step s f)))
    · exact (finish_cfg _ _ _ _).trans (doRead_cfg.trans (afterAccept_cfg s f))
    · exact onlyWrites_congr (afterAccept_mem s f).symm (afterAccept_cfg s f).symm (finish_mem _ _ _ _)
        (doRead_onlyWrites (by rw [faults, hu]) (by rw [banks, hb]))
    · have carried : (doRead (afterAccept s f) k f.payload).1.ctl.carrier = some c := doRead_carrier.trans ((afterAccept_carrier s f).trans hc)
      obtain ⟨y, sent, -, opcode, -, -, -, status, refSeq, -, payload⟩ :=
        finish_sent (owedBy s f 0x33) stOk doRead_payload_short carried
      refine ⟨y, (congrArg List.getLast? sent).trans List.getLast?_concat, opcode, status, refSeq, payload.trans ?_⟩
      rw [doRead_payload, hits]
  case cancel =>
    refine ⟨_, exec_cancel ha hl hx, ?_, ?_, ?_, ?_⟩
    · exact xferOf_closed ((finish_xfers _ _ _ _).trans ((xferCancelled_xfers _ _).trans (congrArg (List.filter _) (afterAccept_xfers s f))))
    · exact (finish_mem _ _ _ _).trans ((xferCancelled_mem _ _).trans (afterAccept_mem s f))
    · rw [replies, finish_fwHeld, xferCancelled_fwHeld, readsOf_dropData, readsOf_dropReads]
    · rw [replies, finish_fwHeld, xferCancelled_fwHeld, dataOf_dropData]
  case heldRead =>
    have held := takeHeld_read_fwHeld { s with fwHeld := r } k g
    refine ⟨_, firmwareTransferStart_takes hw rfl hr rfl hk held, held, fun hu hb => ?_⟩
    exact onlyWrites_congr rfl rfl (finish_mem _ _ _ _) (doRead_onlyWrites (s := { s with fwHeld := r }) hu hb)
  case heldClose =>
    obtain ⟨held, mem⟩ := takeHeld_close_keeps { s with fwHeld := r } k g
    exact ⟨_, firmwareTransferStart_takes hw rfl hr rfl hk held, held, mem⟩
  case heldData =>
    rw [hw, List.all_cons, Bool.and_eq_true] at hall
    have takes := takeHeld_data (s := { s with fwHeld := r }) (k := k) hx hf
    have held : (takeHeld { s with fwHeld := r } k (.writeData g)).fwHeld = r := by
      rw [takes, chunkWrite_fwHeld]
      exact freeCredit_field State.fwHeld (fun _ => rfl) _ g
    have home : heldHome s (.writeData g) = dieOf x.base := by
      unfold heldHome
      dsimp only
      rw [hx]
    refine ⟨_, firmwareTransferStart_takes hw hall.1 hall.2 rfl (by rw [home, hk]) held, held, fun hu hb => ?_⟩
    have cfg : (freeCredit { s with fwHeld := r } g).cfg = s.cfg := freeCredit_field State.cfg (fun _ => rfl) _ g
    have faults (a n : Nat) : untilFault (freeCredit { s with fwHeld := r } g) a n true = untilFault s a n true :=
      freeCredit_field (untilFault · a n true) (fun _ => rfl) _ g
    have banks (a n : Nat) : bankFault (freeCredit { s with fwHeld := r } g) a n = bankFault s a n :=
      freeCredit_field (bankFault · a n) (fun _ => rfl) _ g
    rw [takes]
    exact onlyWrites_congr (freeCredit_mem { s with fwHeld := r } g).symm cfg.symm rfl (chunkWrite_onlyWrites (by rw [faults, hu]) (by rw [banks, hb]))

end Sys2Proof.Machine
end
